-- ==== Sys2Proof/Word.lean ====
section
/-! DEFINITION. The word types of the Cloxel 9 and their plainest arithmetic (R4, R5). -/

namespace Sys2Proof

/-- A dword: 64 bits (R4). -/
abbrev Word := BitVec 64
/-- A word: 32 bits (R4). -/
abbrev W32 := BitVec 32
/-- One byte of memory. -/
abbrev Byte := BitVec 8
/-- A 512-bit vector value: the 64-byte image of R92. -/
abbrev Vec := BitVec 512

end Sys2Proof
end

