-- ==== Sys2Proof/Syntax.lean ====
section
/-! DEFINITION. The instructions: one constructor per row of the opcode table. 213 rows are transports and control
words (R32); the other 109 are the events of the device and its host, which have no bits. -/

namespace Sys2Proof

/-- A core: physical tile index (R16) and core number 0-6 (R17). -/
structure CoreKey where
  tile : Nat
  core : Nat
  deriving DecidableEq, Repr

/-- A thread slot: physical tile, core, slot (R17). -/
structure SlotKey where
  tile : Nat
  core : Nat
  slot : Nat
  deriving DecidableEq, Repr

/-- The core a slot belongs to. -/
def SlotKey.coreKey (k : SlotKey) : CoreKey := ⟨k.tile, k.core⟩

/-- A guard field (R32, R34): bit 29 inverts, bits 28-26 select k0-k7. -/
structure Guard where
  inv : Bool
  k : BitVec 3
  deriving DecidableEq, Repr

/-- The unguarded form: k0, always true. -/
def Guard.always : Guard := ⟨false, 0⟩

/-- The unit latches in the order of the scalar port image (R347): operand ports, result ports, and the three
arithmetic special ports. -/
inductive Latch where
  | ao | ar | mo | mr | fo | fo2 | fr | lo | lo2 | lo3 | lr | lr2 | so | so2 | sr | xo | xo2 | xr
  | yo | yo2 | yo3 | yo4 | yr | pa0 | pa1 | pb0 | pb1 | pc | pr | dO | dO2 | dr | ho | ho2 | hr | zo | zr
  | xrnd | xflags | xten
  deriving DecidableEq, Repr

/-- The special ports (R53). -/
inductive Special where
  | xrnd | xflags | xten | preq | rfq | mvec | mcause | maddr | mtpc | mctx | mfill
  deriving DecidableEq, Repr

/-- The units that hold windows, in the order of the pending records (R349). -/
inductive Win where
  | m | f | l | v | x | y | h | d
  deriving DecidableEq, Repr

/-- The scalar triggers (R50). -/
inductive Trig where
  | add | sub | addw | subw | and | or | xor | andn | shl | shr | sra | shlw | shrw | sraw | rotl | min | max
  | minu | maxu | mov | sext | zext | bfx | clz | ctz | popc | ceq | cne | clt | cltu | cle | cleu | shl16or
  | mul | mulw | mulh | mulhu | div | divu | rem | remu | fadd | fsub | fmul | fma | fmin | fmax | fneg
  | fceq | fclt | fcle | fsqrt | fdiv | fcvtI | fcvtF | fcvtBf | fcvtE4 | fcvtE5 | fexpBf | fexpE4 | fexpE5
  | fclass | ld8 | ld8u | ld16 | ld16u | ld32 | ld32u | ld64 | ld128 | st8 | st16 | st32 | st64 | st128
  | amoAddW | amoAddD | amoAndW | amoAndD | amoOrW | amoOrD | amoXorW | amoXorD | amoMinW | amoMinD | amoMaxW
  | amoMaxD | amoMinuW | amoMinuD | amoMaxuW | amoMaxuD | amoSwapW | amoSwapD | amoCasW | amoCasD | amoCasQ
  | amoFadd | waddrW | waddrD | waddrGeW | waddrGeD | fence | ddisc | dclean | dinval | sigAdd | sigWait | jr
  | jrl | spawn | spawna | done | yield | park | join | gbar | garrive | pyield | sleep | xgo | xstop | xwait
  | ycopy | ycopyAdd | ymcast | yring | yawait | yrel | ypush | ydesc | pctx | pscaleA | pscaleB | pld | pmma
  | pmmas | pdrain | pclr | pflags | pjoin | dpatch | dsety | dsetr | dgety | dgetr | dclk | drun | dhalt
  | dsave | drest | dstat | hinit | hoffer | hdrain | hroute | trap | tret | tfence | idle
  deriving DecidableEq, Repr

/-- The vector triggers (R54). -/
inductive VTrig where
  | vaddF | vsubF | vmulF | vfmaF | vmaxF | vminF | vexp2F | vrcpF | vrsqF | vcvtBf | vcvtE4 | vcvtE5
  | vunpBf | vunpE4 | vunpE5 | vaddI | vsubI | vmulI | vand | vor | vxor | vshl | vshr | vsra | vceqF | vcltF
  | vsel | vbc | vrot | vperm | vsumF | vmaxR | vld | vst
  deriving DecidableEq, Repr

/-- A scalar source port (R51). `res` names a result port. -/
inductive SPort where
  | g (r : BitVec 5) | k (n : BitVec 3) | deq (n : BitVec 3) | peek (n : BitVec 3)
  | tlev | cyc | tid | special (p : Special) | res (l : Latch)
  deriving DecidableEq, Repr

/-- A class 00 source: a signed 10-bit immediate or a scalar source port (R32). -/
inductive Src where
  | imm (i : BitVec 10) | port (p : SPort)
  deriving DecidableEq, Repr

/-- A scalar destination (R49, R50). `opnd` names an operand port. -/
inductive SDst where
  | g (r : BitVec 5) | k (n : BitVec 3) | enq (n : BitVec 3) | tok (n : BitVec 3)
  | special (p : Special) | opnd (l : Latch) | trig (t : Trig)
  deriving DecidableEq, Repr

/-- A vector source port (R54). -/
inductive VPort where
  | v (r : BitVec 4) | vr
  deriving DecidableEq, Repr

/-- A class 01 source: a vector port, or a scalar port broadcast to the lanes (R33). -/
inductive VSource where
  | vec (p : VPort) | bc (p : SPort)
  deriving DecidableEq, Repr

/-- A vector destination that triggers nothing (R54). -/
inductive VDst where
  | v (r : BitVec 4) | vo | vo2
  deriving DecidableEq, Repr

/-- The two shapes of a class 01 transport without a vector trigger (R33). -/
inductive VMove where
  | toVec (d : VDst) (s : VSource)
  | toScalar (l : BitVec 4) (d : SDst) (s : VPort)
  deriving DecidableEq, Repr

/-- A peer's request against an export entry (R320): what the packet carries. -/
structure RemoteReq where
  dev : Nat
  exp : Nat
  cookie : BitVec 32
  off : Nat
  /-- 0 load, 1 store (of the event's `bytes`), 2 atomic (`amo` says which, with its operands), 3 offer: `off` its tile,
  `data` its pair, `data2` the h.o2 it was sent with -/
  op : Nat
  /-- how many bytes a load asks for -/
  bytes : Nat
  amo : Trig
  data : Word
  data2 : Word
  deriving DecidableEq, Repr

/-- A mailbox request (R329): header fields and the seven body dwords. -/
structure Request where
  tag : BitVec 32
  ctx : BitVec 16
  rsv : BitVec 8
  body : Vector Word 7
  deriving DecidableEq, Repr

/-- A packet on a link (R371): source device, class, lane, sequence number, whether it is an urgent request. -/
structure LinkPacket where
  src : Nat
  cls : Nat
  lane : Nat
  seq : Nat
  urgentRequest : Bool
  deriving DecidableEq, Repr

/-- What an event is about. An event has no encoding, so its constructor has no operands: they stand here, in the
state's field `ev`. Each event uses the fields its docstring names. -/
structure EvArg where
  /-- the thread slot concerned -/
  key : SlotKey := ⟨0, 0, 0⟩
  /-- the unit whose window concerns it -/
  win : Win := .m
  /-- a number (queue, port, channel, context, index), a second and a third -/
  n : Nat := 0
  m : Nat := 0
  p : Nat := 0
  /-- a dword -/
  w : Word := 0
  /-- bytes carried -/
  bytes : List Byte := []
  /-- true: the access is a write -/
  wr : Bool := false
  req : Request := ⟨0, 0, 0, Vector.replicate 7 0⟩
  remote : RemoteReq := ⟨0, 0, 0, 0, 0, 0, .amoAddW, 0, 0⟩
  packet : LinkPacket := ⟨0, 0, 0, 0, false⟩
  /-- which loads and stores, waits, reference fetches and copies a retrain meets, as masks (log entry 3) -/
  loads : Nat := 0
  waits : Nat := 0
  fetches : Nat := 0
  pieces : Nat := 0
  /-- which sum of its set a contribution is for -/
  sum : Nat := 0
  deriving DecidableEq, Repr

/-- The instructions: one constructor per row of the opcode table, in the table's order but for
`encodingNotAnInstruction`, which stands with the words; an event's operands are in `EvArg`. -/
inductive Instr where
  /-- MOVE (R32). -/
  | move (g : Guard) (d : SDst) (s : Src)
  /-- VECTOR_TRANSPORT (R33). -/
  | vectorTransport (g : Guard) (m : VMove)
  /-- ENQUEUE (R49). -/
  | enqueue (g : Guard) (n : BitVec 3) (s : Src)
  /-- TOKEN_ENQUEUE (R49). -/
  | tokenEnqueue (g : Guard) (n : BitVec 3) (s : Src)
  /-- DEQUEUE (R12). -/
  | dequeue (g : Guard) (d : SDst) (n : BitVec 3)
  /-- PEEK (R250). -/
  | peek (g : Guard) (d : SDst) (n : BitVec 3)
  /-- GUARD_WRITE (R35). -/
  | guardWrite (g : Guard) (k : BitVec 3) (s : Src)
  /-- XRND_WRITE (R69). -/
  | xrndWrite (g : Guard) (s : Src)
  /-- XFLAGS_WRITE (R71). -/
  | xflagsWrite (g : Guard) (s : Src)
  /-- XTEN_WRITE (R71). -/
  | xtenWrite (g : Guard) (s : Src)
  /-- PREQ_WRITE (R53). -/
  | preqWrite (g : Guard) (s : Src)
  /-- RFQ_WRITE (R348). -/
  | rfqWrite (g : Guard) (s : Src)
  /-- MVEC_WRITE (R357). -/
  | mvecWrite (g : Guard) (s : Src)
  /-- MFILL_WRITE (R343). -/
  | mfillWrite (g : Guard) (s : Src)
  /-- LI (R44). -/
  | li (g : Guard) (d : SDst) (i : BitVec 16)
  /-- LI_SHIFT_INSERT (R44). -/
  | liShiftInsert (g : Guard) (d : SDst) (i : BitVec 16)
  /-- BR (R45). -/
  | br (g : Guard) (off : BitVec 22)
  /-- BRL (R45). -/
  | brl (g : Guard) (off : BitVec 22)
  /-- REP (R47). -/
  | rep (g : Guard) (cm1 : BitVec 6) (stride : BitVec 4) (bm1 : BitVec 3) (la : BitVec 4)
  /-- NOP (R46). -/
  | nop (g : Guard)
  /-- ADD (R80). -/
  | add (g : Guard) (s : Src)
  /-- SUB (R80). -/
  | sub (g : Guard) (s : Src)
  /-- ADDW (R80). -/
  | addw (g : Guard) (s : Src)
  /-- SUBW (R80). -/
  | subw (g : Guard) (s : Src)
  /-- AND (R80). -/
  | and (g : Guard) (s : Src)
  /-- OR (R80). -/
  | or (g : Guard) (s : Src)
  /-- XOR (R80). -/
  | xor (g : Guard) (s : Src)
  /-- ANDN (R80). -/
  | andn (g : Guard) (s : Src)
  /-- SHL (R80). -/
  | shl (g : Guard) (s : Src)
  /-- SHR (R80). -/
  | shr (g : Guard) (s : Src)
  /-- SRA (R80). -/
  | sra (g : Guard) (s : Src)
  /-- SHLW (R80). -/
  | shlw (g : Guard) (s : Src)
  /-- SHRW (R80). -/
  | shrw (g : Guard) (s : Src)
  /-- SRAW (R80). -/
  | sraw (g : Guard) (s : Src)
  /-- ROTL (R80). -/
  | rotl (g : Guard) (s : Src)
  /-- MIN (R80). -/
  | min (g : Guard) (s : Src)
  /-- MAX (R80). -/
  | max (g : Guard) (s : Src)
  /-- MINU (R80). -/
  | minu (g : Guard) (s : Src)
  /-- MAXU (R80). -/
  | maxu (g : Guard) (s : Src)
  /-- MOV (R80). -/
  | mov (g : Guard) (s : Src)
  /-- SEXT (R80). -/
  | sext (g : Guard) (s : Src)
  /-- ZEXT (R80). -/
  | zext (g : Guard) (s : Src)
  /-- BFX (R81). -/
  | bfx (g : Guard) (s : Src)
  /-- CLZ (R80). -/
  | clz (g : Guard) (s : Src)
  /-- CTZ (R80). -/
  | ctz (g : Guard) (s : Src)
  /-- POPC (R80). -/
  | popc (g : Guard) (s : Src)
  /-- CEQ (R80). -/
  | ceq (g : Guard) (s : Src)
  /-- CNE (R80). -/
  | cne (g : Guard) (s : Src)
  /-- CLT (R80). -/
  | clt (g : Guard) (s : Src)
  /-- CLTU (R80). -/
  | cltu (g : Guard) (s : Src)
  /-- CLE (R80). -/
  | cle (g : Guard) (s : Src)
  /-- CLEU (R80). -/
  | cleu (g : Guard) (s : Src)
  /-- SHL16OR (R80). -/
  | shl16or (g : Guard) (s : Src)
  /-- MUL (R82). -/
  | mul (g : Guard) (s : Src)
  /-- MULW (R82). -/
  | mulw (g : Guard) (s : Src)
  /-- MULH (R82). -/
  | mulh (g : Guard) (s : Src)
  /-- MULHU (R82). -/
  | mulhu (g : Guard) (s : Src)
  /-- DIV (R83). -/
  | div (g : Guard) (l : BitVec 4) (s : Src)
  /-- DIVU (R83). -/
  | divu (g : Guard) (l : BitVec 4) (s : Src)
  /-- REM (R83). -/
  | rem (g : Guard) (l : BitVec 4) (s : Src)
  /-- REMU (R83). -/
  | remu (g : Guard) (l : BitVec 4) (s : Src)
  /-- FADD (R85). -/
  | fadd (g : Guard) (s : Src)
  /-- FSUB (R85). -/
  | fsub (g : Guard) (s : Src)
  /-- FMUL (R85). -/
  | fmul (g : Guard) (s : Src)
  /-- FMA (R85). -/
  | fma (g : Guard) (s : Src)
  /-- FMIN (R86). -/
  | fmin (g : Guard) (s : Src)
  /-- FMAX (R86). -/
  | fmax (g : Guard) (s : Src)
  /-- FNEG (R87). -/
  | fneg (g : Guard) (s : Src)
  /-- FCEQ (R88). -/
  | fceq (g : Guard) (s : Src)
  /-- FCLT (R88). -/
  | fclt (g : Guard) (s : Src)
  /-- FCLE (R88). -/
  | fcle (g : Guard) (s : Src)
  /-- FSQRT (R85). -/
  | fsqrt (g : Guard) (l : BitVec 4) (s : Src)
  /-- FDIV (R85). -/
  | fdiv (g : Guard) (l : BitVec 4) (s : Src)
  /-- FCVT_I (R89). -/
  | fcvtI (g : Guard) (s : Src)
  /-- FCVT_F (R89). -/
  | fcvtF (g : Guard) (s : Src)
  /-- FCVT_BF (R90). -/
  | fcvtBf (g : Guard) (s : Src)
  /-- FCVT_E4 (R90). -/
  | fcvtE4 (g : Guard) (s : Src)
  /-- FCVT_E5 (R90). -/
  | fcvtE5 (g : Guard) (s : Src)
  /-- FEXP_BF (R90). -/
  | fexpBf (g : Guard) (s : Src)
  /-- FEXP_E4 (R90). -/
  | fexpE4 (g : Guard) (s : Src)
  /-- FEXP_E5 (R90). -/
  | fexpE5 (g : Guard) (s : Src)
  /-- FCLASS (R91). -/
  | fclass (g : Guard) (s : Src)
  /-- LD8 (R194). -/
  | ld8 (g : Guard) (l : BitVec 4) (s : Src)
  /-- LD8U (R194). -/
  | ld8u (g : Guard) (l : BitVec 4) (s : Src)
  /-- LD16 (R194). -/
  | ld16 (g : Guard) (l : BitVec 4) (s : Src)
  /-- LD16U (R194). -/
  | ld16u (g : Guard) (l : BitVec 4) (s : Src)
  /-- LD32 (R194). -/
  | ld32 (g : Guard) (l : BitVec 4) (s : Src)
  /-- LD32U (R194). -/
  | ld32u (g : Guard) (l : BitVec 4) (s : Src)
  /-- LD64 (R194). -/
  | ld64 (g : Guard) (l : BitVec 4) (s : Src)
  /-- LD128 (R194). -/
  | ld128 (g : Guard) (l : BitVec 4) (s : Src)
  /-- ST8 (R194). -/
  | st8 (g : Guard) (l : BitVec 4) (s : Src)
  /-- ST16 (R194). -/
  | st16 (g : Guard) (l : BitVec 4) (s : Src)
  /-- ST32 (R194). -/
  | st32 (g : Guard) (l : BitVec 4) (s : Src)
  /-- ST64 (R194). -/
  | st64 (g : Guard) (l : BitVec 4) (s : Src)
  /-- ST128 (R194). -/
  | st128 (g : Guard) (l : BitVec 4) (s : Src)
  /-- AMO_ADD_W (R196). -/
  | amoAddW (g : Guard) (l : BitVec 4) (s : Src)
  /-- AMO_ADD_D (R196). -/
  | amoAddD (g : Guard) (l : BitVec 4) (s : Src)
  /-- AMO_AND_W (R196). -/
  | amoAndW (g : Guard) (l : BitVec 4) (s : Src)
  /-- AMO_AND_D (R196). -/
  | amoAndD (g : Guard) (l : BitVec 4) (s : Src)
  /-- AMO_OR_W (R196). -/
  | amoOrW (g : Guard) (l : BitVec 4) (s : Src)
  /-- AMO_OR_D (R196). -/
  | amoOrD (g : Guard) (l : BitVec 4) (s : Src)
  /-- AMO_XOR_W (R196). -/
  | amoXorW (g : Guard) (l : BitVec 4) (s : Src)
  /-- AMO_XOR_D (R196). -/
  | amoXorD (g : Guard) (l : BitVec 4) (s : Src)
  /-- AMO_MIN_W (R196). -/
  | amoMinW (g : Guard) (l : BitVec 4) (s : Src)
  /-- AMO_MIN_D (R196). -/
  | amoMinD (g : Guard) (l : BitVec 4) (s : Src)
  /-- AMO_MAX_W (R196). -/
  | amoMaxW (g : Guard) (l : BitVec 4) (s : Src)
  /-- AMO_MAX_D (R196). -/
  | amoMaxD (g : Guard) (l : BitVec 4) (s : Src)
  /-- AMO_MINU_W (R196). -/
  | amoMinuW (g : Guard) (l : BitVec 4) (s : Src)
  /-- AMO_MINU_D (R196). -/
  | amoMinuD (g : Guard) (l : BitVec 4) (s : Src)
  /-- AMO_MAXU_W (R196). -/
  | amoMaxuW (g : Guard) (l : BitVec 4) (s : Src)
  /-- AMO_MAXU_D (R196). -/
  | amoMaxuD (g : Guard) (l : BitVec 4) (s : Src)
  /-- AMO_SWAP_W (R196). -/
  | amoSwapW (g : Guard) (l : BitVec 4) (s : Src)
  /-- AMO_SWAP_D (R196). -/
  | amoSwapD (g : Guard) (l : BitVec 4) (s : Src)
  /-- AMO_CAS_W (R196). -/
  | amoCasW (g : Guard) (l : BitVec 4) (s : Src)
  /-- AMO_CAS_D (R196). -/
  | amoCasD (g : Guard) (l : BitVec 4) (s : Src)
  /-- AMO_CAS_Q (R197). -/
  | amoCasQ (g : Guard) (l : BitVec 4) (s : Src)
  /-- AMO_FADD (R198). -/
  | amoFadd (g : Guard) (l : BitVec 4) (s : Src)
  /-- WADDR_W (R199). -/
  | waddrW (g : Guard) (s : Src)
  /-- WADDR_D (R199). -/
  | waddrD (g : Guard) (s : Src)
  /-- WADDR_GE_W (R199). -/
  | waddrGeW (g : Guard) (s : Src)
  /-- WADDR_GE_D (R199). -/
  | waddrGeD (g : Guard) (s : Src)
  /-- FENCE (R172). -/
  | fence (g : Guard) (s : Src)
  /-- DDISC (R203). -/
  | ddisc (g : Guard) (l : BitVec 4) (s : Src)
  /-- DCLEAN (R203). -/
  | dclean (g : Guard) (l : BitVec 4) (s : Src)
  /-- DINVAL (R203). -/
  | dinval (g : Guard) (l : BitVec 4) (s : Src)
  /-- SIG_ADD (R206). -/
  | sigAdd (g : Guard) (l : BitVec 4) (s : Src)
  /-- SIG_WAIT (R207). -/
  | sigWait (g : Guard) (s : Src)
  /-- JR (R48). -/
  | jr (g : Guard) (s : Src)
  /-- JRL (R48). -/
  | jrl (g : Guard) (s : Src)
  /-- SPAWN (R258). -/
  | spawn (g : Guard) (s : Src)
  /-- SPAWNA (R258). -/
  | spawna (g : Guard) (s : Src)
  /-- DONE (R259). -/
  | done (g : Guard) (s : Src)
  /-- YIELD (R260). -/
  | yield (g : Guard) (s : Src)
  /-- PARK (R261). -/
  | park (g : Guard) (s : Src)
  /-- JOIN (R14). -/
  | join (g : Guard) (s : Src)
  /-- GBAR (R262). -/
  | gbar (g : Guard) (s : Src)
  /-- GARRIVE (R262). -/
  | garrive (g : Guard) (s : Src)
  /-- PYIELD (R263). -/
  | pyield (g : Guard) (s : Src)
  /-- SLEEP (R263). -/
  | sleep (g : Guard) (s : Src)
  /-- XGO (R265). -/
  | xgo (g : Guard) (l : BitVec 4) (s : Src)
  /-- XSTOP (R266). -/
  | xstop (g : Guard) (l : BitVec 4) (s : Src)
  /-- XWAIT (R266). -/
  | xwait (g : Guard) (l : BitVec 4) (s : Src)
  /-- YCOPY (R270). -/
  | ycopy (g : Guard) (l : BitVec 4) (s : Src)
  /-- YCOPY_ADD (R272). -/
  | ycopyAdd (g : Guard) (l : BitVec 4) (s : Src)
  /-- YMCAST (R273). -/
  | ymcast (g : Guard) (l : BitVec 4) (s : Src)
  /-- YRING (R275). -/
  | yring (g : Guard) (l : BitVec 4) (s : Src)
  /-- YAWAIT (R276). -/
  | yawait (g : Guard) (s : Src)
  /-- YREL (R276). -/
  | yrel (g : Guard) (l : BitVec 4) (s : Src)
  /-- YPUSH (R277). -/
  | ypush (g : Guard) (l : BitVec 4) (s : Src)
  /-- YDESC (R274). -/
  | ydesc (g : Guard) (l : BitVec 4) (s : Src)
  /-- PCTX (R119). -/
  | pctx (g : Guard) (s : Src)
  /-- PSCALE_A (R120). -/
  | pscaleA (g : Guard) (s : Src)
  /-- PSCALE_B (R120). -/
  | pscaleB (g : Guard) (s : Src)
  /-- PLD (R121). -/
  | pld (g : Guard) (s : Src)
  /-- PMMA (R123). -/
  | pmma (g : Guard) (s : Src)
  /-- PMMAS (R123). -/
  | pmmas (g : Guard) (s : Src)
  /-- PDRAIN (R125). -/
  | pdrain (g : Guard) (s : Src)
  /-- PCLR (R127). -/
  | pclr (g : Guard) (s : Src)
  /-- PFLAGS (R128). -/
  | pflags (g : Guard) (s : Src)
  /-- PJOIN (R129). -/
  | pjoin (g : Guard) (s : Src)
  /-- DPATCH (R150). -/
  | dpatch (g : Guard) (s : Src)
  /-- DSETY (R151). -/
  | dsety (g : Guard) (s : Src)
  /-- DSETR (R151). -/
  | dsetr (g : Guard) (s : Src)
  /-- DGETY (R152). -/
  | dgety (g : Guard) (l : BitVec 4) (s : Src)
  /-- DGETR (R152). -/
  | dgetr (g : Guard) (l : BitVec 4) (s : Src)
  /-- DCLK (R153). -/
  | dclk (g : Guard) (s : Src)
  /-- DRUN (R154). -/
  | drun (g : Guard) (s : Src)
  /-- DHALT (R155). -/
  | dhalt (g : Guard) (s : Src)
  /-- DSAVE (R157). -/
  | dsave (g : Guard) (s : Src)
  /-- DREST (R158). -/
  | drest (g : Guard) (s : Src)
  /-- DSTAT (R159). -/
  | dstat (g : Guard) (s : Src)
  /-- HINIT (R291). -/
  | hinit (g : Guard) (s : Src)
  /-- HOFFER (R292). -/
  | hoffer (g : Guard) (s : Src)
  /-- HDRAIN (R293). -/
  | hdrain (g : Guard) (s : Src)
  /-- HROUTE (R294). -/
  | hroute (g : Guard) (l : BitVec 4) (s : Src)
  /-- TRAP (R354). -/
  | trap (g : Guard) (s : Src)
  /-- TRET (R355). -/
  | tret (g : Guard) (s : Src)
  /-- TFENCE (R75). -/
  | tfence (g : Guard) (s : Src)
  /-- IDLE (R356). -/
  | idle (g : Guard) (s : Src)
  /-- VADD_F (R93). -/
  | vaddF (g : Guard) (s : VSource)
  /-- VSUB_F (R93). -/
  | vsubF (g : Guard) (s : VSource)
  /-- VMUL_F (R93). -/
  | vmulF (g : Guard) (s : VSource)
  /-- VFMA_F (R93). -/
  | vfmaF (g : Guard) (s : VSource)
  /-- VMAX_F (R93). -/
  | vmaxF (g : Guard) (s : VSource)
  /-- VMIN_F (R93). -/
  | vminF (g : Guard) (s : VSource)
  /-- VEXP2_F (R94). -/
  | vexp2F (g : Guard) (s : VSource)
  /-- VRCP_F (R94). -/
  | vrcpF (g : Guard) (s : VSource)
  /-- VRSQ_F (R94). -/
  | vrsqF (g : Guard) (s : VSource)
  /-- VCVT_BF (R95). -/
  | vcvtBf (g : Guard) (s : VSource)
  /-- VCVT_E4 (R95). -/
  | vcvtE4 (g : Guard) (s : VSource)
  /-- VCVT_E5 (R95). -/
  | vcvtE5 (g : Guard) (s : VSource)
  /-- VUNP_BF (R96). -/
  | vunpBf (g : Guard) (s : VSource)
  /-- VUNP_E4 (R96). -/
  | vunpE4 (g : Guard) (s : VSource)
  /-- VUNP_E5 (R96). -/
  | vunpE5 (g : Guard) (s : VSource)
  /-- VADD_I (R93). -/
  | vaddI (g : Guard) (s : VSource)
  /-- VSUB_I (R93). -/
  | vsubI (g : Guard) (s : VSource)
  /-- VMUL_I (R93). -/
  | vmulI (g : Guard) (s : VSource)
  /-- VAND (R93). -/
  | vand (g : Guard) (s : VSource)
  /-- VOR (R93). -/
  | vor (g : Guard) (s : VSource)
  /-- VXOR (R93). -/
  | vxor (g : Guard) (s : VSource)
  /-- VSHL (R93). -/
  | vshl (g : Guard) (s : VSource)
  /-- VSHR (R93). -/
  | vshr (g : Guard) (s : VSource)
  /-- VSRA (R93). -/
  | vsra (g : Guard) (s : VSource)
  /-- VCEQ_F (R88). -/
  | vceqF (g : Guard) (s : VSource)
  /-- VCLT_F (R88). -/
  | vcltF (g : Guard) (s : VSource)
  /-- VSEL (R97). -/
  | vsel (g : Guard) (s : VSource)
  /-- VBC (R97). -/
  | vbc (g : Guard) (s : VSource)
  /-- VROT (R97). -/
  | vrot (g : Guard) (s : VSource)
  /-- VPERM (R97). -/
  | vperm (g : Guard) (s : VSource)
  /-- VSUM_F (R98). -/
  | vsumF (g : Guard) (s : VSource)
  /-- VMAX_R (R98). -/
  | vmaxR (g : Guard) (s : VSource)
  /-- VLD (R99). -/
  | vld (g : Guard) (l : BitVec 4) (s : VSource)
  /-- VST (R99). -/
  | vst (g : Guard) (l : BitVec 4) (s : VSource)
  /-- ENCODING_NOT_AN_INSTRUCTION (R55). -/
  | encodingNotAnInstruction (w : BitVec 32)
  /-- REPETITION_SEQUENCE_ISSUE (R101): slot `key`. -/
  | repetitionSequenceIssue
  /-- RESULT_VISIBLE (R39): slot `key`, unit `win`. -/
  | resultVisible
  /-- INSTRUCTION_LINE_ARRIVAL (R45): slot `key`. -/
  | instructionLineArrival
  /-- QUEUE_BLOCK_RESUME (R240): slot `key`. -/
  | queueBlockResume
  /-- POSTED_STORE_ACKNOWLEDGEMENT (R167): slot `key`, store `n` of its list. -/
  | postedStoreAcknowledgement
  /-- OFFER_ACKNOWLEDGEMENT (R287): slot `key`. -/
  | offerAcknowledgement
  /-- REMOTE_FAULT_REPORT (R193): slot `key`, address `w`, kind `n`. -/
  | remoteFaultReport
  /-- WRITE_COMBINING_TIMEOUT (R168): core `key`. -/
  | writeCombiningTimeout
  /-- REMOTE_REQUEST_ARRIVAL (R320): the request is `remote`; a store carries `bytes`. -/
  | remoteRequestArrival
  /-- ATOMIC_AT_HOME (R173): entry `n` of the homes. -/
  | atomicAtHome
  /-- L2_LINE_ARRIVAL (R26): die `n`, slice `m`, line `p`. -/
  | l2LineArrival
  /-- L2_PREFETCH (R182): die `n`, slice `m`, line `p`. -/
  | l2Prefetch
  /-- WAIT_WAKE (R200): slot `key`. -/
  | waitWake
  /-- WATCH_UNIT_READ (R200): slot `key`. -/
  | watchUnitRead
  /-- WAIT_TIMEOUT (R199): slot `key`. -/
  | waitTimeout
  /-- SIGNAL_UNIT_ADD (R206): the oldest waiting add. -/
  | signalUnitAdd
  /-- SIG_WAIT_WAKE (R207): slot `key`. -/
  | sigWaitWake
  /-- SIG_WAIT_TIMEOUT (R207): slot `key`. -/
  | sigWaitTimeout
  /-- PRESS_GRANT (R106): tile `n`. -/
  | pressGrant
  /-- PRESS_OPERATION_COMPLETE (R107): tile `n`. -/
  | pressOperationComplete
  /-- PRESS_QUEUE_ENTRY_SERVED (R105): tile `n`, core `m`. -/
  | pressQueueEntryServed
  /-- RAMP_LIMITER_WINDOW (R30): tile `n`. -/
  | rampLimiterWindow
  /-- PJOIN_TIMEOUT (R129): slot `key`. -/
  | pjoinTimeout
  /-- DOMAIN_TICK (R140): core `key`. -/
  | domainTick
  /-- INTEGRATOR_FAULT_TRAP (R146): slot `key`. -/
  | integratorFaultTrap
  /-- RUN_QUEUE_POP (R223): die `n`, slot `key`. -/
  | runQueuePop
  /-- PRIORITY_RISE (R228): die `n`, priority `m`. -/
  | priorityRise
  /-- MIGRATION_ADVERTISEMENT (R230): die `n`. -/
  | migrationAdvertisement
  /-- MIGRATION_MESSAGE (R230): die `n`. -/
  | migrationMessage
  /-- MIGRATION_ANSWER (R230): die `n`. -/
  | migrationAnswer
  /-- PARK_WAKE (R261): record `w` of context `n`. -/
  | parkWake
  /-- SLEEP_EXPIRY (R263): slot `key`. -/
  | sleepExpiry
  /-- IDLE_WAKE (R356): slot `key`. -/
  | idleWake
  /-- REFERENCE_STREAM_DEQUEUE (R265): core `key`, stream `n`. -/
  | referenceStreamDequeue
  /-- REFERENCE_FETCH_RETURN (R265): core `key`, stream `n`. -/
  | referenceFetchReturn
  /-- REFERENCE_DEMAND_FETCH (R267): core `key`, stream `n`. -/
  | referenceDemandFetch
  /-- RING_CLAIM (R256): slot `key`. -/
  | ringClaim
  /-- COPY_PIECE (R270): slot `key`. -/
  | copyPiece
  /-- COPY_COMPLETE (R270): slot `key`. -/
  | copyComplete
  /-- RING_PUSH (R277): push `n` of those waiting. -/
  | ringPush
  /-- HEAP_OFFER_ARRIVAL (R285): offer `n` of those in flight. -/
  | heapOfferArrival
  /-- HEAP_COUNT_PUBLISH (R289): every leaf die. -/
  | heapCountPublish
  /-- BALANCER_DISTRIBUTE (R241): channel `n`. -/
  | balancerDistribute
  /-- MERGE_EMIT (R242): channel `n`. -/
  | mergeEmit
  /-- TRAP_ENTRY (R346): slot `key`. -/
  | trapEntry
  /-- POLICY_CORE_ANSWER (R340): fault identifier `n`. -/
  | policyCoreAnswer
  /-- PREEMPTION_DEADLINE (R360): context `n`. -/
  | preemptionDeadline
  /-- CONTEXT_QUIESCE (R361): context `n`. -/
  | contextQuiesce
  /-- POWER_POLICY_CHECK (R365): an average of `n` watts. -/
  | powerPolicyCheck
  /-- FLIT_CRC_ERROR (R247): port `n`. -/
  | flitCrcError
  /-- LINK_RETRAIN (R371): port `n`; bits of `p`, `m` and `w` name the posted stores, atomics and offers whose packets
  meet it. -/
  | linkRetrain
  /-- LINK_PACKET_RECEIVED (R371): `packet`, which carries what `n` says: 1 the request `remote`, 2 the contribution
  `bytes` of rank `p` to set `m`, 3 the acknowledgement of the response to packet `m`; else nothing. -/
  | linkPacketReceived
  /-- PAGE_WALK_COMPLETE (R316): walk `n` of those in flight. -/
  | pageWalkComplete
  /-- DOORBELL (R326): dword `w`, written with `n` bytes. -/
  | doorbell
  /-- QUEUE_MAP (R237): the next waiting queue. -/
  | queueMap
  /-- QUEUE_QUANTUM_EXPIRY (R237): queue `n`. -/
  | queueQuantumExpiry
  /-- NOP_COMMAND (R233): queue `n`. -/
  | nopCommand
  /-- LAUNCH_PIPELINE (R239): queue `n`. -/
  | launchPipeline
  /-- LAUNCH_TASK (R233): queue `n`. -/
  | launchTask
  /-- WAIT (R237): queue `n`. -/
  | wait
  /-- SIGNAL (R236): queue `n`. -/
  | signal
  /-- COPY (R234): queue `n`. -/
  | copy
  /-- BARRIER (R236): queue `n`. -/
  | barrier
  /-- CHECKPOINT (R372): queue `n`. -/
  | checkpoint
  /-- PACKET_COMPLETE (R236): queue `n`, packet `m`. -/
  | packetComplete
  /-- QUEUE_FREED (R238): queue `n`. -/
  | queueFreed
  /-- CREATE_CONTEXT (R331): request `req`. -/
  | createContext
  /-- DESTROY_CONTEXT (R330): request `req`. -/
  | destroyContext
  /-- GRANT_TILES (R330): request `req`. -/
  | grantTiles
  /-- REVOKE_TILES (R330): request `req`. -/
  | revokeTiles
  /-- MAP_PAGES (R330): request `req`. -/
  | mapPages
  /-- UNMAP_PAGES (R330): request `req`. -/
  | unmapPages
  /-- LOAD_KEY (R330): request `req`. -/
  | loadKey
  /-- FREE_KEY (R330): request `req`. -/
  | freeKey
  /-- WRITE_WINDOW (R330): request `req`. -/
  | writeWindow
  /-- CLEAR_WINDOW (R330): request `req`. -/
  | clearWindow
  /-- ALLOCATE_QUEUE (R330): request `req`. -/
  | allocateQueue
  /-- DESTROY_QUEUE (R330): request `req`. -/
  | destroyQueue
  /-- RESTART_QUEUE (R330): request `req`. -/
  | restartQueue
  /-- MARK_CHECKPOINT_QUEUE (R330): request `req`. -/
  | markCheckpointQueue
  /-- ALLOT_GROUPS (R330): request `req`. -/
  | allotGroups
  /-- ALLOT_EXPERTS (R330): request `req`. -/
  | allotExperts
  /-- REGISTER_IMAGE_KEY (R321): request `req`. -/
  | registerImageKey
  /-- SET_FAULT_MODE (R338): request `req`. -/
  | setFaultMode
  /-- SET_MONITOR_VECTOR (R330): request `req`. -/
  | setMonitorVector
  /-- SET_DEADLINE (R358): request `req`. -/
  | setDeadline
  /-- SET_POWER_RANK (R365): request `req`. -/
  | setPowerRank
  /-- REGISTER_SAFE_TIER (R372): request `req`. -/
  | registerSafeTier
  /-- RESERVE_BUDDY_REGION (R372): request `req`. -/
  | reserveBuddyRegion
  /-- SET_HOST_VISIBLE (R334): request `req`. -/
  | setHostVisible
  /-- REGISTER_COLLECTIVE_SET (R330): request `req`. -/
  | registerCollectiveSet
  /-- SET_EVENT_RING (R332): request `req`. -/
  | setEventRing
  /-- FAULT_ANSWER (R340): request `req`. -/
  | faultAnswer
  /-- PREEMPT_CONTEXT (R358): request `req`. -/
  | preemptContext
  /-- RESUME_CONTEXT (R363): request `req`. -/
  | resumeContext
  /-- LOAD_CHECKPOINT (R373): request `req`. -/
  | loadCheckpoint
  /-- PAUSE_QUEUE (R330): request `req`. -/
  | pauseQueue
  /-- EVENT_TAIL_WRITE (R333): a write of `n` bytes with value `w`. -/
  | eventTailWrite
  /-- BAR_REGISTER_WRITE (R325): offset `n`, `m` bytes, value `w`. -/
  | barRegisterWrite
  /-- HOST_MEMORY_ACCESS (R334): address `n`; a write of `bytes` where `wr` holds, else a read of `m` bytes. -/
  | hostMemoryAccess
  /-- MODULE_RESET (R335): no operand. -/
  | moduleReset
  /-- GET_VERSION (R336): no operand. -/
  | getVersion
  /-- GET_CAPABILITIES (R336): no operand. -/
  | getCapabilities
  /-- VENDOR_DEFINED_REQUEST (R336): `bytes` is the nonce, or empty. -/
  | vendorDefinedRequest
  /-- RESERVED_OP_PACKET (R235): queue `n`. -/
  | reservedOpPacket
  /-- RESERVED_OP_REQUEST (R329): op `n`, request `req`. -/
  | reservedOpRequest
  /-- SNOOP_OR_BACK_INVALIDATE (R200): line `n`. -/
  | snoopOrBackInvalidate
  /-- RETRAIN_COMPLETE (R371): port `n`. -/
  | retrainComplete
  deriving DecidableEq, Repr

end Sys2Proof
end

