-- ==== Sys2Proof/Decode.lean ====
section
/-! DEFINITION. Decoding and encoding of the 32-bit words (R32, R44 to R55), written from the port maps. Decoding is
total: a word that is no instruction is refused by name, and the row ENCODING_NOT_AN_INSTRUCTION carries it. -/

namespace Sys2Proof

/-- Why a word is no instruction in either mode on any core (R55). Which core issues it, the mode, and values at a
trigger are checked where it is performed. -/
inductive Illegal where
  /-- 0x0000_0000 and 0xFFFF_FFFF. -/
  | zeroOrOnes
  /-- guard 1000. -/
  | guard
  | source | destination
  /-- destination k0. -/
  | k0
  /-- L not 0 where R41 forbids it. -/
  | lookahead
  /-- class 01 with dst.s = 1 and src.s = 1. -/
  | scalarToScalar
  /-- H = 1 where R44 excludes it. -/
  | shiftInsert
  | op4 | nopField | repField
  deriving DecidableEq, Repr

/-! ### The port numbers -/

/-- The number of a scalar trigger (R50). -/
def Trig.num : Trig → Nat
  | .add => 0x081
  | .sub => 0x082
  | .addw => 0x083
  | .subw => 0x084
  | .and => 0x085
  | .or => 0x086
  | .xor => 0x087
  | .andn => 0x088
  | .shl => 0x089
  | .shr => 0x08A
  | .sra => 0x08B
  | .shlw => 0x08C
  | .shrw => 0x08D
  | .sraw => 0x08E
  | .rotl => 0x08F
  | .min => 0x090
  | .max => 0x091
  | .minu => 0x092
  | .maxu => 0x093
  | .mov => 0x094
  | .sext => 0x095
  | .zext => 0x096
  | .bfx => 0x097
  | .clz => 0x098
  | .ctz => 0x099
  | .popc => 0x09A
  | .ceq => 0x09B
  | .cne => 0x09C
  | .clt => 0x09D
  | .cltu => 0x09E
  | .cle => 0x09F
  | .cleu => 0x0A0
  | .shl16or => 0x0A1
  | .mul => 0x0C1
  | .mulw => 0x0C2
  | .mulh => 0x0C3
  | .mulhu => 0x0C4
  | .div => 0x0C5
  | .divu => 0x0C6
  | .rem => 0x0C7
  | .remu => 0x0C8
  | .fadd => 0x0E2
  | .fsub => 0x0E3
  | .fmul => 0x0E4
  | .fma => 0x0E5
  | .fmin => 0x0E6
  | .fmax => 0x0E7
  | .fneg => 0x0E8
  | .fceq => 0x0E9
  | .fclt => 0x0EA
  | .fcle => 0x0EB
  | .fsqrt => 0x0EC
  | .fdiv => 0x0ED
  | .fcvtI => 0x0EE
  | .fcvtF => 0x0EF
  | .fcvtBf => 0x0F0
  | .fcvtE4 => 0x0F1
  | .fcvtE5 => 0x0F2
  | .fexpBf => 0x0F3
  | .fexpE4 => 0x0F4
  | .fexpE5 => 0x0F5
  | .fclass => 0x0F6
  | .ld8 => 0x103
  | .ld8u => 0x104
  | .ld16 => 0x105
  | .ld16u => 0x106
  | .ld32 => 0x107
  | .ld32u => 0x108
  | .ld64 => 0x109
  | .ld128 => 0x10A
  | .st8 => 0x10B
  | .st16 => 0x10C
  | .st32 => 0x10D
  | .st64 => 0x10E
  | .st128 => 0x10F
  | .amoAddW => 0x110
  | .amoAddD => 0x111
  | .amoAndW => 0x112
  | .amoAndD => 0x113
  | .amoOrW => 0x114
  | .amoOrD => 0x115
  | .amoXorW => 0x116
  | .amoXorD => 0x117
  | .amoMinW => 0x118
  | .amoMinD => 0x119
  | .amoMaxW => 0x11A
  | .amoMaxD => 0x11B
  | .amoMinuW => 0x11C
  | .amoMinuD => 0x11D
  | .amoMaxuW => 0x11E
  | .amoMaxuD => 0x11F
  | .amoSwapW => 0x120
  | .amoSwapD => 0x121
  | .amoCasW => 0x122
  | .amoCasD => 0x123
  | .amoCasQ => 0x124
  | .amoFadd => 0x125
  | .waddrW => 0x126
  | .waddrD => 0x127
  | .waddrGeW => 0x128
  | .waddrGeD => 0x129
  | .fence => 0x12A
  | .ddisc => 0x12B
  | .dclean => 0x12C
  | .dinval => 0x12D
  | .sigAdd => 0x12E
  | .sigWait => 0x12F
  | .jr => 0x180
  | .jrl => 0x181
  | .spawn => 0x192
  | .spawna => 0x193
  | .done => 0x194
  | .yield => 0x195
  | .park => 0x196
  | .join => 0x197
  | .gbar => 0x198
  | .garrive => 0x199
  | .pyield => 0x19A
  | .sleep => 0x19B
  | .xgo => 0x1B2
  | .xstop => 0x1B3
  | .xwait => 0x1B4
  | .ycopy => 0x1C4
  | .ycopyAdd => 0x1C5
  | .ymcast => 0x1C6
  | .yring => 0x1C7
  | .yawait => 0x1C8
  | .yrel => 0x1C9
  | .ypush => 0x1CA
  | .ydesc => 0x1CB
  | .pctx => 0x1E5
  | .pscaleA => 0x1E6
  | .pscaleB => 0x1E7
  | .pld => 0x1E8
  | .pmma => 0x1E9
  | .pmmas => 0x1EA
  | .pdrain => 0x1EB
  | .pclr => 0x1EC
  | .pflags => 0x1ED
  | .pjoin => 0x1EE
  | .dpatch => 0x202
  | .dsety => 0x203
  | .dsetr => 0x204
  | .dgety => 0x205
  | .dgetr => 0x206
  | .dclk => 0x207
  | .drun => 0x208
  | .dhalt => 0x209
  | .dsave => 0x20A
  | .drest => 0x20B
  | .dstat => 0x20C
  | .hinit => 0x222
  | .hoffer => 0x223
  | .hdrain => 0x224
  | .hroute => 0x225
  | .trap => 0x231
  | .tret => 0x232
  | .tfence => 0x233
  | .idle => 0x234

/-- The scalar trigger of a port number (R50). -/
def Trig.ofNum (n : Nat) : Option Trig :=
  match n with
  | 0x081 => some .add
  | 0x082 => some .sub
  | 0x083 => some .addw
  | 0x084 => some .subw
  | 0x085 => some .and
  | 0x086 => some .or
  | 0x087 => some .xor
  | 0x088 => some .andn
  | 0x089 => some .shl
  | 0x08A => some .shr
  | 0x08B => some .sra
  | 0x08C => some .shlw
  | 0x08D => some .shrw
  | 0x08E => some .sraw
  | 0x08F => some .rotl
  | 0x090 => some .min
  | 0x091 => some .max
  | 0x092 => some .minu
  | 0x093 => some .maxu
  | 0x094 => some .mov
  | 0x095 => some .sext
  | 0x096 => some .zext
  | 0x097 => some .bfx
  | 0x098 => some .clz
  | 0x099 => some .ctz
  | 0x09A => some .popc
  | 0x09B => some .ceq
  | 0x09C => some .cne
  | 0x09D => some .clt
  | 0x09E => some .cltu
  | 0x09F => some .cle
  | 0x0A0 => some .cleu
  | 0x0A1 => some .shl16or
  | 0x0C1 => some .mul
  | 0x0C2 => some .mulw
  | 0x0C3 => some .mulh
  | 0x0C4 => some .mulhu
  | 0x0C5 => some .div
  | 0x0C6 => some .divu
  | 0x0C7 => some .rem
  | 0x0C8 => some .remu
  | 0x0E2 => some .fadd
  | 0x0E3 => some .fsub
  | 0x0E4 => some .fmul
  | 0x0E5 => some .fma
  | 0x0E6 => some .fmin
  | 0x0E7 => some .fmax
  | 0x0E8 => some .fneg
  | 0x0E9 => some .fceq
  | 0x0EA => some .fclt
  | 0x0EB => some .fcle
  | 0x0EC => some .fsqrt
  | 0x0ED => some .fdiv
  | 0x0EE => some .fcvtI
  | 0x0EF => some .fcvtF
  | 0x0F0 => some .fcvtBf
  | 0x0F1 => some .fcvtE4
  | 0x0F2 => some .fcvtE5
  | 0x0F3 => some .fexpBf
  | 0x0F4 => some .fexpE4
  | 0x0F5 => some .fexpE5
  | 0x0F6 => some .fclass
  | 0x103 => some .ld8
  | 0x104 => some .ld8u
  | 0x105 => some .ld16
  | 0x106 => some .ld16u
  | 0x107 => some .ld32
  | 0x108 => some .ld32u
  | 0x109 => some .ld64
  | 0x10A => some .ld128
  | 0x10B => some .st8
  | 0x10C => some .st16
  | 0x10D => some .st32
  | 0x10E => some .st64
  | 0x10F => some .st128
  | 0x110 => some .amoAddW
  | 0x111 => some .amoAddD
  | 0x112 => some .amoAndW
  | 0x113 => some .amoAndD
  | 0x114 => some .amoOrW
  | 0x115 => some .amoOrD
  | 0x116 => some .amoXorW
  | 0x117 => some .amoXorD
  | 0x118 => some .amoMinW
  | 0x119 => some .amoMinD
  | 0x11A => some .amoMaxW
  | 0x11B => some .amoMaxD
  | 0x11C => some .amoMinuW
  | 0x11D => some .amoMinuD
  | 0x11E => some .amoMaxuW
  | 0x11F => some .amoMaxuD
  | 0x120 => some .amoSwapW
  | 0x121 => some .amoSwapD
  | 0x122 => some .amoCasW
  | 0x123 => some .amoCasD
  | 0x124 => some .amoCasQ
  | 0x125 => some .amoFadd
  | 0x126 => some .waddrW
  | 0x127 => some .waddrD
  | 0x128 => some .waddrGeW
  | 0x129 => some .waddrGeD
  | 0x12A => some .fence
  | 0x12B => some .ddisc
  | 0x12C => some .dclean
  | 0x12D => some .dinval
  | 0x12E => some .sigAdd
  | 0x12F => some .sigWait
  | 0x180 => some .jr
  | 0x181 => some .jrl
  | 0x192 => some .spawn
  | 0x193 => some .spawna
  | 0x194 => some .done
  | 0x195 => some .yield
  | 0x196 => some .park
  | 0x197 => some .join
  | 0x198 => some .gbar
  | 0x199 => some .garrive
  | 0x19A => some .pyield
  | 0x19B => some .sleep
  | 0x1B2 => some .xgo
  | 0x1B3 => some .xstop
  | 0x1B4 => some .xwait
  | 0x1C4 => some .ycopy
  | 0x1C5 => some .ycopyAdd
  | 0x1C6 => some .ymcast
  | 0x1C7 => some .yring
  | 0x1C8 => some .yawait
  | 0x1C9 => some .yrel
  | 0x1CA => some .ypush
  | 0x1CB => some .ydesc
  | 0x1E5 => some .pctx
  | 0x1E6 => some .pscaleA
  | 0x1E7 => some .pscaleB
  | 0x1E8 => some .pld
  | 0x1E9 => some .pmma
  | 0x1EA => some .pmmas
  | 0x1EB => some .pdrain
  | 0x1EC => some .pclr
  | 0x1ED => some .pflags
  | 0x1EE => some .pjoin
  | 0x202 => some .dpatch
  | 0x203 => some .dsety
  | 0x204 => some .dsetr
  | 0x205 => some .dgety
  | 0x206 => some .dgetr
  | 0x207 => some .dclk
  | 0x208 => some .drun
  | 0x209 => some .dhalt
  | 0x20A => some .dsave
  | 0x20B => some .drest
  | 0x20C => some .dstat
  | 0x222 => some .hinit
  | 0x223 => some .hoffer
  | 0x224 => some .hdrain
  | 0x225 => some .hroute
  | 0x231 => some .trap
  | 0x232 => some .tret
  | 0x233 => some .tfence
  | 0x234 => some .idle
  | _ => none

/-- The long-latency scalar triggers (R41): those that take L = 0-15. -/
def Trig.long : Trig → Bool
  | .div | .divu | .rem | .remu | .fsqrt | .fdiv | .ld8 | .ld8u | .ld16 | .ld16u | .ld32 | .ld32u
  | .ld64 | .ld128 | .st8 | .st16 | .st32 | .st64 | .st128 | .amoAddW | .amoAddD | .amoAndW | .amoAndD
  | .amoOrW | .amoOrD | .amoXorW | .amoXorD | .amoMinW | .amoMinD | .amoMaxW | .amoMaxD | .amoMinuW
  | .amoMinuD | .amoMaxuW | .amoMaxuD | .amoSwapW | .amoSwapD | .amoCasW | .amoCasD | .amoCasQ
  | .amoFadd | .ddisc | .dclean | .dinval | .sigAdd | .xgo | .xstop | .xwait | .ycopy | .ycopyAdd
  | .ymcast | .yring | .yrel | .ypush | .ydesc | .dgety | .dgetr | .hroute => true
  | _ => false

/-- The number of a vector trigger (R54). -/
def VTrig.num : VTrig → Nat
  | .vaddF => 0x012
  | .vsubF => 0x013
  | .vmulF => 0x014
  | .vfmaF => 0x015
  | .vmaxF => 0x016
  | .vminF => 0x017
  | .vexp2F => 0x018
  | .vrcpF => 0x019
  | .vrsqF => 0x01A
  | .vcvtBf => 0x01B
  | .vcvtE4 => 0x01C
  | .vcvtE5 => 0x01D
  | .vunpBf => 0x01E
  | .vunpE4 => 0x01F
  | .vunpE5 => 0x020
  | .vaddI => 0x021
  | .vsubI => 0x022
  | .vmulI => 0x023
  | .vand => 0x024
  | .vor => 0x025
  | .vxor => 0x026
  | .vshl => 0x027
  | .vshr => 0x028
  | .vsra => 0x029
  | .vceqF => 0x02A
  | .vcltF => 0x02B
  | .vsel => 0x02C
  | .vbc => 0x02D
  | .vrot => 0x02E
  | .vperm => 0x02F
  | .vsumF => 0x030
  | .vmaxR => 0x031
  | .vld => 0x032
  | .vst => 0x033

/-- The vector trigger of a port number (R54). -/
def VTrig.ofNum (n : Nat) : Option VTrig :=
  match n with
  | 0x012 => some .vaddF
  | 0x013 => some .vsubF
  | 0x014 => some .vmulF
  | 0x015 => some .vfmaF
  | 0x016 => some .vmaxF
  | 0x017 => some .vminF
  | 0x018 => some .vexp2F
  | 0x019 => some .vrcpF
  | 0x01A => some .vrsqF
  | 0x01B => some .vcvtBf
  | 0x01C => some .vcvtE4
  | 0x01D => some .vcvtE5
  | 0x01E => some .vunpBf
  | 0x01F => some .vunpE4
  | 0x020 => some .vunpE5
  | 0x021 => some .vaddI
  | 0x022 => some .vsubI
  | 0x023 => some .vmulI
  | 0x024 => some .vand
  | 0x025 => some .vor
  | 0x026 => some .vxor
  | 0x027 => some .vshl
  | 0x028 => some .vshr
  | 0x029 => some .vsra
  | 0x02A => some .vceqF
  | 0x02B => some .vcltF
  | 0x02C => some .vsel
  | 0x02D => some .vbc
  | 0x02E => some .vrot
  | 0x02F => some .vperm
  | 0x030 => some .vsumF
  | 0x031 => some .vmaxR
  | 0x032 => some .vld
  | 0x033 => some .vst
  | _ => none

/-- The number of an operand port (R49); 0x7FF, a reserved number, for a latch that is none. -/
def Latch.opndNum : Latch → Nat
  | .ao => 0x080
  | .mo => 0x0C0
  | .fo => 0x0E0
  | .fo2 => 0x0E1
  | .lo => 0x100
  | .lo2 => 0x101
  | .lo3 => 0x102
  | .so => 0x190
  | .so2 => 0x191
  | .xo => 0x1B0
  | .xo2 => 0x1B1
  | .yo => 0x1C0
  | .yo2 => 0x1C1
  | .yo3 => 0x1C2
  | .yo4 => 0x1C3
  | .pa0 => 0x1E0
  | .pa1 => 0x1E1
  | .pb0 => 0x1E2
  | .pb1 => 0x1E3
  | .pc => 0x1E4
  | .dO => 0x200
  | .dO2 => 0x201
  | .ho => 0x220
  | .ho2 => 0x221
  | .zo => 0x230
  | _ => 0x7FF

/-- The operand port of a number (R49). -/
def Latch.opndOf (n : Nat) : Option Latch :=
  match n with
  | 0x080 => some .ao
  | 0x0C0 => some .mo
  | 0x0E0 => some .fo
  | 0x0E1 => some .fo2
  | 0x100 => some .lo
  | 0x101 => some .lo2
  | 0x102 => some .lo3
  | 0x190 => some .so
  | 0x191 => some .so2
  | 0x1B0 => some .xo
  | 0x1B1 => some .xo2
  | 0x1C0 => some .yo
  | 0x1C1 => some .yo2
  | 0x1C2 => some .yo3
  | 0x1C3 => some .yo4
  | 0x1E0 => some .pa0
  | 0x1E1 => some .pa1
  | 0x1E2 => some .pb0
  | 0x1E3 => some .pb1
  | 0x1E4 => some .pc
  | 0x200 => some .dO
  | 0x201 => some .dO2
  | 0x220 => some .ho
  | 0x221 => some .ho2
  | 0x230 => some .zo
  | _ => none

/-- The number of a result port (R51); 0x3FF, a reserved number, for a latch that is none. -/
def Latch.resNum : Latch → Nat
  | .ar => 0x080
  | .mr => 0x0C0
  | .fr => 0x0E0
  | .lr => 0x100
  | .lr2 => 0x101
  | .sr => 0x190
  | .xr => 0x1B0
  | .yr => 0x1C0
  | .pr => 0x1E0
  | .dr => 0x200
  | .hr => 0x220
  | .zr => 0x230
  | _ => 0x3FF

/-- The result port of a number (R51). -/
def Latch.resOf (n : Nat) : Option Latch :=
  match n with
  | 0x080 => some .ar
  | 0x0C0 => some .mr
  | 0x0E0 => some .fr
  | 0x100 => some .lr
  | 0x101 => some .lr2
  | 0x190 => some .sr
  | 0x1B0 => some .xr
  | 0x1C0 => some .yr
  | 0x1E0 => some .pr
  | 0x200 => some .dr
  | 0x220 => some .hr
  | 0x230 => some .zr
  | _ => none

/-- The number of a special port (R53). -/
def Special.num : Special → Nat
  | .xrnd => 0x040
  | .xflags => 0x041
  | .xten => 0x042
  | .preq => 0x043
  | .rfq => 0x044
  | .mvec => 0x060
  | .mcause => 0x061
  | .maddr => 0x062
  | .mtpc => 0x063
  | .mctx => 0x064
  | .mfill => 0x065

/-- The special port of a number (R53). -/
def Special.ofNum (n : Nat) : Option Special :=
  match n with
  | 0x040 => some .xrnd
  | 0x041 => some .xflags
  | 0x042 => some .xten
  | 0x043 => some .preq
  | 0x044 => some .rfq
  | 0x060 => some .mvec
  | 0x061 => some .mcause
  | 0x062 => some .maddr
  | 0x063 => some .mtpc
  | 0x064 => some .mctx
  | 0x065 => some .mfill
  | _ => none

/-- A special port may be a source in some mode (R53): all but mfill. -/
def Special.readable : Special → Bool
  | .mfill => false
  | _ => true

/-- A special port may be a destination in some mode (R53): all but mctx. -/
def Special.writable : Special → Bool
  | .mctx => false
  | _ => true

/-- The number of a scalar source port (R51). -/
def SPort.num : SPort → Nat
  | .g r => r.toNat
  | .k n => 0x020 + n.toNat
  | .deq n => 0x028 + n.toNat
  | .peek n => 0x030 + n.toNat
  | .tlev => 0x038
  | .cyc => 0x039
  | .tid => 0x03A
  | .special p => p.num
  | .res l => l.resNum

/-- The scalar source port of a number (R51), or none where it is reserved or has no such direction. -/
def SPort.ofNum (n : Nat) : Option SPort :=
  if n < 0x020 then some (.g (BitVec.ofNat 5 n))
  else if n < 0x028 then some (.k (BitVec.ofNat 3 n))
  else if n < 0x030 then some (.deq (BitVec.ofNat 3 n))
  else if n < 0x038 then some (.peek (BitVec.ofNat 3 n))
  else if n = 0x038 then some .tlev
  else if n = 0x039 then some .cyc
  else if n = 0x03A then some .tid
  else
    match Special.ofNum n with
    | some p => if p.readable then some (.special p) else none
    | none => (Latch.resOf n).map .res

/-- The number of a scalar destination (R49, R50). -/
def SDst.num : SDst → Nat
  | .g r => r.toNat
  | .k n => 0x020 + n.toNat
  | .enq n => 0x028 + n.toNat
  | .tok n => 0x030 + n.toNat
  | .special p => p.num
  | .opnd l => l.opndNum
  | .trig t => t.num

/-- The scalar destination of a number (R49, R50), or the reason it is none. -/
def SDst.ofNum (n : Nat) : Except Illegal SDst :=
  if n < 0x020 then .ok (.g (BitVec.ofNat 5 n))
  else if n = 0x020 then .error .k0
  else if n < 0x028 then .ok (.k (BitVec.ofNat 3 n))
  else if n < 0x030 then .ok (.enq (BitVec.ofNat 3 n))
  else if n < 0x038 then .ok (.tok (BitVec.ofNat 3 n))
  else
    match Special.ofNum n with
    | some p => if p.writable then .ok (.special p) else .error .destination
    | none =>
      match Latch.opndOf n with
      | some l => .ok (.opnd l)
      | none =>
        match Trig.ofNum n with
        | some t => .ok (.trig t)
        | none => .error .destination

/-- The number of a vector source port (R54). -/
def VPort.num : VPort → Nat
  | .v r => r.toNat
  | .vr => 0x010

/-- The vector source port of a number (R54). -/
def VPort.ofNum (n : Nat) : Option VPort :=
  if n < 0x010 then some (.v (BitVec.ofNat 4 n)) else if n = 0x010 then some .vr else none

/-- The number of a vector destination that triggers nothing (R54). -/
def VDst.num : VDst → Nat
  | .v r => r.toNat
  | .vo => 0x010
  | .vo2 => 0x011

/-- The vector destination of a number that triggers nothing (R54). -/
def VDst.ofNum (n : Nat) : Option VDst :=
  if n < 0x010 then some (.v (BitVec.ofNat 4 n))
  else if n = 0x010 then some .vo else if n = 0x011 then some .vo2 else none

/-! ### Decoding -/

/-- The guard field, or the reason guard 1000 is none (R34, R55). -/
def Guard.ofBits (b : BitVec 4) : Except Illegal Guard :=
  let g : Guard := ⟨b.getLsbD 3, b.extractLsb' 0 3⟩
  if g.inv ∧ g.k = 0 then .error .guard else .ok g

/-- The guard field's bits (R32). -/
def Guard.bits (g : Guard) : BitVec 4 := BitVec.ofBool g.inv ++ g.k

/-- The class 00 source of bits [10:0] (R32). -/
def Src.ofBits (b : BitVec 11) : Except Illegal Src :=
  if b.getLsbD 10 then .ok (.imm (b.extractLsb' 0 10))
  else match SPort.ofNum (b.extractLsb' 0 10).toNat with
    | some p => .ok (.port p)
    | none => .error .source

/-- Bits [10:0] of a class 00 source (R32). -/
def Src.bits : Src → BitVec 11
  | .imm i => 1#1 ++ i
  | .port p => 0#1 ++ BitVec.ofNat 10 p.num

/-- The class 01 source of bits [10:0] (R32, R33). -/
def VSource.ofBits (b : BitVec 11) : Except Illegal VSource :=
  let n := (b.extractLsb' 0 10).toNat
  if b.getLsbD 10 then
    match SPort.ofNum n with
    | some p => .ok (.bc p)
    | none => .error .source
  else
    match VPort.ofNum n with
    | some p => .ok (.vec p)
    | none => .error .source

/-- Bits [10:0] of a class 01 source (R32). -/
def VSource.bits : VSource → BitVec 11
  | .vec p => 0#1 ++ BitVec.ofNat 10 p.num
  | .bc p => 1#1 ++ BitVec.ofNat 10 p.num

/-- The instruction of a scalar trigger in its class 00 form. `l` is used by the long-latency triggers alone. -/
def Trig.instr (t : Trig) (g : Guard) (l : BitVec 4) (s : Src) : Instr :=
  match t with
  | .add => .add g s
  | .sub => .sub g s
  | .addw => .addw g s
  | .subw => .subw g s
  | .and => .and g s
  | .or => .or g s
  | .xor => .xor g s
  | .andn => .andn g s
  | .shl => .shl g s
  | .shr => .shr g s
  | .sra => .sra g s
  | .shlw => .shlw g s
  | .shrw => .shrw g s
  | .sraw => .sraw g s
  | .rotl => .rotl g s
  | .min => .min g s
  | .max => .max g s
  | .minu => .minu g s
  | .maxu => .maxu g s
  | .mov => .mov g s
  | .sext => .sext g s
  | .zext => .zext g s
  | .bfx => .bfx g s
  | .clz => .clz g s
  | .ctz => .ctz g s
  | .popc => .popc g s
  | .ceq => .ceq g s
  | .cne => .cne g s
  | .clt => .clt g s
  | .cltu => .cltu g s
  | .cle => .cle g s
  | .cleu => .cleu g s
  | .shl16or => .shl16or g s
  | .mul => .mul g s
  | .mulw => .mulw g s
  | .mulh => .mulh g s
  | .mulhu => .mulhu g s
  | .div => .div g l s
  | .divu => .divu g l s
  | .rem => .rem g l s
  | .remu => .remu g l s
  | .fadd => .fadd g s
  | .fsub => .fsub g s
  | .fmul => .fmul g s
  | .fma => .fma g s
  | .fmin => .fmin g s
  | .fmax => .fmax g s
  | .fneg => .fneg g s
  | .fceq => .fceq g s
  | .fclt => .fclt g s
  | .fcle => .fcle g s
  | .fsqrt => .fsqrt g l s
  | .fdiv => .fdiv g l s
  | .fcvtI => .fcvtI g s
  | .fcvtF => .fcvtF g s
  | .fcvtBf => .fcvtBf g s
  | .fcvtE4 => .fcvtE4 g s
  | .fcvtE5 => .fcvtE5 g s
  | .fexpBf => .fexpBf g s
  | .fexpE4 => .fexpE4 g s
  | .fexpE5 => .fexpE5 g s
  | .fclass => .fclass g s
  | .ld8 => .ld8 g l s
  | .ld8u => .ld8u g l s
  | .ld16 => .ld16 g l s
  | .ld16u => .ld16u g l s
  | .ld32 => .ld32 g l s
  | .ld32u => .ld32u g l s
  | .ld64 => .ld64 g l s
  | .ld128 => .ld128 g l s
  | .st8 => .st8 g l s
  | .st16 => .st16 g l s
  | .st32 => .st32 g l s
  | .st64 => .st64 g l s
  | .st128 => .st128 g l s
  | .amoAddW => .amoAddW g l s
  | .amoAddD => .amoAddD g l s
  | .amoAndW => .amoAndW g l s
  | .amoAndD => .amoAndD g l s
  | .amoOrW => .amoOrW g l s
  | .amoOrD => .amoOrD g l s
  | .amoXorW => .amoXorW g l s
  | .amoXorD => .amoXorD g l s
  | .amoMinW => .amoMinW g l s
  | .amoMinD => .amoMinD g l s
  | .amoMaxW => .amoMaxW g l s
  | .amoMaxD => .amoMaxD g l s
  | .amoMinuW => .amoMinuW g l s
  | .amoMinuD => .amoMinuD g l s
  | .amoMaxuW => .amoMaxuW g l s
  | .amoMaxuD => .amoMaxuD g l s
  | .amoSwapW => .amoSwapW g l s
  | .amoSwapD => .amoSwapD g l s
  | .amoCasW => .amoCasW g l s
  | .amoCasD => .amoCasD g l s
  | .amoCasQ => .amoCasQ g l s
  | .amoFadd => .amoFadd g l s
  | .waddrW => .waddrW g s
  | .waddrD => .waddrD g s
  | .waddrGeW => .waddrGeW g s
  | .waddrGeD => .waddrGeD g s
  | .fence => .fence g s
  | .ddisc => .ddisc g l s
  | .dclean => .dclean g l s
  | .dinval => .dinval g l s
  | .sigAdd => .sigAdd g l s
  | .sigWait => .sigWait g s
  | .jr => .jr g s
  | .jrl => .jrl g s
  | .spawn => .spawn g s
  | .spawna => .spawna g s
  | .done => .done g s
  | .yield => .yield g s
  | .park => .park g s
  | .join => .join g s
  | .gbar => .gbar g s
  | .garrive => .garrive g s
  | .pyield => .pyield g s
  | .sleep => .sleep g s
  | .xgo => .xgo g l s
  | .xstop => .xstop g l s
  | .xwait => .xwait g l s
  | .ycopy => .ycopy g l s
  | .ycopyAdd => .ycopyAdd g l s
  | .ymcast => .ymcast g l s
  | .yring => .yring g l s
  | .yawait => .yawait g s
  | .yrel => .yrel g l s
  | .ypush => .ypush g l s
  | .ydesc => .ydesc g l s
  | .pctx => .pctx g s
  | .pscaleA => .pscaleA g s
  | .pscaleB => .pscaleB g s
  | .pld => .pld g s
  | .pmma => .pmma g s
  | .pmmas => .pmmas g s
  | .pdrain => .pdrain g s
  | .pclr => .pclr g s
  | .pflags => .pflags g s
  | .pjoin => .pjoin g s
  | .dpatch => .dpatch g s
  | .dsety => .dsety g s
  | .dsetr => .dsetr g s
  | .dgety => .dgety g l s
  | .dgetr => .dgetr g l s
  | .dclk => .dclk g s
  | .drun => .drun g s
  | .dhalt => .dhalt g s
  | .dsave => .dsave g s
  | .drest => .drest g s
  | .dstat => .dstat g s
  | .hinit => .hinit g s
  | .hoffer => .hoffer g s
  | .hdrain => .hdrain g s
  | .hroute => .hroute g l s
  | .trap => .trap g s
  | .tret => .tret g s
  | .tfence => .tfence g s
  | .idle => .idle g s

/-- The instruction of a vector trigger. `l` is used by vld and vst alone. -/
def VTrig.instr (t : VTrig) (g : Guard) (l : BitVec 4) (s : VSource) : Instr :=
  match t with
  | .vaddF => .vaddF g s
  | .vsubF => .vsubF g s
  | .vmulF => .vmulF g s
  | .vfmaF => .vfmaF g s
  | .vmaxF => .vmaxF g s
  | .vminF => .vminF g s
  | .vexp2F => .vexp2F g s
  | .vrcpF => .vrcpF g s
  | .vrsqF => .vrsqF g s
  | .vcvtBf => .vcvtBf g s
  | .vcvtE4 => .vcvtE4 g s
  | .vcvtE5 => .vcvtE5 g s
  | .vunpBf => .vunpBf g s
  | .vunpE4 => .vunpE4 g s
  | .vunpE5 => .vunpE5 g s
  | .vaddI => .vaddI g s
  | .vsubI => .vsubI g s
  | .vmulI => .vmulI g s
  | .vand => .vand g s
  | .vor => .vor g s
  | .vxor => .vxor g s
  | .vshl => .vshl g s
  | .vshr => .vshr g s
  | .vsra => .vsra g s
  | .vceqF => .vceqF g s
  | .vcltF => .vcltF g s
  | .vsel => .vsel g s
  | .vbc => .vbc g s
  | .vrot => .vrot g s
  | .vperm => .vperm g s
  | .vsumF => .vsumF g s
  | .vmaxR => .vmaxR g s
  | .vld => .vld g l s
  | .vst => .vst g l s

/-- vld and vst, the vector triggers that take L = 0-15 (R41, R92). -/
def VTrig.long : VTrig → Bool
  | .vld | .vst => true
  | _ => false

/-- Class 00 (R32): a scalar transport. -/
def decodeScalar (g : Guard) (l : BitVec 4) (d : SDst) (s : Src) : Except Illegal Instr :=
  match d with
  | .trig t => if l = 0 ∨ t.long then .ok (t.instr g l s) else .error .lookahead
  | .enq n => if l = 0 then .ok (.enqueue g n s) else .error .lookahead
  | .tok n => if l = 0 then .ok (.tokenEnqueue g n s) else .error .lookahead
  | .k n => if l = 0 then .ok (.guardWrite g n s) else .error .lookahead
  | .special .xrnd => if l = 0 then .ok (.xrndWrite g s) else .error .lookahead
  | .special .xflags => if l = 0 then .ok (.xflagsWrite g s) else .error .lookahead
  | .special .xten => if l = 0 then .ok (.xtenWrite g s) else .error .lookahead
  | .special .preq => if l = 0 then .ok (.preqWrite g s) else .error .lookahead
  | .special .rfq => if l = 0 then .ok (.rfqWrite g s) else .error .lookahead
  | .special .mvec => if l = 0 then .ok (.mvecWrite g s) else .error .lookahead
  | .special .mfill => if l = 0 then .ok (.mfillWrite g s) else .error .lookahead
  | d =>
    if l = 0 then
      match s with
      | .port (.deq n) => .ok (.dequeue g d n)
      | .port (.peek n) => .ok (.peek g d n)
      | s => .ok (.move g d s)
    else .error .lookahead

/-- A destination that takes L = 0-15: a long-latency trigger (R41). -/
def SDst.long : SDst → Bool
  | .trig t => t.long
  | _ => false

/-- Class 01 (R32, R33): a vector transport. -/
def decodeVector (w : BitVec 32) (g : Guard) : Except Illegal Instr := do
  let l : BitVec 4 := w.extractLsb' 22 4
  let n := (w.extractLsb' 11 10).toNat
  if w.getLsbD 21 then
    if w.getLsbD 10 then .error .scalarToScalar
    else
      match VPort.ofNum (w.extractLsb' 0 10).toNat with
      | none => .error .source
      | some p =>
        let d ← SDst.ofNum n
        if l = 0 ∨ d.long then .ok (.vectorTransport g (.toScalar l d p)) else .error .lookahead
  else
    let s ← VSource.ofBits (w.extractLsb' 0 11)
    match VDst.ofNum n with
    | some d => if l = 0 then .ok (.vectorTransport g (.toVec d s)) else .error .lookahead
    | none =>
      match VTrig.ofNum n with
      | some t => if l = 0 ∨ t.long then .ok (t.instr g l s) else .error .lookahead
      | none => .error .destination

/-- The destinations on which H = 1 is legal (R44): g1-g31, operand ports, writable special ports but mfill. -/
def SDst.shiftable : SDst → Bool
  | .g r => r ≠ 0
  | .opnd _ => true
  | .special p => p.writable && p ≠ .mfill
  | _ => false

/-- Class 10 (R44): a long immediate. Its destination number has nine bits, 0x000-0x1FF. -/
def decodeImmediate (w : BitVec 32) (g : Guard) : Except Illegal Instr := do
  let d ← SDst.ofNum (w.extractLsb' 16 9).toNat
  let i : BitVec 16 := w.extractLsb' 0 16
  if w.getLsbD 25 then
    if d.shiftable then .ok (.liShiftInsert g d i) else .error .shiftInsert
  else .ok (.li g d i)

/-- Class 11 (R32, R45 to R47): control. -/
def decodeControl (w : BitVec 32) (g : Guard) : Except Illegal Instr :=
  let f : BitVec 22 := w.extractLsb' 0 22
  match (w.extractLsb' 22 4).toNat with
  | 0 => .ok (.br g f)
  | 1 => .ok (.brl g f)
  | 2 =>
    if f.extractLsb' 0 5 = 0 then
      .ok (.rep g (f.extractLsb' 16 6) (f.extractLsb' 12 4) (f.extractLsb' 9 3) (f.extractLsb' 5 4))
    else .error .repField
  | 3 => if f = 0 then .ok (.nop g) else .error .nopField
  | _ => .error .op4

/-- The instruction of a word, or the name of what makes it none (R32, R55). -/
def decodeWord (w : BitVec 32) : Except Illegal Instr := do
  if w = 0 ∨ w = 0xFFFFFFFF then .error .zeroOrOnes
  else
    let g ← Guard.ofBits (w.extractLsb' 26 4)
    match (w.extractLsb' 30 2).toNat with
    | 0 => do
      let d ← SDst.ofNum (w.extractLsb' 11 11).toNat
      let s ← Src.ofBits (w.extractLsb' 0 11)
      decodeScalar g (w.extractLsb' 22 4) d s
    | 1 => decodeVector w g
    | 2 => decodeImmediate w g
    | _ => decodeControl w g

/-- Decoding, total on every word: what is no instruction is the row ENCODING_NOT_AN_INSTRUCTION (R55). -/
def decode (w : BitVec 32) : Instr :=
  match decodeWord w with
  | .ok i => i
  | .error _ => .encodingNotAnInstruction w

/-- Four bytes as an instruction word, the lowest address first (R5, R32). -/
def wordOfBytes (b0 b1 b2 b3 : Byte) : BitVec 32 := b3 ++ b2 ++ b1 ++ b0

/-- Decoding of bytes in memory order: the instruction and the bytes after it, or none where fewer than four
bytes are given. -/
def decodeBytes : List Byte → Option (Instr × List Byte)
  | b0 :: b1 :: b2 :: b3 :: rest => some (decode (wordOfBytes b0 b1 b2 b3), rest)
  | _ => none

/-- The instruction the decoder reads from a table word (every row of the table has 32 bits). -/
def decodeTableWord (nbits w : Nat) : Option Instr :=
  let v := BitVec.ofNat 32 (w % 2 ^ nbits)
  match decodeBytes [v.extractLsb' 0 8, v.extractLsb' 8 8, v.extractLsb' 16 8, v.extractLsb' 24 8] with
  | some (i, _) => some i
  | none => none

/-! ### Encoding -/

/-- A class 00 word (R32). -/
def word00 (g : Guard) (l : BitVec 4) (d : Nat) (s : Src) : BitVec 32 :=
  0b00#2 ++ g.bits ++ l ++ BitVec.ofNat 11 d ++ s.bits

/-- A class 01 word with dst.s = 0 (R32). -/
def word01 (g : Guard) (l : BitVec 4) (d : Nat) (s : VSource) : BitVec 32 :=
  0b01#2 ++ g.bits ++ l ++ 0#1 ++ BitVec.ofNat 10 d ++ s.bits

/-- A class 10 word (R44). -/
def word10 (g : Guard) (h : BitVec 1) (d : SDst) (i : BitVec 16) : BitVec 32 :=
  0b10#2 ++ g.bits ++ h ++ BitVec.ofNat 9 d.num ++ i

/-- A class 11 word (R32). -/
def word11 (g : Guard) (op : BitVec 4) (f : BitVec 22) : BitVec 32 := 0b11#2 ++ g.bits ++ op ++ f

/-- The words of an instruction: one for each of the 213 rows with bits, none for an event. -/
def encode : Instr → Option (BitVec 32)
  | .move g d s => some (word00 g 0 d.num s)
  | .vectorTransport g (.toVec d s) => some (word01 g 0 d.num s)
  | .vectorTransport g (.toScalar l d s) =>
    some (0b01#2 ++ g.bits ++ l ++ 1#1 ++ BitVec.ofNat 10 d.num ++ 0#1 ++ BitVec.ofNat 10 s.num)
  | .enqueue g n s => some (word00 g 0 (SDst.enq n).num s)
  | .tokenEnqueue g n s => some (word00 g 0 (SDst.tok n).num s)
  | .dequeue g d n => some (word00 g 0 d.num (.port (.deq n)))
  | .peek g d n => some (word00 g 0 d.num (.port (.peek n)))
  | .guardWrite g k s => some (word00 g 0 (SDst.k k).num s)
  | .xrndWrite g s => some (word00 g 0 (Special.num .xrnd) s)
  | .xflagsWrite g s => some (word00 g 0 (Special.num .xflags) s)
  | .xtenWrite g s => some (word00 g 0 (Special.num .xten) s)
  | .preqWrite g s => some (word00 g 0 (Special.num .preq) s)
  | .rfqWrite g s => some (word00 g 0 (Special.num .rfq) s)
  | .mvecWrite g s => some (word00 g 0 (Special.num .mvec) s)
  | .mfillWrite g s => some (word00 g 0 (Special.num .mfill) s)
  | .li g d i => some (word10 g 0 d i)
  | .liShiftInsert g d i => some (word10 g 1 d i)
  | .br g off => some (word11 g 0 off)
  | .brl g off => some (word11 g 1 off)
  | .rep g c st b la => some (word11 g 2 (c ++ st ++ b ++ la ++ 0#5))
  | .nop g => some (word11 g 3 0)
  | .add g s => some (word00 g 0 (Trig.num .add) s)
  | .sub g s => some (word00 g 0 (Trig.num .sub) s)
  | .addw g s => some (word00 g 0 (Trig.num .addw) s)
  | .subw g s => some (word00 g 0 (Trig.num .subw) s)
  | .and g s => some (word00 g 0 (Trig.num .and) s)
  | .or g s => some (word00 g 0 (Trig.num .or) s)
  | .xor g s => some (word00 g 0 (Trig.num .xor) s)
  | .andn g s => some (word00 g 0 (Trig.num .andn) s)
  | .shl g s => some (word00 g 0 (Trig.num .shl) s)
  | .shr g s => some (word00 g 0 (Trig.num .shr) s)
  | .sra g s => some (word00 g 0 (Trig.num .sra) s)
  | .shlw g s => some (word00 g 0 (Trig.num .shlw) s)
  | .shrw g s => some (word00 g 0 (Trig.num .shrw) s)
  | .sraw g s => some (word00 g 0 (Trig.num .sraw) s)
  | .rotl g s => some (word00 g 0 (Trig.num .rotl) s)
  | .min g s => some (word00 g 0 (Trig.num .min) s)
  | .max g s => some (word00 g 0 (Trig.num .max) s)
  | .minu g s => some (word00 g 0 (Trig.num .minu) s)
  | .maxu g s => some (word00 g 0 (Trig.num .maxu) s)
  | .mov g s => some (word00 g 0 (Trig.num .mov) s)
  | .sext g s => some (word00 g 0 (Trig.num .sext) s)
  | .zext g s => some (word00 g 0 (Trig.num .zext) s)
  | .bfx g s => some (word00 g 0 (Trig.num .bfx) s)
  | .clz g s => some (word00 g 0 (Trig.num .clz) s)
  | .ctz g s => some (word00 g 0 (Trig.num .ctz) s)
  | .popc g s => some (word00 g 0 (Trig.num .popc) s)
  | .ceq g s => some (word00 g 0 (Trig.num .ceq) s)
  | .cne g s => some (word00 g 0 (Trig.num .cne) s)
  | .clt g s => some (word00 g 0 (Trig.num .clt) s)
  | .cltu g s => some (word00 g 0 (Trig.num .cltu) s)
  | .cle g s => some (word00 g 0 (Trig.num .cle) s)
  | .cleu g s => some (word00 g 0 (Trig.num .cleu) s)
  | .shl16or g s => some (word00 g 0 (Trig.num .shl16or) s)
  | .mul g s => some (word00 g 0 (Trig.num .mul) s)
  | .mulw g s => some (word00 g 0 (Trig.num .mulw) s)
  | .mulh g s => some (word00 g 0 (Trig.num .mulh) s)
  | .mulhu g s => some (word00 g 0 (Trig.num .mulhu) s)
  | .div g l s => some (word00 g l (Trig.num .div) s)
  | .divu g l s => some (word00 g l (Trig.num .divu) s)
  | .rem g l s => some (word00 g l (Trig.num .rem) s)
  | .remu g l s => some (word00 g l (Trig.num .remu) s)
  | .fadd g s => some (word00 g 0 (Trig.num .fadd) s)
  | .fsub g s => some (word00 g 0 (Trig.num .fsub) s)
  | .fmul g s => some (word00 g 0 (Trig.num .fmul) s)
  | .fma g s => some (word00 g 0 (Trig.num .fma) s)
  | .fmin g s => some (word00 g 0 (Trig.num .fmin) s)
  | .fmax g s => some (word00 g 0 (Trig.num .fmax) s)
  | .fneg g s => some (word00 g 0 (Trig.num .fneg) s)
  | .fceq g s => some (word00 g 0 (Trig.num .fceq) s)
  | .fclt g s => some (word00 g 0 (Trig.num .fclt) s)
  | .fcle g s => some (word00 g 0 (Trig.num .fcle) s)
  | .fsqrt g l s => some (word00 g l (Trig.num .fsqrt) s)
  | .fdiv g l s => some (word00 g l (Trig.num .fdiv) s)
  | .fcvtI g s => some (word00 g 0 (Trig.num .fcvtI) s)
  | .fcvtF g s => some (word00 g 0 (Trig.num .fcvtF) s)
  | .fcvtBf g s => some (word00 g 0 (Trig.num .fcvtBf) s)
  | .fcvtE4 g s => some (word00 g 0 (Trig.num .fcvtE4) s)
  | .fcvtE5 g s => some (word00 g 0 (Trig.num .fcvtE5) s)
  | .fexpBf g s => some (word00 g 0 (Trig.num .fexpBf) s)
  | .fexpE4 g s => some (word00 g 0 (Trig.num .fexpE4) s)
  | .fexpE5 g s => some (word00 g 0 (Trig.num .fexpE5) s)
  | .fclass g s => some (word00 g 0 (Trig.num .fclass) s)
  | .ld8 g l s => some (word00 g l (Trig.num .ld8) s)
  | .ld8u g l s => some (word00 g l (Trig.num .ld8u) s)
  | .ld16 g l s => some (word00 g l (Trig.num .ld16) s)
  | .ld16u g l s => some (word00 g l (Trig.num .ld16u) s)
  | .ld32 g l s => some (word00 g l (Trig.num .ld32) s)
  | .ld32u g l s => some (word00 g l (Trig.num .ld32u) s)
  | .ld64 g l s => some (word00 g l (Trig.num .ld64) s)
  | .ld128 g l s => some (word00 g l (Trig.num .ld128) s)
  | .st8 g l s => some (word00 g l (Trig.num .st8) s)
  | .st16 g l s => some (word00 g l (Trig.num .st16) s)
  | .st32 g l s => some (word00 g l (Trig.num .st32) s)
  | .st64 g l s => some (word00 g l (Trig.num .st64) s)
  | .st128 g l s => some (word00 g l (Trig.num .st128) s)
  | .amoAddW g l s => some (word00 g l (Trig.num .amoAddW) s)
  | .amoAddD g l s => some (word00 g l (Trig.num .amoAddD) s)
  | .amoAndW g l s => some (word00 g l (Trig.num .amoAndW) s)
  | .amoAndD g l s => some (word00 g l (Trig.num .amoAndD) s)
  | .amoOrW g l s => some (word00 g l (Trig.num .amoOrW) s)
  | .amoOrD g l s => some (word00 g l (Trig.num .amoOrD) s)
  | .amoXorW g l s => some (word00 g l (Trig.num .amoXorW) s)
  | .amoXorD g l s => some (word00 g l (Trig.num .amoXorD) s)
  | .amoMinW g l s => some (word00 g l (Trig.num .amoMinW) s)
  | .amoMinD g l s => some (word00 g l (Trig.num .amoMinD) s)
  | .amoMaxW g l s => some (word00 g l (Trig.num .amoMaxW) s)
  | .amoMaxD g l s => some (word00 g l (Trig.num .amoMaxD) s)
  | .amoMinuW g l s => some (word00 g l (Trig.num .amoMinuW) s)
  | .amoMinuD g l s => some (word00 g l (Trig.num .amoMinuD) s)
  | .amoMaxuW g l s => some (word00 g l (Trig.num .amoMaxuW) s)
  | .amoMaxuD g l s => some (word00 g l (Trig.num .amoMaxuD) s)
  | .amoSwapW g l s => some (word00 g l (Trig.num .amoSwapW) s)
  | .amoSwapD g l s => some (word00 g l (Trig.num .amoSwapD) s)
  | .amoCasW g l s => some (word00 g l (Trig.num .amoCasW) s)
  | .amoCasD g l s => some (word00 g l (Trig.num .amoCasD) s)
  | .amoCasQ g l s => some (word00 g l (Trig.num .amoCasQ) s)
  | .amoFadd g l s => some (word00 g l (Trig.num .amoFadd) s)
  | .waddrW g s => some (word00 g 0 (Trig.num .waddrW) s)
  | .waddrD g s => some (word00 g 0 (Trig.num .waddrD) s)
  | .waddrGeW g s => some (word00 g 0 (Trig.num .waddrGeW) s)
  | .waddrGeD g s => some (word00 g 0 (Trig.num .waddrGeD) s)
  | .fence g s => some (word00 g 0 (Trig.num .fence) s)
  | .ddisc g l s => some (word00 g l (Trig.num .ddisc) s)
  | .dclean g l s => some (word00 g l (Trig.num .dclean) s)
  | .dinval g l s => some (word00 g l (Trig.num .dinval) s)
  | .sigAdd g l s => some (word00 g l (Trig.num .sigAdd) s)
  | .sigWait g s => some (word00 g 0 (Trig.num .sigWait) s)
  | .jr g s => some (word00 g 0 (Trig.num .jr) s)
  | .jrl g s => some (word00 g 0 (Trig.num .jrl) s)
  | .spawn g s => some (word00 g 0 (Trig.num .spawn) s)
  | .spawna g s => some (word00 g 0 (Trig.num .spawna) s)
  | .done g s => some (word00 g 0 (Trig.num .done) s)
  | .yield g s => some (word00 g 0 (Trig.num .yield) s)
  | .park g s => some (word00 g 0 (Trig.num .park) s)
  | .join g s => some (word00 g 0 (Trig.num .join) s)
  | .gbar g s => some (word00 g 0 (Trig.num .gbar) s)
  | .garrive g s => some (word00 g 0 (Trig.num .garrive) s)
  | .pyield g s => some (word00 g 0 (Trig.num .pyield) s)
  | .sleep g s => some (word00 g 0 (Trig.num .sleep) s)
  | .xgo g l s => some (word00 g l (Trig.num .xgo) s)
  | .xstop g l s => some (word00 g l (Trig.num .xstop) s)
  | .xwait g l s => some (word00 g l (Trig.num .xwait) s)
  | .ycopy g l s => some (word00 g l (Trig.num .ycopy) s)
  | .ycopyAdd g l s => some (word00 g l (Trig.num .ycopyAdd) s)
  | .ymcast g l s => some (word00 g l (Trig.num .ymcast) s)
  | .yring g l s => some (word00 g l (Trig.num .yring) s)
  | .yawait g s => some (word00 g 0 (Trig.num .yawait) s)
  | .yrel g l s => some (word00 g l (Trig.num .yrel) s)
  | .ypush g l s => some (word00 g l (Trig.num .ypush) s)
  | .ydesc g l s => some (word00 g l (Trig.num .ydesc) s)
  | .pctx g s => some (word00 g 0 (Trig.num .pctx) s)
  | .pscaleA g s => some (word00 g 0 (Trig.num .pscaleA) s)
  | .pscaleB g s => some (word00 g 0 (Trig.num .pscaleB) s)
  | .pld g s => some (word00 g 0 (Trig.num .pld) s)
  | .pmma g s => some (word00 g 0 (Trig.num .pmma) s)
  | .pmmas g s => some (word00 g 0 (Trig.num .pmmas) s)
  | .pdrain g s => some (word00 g 0 (Trig.num .pdrain) s)
  | .pclr g s => some (word00 g 0 (Trig.num .pclr) s)
  | .pflags g s => some (word00 g 0 (Trig.num .pflags) s)
  | .pjoin g s => some (word00 g 0 (Trig.num .pjoin) s)
  | .dpatch g s => some (word00 g 0 (Trig.num .dpatch) s)
  | .dsety g s => some (word00 g 0 (Trig.num .dsety) s)
  | .dsetr g s => some (word00 g 0 (Trig.num .dsetr) s)
  | .dgety g l s => some (word00 g l (Trig.num .dgety) s)
  | .dgetr g l s => some (word00 g l (Trig.num .dgetr) s)
  | .dclk g s => some (word00 g 0 (Trig.num .dclk) s)
  | .drun g s => some (word00 g 0 (Trig.num .drun) s)
  | .dhalt g s => some (word00 g 0 (Trig.num .dhalt) s)
  | .dsave g s => some (word00 g 0 (Trig.num .dsave) s)
  | .drest g s => some (word00 g 0 (Trig.num .drest) s)
  | .dstat g s => some (word00 g 0 (Trig.num .dstat) s)
  | .hinit g s => some (word00 g 0 (Trig.num .hinit) s)
  | .hoffer g s => some (word00 g 0 (Trig.num .hoffer) s)
  | .hdrain g s => some (word00 g 0 (Trig.num .hdrain) s)
  | .hroute g l s => some (word00 g l (Trig.num .hroute) s)
  | .trap g s => some (word00 g 0 (Trig.num .trap) s)
  | .tret g s => some (word00 g 0 (Trig.num .tret) s)
  | .tfence g s => some (word00 g 0 (Trig.num .tfence) s)
  | .idle g s => some (word00 g 0 (Trig.num .idle) s)
  | .vaddF g s => some (word01 g 0 (VTrig.num .vaddF) s)
  | .vsubF g s => some (word01 g 0 (VTrig.num .vsubF) s)
  | .vmulF g s => some (word01 g 0 (VTrig.num .vmulF) s)
  | .vfmaF g s => some (word01 g 0 (VTrig.num .vfmaF) s)
  | .vmaxF g s => some (word01 g 0 (VTrig.num .vmaxF) s)
  | .vminF g s => some (word01 g 0 (VTrig.num .vminF) s)
  | .vexp2F g s => some (word01 g 0 (VTrig.num .vexp2F) s)
  | .vrcpF g s => some (word01 g 0 (VTrig.num .vrcpF) s)
  | .vrsqF g s => some (word01 g 0 (VTrig.num .vrsqF) s)
  | .vcvtBf g s => some (word01 g 0 (VTrig.num .vcvtBf) s)
  | .vcvtE4 g s => some (word01 g 0 (VTrig.num .vcvtE4) s)
  | .vcvtE5 g s => some (word01 g 0 (VTrig.num .vcvtE5) s)
  | .vunpBf g s => some (word01 g 0 (VTrig.num .vunpBf) s)
  | .vunpE4 g s => some (word01 g 0 (VTrig.num .vunpE4) s)
  | .vunpE5 g s => some (word01 g 0 (VTrig.num .vunpE5) s)
  | .vaddI g s => some (word01 g 0 (VTrig.num .vaddI) s)
  | .vsubI g s => some (word01 g 0 (VTrig.num .vsubI) s)
  | .vmulI g s => some (word01 g 0 (VTrig.num .vmulI) s)
  | .vand g s => some (word01 g 0 (VTrig.num .vand) s)
  | .vor g s => some (word01 g 0 (VTrig.num .vor) s)
  | .vxor g s => some (word01 g 0 (VTrig.num .vxor) s)
  | .vshl g s => some (word01 g 0 (VTrig.num .vshl) s)
  | .vshr g s => some (word01 g 0 (VTrig.num .vshr) s)
  | .vsra g s => some (word01 g 0 (VTrig.num .vsra) s)
  | .vceqF g s => some (word01 g 0 (VTrig.num .vceqF) s)
  | .vcltF g s => some (word01 g 0 (VTrig.num .vcltF) s)
  | .vsel g s => some (word01 g 0 (VTrig.num .vsel) s)
  | .vbc g s => some (word01 g 0 (VTrig.num .vbc) s)
  | .vrot g s => some (word01 g 0 (VTrig.num .vrot) s)
  | .vperm g s => some (word01 g 0 (VTrig.num .vperm) s)
  | .vsumF g s => some (word01 g 0 (VTrig.num .vsumF) s)
  | .vmaxR g s => some (word01 g 0 (VTrig.num .vmaxR) s)
  | .vld g l s => some (word01 g l (VTrig.num .vld) s)
  | .vst g l s => some (word01 g l (VTrig.num .vst) s)
  | .encodingNotAnInstruction w => some w
  | _ => none

end Sys2Proof
end

