-- ==== Sys2Proof/Machine/Float.lean ====
section
/-! DEFINITION. The arithmetic promise (R56 to R67): formats, exact values, the one rounding function, the SR
generator, and the exact operations of F, V and the engines. A code is kept in 32 bits whatever its format. -/

namespace Sys2Proof.Machine

/-- The seven arithmetic flags in the layout of R71: SAT IDZ NV DZ OF UF NX. -/
abbrev Flags := BitVec 7

def flagNX : Flags := 1
def flagUF : Flags := 2
def flagOF : Flags := 4
def flagDZ : Flags := 8
def flagNV : Flags := 16
def flagIDZ : Flags := 32
def flagSAT : Flags := 64

/-- A floating-point format (R57, R58): fraction bits, exponent bits, emin, the code of the largest finite value. -/
structure Fmt where
  frac : Nat
  expo : Nat
  emin : Int
  maxCode : Nat
  /-- the format has infinities (all but E4M3) -/
  hasInf : Bool
  nanCode : Nat
  deriving DecidableEq, Repr

def fp32 : Fmt := ⟨23, 8, -126, 0x7F7FFFFF, true, 0x7FC00000⟩
def bf16 : Fmt := ⟨7, 8, -126, 0x7F7F, true, 0x7FC0⟩
def e5m2 : Fmt := ⟨2, 5, -14, 0x7B, true, 0x7E⟩
def e4m3 : Fmt := ⟨3, 4, -6, 0x7E, false, 0x7F⟩

/-- The position of the sign bit. -/
def Fmt.sign (f : Fmt) : Nat := f.frac + f.expo
/-- The code of +∞ in a format that has one. -/
def Fmt.infCode (f : Fmt) : Nat := (2 ^ f.expo - 1) * 2 ^ f.frac
/-- The exponent of a subnormal's last place. -/
def Fmt.qmin (f : Fmt) : Int := f.emin - f.frac

/-- A value: a NaN, an infinity, or the exact number (-1)^neg × m × 2^e. -/
inductive FVal where
  | nan (signalling : Bool)
  | inf (neg : Bool)
  | num (neg : Bool) (m : Nat) (e : Int)
  deriving DecidableEq, Repr

/-- The value of a code (R57, R59). Bits above the format's width are ignored. -/
def Fmt.value (f : Fmt) (c : Nat) : FVal :=
  let neg := c.testBit f.sign
  let a := c % 2 ^ f.sign
  let ex := a / 2 ^ f.frac
  let fr := a % 2 ^ f.frac
  if f.hasInf then
    if ex = 2 ^ f.expo - 1 then
      if fr = 0 then .inf neg else .nan (!fr.testBit (f.frac - 1))
    else if ex = 0 then .num neg fr f.qmin
    else .num neg (fr + 2 ^ f.frac) (f.qmin + ex - 1)
  else if a = f.nanCode then .nan false
  else if ex = 0 then .num neg fr f.qmin
  else .num neg (fr + 2 ^ f.frac) (f.qmin + ex - 1)

def FVal.isNaN : FVal → Bool
  | .nan _ => true
  | _ => false

def FVal.isSNaN : FVal → Bool
  | .nan b => b
  | _ => false

/-- NV for a signalling operand (R59). -/
def FVal.nv (v : FVal) : Flags := if v.isSNaN then flagNV else 0

/-- The rounding in force: xrnd.mode and xrnd.sat as captured (R68). -/
structure Rm where
  mode : Nat
  sat : Bool
  deriving DecidableEq, Repr

/-- Round to nearest even, the rounding of the engines. -/
def Rm.rne : Rm := ⟨0, false⟩

/-- A result: its code and the flags it sets. -/
structure FRes where
  code : W32
  flags : Flags
  deriving DecidableEq, Repr

/-- A signed code. -/
def Fmt.code (f : Fmt) (neg : Bool) (a : Nat) : W32 :=
  BitVec.ofNat 32 (a + if neg then 2 ^ f.sign else 0)

def Fmt.nanRes (f : Fmt) (fl : Flags) : FRes := ⟨BitVec.ofNat 32 f.nanCode, fl⟩

/-- Overflow (R65, R66). -/
def Fmt.overflow (f : Fmt) (rm : Rm) (neg : Bool) : FRes :=
  if f.hasInf then
    let toMax := rm.mode = 1 ∨ (rm.mode = 2 ∧ neg) ∨ (rm.mode = 3 ∧ !neg)
    ⟨f.code neg (if toMax then f.maxCode else f.infCode), flagOF ||| flagNX⟩
  else if rm.sat then ⟨f.code neg f.maxCode, flagOF ||| flagNX ||| flagSAT⟩
  else ⟨BitVec.ofNat 32 f.nanCode, flagOF ||| flagNX⟩

/-- An infinite result (R59, R66): exact where the format has infinities, an overflow in E4M3. -/
def Fmt.infinite (f : Fmt) (rm : Rm) (neg : Bool) : FRes :=
  if f.hasInf then ⟨f.code neg f.infCode, 0⟩ else f.overflow rm neg

/-- The choice between the grid neighbours `lo` and `lo + 1` (R64). The value lies `rem` of `2 ^ sh` above `lo`, and a
little more where `sticky`; `odd` is the last bit of `lo`; `r` is the SR draw. The reserved modes 6 and 7 round up as SR does by
the value `r` that they are given, which is free (log entry 49). -/
def roundUp (mode : Nat) (neg odd : Bool) (rem sh : Nat) (sticky : Bool) (r : Nat) : Bool :=
  if rem = 0 ∧ !sticky then false
  else
    match mode with
    | 0 => decide (2 * rem > 2 ^ sh) || (decide (2 * rem = 2 ^ sh) && (sticky || odd))
    | 1 => false
    | 2 => !neg
    | 3 => neg
    | 4 => decide (2 * rem ≥ 2 ^ sh)
    | _ => decide (rem * 65536 > r * 2 ^ sh) || (sticky && decide (rem * 65536 = r * 2 ^ sh))

/-- A number scaled to a grid of quantum `q`: the multiple below it, what is left, and the shift. -/
def scaleTo (m : Nat) (e q : Int) : Nat × Nat × Nat :=
  if e ≥ q then (m * 2 ^ (e - q).toNat, 0, 0)
  else
    let sh := (q - e).toNat
    (m / 2 ^ sh, m % 2 ^ sh, sh)

/-- Round (R64): the exact value (-1)^neg × m × 2^e, or a little more in magnitude where `sticky` (then `m` has
at least 17 bits more than the format keeps). -/
def Fmt.round (f : Fmt) (rm : Rm) (r : Nat) (neg : Bool) (m : Nat) (e : Int) (sticky : Bool := false) : FRes :=
  if m = 0 then ⟨f.code neg 0, 0⟩
  else
    let top : Int := e + Nat.log2 m
    let q : Int := (if top < f.emin then f.emin else top) - f.frac
    let (lo, rem, sh) := scaleTo m e q
    let up := roundUp rm.mode neg (lo % 2 = 1) rem sh sticky r
    let k := if up then lo + 1 else lo
    let exact := rem = 0 ∧ !sticky
    let a := (q - f.qmin).toNat * 2 ^ f.frac + k
    if a > f.maxCode then f.overflow rm neg
    else
      ⟨f.code neg a,
        (if exact then 0 else flagNX) ||| (if top < f.emin ∧ ¬exact then flagUF else 0)⟩

/-! ### The SR generator (R67) -/

/-- One shift of the generator. -/
def lfsrBit (x : W32) : W32 :=
  let y := x >>> 1
  if x.getLsbD 0 then y ^^^ 0x80200003 else y

/-- `n` shifts. -/
def lfsrShift : Nat → W32 → W32
  | 0, x => x
  | n + 1, x => lfsrShift n (lfsrBit x)

/-- A draw: the 16-bit number and the next state. -/
def draw (x : W32) : Nat × W32 :=
  let s := if x = 0 then 1 else x
  ((s.extractLsb' 0 16).toNat, lfsrShift 16 s)

/-! ### Exact operations -/

/-- A signed integer times 2^e as sign and magnitude, with the sign of a zero given. -/
def ofInt (z : Bool) (v : Int) (e : Int) : FVal :=
  if v = 0 then .num z 0 e else .num (decide (v < 0)) v.natAbs e

/-- The signed magnitude of a number's significand. -/
def signed (neg : Bool) (m : Nat) : Int := if neg then -(m : Int) else m

/-- The exact sum of two numbers; a zero sum has the sign of R60. -/
def exactAdd (mode : Nat) (na : Bool) (ma : Nat) (ea : Int) (nb : Bool) (mb : Nat) (eb : Int) : FVal :=
  let e := if ea ≤ eb then ea else eb
  let v := signed na ma * 2 ^ (ea - e).toNat + signed nb mb * 2 ^ (eb - e).toNat
  let z := if ma = 0 ∧ mb = 0 ∧ na = nb then na else mode = 3
  ofInt z v e

/-- Addition (R60, R85). -/
def Fmt.add (f : Fmt) (rm : Rm) (r : Nat) (a b : FVal) : FRes :=
  let nv := a.nv ||| b.nv
  match a, b with
  | .nan _, _ => f.nanRes nv
  | _, .nan _ => f.nanRes nv
  | .inf x, .inf y => if x = y then f.infinite rm x else f.nanRes flagNV
  | .inf x, .num _ _ _ => f.infinite rm x
  | .num _ _ _, .inf y => f.infinite rm y
  | .num na ma ea, .num nb mb eb =>
    match exactAdd rm.mode na ma ea nb mb eb with
    | .num n m e => f.round rm r n m e
    | _ => f.nanRes 0

/-- The negation of a value. -/
def FVal.neg : FVal → FVal
  | .nan s => .nan s
  | .inf n => .inf (!n)
  | .num n m e => .num (!n) m e

/-- Fused multiply-add `a × b + c` (R85). -/
def Fmt.fma (f : Fmt) (rm : Rm) (r : Nat) (a b c : FVal) : FRes :=
  let nv := a.nv ||| b.nv ||| c.nv
  let zeroInf := f.nanRes (nv ||| flagNV)
  match a, b with
  | .nan _, _ => f.nanRes nv
  | _, .nan _ => f.nanRes nv
  | .inf _, .num _ 0 _ => zeroInf
  | .num _ 0 _, .inf _ => zeroInf
  | .inf x, .inf y => addInf (x != y) c nv
  | .inf x, .num y _ _ => addInf (x != y) c nv
  | .num x _ _, .inf y => addInf (x != y) c nv
  | .num x mx ex, .num y my ey =>
    match c with
    | .nan _ => f.nanRes nv
    | .inf z => f.infinite rm z
    | .num z mz ez =>
      match exactAdd rm.mode (x != y) (mx * my) (ex + ey) z mz ez with
      | .num n m e => f.round rm r n m e
      | _ => f.nanRes 0
where
  /-- an infinite product plus `c` -/
  addInf (p : Bool) (c : FVal) (nv : Flags) : FRes :=
    match c with
    | .nan _ => f.nanRes nv
    | .inf z => if z = p then f.infinite rm p else f.nanRes flagNV
    | .num _ _ _ => f.infinite rm p

/-- Multiplication (R85). -/
def Fmt.mul (f : Fmt) (rm : Rm) (r : Nat) (a b : FVal) : FRes :=
  let nv := a.nv ||| b.nv
  match a, b with
  | .nan _, _ => f.nanRes nv
  | _, .nan _ => f.nanRes nv
  | .inf _, .num _ 0 _ => f.nanRes flagNV
  | .num _ 0 _, .inf _ => f.nanRes flagNV
  | .inf x, .inf y => f.infinite rm (x != y)
  | .inf x, .num y _ _ => f.infinite rm (x != y)
  | .num x _ _, .inf y => f.infinite rm (x != y)
  | .num x mx ex, .num y my ey => f.round rm r (x != y) (mx * my) (ex + ey)

/-- The bits of quotient kept beyond the dividend's: enough for every format and for SR. -/
def quotBits : Nat := 128

/-- Division (R85). -/
def Fmt.div (f : Fmt) (rm : Rm) (r : Nat) (a b : FVal) : FRes :=
  let nv := a.nv ||| b.nv
  match a, b with
  | .nan _, _ => f.nanRes nv
  | _, .nan _ => f.nanRes nv
  | .inf _, .inf _ => f.nanRes flagNV
  | .inf x, .num y _ _ => f.infinite rm (x != y)
  | .num x _ _, .inf y => ⟨f.code (x != y) 0, 0⟩
  | .num x mx ex, .num y my ey =>
    if my = 0 then
      if mx = 0 then f.nanRes flagNV
      else
        let v := f.infinite rm (x != y)
        ⟨v.code, v.flags ||| flagDZ⟩
    else
      let n := mx * 2 ^ quotBits
      f.round rm r (x != y) (n / my) (ex - ey - quotBits) (n % my != 0)

/-- The integer square root, two bits of the argument a step, from bit pair `k` down. -/
def isqrtGo : Nat → Nat → Nat → Nat
  | 0, _, root => root
  | k + 1, n, root =>
    let t := root + 2 ^ k
    isqrtGo k n (if t * t ≤ n then t else root)

/-- The integer square root. -/
def isqrt (n : Nat) : Nat := isqrtGo (Nat.log2 n / 2 + 1) n 0

/-- Square root (R85). -/
def Fmt.sqrt (f : Fmt) (rm : Rm) (r : Nat) (a : FVal) : FRes :=
  match a with
  | .nan _ => f.nanRes a.nv
  | .inf neg => if neg then f.nanRes flagNV else f.infinite rm false
  | .num neg m e =>
    if m = 0 then ⟨f.code neg 0, 0⟩
    else if neg then f.nanRes flagNV
    else
      let odd := (e % 2).toNat
      let n := m * 2 ^ (odd + quotBits)
      let root := isqrt n
      f.round rm r false root ((e - odd - quotBits) / 2) (root * root != n)

/-- Reciprocal square root of a value (R94). -/
def Fmt.rsqrt (f : Fmt) (rm : Rm) (r : Nat) (a : FVal) : FRes :=
  match a with
  | .nan _ => f.nanRes a.nv
  | .inf neg => if neg then f.nanRes flagNV else ⟨f.code false 0, 0⟩
  | .num neg m e =>
    if m = 0 then
      let v := f.infinite rm neg
      ⟨v.code, v.flags ||| flagDZ⟩
    else if neg then f.nanRes flagNV
    else
      -- 1/√(m·2^e) = √(2^K/m) · 2^((-e-K)/2), with K + e even
      let k := 2 * quotBits + (e % 2).toNat
      let root := isqrt (2 ^ k / m)
      f.round rm r false root ((-e - k) / 2) (root * root * m != 2 ^ k)

/-- Reciprocal (R94): 1 / a, with a zero of either sign raising DZ. -/
def Fmt.rcp (f : Fmt) (rm : Rm) (r : Nat) (a : FVal) : FRes := f.div rm r (.num false 1 0) a

/-- The working precision of 2^x, in fraction bits (log entry 11). -/
def expBits : Nat := 320

/-- 2^f in `expBits` fraction bits for the binary fraction f whose bits, highest first, are those of `fr` below bit
`n`. `c` is 2 to the weight of the bit before; `acc` is the product so far. -/
def exp2Go : Nat → Nat → Nat → Nat → Nat
  | 0, _, _, acc => acc
  | n + 1, fr, c, acc =>
    let c' := isqrt (c * 2 ^ expBits)
    exp2Go n fr c' (if fr.testBit n then acc * c' / 2 ^ expBits else acc)

/-- 2^a (R94). An integer exponent is exact; any other is irrational and so inexact. -/
def Fmt.exp2 (f : Fmt) (rm : Rm) (r : Nat) (a : FVal) : FRes :=
  match a with
  | .nan _ => f.nanRes a.nv
  | .inf neg => if neg then ⟨f.code false 0, 0⟩ else f.infinite rm false
  | .num neg m e =>
    if e ≥ 0 then f.round rm r false 1 (clip (signed neg m * 2 ^ e.toNat))
    else
      let k := (-e).toNat
      let v := signed neg m
      let n := clip (v / 2 ^ k)
      let fr := (v % 2 ^ k).toNat
      if fr = 0 then f.round rm r false 1 n
      else f.round rm r false (exp2Go k fr (2 * 2 ^ expBits) (2 ^ expBits)) (n - expBits) true
where
  /-- beyond ±1000 the result's code and flags no longer change -/
  clip (n : Int) : Int := if n > 1000 then 1000 else if n < -1000 then -1000 else n

/-- Conversion of a value into a format (R90). -/
def Fmt.convert (f : Fmt) (rm : Rm) (r : Nat) (a : FVal) : FRes :=
  match a with
  | .nan _ => f.nanRes a.nv
  | .inf n => f.infinite rm n
  | .num n m e => f.round rm r n m e

/-- Exact widening to FP32 (R90). -/
def widen (f : Fmt) (c : Nat) : FRes := fp32.convert Rm.rne 0 (f.value c)

/-- Rounding to an integer (R89): the result in 64 bits and its flags. -/
def toInt64 (rm : Rm) (r : Nat) (a : FVal) : Word × Flags :=
  let big (neg : Bool) : Word × Flags :=
    (if neg then 0x8000000000000000 else 0x7FFFFFFFFFFFFFFF, flagNV ||| flagSAT)
  match a with
  | .nan _ => (0, flagNV)
  | .inf n => big n
  | .num neg m e =>
    let (lo, rem, sh) := scaleTo m e 0
    let k := if roundUp rm.mode neg (lo % 2 = 1) rem sh false r then lo + 1 else lo
    let v := signed neg k
    if v < -(2 ^ 63) ∨ v ≥ 2 ^ 63 then big neg
    else (BitVec.ofInt 64 v, if rem = 0 then 0 else flagNX)

/-- `a < b` for values that are no NaN; zeros compare equal. -/
def FVal.lt (a b : FVal) : Bool :=
  match a, b with
  | .nan _, _ => false
  | _, .nan _ => false
  | .inf true, .inf true => false
  | .inf true, _ => true
  | .inf false, _ => false
  | .num _ _ _, .inf n => !n
  | .num na ma ea, .num nb mb eb =>
    let e := if ea ≤ eb then ea else eb
    decide (signed na ma * 2 ^ (ea - e).toNat < signed nb mb * 2 ^ (eb - e).toNat)

/-- Equality of value (R88): false with a NaN. -/
def FVal.eq (a b : FVal) : Bool := !a.isNaN && !b.isNaN && !a.lt b && !b.lt a

/-- Below in the order of R86: −0 below +0, otherwise by value. -/
def FVal.below (a b : FVal) : Bool :=
  a.lt b ||
    match a, b with
    | .num true 0 _, .num false 0 _ => true
    | _, _ => false

/-- fmin and fmax on FP32 codes (R86). -/
def minMax (isMax : Bool) (a b : W32) : FRes :=
  let x := fp32.value a.toNat
  let y := fp32.value b.toNat
  let fl := x.nv ||| y.nv
  if x.isNaN ∧ y.isNaN then ⟨0x7FC00000, fl⟩
  else if x.isNaN then ⟨b, fl⟩
  else if y.isNaN then ⟨a, fl⟩
  else if isMax then ⟨if x.below y then b else a, fl⟩
  else ⟨if y.below x then b else a, fl⟩

/-- The class bit of an FP32 code (R91). -/
def fclassOf (c : W32) : Word :=
  let neg := c.getLsbD 31
  match fp32.value c.toNat with
  | .nan true => 0x100
  | .nan false => 0x200
  | .inf _ => if neg then 0x001 else 0x080
  | .num _ m _ =>
    if m = 0 then (if neg then 0x008 else 0x010)
    else if m < 2 ^ 23 then (if neg then 0x004 else 0x020)
    else (if neg then 0x002 else 0x040)

end Sys2Proof.Machine
end

