-- ==== Sys2Proof/Config.lean ====
section
/-! DEFINITION. What one implementation fixes, and the free values: constants without a body, which no proof can evaluate. -/

namespace Sys2Proof.Config

/-- The free values: draw `n` of the run. A latency beyond its unloaded least figure (R22), and a choice the
manual leaves open (R223, R224), are read from here. DESIGN CHOICE, log entry 2. -/
opaque free : Nat → Nat

/-- The device identity key's ECDSA signature of a digest (R336). Log entry 10. -/
opaque identitySign : BitVec 384 → List Byte

/-- What a call of Round under an xrnd of reserved mode 6 or 7 rounds by (R68). Log entry 49. -/
opaque reservedMode : BitVec 64 → Nat

/-- The byte at an offset of BAR0 that the spec gives no contents, at draw `n` of the run (R325). Log entry 48. -/
opaque barByte (n off : Nat) : Byte

/-- Which of its home die's 48 slices an HBM line belongs to, by line number, modulo 48 (R15, R26): the spec does not say. Log
entry 8. -/
opaque homeSlice (line : Nat) : Nat

/-- The rounding state of a sequence that tret or a restored frame starts where none was interrupted (R70, R355), at draw `n`
of the run: the spec does not say. Log entry 51. -/
opaque startRnd (n : Nat) : BitVec 64

/-- The device serial number (R336), fixed in fuses. Log entry 10. -/
opaque serial : BitVec 128

/-- This device's number in the domain, 13 bits (R318, R336). Log entry 10. -/
opaque deviceNumber : BitVec 13

/-- The spine ROM's text, measured into M0 (R335). Log entry 10. -/
opaque rom : List Byte
/-- The errata patch in flash, its version and its signature (R335). Log entry 10. -/
opaque patch : List Byte
opaque patchVersion : BitVec 32
opaque patchSignature : List Byte
/-- The Kelist firmware key, its digest as fused, and the fused rollback counter (R335). Log entry 10. -/
opaque firmwareKey : List Byte
opaque firmwareDigest : BitVec 384
opaque rollback : BitVec 32
/-- The fuse configuration (M2) and the link and domain configuration (M3) (R335). Log entry 10. -/
opaque fuses : List Byte
opaque linkConfig : List Byte
/-- The certificate message of the identity key (R336). Log entry 10. -/
opaque certificate : List Byte
/-- What follows the header of an SPDM CAPABILITIES response (R336). Log entry 24. -/
opaque spdmCapabilities : List Byte
/-- The standard identifier and vendor identifier of vendor-defined SPDM messages (R336). Log entry 24. -/
opaque spdmVendor : List Byte

end Sys2Proof.Config
end

