-- ==== Sys2Proof/Machine/State.lean ====
section
/-! DEFINITION. The state of one module as plain data, the reasons a step can stop, and the state after reset. -/

namespace Sys2Proof.Machine

/-! ### Threads -/

/-- User or monitor mode (R303). -/
inductive Mode where
  | user | monitor
  deriving DecidableEq, Repr

/-- The life of a slot: bound and in the rotation, suspended (a stage thread that keeps its slot), or stopped by a
double fault (R219, R244, R352). An idle slot is bound to no thread; only the slot in focus is stored while idle. -/
inductive Life where
  | idle | running | suspended | stopped
  deriving DecidableEq, Repr

/-- A trap to take: the columns of R344. -/
structure TrapInfo where
  cause : Nat
  detail : Nat := 0
  info : W32 := 0
  maddr : Word := 0
  mtpc : Word := 0
  nx : Bool := false
  /-- owed to a thread whose sequence faulted: mtpc is the transport at which it is taken (R102) -/
  here : Bool := false
  deriving DecidableEq, Repr

/-- A unit's window and the operation it waits for (R39, R40, R349). -/
structure Pend where
  isOpen : Bool := false
  /-- transports still to count -/
  left : Nat := 0
  /-- the operation's completion cycle, once `known` -/
  doneAt : Nat := 0
  /-- false while the operation waits for an event of its engine -/
  known : Bool := true
  /-- the operation writes its result port -/
  hasRes : Bool := false
  r : Word := 0
  r2 : Word := 0
  v : Vec := 0
  flags : BitVec 7 := 0
  /-- the operation acquires (R171) -/
  acq : Bool := false
  /-- the window of a repetition, which any class 01 word ends (R47) -/
  rep : Bool := false
  /-- a trap delivered in the cycle the result would become visible -/
  trap : Option TrapInfo := none
  deriving DecidableEq, Repr

/-- A result of a fixed-latency unit that is not visible yet (R42, R79). -/
structure Flight where
  /-- the result port it writes; none is v.r -/
  port : Option Latch
  due : Nat
  r : Word := 0
  v : Vec := 0
  flags : BitVec 7 := 0
  deriving DecidableEq, Repr

/-- A repetition sequence (R47, R101, R350), with xrnd as captured at the rep (R70). -/
structure Rep where
  act : Bool := false
  gv : BitVec 8 := 0
  word : Nat := 0
  pass : Nat := 0
  bm1 : Nat := 0
  stride : Nat := 0
  cm1 : Nat := 0
  addr : Word := 0
  /-- the block's words in V's repetition buffer -/
  words : List (BitVec 32) := []
  scal : Vector Word 8 := Vector.replicate 8 0
  xrnd : Word := 0
  /-- the earliest cycle of the next block word -/
  next : Nat := 0
  /-- the cycle of the rep -/
  since : Nat := 0
  deriving DecidableEq, Repr

/-- A queue binding word (R348). -/
structure Binding where
  bound : Bool := false
  prod : Bool := false
  chan : Nat := 0
  deriving DecidableEq, Repr

/-- A retry latch (R339, R351): the held transport, its fault and operands, and its retry-ring slot. -/
structure Retry where
  /-- trigger port of the held transport; 0 for an instruction fetch -/
  trig : Nat
  kind : Nat
  addr : Word
  lo : Word := 0
  lo2 : Word := 0
  lo3 : Word := 0
  pc : Word := 0
  /-- fault identifier of its record (R340), or the ring slot it waits on (R341) -/
  id : Nat := 0
  ring : Option Nat := none
  /-- the held transport's lookahead field -/
  look : Nat := 0
  /-- an access refused after it had left: its thread had gone on, and its window is closed meanwhile, `look` its remaining
  count (R192, R308, R371) -/
  late : Bool := false
  /-- what such a vst stores -/
  data : Option Vec := none
  /-- a word of the thread's repetition sequence, which the fault suspends; the thread's own hold stays (R102) -/
  seq : Bool := false
  deriving DecidableEq, Repr

/-- A posted store on its way (R167): its target and bytes, when it is performed, and whether its target refuses it. -/
structure Posted where
  cell : Nat
  bytes : List Byte
  due : Nat
  cls : Nat := 0
  va : Word := 0
  key : Nat := 0
  /-- 0 performed, else the fault kind of the refusal (R193) -/
  refuse : Nat := 0
  /-- it goes to a scratchpad (R165) -/
  scr : Bool := false
  /-- retrains its packet has met (R371) -/
  retr : Nat := 0
  /-- held in the write-combining buffer (R168) -/
  wcb : Bool := false
  /-- the unit that issued it (R163), the latency of its way to its target, and the cycle of its trigger -/
  u : Win := .l
  lat : Nat := 0
  since : Nat := 0
  /-- the bytes performed at a time, single-copy atomic (R180) -/
  grain : Nat := 8
  deriving DecidableEq, Repr

/-- A load, or a store that is not posted, that has issued and is not yet performed (R165, R166, R171). It is performed
in pieces of `grain` bytes, each single-copy atomic (R180). -/
structure Access where
  /-- the unit whose window it answers; a word of a repetition sequence answers the sequence (R102) -/
  u : Win
  seq : Bool := false
  load : Bool
  cell : Nat
  aes : Nat := 0
  /-- it reads peer or host memory, as the core sees it (R164, R178) -/
  viewed : Bool := false
  n : Nat
  grain : Nat
  /-- a load's value is sign-extended -/
  sext : Bool := false
  /-- a store's bytes, or a load's bytes read so far, and how many are performed -/
  bytes : List Byte := []
  off : Nat := 0
  cls : Nat := 0
  /-- the scope at which it acquires (R171) -/
  acq : Option Nat := none
  /-- the cycle by which it is performed, and the one in which it completes -/
  due : Nat
  done : Nat
  /-- the cycle of its trigger -/
  since : Nat := 0
  /-- its address, l.o and the address of its trigger, for a fault found after it has left (R192), and the retrains its
  packet has met (R371) -/
  va : Word := 0
  lo : Word := 0
  pc : Word := 0
  retr : Nat := 0
  deriving DecidableEq, Repr

/-- What a release of a thread that goes on has still to do, once its earlier accesses are performed (R176, R258, R262): a
record to queue from a die, or to leave waiting; an arrival at a group. `since`: the cycle of its trigger. -/
structure Release where
  rec_ : Word := 0
  die : Nat := 0
  group : Option Nat := none
  since : Nat
  deriving DecidableEq, Repr

/-- Why a bound slot that is running is not ready, beyond its windows (R244). -/
inductive Hold where
  | none
  /-- the instruction line of an address is on its way (R45) -/
  | line (va : Word) (due : Nat)
  /-- the page of the next instruction is being walked (R316) -/
  | walk (page : Nat)
  /-- a memory fault is held in the retry latch (R339, R341) -/
  | latch
  /-- a transport waits for an element (`deq`) or for room (R249) -/
  | queue (q : Nat) (deq : Bool)
  /-- a release, fence, tfence or done waits for earlier accesses and acknowledgements (R170, R172, R259) -/
  | drain
  /-- a wait on a word (R199): address, bytes, ge, compare value, attribute, deadline, watch-unit read due -/
  | waddr (a : Word) (n : Nat) (ge : Bool) (v : Word) (lo : Word) (deadline : Option Nat) (watch : Nat)
  /-- a wait on a timeline (R207): queue, threshold, attribute, deadline -/
  | sigWait (q : Nat) (v : Word) (lo : Word) (deadline : Option Nat)
  /-- suspended by park on a word (R261) -/
  | park (a : Word) (v : Word)
  /-- suspended by join (R261) -/
  | join
  /-- at a group barrier (R262): group, its member index, phase before the arrival -/
  | gbar (grp : Nat) (phase : Nat)
  /-- asleep until a cycle (R263) -/
  | sleep (until_ : Nat)
  /-- a press operation in its context queue or running (R105) -/
  | press
  /-- pjoin (R129): the registration value it names, and its deadline -/
  | pjoin (t : BitVec 8) (deadline : Nat)
  /-- yawait on a ring (R275): ring address and attribute -/
  | yawait (ring : Word)
  /-- idle in a handler (R356) -/
  | idle (deadline : Option Nat)
  /-- a trap waits for the thread's operations to complete (R346) -/
  | trap
  deriving DecidableEq, Repr

/-- A register with parity (R366): a g or v register, or a unit latch. -/
inductive RegRef where
  | g (n : BitVec 5)
  | v (n : BitVec 4)
  | latch (l : Latch)
  | vo | vo2 | vr
  deriving DecidableEq, Repr

/-- A thread in its slot. -/
structure Thread where
  key : SlotKey := ⟨0, 0, 0⟩
  ctx : Nat := 0
  /-- address of the continuation record (R215) -/
  record : Word := 0
  life : Life := .idle
  mode : Mode := .user
  pc : Word := 0
  g : Vector Word 32 := Vector.replicate 32 0
  v : Vector Vec 16 := Vector.replicate 16 0
  vo : Vec := 0
  vo2 : Vec := 0
  vr : Vec := 0
  /-- the scalar port image in the order of R347 -/
  port : Vector Word 40 := Vector.replicate 40 0
  /-- guards; bit 0 is k0 -/
  k : BitVec 8 := 1
  tlev : BitVec 3 := 0
  preq : Bool := false
  rfq : BitVec 16 := 0
  /-- remote-report record (R348) -/
  repAddr : BitVec 48 := 0
  repKind : BitVec 8 := 0
  mvec : Word := 0
  mcause : Word := 0
  maddr : Word := 0
  mtpc : Word := 0
  pend : Vector Pend 8 := Vector.replicate 8 {}
  flight : List Flight := []
  rep : Rep := {}
  hold : Hold := .none
  latch : Option Retry := none
  /-- the unacknowledged-store counter (R167) -/
  unacked : Nat := 0
  posted : List Posted := []
  /-- loads and other stores that have issued and are not yet performed -/
  mem : List Access := []
  /-- releases under way that do not hold the thread -/
  rels : List Release := []
  /-- the transport at the PC holds the thread and is performed when its hold ends: the queue port it dequeues, if any
  (R12, R344) -/
  unperformed : Option (Option (BitVec 3)) := none
  /-- the transport at the PC has been held, and is performed before an integrator fault's trap (R146) -/
  again : Bool := false
  /-- xrnd as the sequence that a trap interrupted captured it (R70, log entry 19); a free value where none was (log entry
  51) -/
  seqRnd : Word := 0
  /-- stopped by a double fault, its record's status still to be written behind its earlier accesses (R352) -/
  dying : Bool := false
  bind : Vector Binding 8 := Vector.replicate 8 {}
  /-- the earliest cycle of the next transport -/
  readyAt : Nat := 0
  /-- the trap that waits for entry (R346) -/
  trapWait : Option TrapInfo := none
  /-- the queue and packet that launched a stage thread -/
  pipe : Option (Nat × Nat) := none
  /-- the last cycle in which flags merged into xflags, and those flags (R73) -/
  fresh : Nat × BitVec 7 := (0, 0)
  /-- traps of operations still to be taken, each at a boundary in user mode (R39) -/
  owed : List TrapInfo := []
  /-- registers with a parity error and no duplicate, which the next read meets (R368) -/
  bad : List RegRef := []
  /-- lines of which a load has read a sibling's store that was still on its way (R162, R178) -/
  saw : List Nat := []
  /-- retrains that the read of a wait on a word has met (R371) -/
  retr : Nat := 0
  deriving DecidableEq, Repr

/-! ### Memory beyond the cells -/

/-- 256 bits of an import or export entry (R318, R319). -/
structure Win256 where
  d0 : Word := 0
  d1 : Word := 0
  d2 : Word := 0
  d3 : Word := 0
  deriving DecidableEq, Repr

/-- An atomic on its way to its home (R173). -/
structure Amo where
  key : SlotKey
  amo : Trig
  cell : Nat
  aes : Nat
  va : Word
  /-- operand, new value and compare value as captured -/
  v : BitVec 128
  w : BitVec 128
  due : Nat
  /-- retrains its packet has met (R371) -/
  retr : Nat := 0
  /-- the address of its trigger, and l.o -/
  pc : Word := 0
  lo : Word := 0
  /-- the cycle of its trigger -/
  since : Nat := 0
  /-- 0, or the kind of the fault with which its home refuses it (R308) -/
  refuse : Nat := 0
  deriving DecidableEq, Repr

/-- A line of peer memory that a core's L1 holds, peer-marked (R178), or a line of host memory as a core last saw it: stores
to host memory do not reach every observer at once (R164). -/
structure PeerLine where
  core : CoreKey
  /-- cell number of its first byte -/
  cell : Nat
  bytes : List Byte
  deriving DecidableEq, Repr

/-- A refusal by another device or the host, an input of the model (log entry 3): accesses to the cells from `lo` below `hi` of the kinds `ops` (bit 0 loads, 1 stores, 2 atomics) end with `kind`. -/
structure Deny where
  lo : Nat
  hi : Nat
  ops : BitVec 3
  kind : Nat
  deriving DecidableEq, Repr

/-- A page-table walk for instruction fetch on a die (R316): context, page and the cycle it completes. -/
structure Walk where
  die : Nat
  ctx : Nat
  page : Nat
  due : Nat
  deriving DecidableEq, Repr

/-! ### Scheduling -/

/-- A record waiting in a run queue (R226): its die, priority, context and address, and its waiting time at the level
so far, counted from cycle `since` while its context is not pre-empted (R228, R358). -/
structure Queued where
  die : Nat
  prio : Nat
  ctx : Nat
  record : Word
  since : Nat
  waited : Nat := 0
  deriving DecidableEq, Repr

/-- A parked continuation's registration at its word's home (R261). -/
structure Park where
  ctx : Nat
  record : Word
  /-- the word's die -/
  die : Nat
  /-- first cell and length of the granule or line watched -/
  cell : Nat
  len : Nat
  /-- a write has reached it -/
  woken : Bool := false
  deriving DecidableEq, Repr

/-- What is told to the policy core through a fault queue. -/
inductive Tale where
  /-- a memory fault held in a retry latch, or of a reference stream (`strm`) (R339, R267) -/
  | fault (kind : Nat) (addr : Word) (trig : Nat) (tid : Word) (strm : Option Nat)
  /-- a record rejected under R220 -/
  | badRecord (record : Word)
  /-- a join counter below zero (R229) -/
  | negativeJoin (record : Word)
  /-- a thread stopped by a double fault (R352) -/
  | stopped (record : Word)
  deriving DecidableEq, Repr

/-- An entry of the group table (R243). -/
structure Group where
  ctx : Nat
  members : Nat
  arrivals : Nat := 0
  phase : Bool := false
  deriving DecidableEq, Repr

/-- A collective sum under way (R234): its command slot, set, formats, addresses and length. -/
structure Collective where
  slot : SlotKey
  set : Nat
  dfmt : Nat
  sfmt : Nat
  src : Word
  dst : Word
  len : Nat
  /-- which sum of its set it is, in the order in which this device starts them -/
  ord : Nat := 0
  deriving DecidableEq, Repr

/-- A thread saved by a pre-emption (R359, R363): its record, its slot where it is a stage thread, and whether it was
suspended by park or join when its slot was saved. `owed`: traps it has still to take (R39). What the frame of R347 has no
place for (log entry 17): `look`, the count left of a late atomic's window; `yleft` and `ypc`, that of a withdrawn copy and its
trigger's address; `copy`, the copy's record where the thread's own hold takes the one of the frame. -/
structure Saved where
  record : Word
  key : SlotKey
  stage : Bool
  pipe : Option (Nat × Nat) := none
  owed : List TrapInfo := []
  look : Nat := 0
  yleft : Nat := 0
  ypc : Word := 0
  copy : List Word := []
  deriving DecidableEq, Repr

/-- A packet that has started and not completed (R236). -/
structure Started where
  idx : Nat
  op : Nat
  tag : W32
  cinc : Bool
  /-- stage threads that have not retired, or the record of a launched task -/
  stages : List SlotKey := []
  record : Option Word := none
  /-- its work is over -/
  finished : Bool := false
  /-- the error it ended with (R235) -/
  fail : Option Nat := none
  /-- a collective sum that waits for the other ranks -/
  sum : Option Collective := none
  deriving DecidableEq, Repr

/-- The states of a software queue (R235, R237, R238). -/
inductive QState where
  | running | parked | error | draining | freed
  deriving DecidableEq, Repr

/-- A software queue (R231, R305). -/
structure SwQueue where
  num : Nat
  ctx : Nat
  /-- host address of its queue record -/
  recAddr : Nat
  base : Nat := 0
  log2 : Nat := 4
  /-- packets published and started, modulo 2^32 -/
  wr : Nat := 0
  rd : Nat := 0
  timeline : Word := 0
  st : QState := .running
  /-- the timeline and threshold of the WAIT that parked it -/
  waits : Option (Nat × Word) := none
  /-- it holds one of the 64 hardware queue slots since a cycle (R237) -/
  slot : Option Nat := none
  /-- it waits for a slot, in order of becoming ready -/
  ready : Option Nat := none
  started : List Started := []
  /-- paused (PAUSE_QUEUE), and allowed to carry CHECKPOINT (R372) -/
  paused : Bool := false
  ckpt : Bool := false
  deriving DecidableEq, Repr

/-- A message in a die's fault queue (R340), with the fault identifier that FAULT_ANSWER names. -/
structure Report where
  id : Nat
  ctx : Nat
  key : SlotKey
  tale : Tale
  /-- posted to the host driver and waiting for its answer -/
  posted : Bool := false
  /-- the driver's answer: replay or raise -/
  answer : Option Bool := none
  deriving DecidableEq, Repr

/-! ### Channels -/

/-- An element of a channel (R249): its word, tag and sync bit, and the cycle from which it can be taken (R251). -/
structure Elem where
  word : Word
  tag : Bool := false
  sync : Bool := false
  ready : Nat := 0
  deriving DecidableEq, Repr

/-- A queue port of a slot. -/
structure Port where
  key : SlotKey
  q : Nat
  deriving DecidableEq, Repr

/-- Where a channel lies in memory (R253): the cells of its header, data area and tag map, and the addresses of the last
two. -/
structure ChanHome where
  hdr : Nat
  data : Nat
  tags : Nat
  dataVa : Word
  tagVa : Word
  deriving DecidableEq, Repr

/-- A channel (R240, R249, R253). -/
structure Chan where
  id : Nat
  ctx : Nat := 0
  allowance : Nat := 1
  elems : List Elem := []
  prod : Option Port := none
  /-- consumers, with how many of `elems` each has dequeued -/
  cons : List (Port × Nat) := []
  /-- 0 bound, 1 error, 2 draining -/
  st : Nat := 0
  /-- the widest scope of the rings that push into it -/
  scope : Nat := 0
  /-- cycles in which room on its way back reaches the producer (R251) -/
  room : List Nat := []
  /-- its place in memory, unless it lies in a queue register file; elements enqueued; elements freed whose places have not
  been written since, the latest first (R253) -/
  home : Option ChanHome := none
  wr : Nat := 0
  past : List Elem := []
  /-- the queue and packet that launched its pipeline -/
  pipe : Nat × Nat := (0, 0)
  deriving DecidableEq, Repr

/-- A load balancer (R241): its input channel, the replicas' input channels in index order, its group level (none:
every data element is a group), and the replica of the open group. -/
structure Balancer where
  src : Nat
  outs : List Nat
  level : Option Nat
  cur : Option Nat := none
  pipe : Nat × Nat
  deriving DecidableEq, Repr

/-- A merge (R242): the replicas' output channels, its own output channel, its group level, the balancer's input
channel where it is ordered, the replica of the group it is taking, and, where it is ordered, the groups that the balancer
has distributed and it has not yet emitted, oldest first: a replica, or none for a broadcast token. -/
structure Merge where
  ins : List Nat
  out : Nat
  level : Option Nat
  pair : Option Nat
  cur : Option Nat := none
  order : List (Option Nat) := []
  pipe : Nat × Nat
  deriving DecidableEq, Repr

/-- A handle a ring has still to push (R277): the producer port, the channel, the handle, and the ring. -/
structure Push where
  port : Port
  chan : Nat
  handle : Word
  ring : Nat
  deriving DecidableEq, Repr

/-! ### Signal unit and copies -/

/-- A sig.add on its way to the signal unit (R206): queue, increment, l.o, handle, address of its trigger. -/
structure SigAdd where
  key : SlotKey
  ctx : Nat
  handle : Word
  u : Word
  lo : Word
  pc : Word
  due : Nat
  deriving DecidableEq, Repr

/-- A ring bound to push (R277): the context, the address it was bound under, the place of its object, and the producer
port. -/
structure PushBind where
  ctx : Nat
  va : Word
  cell : Nat
  port : Port
  deriving DecidableEq, Repr

/-- A ring operation that waits at its ring's home: mode 0 of yring with the object's bytes to write (R275), or an
unbinding (R277). -/
structure RingOp where
  key : SlotKey
  ctx : Nat
  /-- the place of the ring object -/
  cell : Nat
  aes : Nat
  init : Option (List Byte)
  /-- the cycle of its trigger -/
  since : Nat
  deriving DecidableEq, Repr

/-- A copy of a thread, with its captured operands (R270, R272, R273). -/
structure Copy where
  key : SlotKey
  ctx : Nat
  monitor : Bool := false
  /-- address and number of its trigger -/
  pc : Word
  trig : Nat
  /-- 0 ycopy, 1 ycopy.add, 2 ymcast -/
  kind : Nat
  src : Word
  dst : Word
  shape : Word
  pitch : Word
  ctl : Word
  /-- the slot claimed, with its handle -/
  slot : Option (W32 × Word) := none
  /-- the copy offset of the first byte not performed, and the one up to which its piece has passed the checks -/
  off : Nat := 0
  cut : Nat := 0
  flags : BitVec 7 := 0
  /-- the cycle from which its next claim, piece or completion can happen -/
  due : Nat := 0
  /-- a COPY packet (R234): its queue and packet index, and its length -/
  cmd : Option (Nat × Nat) := none
  len : Nat := 0
  /-- the cycle of its trigger -/
  since : Nat := 0
  /-- retrains that the packets of its piece have met (R371) -/
  retr : Nat := 0
  deriving DecidableEq, Repr

/-! ### Reference streams -/

/-- One index of a stream on its way (R265): the elements it will enqueue, and its fetch where it has one. -/
structure Fetch where
  /-- address; none for an out-of-limit index or a token -/
  va : Option Word := none
  /-- values, once returned -/
  elems : Option (List Elem) := none
  /-- the cycle the fetch returns -/
  due : Nat := 0
  /-- issued again as a demand fetch (R267) -/
  demand : Bool := false
  /-- held by a fault: its kind, waiting for the policy core or the retry ring -/
  fault : Option Nat := none
  /-- fault identifier or ring slot -/
  id : Nat := 0
  ring : Bool := false
  idx : Word := 0
  sync : Bool := false
  /-- a level-7 token ends the stream -/
  last : Bool := false
  /-- retrains its packet has met (R371) -/
  retr : Nat := 0
  deriving DecidableEq, Repr

/-- A stream context of a stage core's reference unit (R264, R265). -/
structure Stream where
  core : CoreKey
  strm : Nat
  owner : SlotKey
  ctx : Nat
  monitor : Bool := false
  cfg : Word
  base : Word
  limit : Word
  /-- started; an xgo that waits for its stream to end stands behind it with `running` false -/
  running : Bool := true
  /-- no more indices are dequeued: stopped, or ended by a level-7 token -/
  ending : Bool := false
  count : Nat := 0
  fetches : List Fetch := []
  deriving DecidableEq, Repr

/-! ### The press (R103 to R107) -/

/-- An entry of a press context's queue, with what it captured at its trigger (R105, R123, R125). -/
inductive PressOp where
  /-- pmma or pmmas: control word, format word, sa, sb, the five operand ports -/
  | mma (sparse : Bool) (t fmt : Word) (sa : List W32) (sb : W32) (a0 a1 b0 b1 c : Word)
  /-- pdrain: control word, destination, pitch word, xrnd -/
  | drain (t dst pitch xrnd : Word)
  /-- pclr: the accumulators to clear -/
  | clr (accs : BitVec 2)
  | flags
  deriving DecidableEq, Repr

/-- A queued operation and the thread it holds (none for pclr). -/
structure PressEntry where
  op : PressOp
  key : SlotKey
  ctx : Nat
  /-- a pdrain whose fault is held in its thread's retry latch -/
  held : Bool := false
  /-- withdrawn by a forced save: the operation takes this place again when its thread is restored (R132) -/
  gone : Bool := false
  /-- the cycle of its trigger -/
  since : Nat := 0
  /-- 16-byte chunks of a pdrain written so far -/
  part : Nat := 0
  deriving DecidableEq, Repr

/-- A format context (R104). A matrix is 64 × 64 codes in row-major order; elements beyond the listed ones are +0. -/
structure PressCtx where
  acc0 : List W32 := []
  acc1 : List W32 := []
  part0 : List W32 := []
  part1 : List W32 := []
  /-- pa0-pa3 and pb0-pb3, 2 KiB each; bytes beyond the listed ones are 0 -/
  regs : Vector (List Byte) 8 := Vector.replicate 8 []
  sa : List W32 := []
  sb : W32 := 0
  fmt : Word := 0
  flags : BitVec 3 := 0
  /-- group registration (R129) and the context number it belongs to -/
  reg : BitVec 8 := 0
  regCtx : Nat := 0
  queue : List PressEntry := []
  deriving DecidableEq, Repr

/-- A granted operation: its core, last busy cycle and completion cycle (R107). -/
structure PressRun where
  core : Nat
  entry : PressEntry
  busy : Nat
  done : Nat
  deriving DecidableEq, Repr

/-- A tile's press. -/
structure Press where
  ctx : Vector PressCtx 4 := Vector.replicate 4 {}
  /-- the operations granted and not completed, oldest first -/
  run : List PressRun := []
  /-- the context served last (R106, R393) -/
  last : Nat := 3
  /-- the ramp limiter: window number, its count so far, the count carried into the next, the last window's count -/
  win : Nat := 0
  count : Nat := 0
  carry : Nat := 0
  prev : Nat := 0
  deriving DecidableEq, Repr

/-! ### Integrator arrays (R134) -/

/-- A cell: integrand, residue, last increment, patch entry, and its latches by domain: full, and negative. -/
structure DCell where
  y : BitVec 32 := 0
  q : BitVec 32 := 0
  z : Int := 0
  d0 : Word := 0
  d1 : Word := 0
  full : BitVec 8 := 0
  neg : BitVec 8 := 0
  deriving DecidableEq, Repr

/-- A step-clock domain (R138): `next` while halted, the cycle of its next tick while running. -/
structure DDomain where
  steps : BitVec 24 := 0
  next : Nat := 0
  run : Bool := false
  period : Nat := 0
  tick : Nat := 0
  deriving DecidableEq, Repr

/-- The integrator array of a stage core. -/
structure DArray where
  owner : Option SlotKey := none
  /-- cells that are not at reset -/
  cells : List (Nat × DCell) := []
  doms : Vector DDomain 8 := Vector.replicate 8 {}
  sink : Word := 0
  src : Word := 0
  status : Word := 0
  /-- the status of a fault whose trap the owner has still to take (R146) -/
  due : Option Word := none
  /-- the cycle of the last element the sink enqueued (R143) -/
  sunk : Option Nat := none
  deriving DecidableEq, Repr

/-! ### Heap units (R282, R287 to R289) -/

/-- The heap unit of a tile. -/
structure Heap where
  /-- 0: not initialised -/
  cap : Nat := 0
  key : BitVec 16 := 0
  expert : BitVec 12 := 0
  ctx : Nat := 0
  /-- the accepted pairs with their fin bits, in decreasing order (R283) -/
  pairs : List (Word × Bool) := []
  ovf : Word := 0
  spill : Word := 0
  drops : Nat := 0
  deriving DecidableEq, Repr

/-- An offer on its way: to a logical tile of `ctx` here, or through an import entry's device, export entry and cookie. -/
structure Offer where
  key : SlotKey
  pair : Word
  fin : Bool
  layer : BitVec 16
  tile : Nat
  ctx : Nat
  remote : Option (Nat × Nat × BitVec 32) := none
  /-- the target word as captured (R292) -/
  target : Word
  due : Nat
  /-- decided: 0 accepted, else the kind of the refusal -/
  decided : Option Nat := none
  /-- the ring slot that its record filled, over which the ring has still to advance: key and cell of the ring object, slot
  (R302) -/
  ring : Option (Nat × Nat × W32) := none
  /-- retrains its packet has met (R371) -/
  retr : Nat := 0
  /-- the cycle of its trigger -/
  since : Nat := 0
  deriving DecidableEq, Repr

/-! ### Contexts -/

/-- A context (R305, R327). -/
structure Ctx where
  num : Nat
  /-- page-table root, an address in bindery memory -/
  root : Nat := 0
  /-- tile map: granted logical tiles with their physical indices (R307) -/
  tiles : List (Nat × Nat) := []
  /-- monitor vector (R346) -/
  vector : Word := 0
  /-- retry-ring mode: the ring's address (R338, R341) -/
  retryRing : Option Word := none
  /-- pending-launch pools: die, address of slot 0, slots (R224) -/
  pools : List (Nat × Word × Nat) := []
  /-- pool slots in use -/
  poolUsed : List Word := []
  /-- spawna and host-task allowances, and the records counted against them (R227) -/
  spawnaMax : Nat := 0
  spawnaUsed : List Word := []
  hostMax : Nat := 1
  hostUsed : List Word := []
  /-- threads saved by a pre-emption -/
  saved : List Saved := []
  /-- a pre-emption is in progress or the context is pre-empted (R358) -/
  preq : Bool := false
  /-- the deadline D, and c0 + D of the pre-emption in progress -/
  deadline : Nat := 100000
  limit : Nat := 0
  /-- its tiles are quiesced and saved (R361) -/
  quiet : Bool := false
  /-- power rank (R365) -/
  rank : Nat := 0
  /-- the registered point of its image key, 97 bytes; none before (R321) -/
  imageKey : List Byte := []
  /-- stage records written so far, which number their addresses (R239) -/
  stageRecs : Nat := 0
  /-- the lowest HBM address of its pools and save area -/
  poolLow : Nat := 0x9000000000
  /-- its save area: the HBM address of each logical tile's image (R361) -/
  areas : List (Nat × Nat) := []
  /-- while it is pre-empted, what its press queues still hold: logical tile, core, entries (R132) -/
  pressQ : List (Nat × Nat × List PressEntry) := []
  deriving DecidableEq, Repr

/-! ### The bindery and the host (R324 to R336, R365, R371 to R373) -/

/-- An event for the host driver (R332). -/
structure HostEvent where
  id : Nat := 0
  ctx : Nat := 0
  kind : Nat
  d1 : Word := 0
  d2 : Word := 0
  d3 : Word := 0
  deriving DecidableEq, Repr

/-- The event ring (R332, R333): its base and log2 of its count, once set, the head, tail and lost words, and the events
held back. -/
structure EventRing where
  ring : Option (Nat × Nat) := none
  head : BitVec 32 := 0
  tail : BitVec 32 := 0
  lost : Nat := 0
  held : List HostEvent := []
  deriving DecidableEq, Repr

/-- What the mailbox request in service still waits for. -/
inductive Await where
  | none
  /-- the accesses of a context translated before, then the zeroing of the physical tiles taken from it; `gone`: the
  context itself is freed (R308, R317) -/
  | settled (ctx : Nat) (tiles : List Nat) (gone : Bool)
  | queueFreed (q : Nat)
  | preempted (ctx : Nat)
  deriving DecidableEq, Repr

/-- The mailbox (R328): open from the end of boot; request and response areas; go and busy, and what it waits for. -/
structure Mailbox where
  opened : Bool := false
  req : Vector Word 8 := Vector.replicate 8 0
  resp : Vector Word 8 := Vector.replicate 8 0
  go : Bool := false
  busy : Bool := false
  await : Await := .none
  deriving DecidableEq, Repr

/-- A collective set (R234): its context and number, the devices in rank order and this device's rank. -/
structure CollSet where
  ctx : Nat
  num : Nat
  ranks : List Nat
  rank : Nat
  /-- sums that this device has started on it -/
  sums : Nat := 0
  deriving DecidableEq, Repr

/-- A rank's contribution to a collective sum of a context's set, as it arrives from its device (log entry 3), with the
number of the sum: the ranks' COPYs that match are those of one number (R234). -/
structure Contribution where
  ctx : Nat
  set : Nat
  rank : Nat
  num : Nat
  bytes : List Byte
  deriving DecidableEq, Repr

/-- A link port (R332, R371): when its retrain ends, and whether it is out of service. -/
structure Link where
  port : Nat
  retrain : Option Nat := none
  out : Bool := false
  deriving DecidableEq, Repr

/-- The answer to a peer's request (R320): the kind of a refusal or 0, and the bytes returned. -/
structure RemoteReply where
  kind : Nat
  bytes : List Byte := []
  deriving DecidableEq, Repr

/-- A peer's offer that has been accepted, whose record's ring has still to advance over its slot before the offer is
acknowledged (R285, R302): key and cell of the ring object, slot, and the packet that brought it where it is urgent. -/
structure PeerOffer where
  aes : Nat
  cell : Nat
  slot : W32
  packet : Option (Nat × Nat × Nat × Nat) := none
  deriving DecidableEq, Repr

/-- The power policy (R365): pre-empting since the average passed 2,400 W; the cycle since which it has stayed below
2,200 W; the contexts it has pre-empted, the latest first. -/
structure Power where
  active : Bool := false
  low : Option Nat := none
  order : List Nat := []
  deriving DecidableEq, Repr

/-- A CHECKPOINT in progress (R372): its queue and packet, and the cell of its image. -/
structure CkptRun where
  queue : Nat
  idx : Nat
  cell : Nat
  deriving DecidableEq, Repr

/-- What holds no value any more, because an error there was uncorrectable twice (R367, R370): the dword at a cell; an operand
register (0 to 7) or an accumulator with its partial sum (8, 9) of a press context; an integrator array; a heap unit. -/
inductive Lost where
  | cell (n : Nat)
  | press (tile core part : Nat)
  | array (core : CoreKey)
  | heap (tile : Nat)
  deriving DecidableEq, Repr

/-- The bindery state of a checkpoint image (R373), whose layout the spec does not give (log entry 21). -/
structure Stored where
  ctxs : List Ctx := []
  imports : List (Nat × Win256) := []
  exports : List (Nat × Win256) := []
  queues : List SwQueue := []
  groups : List (Nat × Group) := []
  replicas : List (Nat × Word) := []
  runq : List Queued := []
  /-- records in a migration message, as they stand in the run queue they go to (R230) -/
  migrations : List (Nat × List Queued) := []
  suspended : List (Nat × Word) := []
  seqRnds : List (Nat × Word × Word) := []
  edges : List (Nat × Word × Word × Word) := []
  lost : List Lost := []
  parks : List Park := []
  chans : List Chan := []
  balancers : List Balancer := []
  merges : List Merge := []
  streams : List Stream := []
  pushBinds : List PushBind := []
  pushes : List Push := []
  groupOwner : List (Nat × Nat) := []
  expertOwner : List (Nat × Nat × Nat) := []
  sets : List CollSet := []
  /-- owners of integrator arrays -/
  owners : List (CoreKey × SlotKey) := []
  tables : Nat := 0
  hbmTop : Nat := 0
  /-- bindery memory -/
  cells : List Host.Cell := []
  deriving DecidableEq, Repr

/-! ### The machine -/

/-- A soft error that is found, an input of the model (log entry 14): a register whose parity error has no duplicate,
what R367 classes as lasting, with its place, or what it classes as transient; `lost`: it is uncorrectable. -/
inductive Strike where
  | reg (k : SlotKey) (r : RegRef)
  /-- a byte of a tile's scratchpad -/
  | bank (tile off : Nat) (lost : Bool)
  /-- the cell whose line a cache holds -/
  | cache (cell : Nat) (lost : Bool)
  /-- a word of a press context, by the numbers of `Lost.press` -/
  | press (tile core part : Nat) (lost : Bool)
  | array (core : CoreKey) (loc : Nat) (lost : Bool)
  /-- an entry of a core's queue register file, with its channel -/
  | queueFile (core : CoreKey) (chan : Nat) (lost : Bool)
  | heap (tile loc : Nat) (lost : Bool)
  | hbm (cell : Nat) (lost : Bool)
  /-- a lane of a core's V -/
  | lane (core : CoreKey) (n : Nat)
  /-- an error that the retry clears: its row of R366 and its location -/
  | transient (row loc : Nat)
  deriving DecidableEq, Repr

/-- A tile that a lasting error retires (R369), until its context is quiesced: `resume`: the retirement pre-empted it. -/
structure Retiring where
  tile : Nat
  ctx : Nat
  resume : Bool
  deriving DecidableEq, Repr

/-- What the agenda puts next (the model's own, log entry 1): an event with its subject, the issue of a slot, a piece
of an access performed, or a soft error found. -/
inductive Turn where
  | event (i : Instr) (e : EvArg)
  | issue (k : SlotKey)
  /-- piece by piece, access `n` of a slot is performed -/
  | perform (k : SlotKey) (n : Nat)
  | strike (x : Strike)
  deriving DecidableEq, Repr

/-- The state of the module. -/
structure State where
  /-- main-clock cycles since reset (R52) -/
  cyc : Nat
  /-- free values used so far (the model's own, log entry 2) -/
  draws : Nat
  /-- what comes next, ahead of the machine's own order (the model's own, log entry 1) -/
  agenda : List Turn
  /-- the subject of the event being performed (the model's own, log entry 1) -/
  ev : EvArg
  /-- cores that have issued in this cycle (the model's own, log entry 1) -/
  issued : List CoreKey
  /-- cores whose V has taken a class 01 word in this cycle (R101; the model's own, log entry 1) -/
  vUsed : List CoreKey
  /-- the slot a core served last (R20, R393) -/
  rr : List (CoreKey × Nat)
  /-- the sequencer slot a core served last (R101, R393) -/
  rrRep : List (CoreKey × Nat)
  /-- the stream that a core's reference unit served last (R265, R393) -/
  rrX : List (CoreKey × Nat)
  /-- the thread in focus, and the other bound slots -/
  th : Thread
  others : List Thread
  /-- memory: the cells of R160 and bindery memory in one list (log entry 5 says what an unlisted cell reads) -/
  mem : List Host.Cell
  /-- the earlier contents of HBM and cacheable host lines, which a discard may bring back (R181) -/
  hist : List (Nat × List Byte)
  ctxs : List Ctx
  /-- the AES key each HBM line was stored under, where it has one (R315) -/
  lineKeys : List (Nat × Nat)
  /-- owner of each loaded AES key number, and which of the loaded keys it is (R315) -/
  keyOwner : List (Nat × Nat)
  keyIds : List (Nat × Nat)
  /-- the keys loaded so far, 64 bytes each, the first numbered 1 -/
  keys : List (List Byte)
  imports : List (Nat × Win256)
  exports : List (Nat × Win256)
  /-- instruction translations present in the cores' TLBs: core, context, page; walks in flight (R316) -/
  tlb : List (CoreKey × Nat × Nat)
  walks : List Walk
  /-- misses beyond the walks a die runs, in arrival order: die, context, page (R316) -/
  walkQ : List (Nat × Nat × Nat)
  /-- lines in L2 slices by run-ahead and instruction misses, and run-ahead misses on their way: die, slice, line (R26, R182) -/
  l2 : List (Nat × Nat × Nat)
  l2miss : List (Nat × Nat × Nat)
  /-- instruction lines present: core, context, line address (R45) -/
  ilines : List (CoreKey × Nat × Nat)
  peerLines : List PeerLine
  homeQ : List Amo
  /-- adds on their way to the signal unit (R206) -/
  sigQ : List SigAdd
  /-- copies under way (R270) -/
  copies : List Copy
  deny : List Deny
  chans : List Chan
  balancers : List Balancer
  merges : List Merge
  streams : List Stream
  /-- slots whose X window waits for the end of a stream of their core (R266) -/
  xwaits : List (SlotKey × Nat)
  pushes : List Push
  /-- presses that are not at their reset state, by tile -/
  presses : List (Nat × Press)
  /-- heap units that are not at their reset state, by tile -/
  heaps : List (Nat × Heap)
  offers : List Offer
  /-- count and cap as last published by each heap unit, and the window of the last publication (R289) -/
  published : List (Nat × Nat × Nat)
  pubWin : Nat
  /-- entries of the replica table that are not 0 (R288) -/
  replicas : List (Nat × Word)
  /-- integrator arrays that are not at their reset state -/
  arrays : List (CoreKey × DArray)
  runq : List Queued
  /-- advertisements on their way: from a die, to a die, idle slots; migration messages by receiving die (R230) -/
  adverts : List (Nat × Nat × Nat)
  migrations : List (Nat × List Queued)
  /-- suspended tasks with a saved frame: context and record -/
  suspended : List (Nat × Word)
  /-- xrnd as the interrupted sequence of a saved thread captured it: context, record, value (R70, log entry 19) -/
  seqRnds : List (Nat × Word × Word)
  /-- regions that the edges of a record's predecessors name: context, record, base and length (R179) -/
  edges : List (Nat × Word × Word × Word)
  groups : List (Nat × Group)
  /-- rings bound to push (R277), and ring operations that wait at their ring's home (R275, R277) -/
  pushBinds : List PushBind
  ringOps : List RingOp
  queues : List SwQueue
  parks : List Park
  policyQ : List Report
  /-- next fault identifier -/
  faultSeq : Nat
  /-- the boot is over; the errata patch is in use; the measurement registers M0 to M7 (R335) -/
  booted : Bool
  patched : Bool
  meas : Vector (BitVec 384) 8
  /-- the last SPDM response (R336) -/
  spdm : List Byte
  mail : Mailbox
  events : EventRing
  /-- page tables handed out, and the end of the HBM not handed out to pools (log entry 22) -/
  tables : Nat
  hbmTop : Nat
  /-- owners of group numbers and of expert ranges: first, count, context (R330) -/
  groupOwner : List (Nat × Nat)
  expertOwner : List (Nat × Nat × Nat)
  /-- host ranges of the safe tier, receive regions of peers, host-visible HBM: base and length (R334, R372) -/
  safeTier : List (Nat × Nat)
  buddies : List (Nat × Nat × Nat)
  visible : List (Nat × Nat)
  sets : List CollSet
  contribs : List Contribution
  links : List Link
  /-- packets delivered: source, class, lane, number; the kept responses of urgent requests (R371) -/
  delivered : List (Nat × Nat × Nat × Nat)
  kept : List ((Nat × Nat × Nat × Nat) × RemoteReply)
  /-- the last answer to a peer, and the last completion of a host read: none for poison (R320, R334) -/
  reply : Option RemoteReply
  /-- offers of peers still to be acknowledged (R302) -/
  peerOffers : List PeerOffer
  hostRead : Option (List Byte)
  power : Power
  /-- retired scratchpad banks, by tile; cores whose V has used its spare lane; tiles retired, and those whose context
  is still to be moved (R369) -/
  badBanks : List (Nat × Nat)
  badLanes : List CoreKey
  badTiles : List Nat
  retiring : List Retiring
  /-- what holds no value (R370); errors classified, the latest first: row of R366, location, lasting (R367) -/
  lost : List Lost
  errLog : List (Nat × Nat × Bool)
  ckpt : Option CkptRun
  /-- the bindery state of the checkpoint images written, by the cell of the image -/
  checkpoints : List (Nat × Stored)
  deriving DecidableEq, Repr

/-! ### Stops -/

/-- Why the machine stops with a fault. -/
inductive Fault where
  /-- `exec` raises it for an event whose subject (the slot, entry, port or queue that `ev` names) does not exist, or
  for which the event is not due. Safe: no step of the device corresponds to it, and `step` chooses no such event. -/
  | noSubject
  deriving DecidableEq, Repr

/-- Why an instruction has no meaning. -/
inductive Refusal where
  /-- `exec` raises it for an instruction of the table that the model does not give a meaning yet. Safe. -/
  | notModelled (mnemonic : String)
  deriving DecidableEq, Repr

/-- The outcome of a step. -/
abbrev Out := Host.Outcome State Fault Refusal

/-- The machine right after reset (R335): no slot is bound, memory lists nothing. -/
def State.reset : State where
  cyc := 0
  draws := 0
  agenda := []
  ev := {}
  issued := []
  vUsed := []
  rr := []
  rrRep := []
  rrX := []
  th := {}
  others := []
  mem := []
  hist := []
  ctxs := []
  lineKeys := []
  keyOwner := []
  keyIds := []
  keys := []
  imports := []
  exports := []
  tlb := []
  walks := []
  walkQ := []
  l2 := []
  l2miss := []
  ilines := []
  peerLines := []
  homeQ := []
  sigQ := []
  copies := []
  deny := []
  chans := []
  balancers := []
  merges := []
  streams := []
  xwaits := []
  pushes := []
  presses := []
  heaps := []
  offers := []
  published := []
  pubWin := 0
  replicas := []
  arrays := []
  runq := []
  adverts := []
  migrations := []
  suspended := []
  seqRnds := []
  edges := []
  groups := []
  pushBinds := []
  ringOps := []
  queues := []
  parks := []
  policyQ := []
  faultSeq := 1
  booted := false
  patched := false
  meas := Vector.replicate 8 0
  spdm := []
  mail := {}
  events := {}
  tables := 0
  hbmTop := 0x9000000000
  groupOwner := []
  expertOwner := []
  safeTier := []
  buddies := []
  visible := []
  sets := []
  contribs := []
  links := []
  delivered := []
  kept := []
  reply := none
  peerOffers := []
  hostRead := none
  power := {}
  badBanks := []
  lost := []
  errLog := []
  badLanes := []
  badTiles := []
  retiring := []
  ckpt := none
  checkpoints := []

end Sys2Proof.Machine
end

