-- ==== Sys2Proof/Machine/Memory.lean ====
section
/-! DEFINITION. Memory as a list of cells in one canonical form: addresses strictly rising, no byte equal to what an
unlisted address reads as. Every place that holds bytes has its own range of cell numbers (log entry 5). -/

namespace Sys2Proof.Machine

/-- What an unlisted address reads as: scratchpad and HBM are zeroed at reset (R335); for host and peer memory the
spec gives no contents (DESIGN CHOICE, log entry 5). -/
def unlisted : Byte := 0

namespace Mem

/-- Canonical: addresses strictly rising, no listed byte equal to `unlisted`. -/
def wf : List Host.Cell → Bool
  | [] => true
  | c :: m => c.2 != unlisted && m.all (fun d => decide (c.1 < d.1)) && wf m

/-- One byte. -/
def byte : List Host.Cell → Nat → Byte
  | [], _ => unlisted
  | c :: m, a => if c.1 = a then c.2 else byte m a

/-- The listed cells of a run of bytes from `a`. -/
def cells : Nat → List Byte → List Host.Cell
  | _, [] => []
  | a, b :: bs => if b = unlisted then cells (a + 1) bs else (a, b) :: cells (a + 1) bs

/-- A run of bytes written from `a`: the one way memory changes. -/
def write (m : List Host.Cell) (a : Nat) (bs : List Byte) : List Host.Cell :=
  m.filter (fun c => decide (c.1 < a)) ++ cells a bs ++ m.filter (fun c => decide (a + bs.length ≤ c.1))

/-- `n` bytes from `a`, the lowest address first. -/
def bytes (m : List Host.Cell) (a : Nat) : Nat → List Byte
  | 0 => []
  | n + 1 => byte m a :: bytes m (a + 1) n

/-- Every cell from `lo` below `hi` reads as unlisted. -/
def clear (m : List Host.Cell) (lo hi : Nat) : List Host.Cell :=
  m.filter (fun c => decide (c.1 < lo)) ++ m.filter (fun c => decide (hi ≤ c.1))

/-- `n` cells from `src` copied to `dst`. -/
def copy (m : List Host.Cell) (src n dst : Nat) : List Host.Cell :=
  m.filter (fun c => decide (c.1 < dst))
    ++ (m.filter (fun c => decide (src ≤ c.1 ∧ c.1 < src + n))).map (fun c => (c.1 - src + dst, c.2))
    ++ m.filter (fun c => decide (dst + n ≤ c.1))

end Mem

/-! ### Bytes and numbers (R5: little-endian) -/

/-- The number of a list of bytes. -/
def leNat : List Byte → Nat
  | [] => 0
  | b :: bs => b.toNat + 256 * leNat bs

/-- The `n` low bytes of a number. -/
def leBytes : Nat → Nat → List Byte
  | 0, _ => []
  | n + 1, v => BitVec.ofNat 8 v :: leBytes n (v / 256)

/-- A number in memory. -/
def Mem.num (m : List Host.Cell) (a n : Nat) : Nat := leNat (Mem.bytes m a n)

/-! ### Cell numbers -/

/-- HBM is cell 0 up: 576 GiB (R2). -/
def hbmEnd : Nat := 0x9000000000
/-- A byte of a tile's scratchpad (R17, R23). -/
def scrCell (tile off : Nat) : Nat := 2 ^ 56 + tile * 2 ^ 19 + off
/-- A byte of host memory (R160). -/
def hostCell (pa : Nat) : Nat := 2 ^ 57 + pa
/-- A byte behind an export entry of another device (R318). -/
def peerCell (dev exp off : Nat) : Nat := 2 ^ 58 + (dev * 1024 + exp) * 2 ^ 42 + off
/-- A byte of bindery memory (R311). -/
def binderyCell (a : Nat) : Nat := 2 ^ 66 + a
/-- A byte of the region a buddy device reserves for this device's checkpoint (R372). -/
def buddyCell (dev off : Nat) : Nat := 2 ^ 67 + dev * 2 ^ 42 + off

/-- A dword of bindery memory. -/
def binderyWord (m : List Host.Cell) (a : Nat) : Word := BitVec.ofNat 64 (Mem.num m (binderyCell a) 8)

end Sys2Proof.Machine
end

