-- ==== Sys2Proof/Machine/ChanMem.lean ====
section
/-! DEFINITION. Channels placed in rings, as memory shows them (R240, R253): the header, the data area and the tag map of a
channel are its own state, and reads of their bytes are answered from it. -/

namespace Sys2Proof.Machine

/-- Two runs of bytes meet. -/
def runsMeet (a n b m : Nat) : Bool := decide (a < b + m ∧ b < a + n)

/-- The core that an end of a channel counts as in. A balancer or merge has the core number 7 and a core in its slot's
place: on the channel of a replica that is the core of the stages at its other side, on its own channel none (log entry
30). -/
def endCore (k : SlotKey) : CoreKey := if k.core = 7 then ⟨k.tile, k.slot⟩ else k.coreKey

/-- The core in whose queue register file a channel lies: that of all its ends (R240). -/
def Chan.core? (c : Chan) : Option CoreKey :=
  match c.prod.toList.map Port.key ++ c.cons.map (fun x => x.1.key) with
  | [] => none
  | k :: ks => if (endCore k).core < 7 ∧ ks.all (fun x => endCore x == endCore k) then some (endCore k) else none

/-- Elements freed so far: the read count of the slowest consumer. -/
def Chan.rd (c : Chan) : Nat := c.wr - c.elems.length

/-- The header (R253). -/
def Chan.headerBytes (c : Chan) (h : ChanHome) : List Byte :=
  let counts := if c.cons.length < 2 then [] else c.cons.flatMap (fun x => leBytes 4 (c.rd + x.2))
  leBytes 4 c.wr ++ leBytes 4 c.rd ++ leBytes 4 c.allowance ++ leBytes 1 c.st
    ++ leBytes 1 (if c.cons.length < 2 then 0 else c.cons.length) ++ leBytes 1 c.scope ++ [0]
    ++ leBytes 8 h.dataVa.toNat ++ leBytes 8 h.tagVa.toNat ++ counts ++ List.replicate (32 - counts.length) 0

/-- The element last written at place `i` of the data area. -/
def Chan.slotElem (c : Chan) (i : Nat) : Option Elem :=
  if i < c.allowance then (c.elems.reverse ++ c.past)[(c.wr + c.allowance - 1 - i) % c.allowance]? else none

/-- Byte `n` of the tag map: the bits of places not written yet are those of `old`. -/
def Chan.tagByte (c : Chan) (n : Nat) (old : Byte) : Byte :=
  BitVec.ofNat 8 ((List.range 8).foldl (fun x b =>
    let bit := match c.slotElem (4 * n + b / 2) with
      | some e => if b % 2 = 0 then e.tag else e.sync
      | none => old.getLsbD b
    if bit then x + 2 ^ b else x) 0)

/-- The lengths of the data area and the tag map. -/
def Chan.dataLen (c : Chan) : Nat := 8 * c.allowance
def Chan.tagLen (c : Chan) : Nat := (c.allowance + 3) / 4

/-- The byte that a cell of a channel's memory shows, `old` being what lies there otherwise; none elsewhere. -/
def Chan.byteAt (c : Chan) (h : ChanHome) (cell : Nat) (old : Byte) : Option Byte :=
  if h.hdr ≤ cell ∧ cell < h.hdr + 64 then (c.headerBytes h)[cell - h.hdr]?
  else if h.data ≤ cell ∧ cell < h.data + c.dataLen then
    (c.slotElem ((cell - h.data) / 8)).map (fun e => BitVec.ofNat 8 (e.word.toNat / 256 ^ ((cell - h.data) % 8)))
  else if h.tags ≤ cell ∧ cell < h.tags + c.tagLen then some (c.tagByte (cell - h.tags) old)
  else none

/-- A run of bytes meets a channel's memory. -/
def Chan.meets (c : Chan) (cell n : Nat) : Bool :=
  match c.home with
  | none => false
  | some h => runsMeet h.hdr 64 cell n || runsMeet h.data c.dataLen cell n || runsMeet h.tags c.tagLen cell n

/-- Bytes of cells as memory shows them: those of a channel's memory come from the channel. -/
def State.shown (s : State) (cell : Nat) (bs : List Byte) : List Byte :=
  if s.chans.any (fun c => c.meets cell bs.length) then
    bs.zipIdx.map (fun x =>
      (s.chans.findSome? (fun c => c.home.bind (fun h => c.byteAt h (cell + x.2) x.1))).getD x.1)
  else bs

/-- The continuations parked on a run of bytes are woken (R261). -/
def Park.touched (cell n : Nat) (p : Park) : Park := if runsMeet p.cell p.len cell n then { p with woken := true } else p

/-- A channel's counters have changed at its home, and the place of element `w` where one was written. -/
def State.chanTouched (s : State) (c : Chan) (w : Option Nat) : State :=
  match c.home with
  | none => s
  | some h =>
    let i := (w.getD 0) % max 1 c.allowance
    let wake (p : Park) : Park :=
      let p := p.touched h.hdr 64
      if w.isNone then p else (p.touched (h.data + 8 * i) 8).touched (h.tags + i / 4) 1
    { s with parks := s.parks.map wake }

/-- The memory of a channel that is no longer bound keeps what it showed last. -/
def State.leaveHome (s : State) (c : Chan) : State :=
  match c.home with
  | none => s
  | some h =>
    [(h.hdr, 64), (h.data, c.dataLen), (h.tags, c.tagLen)].foldl (fun s x =>
      { s with mem := Mem.write s.mem x.1 (s.shown x.1 (Mem.bytes s.mem x.1 x.2)) }) s

/-- Some channels are bound no more, and with them what stands on them: balancers, merges and pending pushes. -/
def State.dropChans (s : State) (p : Chan → Bool) : State :=
  let gone (n : Nat) : Bool := s.chans.any (fun c => c.id == n && p c)
  { (s.chans.filter p).foldl State.leaveHome s with
    chans := s.chans.filter (fun c => !p c)
    balancers := s.balancers.filter (fun b => !gone b.src)
    merges := s.merges.filter (fun m => !gone m.out)
    pushes := s.pushes.filter (fun x => !gone x.chan) }

/-- An end or the memory of a channel lies on a tile. -/
def Chan.onTile (c : Chan) (t : Nat) : Bool :=
  c.prod.any (fun p => p.key.tile == t) || c.cons.any (fun x => x.1.key.tile == t)
    || c.home.any (fun h => decide (scrCell t 0 ≤ h.hdr ∧ h.hdr < scrCell (t + 1) 0))

/-! ### Where the binder places a channel: its own choice (log entry 20) -/

/-- A multiple of 64 that is no less. -/
def round64 (n : Nat) : Nat := (n + 63) / 64 * 64

/-- The bytes that a channel of an allowance takes. -/
def homeSize (allow : Nat) : Nat := 64 + round64 (8 * allow) + round64 ((allow + 3) / 4)

/-- A channel's memory at a cell, whose address is `va`. -/
def homeAt (cell : Nat) (va : Word) (allow : Nat) : ChanHome :=
  { hdr := cell, data := cell + 64, tags := cell + 64 + round64 (8 * allow)
    dataVa := va + 64, tagVa := va + 64 + BitVec.ofNat 64 (round64 (8 * allow)) }

/-- The highest place of `size` bytes below `2^19`, on a line, clear of some runs. -/
def highestGap (taken : List (Nat × Nat)) (size : Nat) : Option Nat :=
  let starts := (2 ^ 19 :: taken.map Prod.fst).filterMap (fun e => if size ≤ e / 64 * 64 then some (e / 64 * 64 - size) else none)
  let clear := starts.filter (fun a => taken.all (fun t => !runsMeet a size t.1 t.2))
  clear.foldl (fun m a => some (match m with
    | none => a
    | some b => max a b)) none

/-- The runs of a tile's scratchpad that channels take. -/
def homesOn (chans : List Chan) (tile : Nat) : List (Nat × Nat) :=
  chans.filterMap fun c => c.home.bind fun h =>
    if scrCell tile 0 ≤ h.hdr ∧ h.hdr < scrCell (tile + 1) 0 then some (h.hdr - scrCell tile 0, homeSize c.allowance) else none

end Sys2Proof.Machine
end

