-- ==== Sys2Proof/Machine/Crypto.lean ====
section
/-! DEFINITION. The cryptography that the spec names: AES-XTS-256 over the lines of HBM (R315), SHA-384, and ECDSA
verification on brainpoolP384r1 (R321, R322, R335). The spec defines none of them; FIPS 197, IEEE 1619, FIPS 180-4, FIPS 186
and RFC 5639, which it names or implies, do (log entry 10). -/

namespace Sys2Proof.Machine

/-! ### AES-256 -/

/-- A byte doubled in the field of AES. -/
def xtime (b : Byte) : Byte := (b <<< 1) ^^^ (if b.msb then 0x1B else 0)

/-- A product in the field, over the low `n` bits of the second factor. -/
def gfMul : Nat → Byte → Byte → Byte
  | 0, _, _ => 0
  | n + 1, a, b => (if b.getLsbD 0 then a else 0) ^^^ gfMul n (xtime a) (b >>> 1)

/-- A square in the field. -/
def gfSq (a : Byte) : Byte := gfMul 8 a a

/-- The inverse in the field, 0 of 0: the power 254. -/
def gfInv (a : Byte) : Byte :=
  let a2 := gfSq a
  let a4 := gfSq a2
  let a8 := gfSq a4
  let a16 := gfSq a8
  let a32 := gfSq a16
  let a64 := gfSq a32
  [a4, a8, a16, a32, a64, gfSq a64].foldl (gfMul 8) a2

/-- The substitution box, and its inverse. -/
def sbox (b : Byte) : Byte :=
  let i := gfInv b
  i ^^^ i.rotateLeft 1 ^^^ i.rotateLeft 2 ^^^ i.rotateLeft 3 ^^^ i.rotateLeft 4 ^^^ 0x63
def sboxInv (b : Byte) : Byte := gfInv (b.rotateLeft 1 ^^^ b.rotateLeft 3 ^^^ b.rotateLeft 6 ^^^ 0x05)

/-- Byte by byte. -/
def xorBytes (x y : List Byte) : List Byte := (x.zip y).map (fun p => p.1 ^^^ p.2)

/-- The words of the key schedule from word `i` on, behind the last eight. -/
def keyWords : Nat → Nat → Byte → List (List Byte) → List (List Byte)
  | 0, _, _, _ => []
  | n + 1, i, rcon, last =>
    let t := last.getD 7 []
    let t := if i % 8 = 0 then xorBytes ((t.drop 1 ++ t.take 1).map sbox) [rcon, 0, 0, 0]
      else if i % 8 = 4 then t.map sbox else t
    let w := xorBytes (last.getD 0 []) t
    w :: keyWords n (i + 1) (if i % 8 = 0 then xtime rcon else rcon) (last.drop 1 ++ [w])

/-- The fifteen round keys of a key of 32 bytes. -/
def roundKeys (key : List Byte) : List (List Byte) :=
  let first := (List.range 8).map (fun i => (key.drop (4 * i)).take 4)
  let words := first ++ keyWords 52 8 1 first
  (List.range 15).map (fun i => ((words.drop (4 * i)).take 4).flatten)

/-- A block's rows shifted, and back. -/
def shiftRows (s : List Byte) : List Byte := (List.range 16).map (fun i => s.getD (i % 4 + 4 * ((i / 4 + i % 4) % 4)) 0)
def unshiftRows (s : List Byte) : List Byte := (List.range 16).map (fun i => s.getD (i % 4 + 4 * ((i / 4 + 4 - i % 4) % 4)) 0)

/-- A block's columns multiplied by the circulant matrix of a row. -/
def mixColumns (row : List Byte) (s : List Byte) : List Byte :=
  (List.range 16).map (fun i =>
    (List.range 4).foldl (fun x k => x ^^^ gfMul 8 (s.getD ((i + k) % 4 + 4 * (i / 4)) 0) (row.getD k 0)) 0)

/-- One block encrypted under a key of 32 bytes. -/
def aesEncrypt (key block : List Byte) : List Byte :=
  let ks := roundKeys key
  let s := (ks.drop 1).take 13 |>.foldl
    (fun s k => xorBytes (mixColumns [2, 3, 1, 1] (shiftRows (s.map sbox))) k) (xorBytes block (ks.getD 0 []))
  xorBytes (shiftRows (s.map sbox)) (ks.getD 14 [])

/-- One block decrypted. -/
def aesDecrypt (key block : List Byte) : List Byte :=
  let ks := (roundKeys key).reverse
  let s := (ks.drop 1).take 13 |>.foldl
    (fun s k => mixColumns [14, 11, 13, 9] (xorBytes ((unshiftRows s).map sboxInv) k)) (xorBytes block (ks.getD 0 []))
  xorBytes ((unshiftRows s).map sboxInv) (ks.getD 14 [])

/-! ### XTS over a line of HBM (R315) -/

/-- The tweak of the next block: times the primitive element. -/
def nextTweak (t : BitVec 128) : BitVec 128 := (t <<< 1) ^^^ (if t.msb then 0x87 else 0)

/-- The tweak of block `j` of a granule. -/
def tweakOf (t : BitVec 128) : Nat → BitVec 128
  | 0 => t
  | j + 1 => nextTweak (tweakOf t j)

/-- The 64 bytes of line `line` passed block by block through `f`, under the second half of the key: the granule's address is
the tweak, and a block's number in the granule its place (log entry 10). -/
def xtsLine (f : List Byte → List Byte) (key2 : List Byte) (line : Nat) (bs : List Byte) : List Byte :=
  let t := BitVec.ofNat 128 (leNat (aesEncrypt key2 (leBytes 16 (line / 32 * 2048))))
  (List.range 4).flatMap fun i =>
    let m := leBytes 16 (tweakOf t (line % 32 * 4 + i)).toNat
    xorBytes (f (xorBytes ((bs.drop (16 * i)).take 16) m)) m

/-- A line of HBM as the stacks hold it under a key of 64 bytes, the data key first; under no key, as it is. -/
def sealLine (key : List Byte) (line : Nat) (bs : List Byte) : List Byte :=
  if key.isEmpty then bs else xtsLine (aesEncrypt (key.take 32)) (key.drop 32) line bs

/-- What the stacks hold, read under a key. -/
def unsealLine (key : List Byte) (line : Nat) (bs : List Byte) : List Byte :=
  if key.isEmpty then bs else xtsLine (aesDecrypt (key.take 32)) (key.drop 32) line bs

/-! ### SHA-384 -/

/-- A big-endian number of bytes, and the bytes of one. -/
def beNat (bs : List Byte) : Nat := leNat bs.reverse
def beBytes (n v : Nat) : List Byte := (leBytes n v).reverse

/-- The eighty round constants. -/
def sha384K0 : List Word := [
  0x428A2F98D728AE22, 0x7137449123EF65CD, 0xB5C0FBCFEC4D3B2F, 0xE9B5DBA58189DBBC,
  0x3956C25BF348B538, 0x59F111F1B605D019, 0x923F82A4AF194F9B, 0xAB1C5ED5DA6D8118,
  0xD807AA98A3030242, 0x12835B0145706FBE, 0x243185BE4EE4B28C, 0x550C7DC3D5FFB4E2,
  0x72BE5D74F27B896F, 0x80DEB1FE3B1696B1, 0x9BDC06A725C71235, 0xC19BF174CF692694,
  0xE49B69C19EF14AD2, 0xEFBE4786384F25E3, 0x0FC19DC68B8CD5B5, 0x240CA1CC77AC9C65]
def sha384K1 : List Word := [
  0x2DE92C6F592B0275, 0x4A7484AA6EA6E483, 0x5CB0A9DCBD41FBD4, 0x76F988DA831153B5,
  0x983E5152EE66DFAB, 0xA831C66D2DB43210, 0xB00327C898FB213F, 0xBF597FC7BEEF0EE4,
  0xC6E00BF33DA88FC2, 0xD5A79147930AA725, 0x06CA6351E003826F, 0x142929670A0E6E70,
  0x27B70A8546D22FFC, 0x2E1B21385C26C926, 0x4D2C6DFC5AC42AED, 0x53380D139D95B3DF,
  0x650A73548BAF63DE, 0x766A0ABB3C77B2A8, 0x81C2C92E47EDAEE6, 0x92722C851482353B]
def sha384K2 : List Word := [
  0xA2BFE8A14CF10364, 0xA81A664BBC423001, 0xC24B8B70D0F89791, 0xC76C51A30654BE30,
  0xD192E819D6EF5218, 0xD69906245565A910, 0xF40E35855771202A, 0x106AA07032BBD1B8,
  0x19A4C116B8D2D0C8, 0x1E376C085141AB53, 0x2748774CDF8EEB99, 0x34B0BCB5E19B48A8,
  0x391C0CB3C5C95A63, 0x4ED8AA4AE3418ACB, 0x5B9CCA4F7763E373, 0x682E6FF3D6B2B8A3,
  0x748F82EE5DEFB2FC, 0x78A5636F43172F60, 0x84C87814A1F0AB72, 0x8CC702081A6439EC]
def sha384K3 : List Word := [
  0x90BEFFFA23631E28, 0xA4506CEBDE82BDE9, 0xBEF9A3F7B2C67915, 0xC67178F2E372532B,
  0xCA273ECEEA26619C, 0xD186B8C721C0C207, 0xEADA7DD6CDE0EB1E, 0xF57D4F7FEE6ED178,
  0x06F067AA72176FBA, 0x0A637DC5A2C898A6, 0x113F9804BEF90DAE, 0x1B710B35131C471B,
  0x28DB77F523047D84, 0x32CAAB7B40C72493, 0x3C9EBE0A15C9BEBC, 0x431D67C49C100D4C,
  0x4CC5D4BECB3E42B6, 0x597F299CFC657E2A, 0x5FCB6FAB3AD6FAEC, 0x6C44198C4A475817]
def sha384K : List Word := sha384K0 ++ sha384K1 ++ sha384K2 ++ sha384K3

/-- The first hash value. -/
def sha384H : List Word := [
  0xCBBB9D5DC1059ED8, 0x629A292A367CD507, 0x9159015A3070DD17, 0x152FECD8F70E5939,
  0x67332667FFC00B31, 0x8EB44A8768581511, 0xDB0C2E0D64F98FA7, 0x47B5481DBEFA4FA4]

/-- One round with its constant and its word of the schedule. -/
def shaRound (h : List Word) (k w : Word) : List Word :=
  match h with
  | [a, b, c, d, e, f, g, x] =>
    let t1 := x + (e.rotateRight 14 ^^^ e.rotateRight 18 ^^^ e.rotateRight 41) + ((e &&& f) ^^^ (~~~e &&& g)) + k + w
    let t2 := (a.rotateRight 28 ^^^ a.rotateRight 34 ^^^ a.rotateRight 39) + ((a &&& b) ^^^ (a &&& c) ^^^ (b &&& c))
    [t1 + t2, a, b, c, d + t1, e, f, g]
  | _ => h

/-- The rounds over the constants left, with the next sixteen words of the schedule. -/
def shaRounds : List Word → List Word → List Word → List Word
  | [], _, h => h
  | k :: ks, ws, h =>
    let w := ws.getD 0 0
    let x := ws.getD 1 0
    let y := ws.getD 14 0
    let next := w + (x.rotateRight 1 ^^^ x.rotateRight 8 ^^^ x >>> 7) + ws.getD 9 0
      + (y.rotateRight 19 ^^^ y.rotateRight 61 ^^^ y >>> 6)
    shaRounds ks (ws.drop 1 ++ [next]) (shaRound h k w)

/-- The hash value after `n` blocks of 128 bytes. -/
def shaBlocks : Nat → List Byte → List Word → List Word
  | 0, _, h => h
  | n + 1, bs, h =>
    let ws := (List.range 16).map (fun i => BitVec.ofNat 64 (beNat ((bs.drop (8 * i)).take 8)))
    shaBlocks n (bs.drop 128) ((h.zip (shaRounds sha384K ws h)).map (fun p => p.1 + p.2))

/-- SHA-384 of a list of bytes: 0x80, zeros and the length in bits fill the last block. -/
def sha384 (bs : List Byte) : BitVec 384 :=
  let m := bs ++ [0x80] ++ List.replicate ((239 - bs.length % 128) % 128) 0 ++ beBytes 16 (8 * bs.length)
  BitVec.ofNat 384 (((shaBlocks (m.length / 128) m sha384H).take 6).foldl (fun n w => n * 2 ^ 64 + w.toNat) 0)

/-- The bytes of a digest, the most significant first. -/
def digestBytes (d : BitVec 384) : List Byte := beBytes 48 d.toNat

/-! ### ECDSA on brainpoolP384r1 -/

/-- The field's prime, the curve's coefficients, its generator, and the generator's order. -/
def curveP : Nat := 0x8CB91E82A3386D280F5D6F7E50E641DF152F7109ED5456B412B1DA197FB71123ACD3A729901D1A71874700133107EC53
def curveA : Nat := 0x7BC382C63D8C150C3C72080ACE05AFA0C2BEA28E4FB22787139165EFBA91F90F8AA5814A503AD4EB04A8C7DD22CE2826
def curveB : Nat := 0x04A8C7DD22CE28268B39B55416F0447C2FB77DE107DCD2A62E880EA53EEB62D57CB4390295DBC9943AB78696FA504C11
def curveGx : Nat := 0x1D1C64F068CF45FFA2A63A81B7C13F6B8847A3E77EF14FE3DB7FCAFE0CBD10E8E826E03436D646AAEF87B2E247D4AF1E
def curveGy : Nat := 0x8ABE1D7520F9C2A45CB1EB8E95CFD55262B70B29FEEC5864E19C054FF99129280E4646217791811142820341263C5315
def curveN : Nat := 0x8CB91E82A3386D280F5D6F7E50E641DF152F7109ED5456B31F166E6CAC0425A7CF3AB6AF6B7FC3103B883202E9046565

/-- A power modulo `m`, over the low `n` bits of the exponent. -/
def powMod (m : Nat) : Nat → Nat → Nat → Nat
  | 0, _, _ => 1 % m
  | n + 1, x, e => (if e % 2 = 1 then x else 1) * powMod m n (x * x % m) (e / 2) % m

/-- The inverse modulo a prime of 384 bits. -/
def invMod (m x : Nat) : Nat := powMod m 384 x (m - 2)

/-- A point as X, Y, Z: the affine point (X / Z², Y / Z³), and with Z 0 the point at infinity. -/
structure CurvePoint where
  x : Nat
  y : Nat
  z : Nat
  deriving DecidableEq, Repr

/-- Twice a point. -/
def doublePoint (p : CurvePoint) : CurvePoint :=
  let yy := p.y * p.y % curveP
  let zz := p.z * p.z % curveP
  let s := 4 * p.x * yy % curveP
  let m := (3 * p.x * p.x + curveA * (zz * zz % curveP)) % curveP
  let x := (m * m + 2 * (curveP - s)) % curveP
  ⟨x, (m * (curveP + s - x) + 8 * yy * (curveP - yy)) % curveP, 2 * p.y * p.z % curveP⟩

/-- The sum of two points. -/
def addPoint (p q : CurvePoint) : CurvePoint :=
  if p.z = 0 then q
  else if q.z = 0 then p
  else
    let zp := p.z * p.z % curveP
    let zq := q.z * q.z % curveP
    let u := p.x * zq % curveP
    let h := (q.x * zp + curveP - u) % curveP
    let s := p.y * zq % curveP * q.z % curveP
    let r := (q.y * zp % curveP * p.z + curveP - s) % curveP
    if h = 0 then if r = 0 then doublePoint p else ⟨1, 1, 0⟩
    else
      let hh := h * h % curveP
      let hhh := h * hh % curveP
      let v := u * hh % curveP
      let x := (r * r + 3 * curveP - hhh - 2 * v) % curveP
      ⟨x, (r * (curveP + v - x) + s * (curveP - hhh)) % curveP, h * p.z % curveP * q.z % curveP⟩

/-- A multiple of a point, over the low `n` bits of the factor. -/
def mulPoint : Nat → Nat → CurvePoint → CurvePoint
  | 0, _, _ => ⟨1, 1, 0⟩
  | n + 1, k, p => addPoint (if k % 2 = 1 then p else ⟨1, 1, 0⟩) (mulPoint n (k / 2) (doublePoint p))

/-- The 97 bytes are an uncompressed point of the curve (R321). -/
def onCurve (b : List Byte) : Bool :=
  let x := beNat ((b.drop 1).take 48)
  let y := beNat (b.drop 49)
  b.length == 97 && b.getD 0 0 == 4 && decide (x < curveP ∧ y < curveP)
    && y * y % curveP == (x * x * x + curveA * x + curveB) % curveP

/-- A signature, r then s of 48 bytes each, the most significant first, of a digest under a public point (R322). -/
def ecdsaVerify (key : List Byte) (digest : BitVec 384) (sig : List Byte) : Bool :=
  let r := beNat (sig.take 48)
  let s := beNat (sig.drop 48)
  onCurve key && sig.length == 96 && decide (1 ≤ r ∧ r < curveN ∧ 1 ≤ s ∧ s < curveN) &&
    let w := invMod curveN s
    let q : CurvePoint := ⟨beNat ((key.drop 1).take 48), beNat (key.drop 49), 1⟩
    let x := addPoint (mulPoint 384 (digest.toNat * w % curveN) ⟨curveGx, curveGy, 1⟩) (mulPoint 384 (r * w % curveN) q)
    x.z != 0 && x.x * invMod curveP (x.z * x.z % curveP) % curveP % curveN == r

end Sys2Proof.Machine
end

