-- ==== Sys2Proof/Machine/Translate.lean ====
section
/-! DEFINITION. Where an access goes: the scratchpad windows (R24), the page walk (R310 to R314), keys (R315), peer
windows (R318 to R320), and the reads and writes of what it finds. -/

namespace Sys2Proof.Machine

/-- Memory fault kinds (R339). -/
def kTranslation : Nat := 1
def kPermission : Nat := 2
def kAlignment : Nat := 3
def kData : Nat := 4
def kLink : Nat := 5
def kOffer : Nat := 6

/-- The kind of memory a byte lies in (R160), with the tile of a scratchpad. -/
inductive Space where
  | scr (tile : Nat) | hbm | hostCached | hostUncached | peer | stageRecord
  deriving DecidableEq, Repr

/-- Where an access goes: its first cell, its memory, its AES key, and for a peer its export entry's number
(device and entry) and offset. -/
structure Loc where
  cell : Nat
  space : Space
  /-- the AES key, 0 for none -/
  aes : Nat := 0
  dev : Nat := 0
  exp : Nat := 0
  off : Nat := 0
  /-- the leaf die of a die-local HBM page (R25) -/
  dlDie : Option Nat := none
  /-- the size of its page as a power of two: a leaf's, or a 64 KiB group's (R313, R314); of a window, the tile's share -/
  bits : Nat := 12
  deriving DecidableEq, Repr

/-- What an access does, for the checks of R191, R304, R313 and R318. -/
structure Need where
  rd : Bool := false
  wr : Bool := false
  fetch : Bool := false
  deriving DecidableEq, Repr

def Need.load : Need := ⟨true, false, false⟩
def Need.store : Need := ⟨false, true, false⟩
def Need.amo : Need := ⟨true, true, false⟩
def Need.code : Need := ⟨false, false, true⟩

/-- Who translates: the context, the mode, the tile that the local alias names (none where it is unmapped, R24),
and whether it is a device agent that resolves stage records (R239). -/
structure Agent where
  ctx : Nat
  monitor : Bool := false
  tile : Option Nat := none
  device : Bool := false
  deriving DecidableEq, Repr

/-- A resident context. -/
def State.ctx? (s : State) (n : Nat) : Option Ctx := s.ctxs.find? (fun c => c.num = n)

/-- The value at a key of an association list. -/
def assoc {α : Type} (l : List (Nat × α)) (k : Nat) : Option α := (l.find? (fun p => p.1 = k)).map Prod.snd

/-- The physical tile of a context's logical tile (R307). -/
def Ctx.tile? (c : Ctx) (k : Nat) : Option Nat := assoc c.tiles k

/-- The logical number of a physical tile in a context's grant. -/
def Ctx.logical (c : Ctx) (tile : Nat) : Nat := ((c.tiles.find? (fun p => p.2 = tile)).map Prod.fst).getD 0

/-! ### Page-table entries (R312, R313) -/

/-- Bits [hi:lo] of a dword as a number. -/
def fld (w : Word) (hi lo : Nat) : Nat := (w.extractLsb' lo (hi - lo + 1)).toNat

/-- The reserved bits of an entry are zero: [63:60] and [4] of a leaf; all but v and addr of a table entry. -/
def pteReservedOk (w : Word) (leaf : Bool) : Bool :=
  if leaf then fld w 63 60 == 0 && fld w 4 4 == 0
  else fld w 63 52 == 0 && fld w 11 7 == 0 && fld w 5 1 == 0

/-- The bytes a leaf of a level maps: 12, 21 or 30 bits. -/
def leafBits (level : Nat) : Nat := 12 + 9 * (level - 1)

/-- The faults of R313 on a leaf. -/
def leafOk (w : Word) (level : Nat) : Bool :=
  let type := fld w 53 52
  pteReservedOk w true
    && (fld w 51 12 * 2 ^ 12) % 2 ^ leafBits level == 0
    && (fld w 59 54 == 0 || type == 0)
    && (fld w 11 11 == 0 || type == 0)
    && (fld w 7 7 == 0 || level == 1)
    && (fld w 2 2 == 0 || fld w 1 1 == 1)

/-- The sixteen entries of a 64 KiB group agree (R314): same fields, consecutive pages from an aligned base. -/
def groupOk (m : List Host.Cell) (table idx : Nat) : Bool :=
  let base := idx / 16 * 16
  let e0 := binderyWord m (table + 8 * base)
  let p0 := fld e0 51 12
  p0 % 16 == 0 &&
    (List.range 16).all fun k =>
      let e := binderyWord m (table + 8 * (base + k))
      fld e 51 12 == p0 + k && fld e 7 7 == 1 && fld e 63 52 == fld e0 63 52 && fld e 11 0 == fld e0 11 0

/-- The walk from a table at a level (R311): the leaf and its level, or none for a translation fault. -/
def walk (m : List Host.Cell) (va : Nat) : Nat → Nat → Option (Word × Nat)
  | 0, _ => none
  | level + 1, table =>
    let idx := va / 2 ^ (12 + 9 * level) % 512
    let e := binderyWord m (table + 8 * idx)
    if fld e 0 0 = 0 then none
    else if fld e 6 6 = 1 then
      if level + 1 = 4 ∨ !leafOk e (level + 1) then none
      else if fld e 7 7 = 1 ∧ !groupOk m table idx then none
      else some (e, level + 1)
    else if level = 0 ∨ !pteReservedOk e false then none
    else walk m va level (fld e 51 12 * 2 ^ 12)

/-- The leaf's rights allow an access (R304, R313). -/
def rightsOk (e : Word) (monitor : Bool) (n : Need) : Bool :=
  (!n.rd || fld e 1 1 == 1) && (!n.wr || fld e 2 2 == 1) && (!n.fetch || fld e 3 3 == 1)
    && (fld e 5 5 == 0 || monitor)

/-- The import entry of a peer page, if the context may use it (R318). -/
def State.importFor (s : State) (ctx win : Nat) : Option Win256 :=
  match assoc s.imports win with
  | some e => if fld e.d0 63 63 = 1 ∧ fld e.d1 63 48 = ctx then some e else none
  | none => none

/-- Translation of an address (R24, R310 to R315, R318): a place, or the fault kind. -/
def translate (s : State) (ag : Agent) (va : Word) (n : Need) : Except Nat Loc :=
  let a := va.toNat
  if a ≥ 2 ^ 48 then .error kTranslation
  else if 0x7F0000000000 ≤ a ∧ a < 2 ^ 47 then
    match s.ctx? ag.ctx with
    | none => .error kPermission
    | some c =>
      if n.fetch then .error kPermission
      else if a < 0x7F4000000000 then
        match c.tile? (a / 2 ^ 19 % 2 ^ 19) with
        | some t => .ok { cell := scrCell t (a % 2 ^ 19), space := .scr t, bits := 19 }
        | none => .error kPermission
      else if a < 0x7F4000080000 then
        match ag.tile with
        | some t => .ok { cell := scrCell t (a % 2 ^ 19), space := .scr t, bits := 19 }
        | none => .error kPermission
      else if 0x7F8000000000 ≤ a ∧ ag.device then
        .ok { cell := binderyCell (2 ^ 60 + ag.ctx * 2 ^ 39 + a % 2 ^ 39), space := .stageRecord }
      else .error kPermission
  else
    match s.ctx? ag.ctx with
    | none => .error kTranslation
    | some c =>
      match walk s.mem a 4 c.root with
      | none => .error kTranslation
      | some (e, level) =>
        if !rightsOk e ag.monitor n then .error kPermission
        else
          let pa := fld e 51 12 * 2 ^ 12 + a % 2 ^ leafBits level
          let key := fld e 59 54
          let bits := if fld e 7 7 = 1 then 16 else leafBits level
          match fld e 53 52 with
          | 0 =>
            if key ≠ 0 ∧ assoc s.keyOwner key ≠ some ag.ctx then .error kPermission
            else if pa ≥ hbmEnd then .error kTranslation
            else .ok { cell := pa, space := .hbm, aes := (assoc s.keyIds key).getD 0
                       dlDie := if fld e 11 11 = 1 then some (fld e 10 8) else none, bits }
          | 1 => .ok { cell := hostCell pa, space := .hostCached, bits }
          | 2 => if n.fetch then .error kPermission else .ok { cell := hostCell pa, space := .hostUncached, bits }
          | _ =>
            if n.fetch then .error kPermission
            else
              match s.importFor ag.ctx (fld e 51 42) with
              | none => .error kPermission
              | some w =>
                let off := fld e 41 12 * 2 ^ 12 + a % 2 ^ leafBits level
                let dev := fld w.d0 60 48
                let exp := fld w.d0 41 32
                .ok { cell := peerCell dev exp off, space := .peer, dev, exp, off, bits }

/-! ### Reading and writing a place -/

/-- The key a line of HBM was stored under (R315). -/
def State.lineKey (s : State) (line : Nat) : Nat := (assoc s.lineKeys line).getD 0

/-- The bytes of a loaded key by its number, none for key 0. -/
def State.keyBytes (s : State) (k : Nat) : List Byte := if k = 0 then [] else s.keys.getD (k - 1) []

/-- A line of HBM as its stack holds it: under the key it was stored under (R315). -/
def State.sealedLine (s : State) (line : Nat) : List Byte :=
  sealLine (s.keyBytes (s.lineKey line)) line (Mem.bytes s.mem (line * 64) 64)

/-- Bytes of cells read under a key: of a line stored under another key, the ciphertext decrypted (R315). -/
def State.readAs (s : State) (aes cell n : Nat) : List Byte :=
  s.shown cell (
    if cell < hbmEnd ∧ s.lineKey (cell / 64) ≠ aes then
      ((unsealLine (s.keyBytes aes) (cell / 64) (s.sealedLine (cell / 64))).drop (cell % 64)).take n
    else Mem.bytes s.mem cell n)

/-- The cell's line may be discarded: one of HBM or of host memory (R181, R191). -/
def mayDiscard (cell : Nat) : Bool := decide (cell < hbmEnd) || decide (2 ^ 57 ≤ cell ∧ cell < 2 ^ 58)

/-- The lines that a run of `n` bytes from a cell touches and that may be discarded, with their contents. -/
def State.linesOf (s : State) (cell n : Nat) : List (Nat × List Byte) :=
  if mayDiscard cell then
    (List.range ((cell + n - 1) / 64 - cell / 64 + 1)).map fun i =>
      (cell / 64 + i, Mem.bytes s.mem ((cell / 64 + i) * 64) 64)
  else []

/-- A lost dword lies whole in `n` bytes from a cell. -/
def Lost.within (x : Lost) (cell n : Nat) : Bool :=
  match x with
  | .cell a => decide (cell ≤ a ∧ a + 8 ≤ cell + n)
  | _ => false

/-- A lost dword and `n` bytes from a cell meet. -/
def Lost.meets (x : Lost) (cell n : Nat) : Bool :=
  match x with
  | .cell a => decide (a < cell + n ∧ cell < a + 8)
  | _ => false

/-- Bytes written to cells: every write of the machine. The earlier contents of a line of HBM or host
memory stay known (R181), a lost dword written whole holds a value again (R370), and the
continuations parked on the granule or line touched are woken (R261). -/
def State.poke (s : State) (cell : Nat) (bs : List Byte) : State :=
  { s with
    mem := Mem.write s.mem cell bs
    hist := s.linesOf cell bs.length ++ s.hist
    lost := s.lost.filter (fun x => !x.within cell bs.length)
    parks := s.parks.map (Park.touched cell bs.length) }

/-- Bytes of one line written under a key. A line stored under another key is read under the new one and stored
whole under it, and what a discard may bring back there is read under the new key as well (R181, R315). -/
def State.writeAs (s : State) (aes cell : Nat) (bs : List Byte) : State :=
  if cell < hbmEnd ∧ s.lineKey (cell / 64) ≠ aes then
    let line := cell / 64
    let old := s.readAs aes (line * 64) 64
    let keys := s.lineKeys.filter (fun p : Nat × Nat => p.1 ≠ line)
    let turned (e : Nat × List Byte) : Nat × List Byte :=
      if e.1 = line then (line, unsealLine (s.keyBytes aes) line (sealLine (s.keyBytes (s.lineKey line)) line e.2)) else e
    let s := { s with
      mem := Mem.write s.mem (line * 64) old, lineKeys := if aes = 0 then keys else (line, aes) :: keys
      hist := s.hist.map turned }
    s.poke cell bs
  else s.poke cell bs

/-- The refusal that another party makes of an access of `n` bytes (log entry 3), their data error (R370), or that of a
write to a bound channel's memory (R253); 0 for none. `op`: 0 load, 1 store, 2 atomic. -/
def State.denied (s : State) (cell op : Nat) (n : Nat := 1) : Nat :=
  match s.deny.find? (fun d => d.lo < cell + n ∧ cell < d.hi ∧ d.ops.getLsbD op) with
  | some d => d.kind
  | none =>
    if op ≠ 0 ∧ s.chans.any (fun c => c.meets cell n) then kPermission
    else if op ≠ 1 ∧ s.lost.any (fun x => x.meets cell n) then kData else 0

/-- The bytes from an address to the end of its page, as an agent translates it. -/
def pageRoom (s : State) (ag : Agent) (va : Word) (n : Need) : Nat :=
  match translate s ag va n with
  | .ok l => 2 ^ l.bits - va.toNat % 2 ^ l.bits
  | .error _ => 4096 - va.toNat % 4096

/-! ### A thread's own agent -/

/-- The thread in focus as an agent. -/
def State.self (s : State) : Agent :=
  ⟨s.th.ctx, s.th.mode = .monitor, some s.th.key.tile, false⟩

/-- The device acting for the thread in focus: it resolves stage records and monitor pages. -/
def State.dev (s : State) : Agent := ⟨s.th.ctx, true, some s.th.key.tile, true⟩

/-- `n` bytes at a virtual address, read by an agent, or the fault kind. The bytes lie within one page. -/
def readVA (s : State) (ag : Agent) (va : Word) (n : Nat) : Except Nat (List Byte) :=
  match translate s ag va .load with
  | .error k => .error k
  | .ok l =>
    match s.denied l.cell 0 n with
    | 0 => .ok (s.readAs l.aes l.cell n)
    | k => .error k

/-- Bytes of one line written at a virtual address, or the fault kind. -/
def writeVA (s : State) (ag : Agent) (va : Word) (bs : List Byte) : Except Nat State :=
  match translate s ag va .store with
  | .error k => .error k
  | .ok l =>
    match s.denied l.cell 1 bs.length with
    | 0 => .ok (s.writeAs l.aes l.cell bs)
    | k => .error k

/-- A dword at a virtual address. -/
def readDword (s : State) (ag : Agent) (va : Word) : Except Nat Word :=
  match readVA s ag va 8 with
  | .ok bs => .ok (BitVec.ofNat 64 (leNat bs))
  | .error k => .error k

/-- Bytes written from a virtual address on, one 64-byte line at a time; the first fault stops it. -/
def writeLines (ag : Agent) : Nat → State → Word → List Byte → Except Nat State
  | 0, s, _, _ => .ok s
  | n + 1, s, va, bs =>
    match bs with
    | [] => .ok s
    | _ =>
      let len := 64 - va.toNat % 64
      match writeVA s ag va (bs.take len) with
      | .error k => .error k
      | .ok s' => writeLines ag n s' (va + BitVec.ofNat 64 len) (bs.drop len)

/-- Bytes read from a virtual address on, one 64-byte line at a time; the first fault stops it. -/
def readLines (s : State) (ag : Agent) : Nat → Word → Nat → Except Nat (List Byte)
  | 0, _, _ => .ok []
  | k + 1, va, n =>
    if n = 0 then .ok []
    else
      let len := min n (64 - va.toNat % 64)
      match readVA s ag va len with
      | .error e => .error e
      | .ok bs =>
        match readLines s ag k (va + BitVec.ofNat 64 len) (n - len) with
        | .error e => .error e
        | .ok rest => .ok (bs ++ rest)

end Sys2Proof.Machine
end

