-- ==== Sys2Proof/Machine/Ops.lean ====
section
/-! DEFINITION. The named operations over a thread's registers, ports, windows and results, free values, focus, and
the one operation that takes a trap (R346) with the return beside it (R355). -/

namespace Sys2Proof.Machine

/-! ### Ports, registers and windows -/

/-- The place of a latch in the scalar port image (R347). -/
def latchIx : Latch → Fin 40
  | .ao => 0 | .ar => 1 | .mo => 2 | .mr => 3 | .fo => 4 | .fo2 => 5 | .fr => 6 | .lo => 7 | .lo2 => 8 | .lo3 => 9
  | .lr => 10 | .lr2 => 11 | .so => 12 | .so2 => 13 | .sr => 14 | .xo => 15 | .xo2 => 16 | .xr => 17 | .yo => 18
  | .yo2 => 19 | .yo3 => 20 | .yo4 => 21 | .yr => 22 | .pa0 => 23 | .pa1 => 24 | .pb0 => 25 | .pb1 => 26 | .pc => 27
  | .pr => 28 | .dO => 29 | .dO2 => 30 | .dr => 31 | .ho => 32 | .ho2 => 33 | .hr => 34 | .zo => 35 | .zr => 36
  | .xrnd => 37 | .xflags => 38 | .xten => 39

/-- The place of a unit in the pending records (R349). -/
def winIx : Win → Fin 8
  | .m => 0 | .f => 1 | .l => 2 | .v => 3 | .x => 4 | .y => 5 | .h => 6 | .d => 7

/-- The units with windows, in the order of their records. -/
def allWins : List Win := [.m, .f, .l, .v, .x, .y, .h, .d]

namespace Thread

/-- A write of a register ends its parity error (R366, R368). -/
def mend (t : Thread) (r : RegRef) : List RegRef := t.bad.filter (fun x => x ≠ r)

/-- A latch's value. -/
def get (t : Thread) (l : Latch) : Word := t.port[latchIx l]
/-- A latch written. -/
def set (t : Thread) (l : Latch) (w : Word) : Thread :=
  { t with port := t.port.set (latchIx l) w, bad := t.mend (.latch l) }

/-- A g register; g0 reads 0 (R38). -/
def getG (t : Thread) (r : BitVec 5) : Word := if r = 0 then 0 else t.g[r.toFin]
/-- A write of a g register; a write of g0 is discarded (R38). -/
def setG (t : Thread) (r : BitVec 5) (w : Word) : Thread :=
  if r = 0 then t else { t with g := t.g.set r.toFin w, bad := t.mend (.g r) }

/-- A v register. -/
def getV (t : Thread) (r : BitVec 4) : Vec := t.v[r.toFin]
def setV (t : Thread) (r : BitVec 4) (w : Vec) : Thread := { t with v := t.v.set r.toFin w, bad := t.mend (.v r) }

/-- V's latches written (R54). -/
def setVo (t : Thread) (w : Vec) : Thread := { t with vo := w, bad := t.mend .vo }
def setVo2 (t : Thread) (w : Vec) : Thread := { t with vo2 := w, bad := t.mend .vo2 }
def setVr (t : Thread) (w : Vec) : Thread := { t with vr := w, bad := t.mend .vr }

/-- A guard bit; k0 is 1 (R34). -/
def getK (t : Thread) (n : BitVec 3) : Bool := n == 0 || t.k.getLsbD n.toNat
/-- A guard written; k0 is not writable (R35). -/
def setK (t : Thread) (n : BitVec 3) (b : Bool) : Thread :=
  if n = 0 then t
  else { t with k := if b then t.k ||| (1#8 <<< n.toNat) else t.k &&& ~~~(1#8 <<< n.toNat) }

/-- A unit's window. -/
def win (t : Thread) (u : Win) : Pend := t.pend[winIx u]
def setWin (t : Thread) (u : Win) (p : Pend) : Thread := { t with pend := t.pend.set (winIx u) p }

/-- Flags merged into xflags (R73). -/
def merge (t : Thread) (f : Flags) : Thread := t.set .xflags (t.get .xflags ||| f.setWidth 64)

/-- The flags that merged in cycle `now`: a write of xflags in the same cycle keeps them (R73). -/
def note (t : Thread) (now : Nat) (f : Flags) : Thread :=
  { t with fresh := if f = 0 then t.fresh else (now, if t.fresh.1 = now then t.fresh.2 ||| f else f) }

/-- The guard field holds (R34). -/
def holds (t : Thread) (g : Guard) : Bool := t.getK g.k != g.inv

end Thread

/-- The operation of a window has completed by a cycle. -/
def Pend.complete (p : Pend) (now : Nat) : Bool := p.known && decide (p.doneAt ≤ now)

/-- A transport counts in a window; once its last has issued, the result is visible in the next cycle at the
earliest (R39). -/
def Pend.count (p : Pend) (now : Nat) : Pend :=
  if p.isOpen ∧ 0 < p.left then
    { p with left := p.left - 1, doneAt := if p.left = 1 then max p.doneAt (now + 1) else p.doneAt }
  else p

/-! ### State-wide helpers -/

namespace State

def map (s : State) (f : Thread → Thread) : State := { s with th := f s.th }

/-- The next free value (log entry 2). -/
def draw (s : State) : Nat × State := (Config.free s.draws, { s with draws := s.draws + 1 })

/-- A completion cycle at least `least` cycles from now (R22): unloaded, the least. -/
def after (s : State) (least : Nat) : Nat × State :=
  let (x, s) := s.draw
  (s.cyc + least + x, s)

/-- The bindery refuses requests to the tiles of a context, and its streams stop: every thread of the context that is
pre-empted has been saved (R361). -/
def closing (s : State) (n : Nat) : Bool :=
  match s.ctx? n with
  | some c => c.preq && (s.th :: s.others).all (fun t => t.ctx != n || t.life == .stopped || t.life == .idle)
  | none => false

/-- The thread of a slot, if it is bound. -/
def thread? (s : State) (k : SlotKey) : Option Thread :=
  if s.th.key = k ∧ s.th.life ≠ .idle then some s.th
  else s.others.find? (fun t => t.key = k)

/-- Every bound slot's thread. -/
def threads (s : State) : List Thread := (if s.th.life = .idle then [] else [s.th]) ++ s.others

/-- The slot `k` brought into focus. -/
def focus (s : State) (k : SlotKey) : Option State :=
  if s.th.key = k ∧ s.th.life ≠ .idle then some s
  else
    match s.others.find? (fun t => t.key = k) with
    | none => none
    | some t =>
      let rest := s.others.filter (fun t => t.key ≠ k)
      some { s with th := t, others := if s.th.life = .idle then rest else s.th :: rest }

/-- An update of every thread. -/
def mapAll (s : State) (f : Thread → Thread) : State := { s with th := f s.th, others := s.others.map f }

/-- An update of a slot's thread. -/
def mapSlot (s : State) (k : SlotKey) (f : Thread → Thread) : State :=
  s.mapAll (fun t => if t.key = k then f t else t)

/-- The context of the thread in focus. -/
def myCtx (s : State) : Option Ctx := s.ctx? s.th.ctx

/-- An update of a context. -/
def mapCtx (s : State) (n : Nat) (f : Ctx → Ctx) : State :=
  { s with ctxs := s.ctxs.map (fun c => if c.num = n then f c else c) }

/-- The thread in focus does not issue in this cycle after all: its core's slot of the cycle is free again, and so is its
V (R101). -/
def unissue (s : State) : State :=
  { s with issued := s.issued.filter (fun c => c ≠ s.th.key.coreKey), vUsed := s.vUsed.filter (fun c => c ≠ s.th.key.coreKey) }

end State

/-- An event of the device: an instruction of the table without bits, with its subject. -/
abbrev Event := Instr × EvArg

/-- Stage core or streamer core (R17). -/
def isStage (k : SlotKey) : Bool := decide (k.core < 4)

/-- tid (R52): slot, core, logical tile. -/
def State.tid (s : State) : Word :=
  let lt := match s.myCtx with
    | some c => c.logical s.th.key.tile
    | none => 0
  BitVec.ofNat 64 (s.th.key.slot + 8 * s.th.key.core + 64 * lt)

/-- mctx (R357). -/
def State.mctx (s : State) : Word :=
  (s.th.record.extractLsb' 6 42 ++ 0#6) ++ BitVec.ofNat 16 s.th.ctx

/-- The leaf die of a tile (R16). -/
def dieOf (tile : Nat) : Nat := tile / 192

/-- The unloaded latency between two tiles' scratchpads and cores (R22). -/
def tileLatency (a b : Nat) : Nat :=
  if a = b then 3 else if a / 4 = b / 4 then 5 else if a / 16 = b / 16 then 7
  else if a / 192 = b / 192 then 40 else 120

/-! ### Results in flight (R42, R73, R78, R79) -/

/-- A result delivered. -/
def Thread.deliver (t : Thread) (f : Flight) : Thread :=
  let t := match f.port with
    | some l => t.set l f.r
    | none => t.setVr f.v
  t.merge f.flags

/-- Every fixed-latency result due by now is visible, in trigger order. -/
def Thread.settle (t : Thread) (now : Nat) : Thread :=
  let due := t.flight.filter (fun f => decide (f.due ≤ now))
  (due.foldl Thread.deliver { t with flight := t.flight.filter (fun f => decide (now < f.due)) }).note now
    ((due.filter (fun f => f.due = now)).foldl (fun x f => x ||| f.flags) 0)

/-- The latest cycle a result of a port is due, at least `now`. -/
def Thread.flightDue (t : Thread) (p : Option Latch) (now : Nat) : Nat :=
  (t.flight.filter (fun f => f.port = p)).foldl (fun n f => max n f.due) now

/-- A fixed-latency result launched: not visible before an earlier-triggered one of its port (R78). -/
def State.launch (s : State) (p : Option Latch) (lat : Nat) (r : Word) (v : Vec) (fl : Flags) : State :=
  let due := s.th.flightDue p (s.cyc + lat)
  s.map (fun t => { t with flight := t.flight ++ [⟨p, due, r, v, fl⟩] })

/-- A window opened by a long-latency trigger (R39). -/
def State.openWin (s : State) (u : Win) (l : BitVec 4) (p : Pend) : State :=
  s.map (fun t => t.setWin u
    { p with isOpen := true, left := l.toNat, doneAt := max p.doneAt (s.cyc + 1) })

/-- The result ports of a unit with a window. -/
def winPort : Win → Option Latch
  | .m => some .mr | .f => some .fr | .l => some .lr | .v => none | .x => some .xr | .y => some .yr
  | .h => some .hr | .d => some .dr

/-- A window's result delivered and the window closed (R37, R39, R73). -/
def Thread.closeWin (t : Thread) (u : Win) : Thread :=
  let p := t.win u
  let t := t.setWin u {}
  let t := if p.hasRes then
      match winPort u with
      | none => t.setVr p.v
      | some l =>
        let t := t.set l p.r
        if u = .l then t.set .lr2 p.r2 else t
    else t
  t.merge p.flags

/-! ### Advancing -/

/-- The thread's transport counts in every open window (R39). -/
def Thread.countWins (t : Thread) (now : Nat) : Thread :=
  { t with pend := Vector.ofFn (fun i => t.pend[i].count now) }

/-- The transport has issued: the next word, one transport counted, the next cycle at the earliest. -/
def State.advance (s : State) : State :=
  s.map (fun t => { t.countWins s.cyc with pc := t.pc + 4, readyAt := s.cyc + 1, again := false })

/-- The thread in focus as an agent whose privilege is the device's (frames, records). -/
def State.frameOf (s : State) : Except Nat Word := readDword s s.dev (s.th.record + 8)

/-! ### The frame images of R347 to R351 -/

/-- The dwords of a list as bytes. -/
def dwords (ws : List Word) : List Byte := ws.flatMap (fun w => leBytes 8 w.toNat)

/-- The bytes of a 512-bit value (R92). -/
def vecBytes (v : Vec) : List Byte := leBytes 64 v.toNat

/-- The thread word (R348). -/
def Thread.threadWord (t : Thread) : Word :=
  BitVec.ofNat 64 (t.rfq.toNat * 2 ^ 32 + t.tlev.toNat * 2 ^ 16 + (t.k ||| 1).toNat)

/-- A queue binding word (R348). -/
def Binding.word (b : Binding) : Word :=
  BitVec.ofNat 64 ((if b.bound then 2 ^ 63 else 0) + (if b.prod then 2 ^ 62 else 0) + b.chan % 2 ^ 48)

/-- A pending record (R349): a completed operation whose result is held back has pend = 1; V's window of an
unfinished sequence has pend = 0 with its count. -/
def Thread.pendRecord (t : Thread) (u : Win) : List Word :=
  let p := t.win u
  if u = .v ∧ t.rep.act then [BitVec.ofNat 64 (if p.isOpen then p.left else 0), 0, 0, p.flags.setWidth 64]
  else if p.isOpen ∧ p.left ≠ 0 ∧ p.hasRes then
    [BitVec.ofNat 64 (0x80 + p.left), if u = .v then 0 else p.r, if u = .l then p.r2 else 0, p.flags.setWidth 64]
  else [0, 0, 0, 0]

/-- The repetition record (R350). -/
def Thread.repRecord (t : Thread) : List Word :=
  let r := t.rep
  if r.act then
    BitVec.ofNat 64 (2 ^ 63 + r.gv.toNat * 2 ^ 22 + r.word % 8 * 2 ^ 19 + r.pass % 64 * 2 ^ 13
      + r.bm1 % 8 * 2 ^ 10 + r.stride % 16 * 2 ^ 6 + r.cm1 % 64) :: r.addr :: r.scal.toList ++ [0, 0]
  else List.replicate 12 0

/-- The remote-report record (R348). -/
def Thread.reportWord (t : Thread) : Word := BitVec.ofNat 64 (t.repKind.toNat * 2 ^ 48 + t.repAddr.toNat)

/-- The bytes of F + 0x500 to F + 0xABF at trap entry (R346, R347), with the resume PC given. -/
def Thread.entryImage (t : Thread) (resume : Word) : List Byte :=
  vecBytes t.vo ++ vecBytes t.vo2 ++ vecBytes t.vr
    ++ vecBytes (if (t.win .v).isOpen ∧ (t.win .v).hasRes ∧ !t.rep.act then (t.win .v).v else 0)
    ++ dwords (t.port.toList ++ [t.threadWord, resume] ++ t.bind.toList.map Binding.word
        ++ allWins.flatMap t.pendRecord ++ t.repRecord ++ [t.reportWord, t.mvec])
    ++ List.replicate 448 0

/-! ### Taking a trap -/

/-- A message for the policy core. -/
def State.tell (s : State) (ctx : Nat) (key : SlotKey) (t : Tale) : State :=
  { s with policyQ := s.policyQ ++ [{ id := s.faultSeq, ctx, key, tale := t }], faultSeq := s.faultSeq + 1 }

/-- Every store and atomic of a thread has been performed and acknowledged. -/
def State.settled (s : State) (t : Thread) : Bool :=
  t.unacked == 0 && t.mem.isEmpty && !s.homeQ.any (fun a => a.key == t.key)

/-- A stopped thread's status becomes 5, with a release at .dv, and the policy core is told (R352). -/
def State.reportStop (s : State) : State :=
  let s := match writeVA s s.dev (s.th.record + 0x38) [5] with
    | .ok s' => s'
    | .error _ => s
  (s.map (fun t => { t with dying := false })).tell s.th.ctx s.th.key (.stopped s.th.record)

/-- A double fault (R352): the thread stops. Its status and the report wait for its earlier accesses. -/
def State.doubleFault (s : State) : State :=
  let s := s.map (fun t => { t with life := .stopped, hold := .none, trapWait := none, unperformed := none, dying := true })
  if s.settled s.th then s.reportStop else s

/-- Every operation the thread has issued has completed, the passes of a repetition apart (R43, R346). -/
def Thread.drained (t : Thread) (now : Nat) : Bool :=
  t.mem.isEmpty && t.rels.isEmpty && t.flight.all (fun f => decide (f.due ≤ now)) &&
    allWins.all (fun u => !(t.win u).isOpen || (u = .v && t.rep.act) || (t.win u).complete now)

/-- Windows whose count is over and whose operation has completed are visible before the entry; one whose operation
delivers a trap leaves it owed (R39). -/
def Thread.closeDone (t : Thread) (now : Nat) : Thread :=
  allWins.foldl (fun t u =>
    if (t.win u).isOpen ∧ (t.win u).left = 0 ∧ (t.win u).complete now ∧ ¬(u = .v ∧ t.rep.act) then
      { t.closeWin u with owed := t.owed ++ (t.win u).trap.toList }
    else t) t

/-- The trap that an open window's operation delivers, with its unit. -/
def Thread.owing (t : Thread) : Option (Win × TrapInfo) :=
  allWins.findSome? (fun u => if (t.win u).isOpen then (t.win u).trap.map (fun ti => (u, ti)) else none)

/-- The traps still to be taken, those of open windows last (R39). -/
def Thread.owes (t : Thread) : List TrapInfo :=
  t.owed ++ allWins.filterMap (fun u => if (t.win u).isOpen then (t.win u).trap else none)

/-- The monitor ports written (R344, R346). -/
def Thread.told (t : Thread) (ti : TrapInfo) : Thread :=
  { t with
    mcause := ti.info ++ (0#15 ++ BitVec.ofBool ti.nx ++ BitVec.ofNat 8 ti.detail ++ BitVec.ofNat 8 ti.cause)
    maddr := ti.maddr
    mtpc := ti.mtpc }

/-- Trap entry (R346): the frame is written, the monitor ports set, windows closed, the mode and the PC changed. -/
def enterTrap (s : State) (ti : TrapInfo) : State :=
  let s := s.map (fun t => { (t.settle s.cyc).closeDone s.cyc with
    trapWait := none, hold := .none, unperformed := none, again := false })
  if s.th.mode = .monitor then s.doubleFault
  else
    match s.frameOf with
    | .error _ => (s.map (fun t => t.told ti)).doubleFault
    | .ok f =>
      match writeLines s.dev 24 s (f + 0x500) (s.th.entryImage ti.mtpc) with
      | .error _ => (s.map (fun t => t.told ti)).doubleFault
      | .ok s =>
        let vec := if s.th.mvec ≠ 0 then s.th.mvec else ((s.myCtx.map Ctx.vector).getD 0)
        let (at_, s) := s.after 24
        let s := s.map (fun t => { t.told ti with
          owed := t.owes
          pend := Vector.replicate 8 {}
          seqRnd := if t.rep.act then t.rep.xrnd else Config.startRnd s.draws
          rep := {}
          mode := .monitor
          pc := vec
          readyAt := at_ })
        if vec = 0 then s.doubleFault else s

/-- Taking a trap: any trap in monitor mode is a double fault (R352); entry waits until every operation the thread
has issued has completed (R346), and TRAP_ENTRY then performs it. -/
def takeTrap (s : State) (ti : TrapInfo) : State :=
  if s.th.mode = .monitor then s.doubleFault
  else if s.th.drained s.cyc then enterTrap s ti
  else s.map (fun t => { t with hold := .trap, trapWait := some ti })

/-- A g or v register, not a latch. -/
def RegRef.isReg : RegRef → Bool
  | .g _ | .v _ => true
  | _ => false

/-- A register set to 0. -/
def Thread.zero (t : Thread) : RegRef → Thread
  | .g n => t.setG n 0
  | .v n => t.setV n 0
  | .latch l => t.set l 0
  | .vo => t.setVo 0
  | .vo2 => t.setVo2 0
  | .vr => t.setVr 0

/-- Cause 12's detail (R344). -/
def RegRef.detail : RegRef → Nat
  | .g _ => 1
  | .v _ => 2
  | _ => 3

/-- A read of a register whose parity error has no duplicate (R368): the register then holds 0, and the transport takes
the register data-error trap. -/
def dataError (s : State) (r : RegRef) : State :=
  takeTrap (s.map (fun t => t.zero r)) { cause := 12, detail := r.detail, mtpc := s.th.pc }

/-- None of the registers has a parity error. -/
def Thread.sound (t : Thread) (rs : List RegRef) : Bool := rs.all (fun r => !t.bad.contains r)

/-- A transport that reads the registers: performed by `body`, or trapped at the first with a parity error. -/
def checked (rs : List RegRef) (body : State → State) (s : State) : State :=
  match rs.find? (fun r => s.th.bad.contains r) with
  | some r => dataError s r
  | none => body s

/-- A trap at the transport the thread is issuing, which is not performed. -/
def trapHere (s : State) (cause : Nat) (detail : Nat := 0) (info : W32 := 0) (maddr : Word := 0) : State :=
  takeTrap s { cause, detail, info, maddr, mtpc := s.th.pc }

/-- The illegal-transport trap (R55). -/
def trapIllegal (s : State) : State := trapHere s 2
/-- The privilege trap (R53, R55). -/
def trapPrivilege (s : State) : State := trapHere s 3

/-! ### Returning from a trap (R355) -/

/-- A dword of a byte list. -/
def dwordAt (bs : List Byte) (off : Nat) : Word := BitVec.ofNat 64 (leNat ((bs.drop off).take 8))

/-- A 512-bit value of a byte list. -/
def vecAt (bs : List Byte) (off : Nat) : Vec := BitVec.ofNat 512 (leNat ((bs.drop off).take 64))

/-- The repetition record of twelve dwords (R350), with xrnd as the sequence captured it. -/
def repOfWords (bs : List Byte) (off : Nat) (xrnd : Word) : Rep :=
  let w := dwordAt bs off
  { act := fld w 63 63 = 1, gv := w.extractLsb' 22 8, word := fld w 21 19, pass := fld w 18 13, bm1 := fld w 12 10
    stride := fld w 9 6, cm1 := fld w 5 0, addr := dwordAt bs (off + 8)
    scal := Vector.ofFn (fun i => dwordAt bs (off + 16 + 8 * i.val)), xrnd := xrnd }

/-- Reserved bits of the saved image from 0x500 on are zero (R348 to R350). -/
def imageReservedOk (bs : List Byte) : Bool :=
  let tw := dwordAt bs 0x240
  let rw := dwordAt bs 0x390
  fld tw 63 48 == 0 && fld tw 31 19 == 0 && fld tw 15 8 == 0
    && (List.range 8).all (fun i => fld (dwordAt bs (0x250 + 8 * i)) 61 48 == 0)
    && (List.range 8).all (fun i =>
      fld (dwordAt bs (0x290 + 32 * i)) 63 8 == 0 && fld (dwordAt bs (0x290 + 32 * i)) 6 4 == 0
        && fld (dwordAt bs (0x2A8 + 32 * i)) 63 7 == 0)
    && fld rw 62 30 == 0 && dwordAt bs 0x3E0 == 0 && dwordAt bs 0x3E8 == 0
    && fld (dwordAt bs 0x3F0) 63 56 == 0

/-- Every pending record is valid (R349). -/
def imagePendOk (bs : List Byte) : Bool :=
  let act := fld (dwordAt bs 0x390) 63 63 == 1
  allWins.all fun u =>
    let w := dwordAt bs (0x290 + 32 * (winIx u).val)
    let held := fld w 7 7 == 1
    if u = .v ∧ act then !held else held == (fld w 3 0 != 0)

/-- The window a pending record restores: its result was complete and counts on (R355). -/
def pendOfImage (bs : List Byte) (u : Win) : Pend :=
  let o := 0x290 + 32 * (winIx u).val
  let w := dwordAt bs o
  let act := fld (dwordAt bs 0x390) 63 63 = 1
  if u = .v ∧ act then { isOpen := true, left := fld w 3 0, known := false, rep := true, flags := (dwordAt bs (o + 24)).setWidth 7 }
  else if fld w 7 7 = 1 then
    { isOpen := true, left := fld w 3 0, hasRes := true, r := dwordAt bs (o + 8), r2 := dwordAt bs (o + 16)
      v := if u = .v then vecAt bs 0xC0 else 0, flags := (dwordAt bs (o + 24)).setWidth 7 }
  else {}

/-- The image of F + 0x500 to F + 0x8FF restored: V's ports and held result, the scalar ports but xrnd, xflags and
xten, the guards, tlev, the pending records and the repetition record (R355). Of a record with act = 1 where no sequence was
interrupted the spec does not give the rounding state: it is a free value (log entry 51). -/
def Thread.restoreEntry (t : Thread) (bs : List Byte) : Thread :=
  let tw := dwordAt bs 0x240
  { t with
    bad := t.bad.filter RegRef.isReg
    vo := vecAt bs 0, vo2 := vecAt bs 0x40, vr := vecAt bs 0x80
    port := Vector.ofFn (fun i => if i.val < 37 then dwordAt bs (0x100 + 8 * i.val) else t.port[i])
    k := tw.extractLsb' 0 8 ||| 1
    tlev := tw.extractLsb' 16 3
    pend := Vector.ofFn (fun i => pendOfImage bs (allWins.getD i.val .m))
    rep := repOfWords bs 0x390 t.seqRnd }

/-- tret (R355). `reread` reads the restored sequence's block words again and checks them and the record under R47. -/
def returnFromTrap (reread : State → Rep → Option Rep) (s : State) : State :=
  match s.frameOf with
  | .error _ => s.doubleFault
  | .ok f =>
    match readLines s s.dev 17 (f + 0x500) 0x400 with
    | .error _ => s.doubleFault
    | .ok bs =>
      let t := s.th.restoreEntry bs
      let rep := if t.rep.act then reread { s with th := { t with mode := .user } } t.rep else some {}
      match rep with
      | none => s.doubleFault
      | some r =>
      if !imageReservedOk bs ∨ !imagePendOk bs ∨ s.th.mtpc.extractLsb' 0 2 ≠ 0 then s.doubleFault
      else
        let (at_, s) := s.after 24
        { s with th := { t with
            rep := r
            mode := .user
            pc := t.mtpc + (if t.mcause.getLsbD 16 then 4 else 0)
            readyAt := at_ } }

end Sys2Proof.Machine
end

