-- ==== Sys2Proof/Machine/Flags.lean ====
section
/-! DEFINITION. The rounding register and the arithmetic flags of a thread (R67 to R73). -/

namespace Sys2Proof.Machine

/-- The mode and sat bit of xrnd (R68). -/
def rmOf (x : Word) : Rm := ⟨fld x 2 0, x.getLsbD 3⟩

/-- One call of Round under xrnd `x`: in SR it takes a draw (R67); otherwise xrnd stays. What the reserved modes 6 and 7
round by, which only a record can bring into xrnd, is a free value (log entry 49). -/
def takeDraw (x : Word) : Nat × Word :=
  if fld x 2 0 = 5 then
    let (r, l) := draw (x.extractLsb' 32 32)
    (r, l ++ x.extractLsb' 0 32)
  else (if 6 ≤ fld x 2 0 then Config.reservedMode x else 0, x)

/-- `n` draws taken. -/
def skipDraws : Nat → Word → Word
  | 0, x => x
  | n + 1, x => skipDraws n (takeDraw x).2

/-- A written xrnd is legal (R69). -/
def xrndOk (w : Word) : Bool := decide (fld w 2 0 < 6) && fld w 31 4 == 0

/-- A written xflags or xten is legal (R71). -/
def flagsOk (w : Word) : Bool := fld w 63 7 == 0

/-- One call of Round by the thread in focus: the mode captured, the draw taken (R70). -/
def State.round1 (s : State) : Rm × Nat × State :=
  let x := s.th.get .xrnd
  let (r, x') := takeDraw x
  (rmOf x, r, s.map (fun t => t.set .xrnd x'))

/-- The arithmetic trap's test (R75): enabled flags that are set. -/
def Thread.trapFlags (t : Thread) : BitVec 7 := (t.get .xflags &&& t.get .xten).setWidth 7

end Sys2Proof.Machine
end

