-- ==== Sys2Proof/Machine/Operands.lean ====
section
/-! DEFINITION. Every operand form: what a source reads and when it waits, what a destination takes, and which core and
mode may name a port (R18, R33, R35, R49 to R55), with the queue ports behind the q sources and destinations
(R248 to R253). -/

namespace Sys2Proof.Machine

/-! ### Which ports a core and a mode may name -/

/-- What the checks of R55 say of a word where it issues. -/
inductive Fate where
  | ok | privilege | illegal
  deriving DecidableEq, Repr

/-- Illegal-transport takes precedence over privilege (R55). -/
def Fate.and : Fate → Fate → Fate
  | .illegal, _ => .illegal
  | _, .illegal => .illegal
  | .privilege, _ => .privilege
  | _, f => f

/-- An operand or result port that is unassigned on a streamer core (R18): those of P, D, X and H. -/
def stageOnly : Latch → Bool
  | .xo | .xo2 | .xr | .pa0 | .pa1 | .pb0 | .pb1 | .pc | .pr | .dO | .dO2 | .dr | .ho | .ho2 | .hr => true
  | _ => false

/-- A latch named on a core. -/
def latchFate (k : SlotKey) (l : Latch) : Fate := if stageOnly l ∧ ¬isStage k then .illegal else .ok

/-- A special port that only monitor mode may name (R53). -/
def monitorOnly : Special → Bool
  | .mvec | .mcause | .maddr | .mtpc | .mctx | .mfill => true
  | _ => false

/-- A special port read (R53). -/
def specialReadFate (m : Mode) (p : Special) : Fate :=
  if !p.readable then .illegal else if monitorOnly p ∧ m = .user then .privilege else .ok

/-- A special port written (R53): also preq and rfq are the monitor's to write. -/
def specialWriteFate (m : Mode) (p : Special) : Fate :=
  if !p.writable then .illegal
  else if (monitorOnly p ∨ p = .preq ∨ p = .rfq) ∧ m = .user then .privilege
  else .ok

/-- The unit of a scalar trigger, for ownership (R17, R18). -/
inductive Block where
  | a | m | f | l | c | s | x | y | p | d | h | z
  deriving DecidableEq, Repr

/-- The block of a trigger number (R50). -/
def blockOf (t : Trig) : Block :=
  let n := t.num
  if n < 0x0C0 then .a else if n < 0x0E0 then .m else if n < 0x100 then .f else if n < 0x180 then .l
  else if n < 0x190 then .c else if n < 0x1B0 then .s else if n < 0x1C0 then .x else if n < 0x1E0 then .y
  else if n < 0x200 then .p else if n < 0x220 then .d else if n < 0x230 then .h else .z

/-- A trigger on a core and in a mode (R17, R18, R53). -/
def trigFate (k : SlotKey) (m : Mode) (t : Trig) : Fate :=
  match blockOf t with
  | .p | .d | .x | .h => if isStage k then .ok else .illegal
  | .y =>
    if t = .yawait ∨ t = .yrel then .ok
    else if isStage k then .illegal
    else if t = .ymcast ∧ k.core ≠ 6 then .illegal
    else .ok
  | .z => if (t = .tret ∨ t = .idle) ∧ m = .user then .privilege else .ok
  | _ => .ok

/-- A scalar source port named (R51, R53). -/
def sportFate (k : SlotKey) (m : Mode) : SPort → Fate
  | .special p => specialReadFate m p
  | .res l => latchFate k l
  | _ => .ok

def srcFate (k : SlotKey) (m : Mode) : Src → Fate
  | .imm _ => .ok
  | .port p => sportFate k m p

/-- A scalar destination named (R49, R50, R53). -/
def dstFate (k : SlotKey) (m : Mode) : SDst → Fate
  | .special p => specialWriteFate m p
  | .opnd l => latchFate k l
  | .trig t => trigFate k m t
  | _ => .ok

/-- A class 01 source named: every class 01 word is illegal on a streamer core (R18). -/
def vsourceFate (k : SlotKey) (m : Mode) : VSource → Fate
  | .vec _ => if isStage k then .ok else .illegal
  | .bc p => (if isStage k then Fate.ok else .illegal).and (sportFate k m p)

/-! ### Channels behind the queue ports (R248 to R252) -/

namespace State

def chan? (s : State) (id : Nat) : Option Chan := s.chans.find? (fun c => c.id = id)

def mapChan (s : State) (id : Nat) (f : Chan → Chan) : State :=
  { s with chans := s.chans.map (fun c => if c.id = id then f c else c) }

/-- The port is held by a running reference stream (R265). -/
def portHeld (s : State) (p : Port) : Bool :=
  s.streams.any (fun st => st.running && st.owner == p.key && (fld st.cfg 18 16 == p.q || fld st.cfg 22 20 == p.q))

/-- A port of the thread in focus. -/
def myPort (s : State) (q : BitVec 3) : Port := ⟨s.th.key, q.toNat⟩

end State

/-- How many elements a consumer has dequeued of those the channel still holds. -/
def Chan.pos (c : Chan) (p : Port) : Nat := ((c.cons.find? (fun x => x.1 = p)).map Prod.snd).getD 0

/-- The element a consumer sees at its head, whether or not it can be taken yet. -/
def Chan.head? (c : Chan) (p : Port) : Option Elem := c.elems[c.pos p]?

/-- Elements that every consumer has dequeued leave the channel, and their room travels back (R249, R251). -/
def Chan.free (c : Chan) (back : Nat) : Chan :=
  let n := c.cons.foldl (fun n x => min n x.2) c.elems.length
  { c with elems := c.elems.drop n, cons := c.cons.map (fun x => (x.1, x.2 - n))
           room := c.room ++ List.replicate n back
           past := if c.home.isSome then ((c.elems.take n).reverse ++ c.past).take c.allowance else c.past }

/-- Room as the producer sees it in a cycle (R240, R251). -/
def Chan.hasRoom (c : Chan) (n now : Nat) : Bool :=
  decide (c.elems.length + (c.room.filter (fun t => decide (now < t))).length + n ≤ c.allowance)

/-- The unloaded time between two slots of a channel (R251). -/
def chanLatency (a b : SlotKey) : Nat :=
  if a.coreKey = b.coreKey then 1 else if a.tile = b.tile then 4 else if a.tile / 4 = b.tile / 4 then 6
  else if a.tile / 16 = b.tile / 16 then 8 else if a.tile / 192 = b.tile / 192 then 40 else 150

/-- The unloaded time from a channel's producer to its farthest consumer. -/
def Chan.latency (c : Chan) : Nat :=
  match c.prod with
  | none => 1
  | some p => c.cons.foldl (fun n x => max n (chanLatency p.key x.1.key)) 1

/-- A consumer's dequeue of its head element. -/
def State.dequeueAt (s : State) (p : Port) (id : Nat) : State :=
  match s.chan? id with
  | none => s
  | some c =>
    let (back, s) := s.after c.latency
    (s.chanTouched c none).mapChan id (fun c =>
      let c : Chan := { c with
        cons := c.cons.map (fun x : Port × Nat => if x.1 = p then (x.1, x.2 + 1) else x)
        room := c.room.filter (fun t => decide (s.cyc < t)) }
      c.free back)

/-- An element enqueued by the channel's producer. -/
def State.enqueueAt (s : State) (id : Nat) (w : Word) (tag sync : Bool) : State :=
  match s.chan? id with
  | none => s
  | some c =>
    let (at_, s) := s.after c.latency
    (s.chanTouched c (some c.wr)).mapChan id (fun c =>
      let last := (c.elems.getLast?.map Elem.ready).getD 0
      { c with elems := c.elems ++ [⟨w, tag, sync, max at_ last⟩], wr := c.wr + 1 })

/-- The line is one of host memory (R160). -/
def PeerLine.isHost (l : PeerLine) : Bool := decide (2 ^ 57 ≤ l.cell ∧ l.cell < 2 ^ 58)

/-- A core still sees a line as before after an acquire: a peer-marked line below .dm, and a line of host memory below
.tl (R164, R171, R178). -/
def PeerLine.stays (k : CoreKey) (scope : Nat) (l : PeerLine) : Bool :=
  l.core != k || decide (scope < 1) || (decide (scope < 3) && !l.isHost)

/-- An acquire of a core: it invalidates the core's peer-marked lines at .dm and wider (R171, R178), and what the core has
seen of host memory. -/
def State.acquireAt (s : State) (k : CoreKey) (scope : Nat) : State :=
  { s with peerLines := s.peerLines.filter (PeerLine.stays k scope) }

/-- An acquire of the thread in focus. -/
def State.acquire (s : State) (scope : Nat) : State := s.acquireAt s.th.key.coreKey scope

/-- A core no longer holds its view of a cell's line: an eviction, which the rules always allow. -/
def State.evict (s : State) (k : CoreKey) (cell : Nat) : State :=
  { s with peerLines := s.peerLines.filter (fun p => !(p.core == k && p.cell == cell / 64 * 64)) }

/-- What a dequeue or peek finds on a port. -/
inductive QRead where
  /-- queue-error trap (R248) -/
  | error
  | empty
  | head (chan : Nat) (e : Elem)
  deriving DecidableEq, Repr

/-- A dequeue or peek on a port of the thread in focus (R248, R250). -/
def State.queueRead (s : State) (q : BitVec 3) : QRead :=
  let p := s.myPort q
  let b := s.th.bind[q.toFin]
  if !b.bound ∨ b.prod ∨ s.portHeld p then .error
  else
    match s.chan? b.chan with
    | none => .error
    | some c =>
      match c.head? p with
      | some e => if e.ready ≤ s.cyc then .head b.chan e else .empty
      | none => if c.st = 1 then .error else .empty

/-- What an enqueue finds on a port. -/
inductive QWrite where
  | error | full
  | room (chan : Nat)
  deriving DecidableEq, Repr

/-- An enqueue on a port of the thread in focus (R248). -/
def State.queueWrite (s : State) (q : BitVec 3) : QWrite :=
  let p := s.myPort q
  let b := s.th.bind[q.toFin]
  if !b.bound ∨ !b.prod ∨ s.portHeld p then .error
  else
    match s.chan? b.chan with
    | none => .error
    | some c => if c.st = 1 then .error else if c.hasRoom 1 s.cyc then .room b.chan else .full

/-- The dequeue of a port performed: the element leaves, k7 and tlev are set (R12, R35), and a synced element
acquires (R252). -/
def State.queueTake (s : State) (q : BitVec 3) (chan : Nat) (e : Elem) : State :=
  let s := s.dequeueAt (s.myPort q) chan
  let s := s.map (fun t =>
    let t := t.setK 7 e.tag
    if e.tag then { t with tlev := e.word.extractLsb' 0 3 } else t)
  if e.sync then s.acquire (if e.tag then 2 else ((s.chan? chan).map Chan.scope).getD 2) else s

/-- The transport that held the thread in focus is performed: it counts, its source's dequeue takes effect, and the
thread goes on after it (R12, R39). Nothing is left to do for one that was performed before. -/
def State.performHeld (s : State) : State :=
  match s.th.unperformed with
  | none => s
  | some q =>
    let s := (s.map (fun t => { t with unperformed := none })).advance
    match q.map (fun q => (q, s.queueRead q)) with
    | some (q, .head c e) => s.queueTake q c e
    | _ => s

/-! ### Sources -/

/-- What a source gives: a value with the dequeue to perform after the transport's writes, or why it cannot be read
now. -/
inductive Read where
  | val (w : Word) (deq : Option (BitVec 3 × Nat × Elem))
  /-- a result of a fixed-latency unit is due in a later cycle (R42) -/
  | due (cyc : Nat)
  /-- the queue is empty (R12) -/
  | empty (q : BitVec 3)
  /-- queue-error trap (R248) -/
  | qerror (q : BitVec 3)
  deriving DecidableEq, Repr

/-- A special port's value (R53, R68, R71, R357). -/
def State.readSpecial (s : State) : Special → Word
  | .xrnd => s.th.get .xrnd
  | .xflags => s.th.get .xflags
  | .xten => s.th.get .xten
  | .preq => if s.th.preq then 1 else 0
  | .rfq => s.th.rfq.setWidth 64
  | .mvec => s.th.mvec
  | .mcause => s.th.mcause
  | .maddr => s.th.maddr
  | .mtpc => s.th.mtpc
  | .mctx => s.mctx
  | .mfill => 0

/-- A scalar source port read (R51). -/
def State.readPort (s : State) : SPort → Read
  | .g r => .val (s.th.getG r) none
  | .k n => .val (if s.th.getK n then 1 else 0) none
  | .deq n =>
    match s.queueRead n with
    | .error => .qerror n
    | .empty => .empty n
    | .head c e => .val e.word (some (n, c, e))
  | .peek n =>
    match s.queueRead n with
    | .error => .qerror n
    | .empty => .empty n
    | .head _ e => .val e.word none
  | .tlev => .val (s.th.tlev.setWidth 64) none
  | .cyc => .val (BitVec.ofNat 64 s.cyc) none
  | .tid => .val s.tid none
  | .special p => .val (s.readSpecial p) none
  | .res l =>
    let d := s.th.flightDue (some l) s.cyc
    -- the phase of a garrive that is not yet counted (R262)
    if l = .sr ∧ s.th.rels.any (fun r => r.group.isSome) then .due (s.cyc + 1)
    else if s.cyc < d then .due d else .val (s.th.get l) none

/-- A class 00 source read (R32). -/
def State.readSrc (s : State) : Src → Read
  | .imm i => .val (i.signExtend 64) none
  | .port p => s.readPort p

/-- A 32-bit value in every lane (R33). -/
def broadcast (w : W32) : Vec := (List.range 16).foldl (fun v _ => (v <<< 32) ||| w.setWidth 512) 0

/-- Lane `i` of a vector (R92). -/
def lane (v : Vec) (i : Nat) : W32 := v.extractLsb' (32 * i) 32

/-- A vector of sixteen lanes. -/
def ofLanes (f : Nat → W32) : Vec :=
  (List.range 16).foldr (fun i v => (v <<< 32) ||| (f i).setWidth 512) 0

/-- What a class 01 source gives. -/
inductive VRead where
  | val (v : Vec) (deq : Option (BitVec 3 × Nat × Elem))
  | due (cyc : Nat)
  | empty (q : BitVec 3)
  | qerror (q : BitVec 3)
  deriving DecidableEq, Repr

/-- A vector port read (R54). -/
def State.readVPort (s : State) : VPort → VRead
  | .v r => .val (s.th.getV r) none
  | .vr =>
    let d := s.th.flightDue none s.cyc
    if s.cyc < d then .due d else .val s.th.vr none

/-- A class 01 source read (R33). -/
def State.readVSource (s : State) : VSource → VRead
  | .vec p => s.readVPort p
  | .bc p =>
    match s.readPort p with
    | .val w d => .val (broadcast (w.setWidth 32)) d
    | .due d => .due d
    | .empty q => .empty q
    | .qerror q => .qerror q

/-! ### What a transport reads that has parity (R366, R368) -/

/-- The register of a source port. -/
def portRegs : SPort → List RegRef
  | .g r => [.g r]
  | .res l => [.latch l]
  | _ => []

def srcRegs : Src → List RegRef
  | .imm _ => []
  | .port p => portRegs p

def vportReg : VPort → RegRef
  | .v r => .v r
  | .vr => .vr

def vsrcRegs : VSource → List RegRef
  | .vec p => [vportReg p]
  | .bc p => portRegs p

/-- The latches that a trigger's row names as operands (R80 to R91, R118 to R130, R149, R185, R194 to R207, R257, R264,
R268, R290, R354). -/
def operandLatches : Trig → List Latch
  | .mov | .clz | .ctz | .popc => []
  | .add | .sub | .addw | .subw | .and | .or | .xor | .andn | .shl | .shr | .sra | .shlw | .shrw | .sraw | .rotl
  | .min | .max | .minu | .maxu | .sext | .zext | .bfx | .ceq | .cne | .clt | .cltu | .cle | .cleu | .shl16or => [.ao]
  | .mul | .mulw | .mulh | .mulhu | .div | .divu | .rem | .remu => [.mo]
  | .fadd | .fsub | .fmul | .fmin | .fmax | .fceq | .fclt | .fcle | .fdiv => [.fo]
  | .fma => [.fo, .fo2]
  | .fneg | .fsqrt | .fcvtI | .fcvtF | .fcvtBf | .fcvtE4 | .fcvtE5 | .fexpBf | .fexpE4 | .fexpE5 | .fclass => []
  | .ld8 | .ld8u | .ld16 | .ld16u | .ld32 | .ld32u | .ld64 | .ld128 | .fence => [.lo]
  | .st128 | .amoCasW | .amoCasD | .waddrW | .waddrD | .waddrGeW | .waddrGeD | .sigWait => [.lo, .lo2, .lo3]
  | .amoCasQ => [.lo, .lo2, .lo3, .lr, .lr2]
  | .st8 | .st16 | .st32 | .st64 | .amoAddW | .amoAddD | .amoAndW | .amoAndD | .amoOrW | .amoOrD | .amoXorW | .amoXorD
  | .amoMinW | .amoMinD | .amoMaxW | .amoMaxD | .amoMinuW | .amoMinuD | .amoMaxuW | .amoMaxuD | .amoSwapW | .amoSwapD
  | .amoFadd | .ddisc | .dclean | .dinval | .sigAdd => [.lo, .lo2]
  | .spawn => [.so, .so2]
  | .spawna | .park => [.so]
  | .jr | .jrl | .done | .yield | .join | .gbar | .garrive | .pyield | .sleep => []
  | .xgo => [.xo, .xo2]
  | .ycopy | .ycopyAdd | .ymcast | .yring => [.yo, .yo2, .yo3, .yo4]
  | .ypush => [.yo]
  | .xstop | .xwait | .yawait | .yrel | .ydesc => []
  | .pmma => [.pa0, .pa1, .pb0, .pb1]
  | .pmmas => [.pa0, .pa1, .pb0, .pb1, .pc]
  | .pld | .pdrain => [.pa0, .pa1]
  | .pctx | .pscaleA | .pscaleB | .pclr | .pflags | .pjoin => []
  | .dpatch => [.dO, .dO2]
  | .dsety | .dsetr => [.dO]
  | .dgety | .dgetr | .dclk | .drun | .dhalt | .dsave | .drest | .dstat => []
  | .hinit | .hoffer => [.ho, .ho2]
  | .trap => [.zo]
  | .hdrain | .hroute | .tret | .tfence | .idle => []

def operandRegs (t : Trig) : List RegRef := (operandLatches t).map .latch

/-- V's operand latches (R93 to R99). -/
def vOperandRegs : VTrig → List RegRef
  | .vexp2F | .vrcpF | .vrsqF | .vsumF | .vmaxR => []
  | .vfmaF | .vsel | .vst => [.vo, .vo2]
  | .vld => [.vo2]
  | .vaddF | .vsubF | .vmulF | .vmaxF | .vminF | .vcvtBf | .vcvtE4 | .vcvtE5 | .vunpBf | .vunpE4 | .vunpE5 | .vaddI | .vsubI
  | .vmulI | .vand | .vor | .vxor | .vshl | .vshr | .vsra | .vceqF | .vcltF | .vbc | .vrot | .vperm => [.vo]

end Sys2Proof.Machine
end

