-- ==== Sys2Proof/Machine/Lanes.lean ====
section
/-! DEFINITION. What the lane operations of V compute (R76, R88, R92 to R99), the words of a repetition's block (R47, R102),
and which lines a running sequence has still to reach (R163). -/

namespace Sys2Proof.Machine

/-- The flags of a comparison (R88): NV on a signalling NaN, or on any NaN where `any`. -/
def cmpFlags (any : Bool) (a b : FVal) : Flags :=
  if any then (if a.isNaN ∨ b.isNaN then flagNV else 0) else a.nv ||| b.nv

/-! ### Lane operations -/

/-- The value, flags and advanced xrnd of a vector operation. -/
structure VRes where
  v : Vec
  flags : Flags
  xrnd : Word

/-- Sixteen results, lane 0 first, as a vector. -/
def packLanes (l : List W32) : Vec := l.foldr (fun c v => (v <<< 32) ||| c.setWidth 512) 0

/-- `n` calls of Round from index `i` on, their draws in order (R70): codes, flags and xrnd. -/
def roundLanes (f : Nat → Rm → Nat → FRes) : Nat → Nat → Word → List W32 × Flags × Word
  | 0, _, x => ([], 0, x)
  | n + 1, i, x =>
    let (r, x') := takeDraw x
    let y := f i (rmOf x) r
    let (cs, fl, x'') := roundLanes f n (i + 1) x'
    (y.code :: cs, y.flags ||| fl, x'')

/-- A lane operation that rounds once a lane. -/
def vRounded (f : Nat → Rm → Nat → FRes) (x : Word) : VRes :=
  let (cs, fl, x') := roundLanes f 16 0 x
  ⟨packLanes cs, fl, x'⟩

/-- A lane operation that takes no draw. -/
def vPlain (f : Nat → FRes) (x : Word) : VRes :=
  ⟨packLanes ((List.range 16).map (fun i => (f i).code)), (List.range 16).foldl (fun fl i => fl ||| (f i).flags) 0, x⟩

/-- An integer or selection lane operation: no flags. -/
def vInt (f : Nat → W32) (x : Word) : VRes := vPlain (fun i => ⟨f i, 0⟩) x

/-- The FP32 value of a lane. -/
def fl32 (v : Vec) (i : Nat) : FVal := fp32.value (lane v i).toNat

/-- The mask of a lane comparison (R88). -/
def vCompare (any : Bool) (f : FVal → FVal → Bool) (o t : Vec) (x : Word) : VRes :=
  vPlain (fun i => ⟨if f (fl32 o i) (fl32 t i) then 0xFFFFFFFF else 0, cmpFlags any (fl32 o i) (fl32 t i)⟩) x

/-- The shift-in conversions (R95): sixteen elements of `w` bits at the top, v.o moved down by as much. -/
def vConvert (f : Fmt) (w : Nat) (o t : Vec) (x : Word) : VRes :=
  let (cs, fl, x') := roundLanes (fun i rm r => f.convert rm r (fl32 t i)) 16 0 x
  let top : Vec := cs.foldr (fun c v => (v <<< w) ||| c.setWidth 512) 0
  ⟨(o >>> (16 * w)) ||| (top <<< (512 - 16 * w)), fl, x'⟩

/-- The unpack conversions (R96): elements of `w` bits, block `p`. -/
def vUnpack (f : Fmt) (w p : Nat) (o : Vec) (x : Word) : VRes :=
  vPlain (fun i => widen f (o.extractLsb' ((16 * p + i) * w) w).toNat) x

/-- One level of the reduction tree of R76 over codes, with its draws. -/
def treeLevel (f : W32 → W32 → Rm → Nat → FRes) (draws : Bool) : List W32 → Word → List W32 × Flags × Word
  | a :: b :: rest, x =>
    let (r, x') := if draws then takeDraw x else (0, x)
    let y := f a b (rmOf x) r
    let (cs, fl, x'') := treeLevel f draws rest x'
    (y.code :: cs, y.flags ||| fl, x'')
  | l, x => (l, 0, x)

/-- The reduction of sixteen lanes, the root in every lane (R98). -/
def vReduce (f : W32 → W32 → Rm → Nat → FRes) (draws : Bool) (t : Vec) (x : Word) : VRes :=
  let (l1, f1, x) := treeLevel f draws ((List.range 16).map (lane t)) x
  let (l2, f2, x) := treeLevel f draws l1 x
  let (l3, f3, x) := treeLevel f draws l2 x
  let (l4, f4, x) := treeLevel f draws l3 x
  ⟨broadcast (l4.headD 0), f1 ||| f2 ||| f3 ||| f4, x⟩

/-- Every V operation but vld and vst, from v.o, v.o2, the trigger value and xrnd (R93 to R98). -/
def vectorOp (op : VTrig) (o o2 t : Vec) (x : Word) : VRes :=
  let sel := (lane t 0).toNat
  match op with
  | .vaddF => vRounded (fun i rm r => fp32.add rm r (fl32 o i) (fl32 t i)) x
  | .vsubF => vRounded (fun i rm r => fp32.add rm r (fl32 o i) (fl32 t i).neg) x
  | .vmulF => vRounded (fun i rm r => fp32.mul rm r (fl32 o i) (fl32 t i)) x
  | .vfmaF => vRounded (fun i rm r => fp32.fma rm r (fl32 o i) (fl32 t i) (fl32 o2 i)) x
  | .vmaxF => vPlain (fun i => minMax true (lane o i) (lane t i)) x
  | .vminF => vPlain (fun i => minMax false (lane o i) (lane t i)) x
  | .vexp2F => vRounded (fun i rm r => fp32.exp2 rm r (fl32 t i)) x
  | .vrcpF => vRounded (fun i rm r => fp32.rcp rm r (fl32 t i)) x
  | .vrsqF => vRounded (fun i rm r => fp32.rsqrt rm r (fl32 t i)) x
  | .vcvtBf => vConvert bf16 16 o t x
  | .vcvtE4 => vConvert e4m3 8 o t x
  | .vcvtE5 => vConvert e5m2 8 o t x
  | .vunpBf => vUnpack bf16 16 (sel % 2) o x
  | .vunpE4 => vUnpack e4m3 8 (sel % 4) o x
  | .vunpE5 => vUnpack e5m2 8 (sel % 4) o x
  | .vaddI => vInt (fun i => lane o i + lane t i) x
  | .vsubI => vInt (fun i => lane o i - lane t i) x
  | .vmulI => vInt (fun i => lane o i * lane t i) x
  | .vand => ⟨o &&& t, 0, x⟩
  | .vor => ⟨o ||| t, 0, x⟩
  | .vxor => ⟨o ^^^ t, 0, x⟩
  | .vshl => vInt (fun i => lane o i <<< ((lane t i).toNat % 32)) x
  | .vshr => vInt (fun i => lane o i >>> ((lane t i).toNat % 32)) x
  | .vsra => vInt (fun i => (lane o i).sshiftRight ((lane t i).toNat % 32)) x
  | .vceqF => vCompare false FVal.eq o t x
  | .vcltF => vCompare true FVal.lt o t x
  | .vsel => vInt (fun i => if lane o2 i ≠ 0 then lane o i else lane t i) x
  | .vbc => vInt (fun _ => lane o (sel % 16)) x
  | .vrot => vInt (fun i => lane o ((i + sel % 16) % 16)) x
  | .vperm => vInt (fun i => lane o ((lane t i).toNat % 16)) x
  | .vsumF => vReduce (fun a b rm r => fp32.add rm r (fp32.value a.toNat) (fp32.value b.toNat)) true t x
  | .vmaxR => vReduce (fun a b _ _ => minMax true a b) false t x
  | .vld => ⟨0, 0, x⟩
  | .vst => ⟨0, 0, x⟩

/-- The latency of a fixed-latency V operation (R79, R93). -/
def vectorLatency : VTrig → Nat
  | .vexp2F | .vrcpF | .vrsqF => 8
  | .vsumF | .vmaxR => 6
  | _ => 4

/-- The draws a V operation takes in SR (R93). -/
def vectorDraws : VTrig → Nat
  | .vaddF | .vsubF | .vmulF | .vfmaF | .vexp2F | .vrcpF | .vrsqF | .vcvtBf | .vcvtE4 | .vcvtE5 => 16
  | .vsumF => 15
  | _ => 0

/-! ### Blocks (R13, R47, R102) -/

/-- Where a block word writes. -/
inductive BlockDst where
  | vec (d : VDst) | g (r : BitVec 5) | trig (t : VTrig)
  deriving DecidableEq, Repr

/-- A block word. -/
structure BlockWord where
  g : Guard
  src : VSource
  dst : BlockDst
  deriving DecidableEq, Repr

/-- A block word decoded: a class 01 word with L = 0 that is an instruction in a block (R47, R102), or none. -/
def blockWord (w : BitVec 32) : Option BlockWord :=
  if w.extractLsb' 30 2 ≠ 1 ∨ w.extractLsb' 22 4 ≠ 0 then none
  else
    match Guard.ofBits (w.extractLsb' 26 4) with
    | .error _ => none
    | .ok g =>
      let n := (w.extractLsb' 11 10).toNat
      if w.getLsbD 21 then
        if w.getLsbD 10 then none
        else
          match VPort.ofNum (w.extractLsb' 0 10).toNat, SDst.ofNum n with
          | some p, .ok (.g r) => if r = 0 then none else some ⟨g, .vec p, .g r⟩
          | _, _ => none
      else
        match VSource.ofBits (w.extractLsb' 0 11) with
        | .error _ => none
        | .ok src =>
          match VDst.ofNum n, VTrig.ofNum n with
          | some d, _ => some ⟨g, src, .vec d⟩
          | none, some t => some ⟨g, src, .trig t⟩
          | none, none => none

/-- A v register of a block word in a pass. -/
def renamed (r : BitVec 4) (pass stride : Nat) : BitVec 4 := r + BitVec.ofNat 4 (pass * stride)

/-- The sequence's next word: this one, or the next in block and pass order whose guard held; none at the end. -/
def nextWord (r : Rep) : Nat → Nat → Nat → Option (Nat × Nat)
  | 0, _, _ => none
  | n + 1, pass, word =>
    if r.cm1 < pass then none
    else if r.bm1 < word then nextWord r n (pass + 1) 0
    else if r.gv.getLsbD word then some (pass, word)
    else nextWord r n pass (word + 1)

/-- The word that a sequence issues next. -/
def Rep.todo (r : Rep) : Option (Nat × Nat) := nextWord r 20 r.pass r.word

/-- The pass and word that a sequence stands at. -/
def Rep.here (r : Rep) : Nat × Nat := r.todo.getD (r.pass, r.word)

/-! ### What a running sequence has still to access (R163, R183) -/

/-- A block word is a vld (`st` false) or a vst. -/
def BlockWord.isMem (st : Bool) (b : BlockWord) : Bool :=
  match b.dst with
  | .trig .vld => !st
  | .trig .vst => st
  | _ => false

/-- A running sequence has a vld (`st` false) or a vst still to perform. -/
def Thread.seqHas (t : Thread) (st : Bool) : Bool :=
  t.rep.act && match t.rep.todo with
  | none => false
  | some (pass, word) =>
    (List.range t.rep.words.length).any fun j =>
      t.rep.gv.getLsbD j && (decide (word ≤ j) || decide (pass < t.rep.cm1)) &&
        (((t.rep.words[j]?).bind blockWord).map (BlockWord.isMem st)).getD false

/-- The address of a vld or vst (R99). -/
def Thread.vectorAddr (t : Thread) (v : Vec) : Word := lane t.vo2 0 ++ lane v 0

/-- A word of the block as the thread's registers alone give it: the thread after it, and the address of a vld or vst
with whether it stores. `rd` is what a vld reads. -/
def aheadWord (rd : Word → Vec) (t : Thread) (b : BlockWord) (pass word : Nat) : Thread × Option (Word × Bool) :=
  let v : Vec := match b.src with
    | .vec (.v r) => t.getV (renamed r pass t.rep.stride)
    | .vec .vr => t.vr
    | .bc _ => broadcast ((t.rep.scal.toList.getD word 0).setWidth 32)
  match b.dst with
  | .vec (.v r) => (t.setV (renamed r pass t.rep.stride) v, none)
  | .vec .vo => (t.setVo v, none)
  | .vec .vo2 => (t.setVo2 v, none)
  | .g _ => (t, none)
  | .trig .vld => (t.setVr (rd (t.vectorAddr v)), some (t.vectorAddr v, false))
  | .trig .vst => (t, some (t.vectorAddr v, true))
  | .trig op =>
    let y := vectorOp op t.vo t.vo2 v t.rep.xrnd
    ({ t.setVr y.v with rep := { t.rep with xrnd := y.xrnd } }, none)

/-- The accesses that a sequence has still to make, from a pass and word on. -/
def aheadFrom (rd : Word → Vec) : Nat → Thread → Option (Nat × Nat) → List (Word × Bool)
  | 0, _, _ | _, _, none => []
  | n + 1, t, some (pass, word) =>
    match (t.rep.words[word]?).bind blockWord with
    | none => []
    | some b =>
      let (t, a) := aheadWord rd t b pass word
      a.toList ++ aheadFrom rd n t ({ t.rep with pass := pass, word := word + 1 }).todo

/-- The accesses that the thread's running sequence has still to make, with the results in flight delivered. -/
def Thread.seqAccesses (rd : Word → Vec) (t : Thread) : List (Word × Bool) :=
  if t.seqHas false || t.seqHas true then aheadFrom rd 512 (t.flight.foldl Thread.deliver t) t.rep.todo else []

end Sys2Proof.Machine
end

