-- ==== Sys2Proof/Machine/Sched.lean ====
section
/-! DEFINITION. Continuation records, run queues, join counters and the full frame image of a saved thread (R215 to
R229, R347, R359). -/

namespace Sys2Proof.Machine

/-- The device acting for a context: it resolves stage records. -/
def devAgent (ctx : Nat) : Agent := ⟨ctx, true, none, true⟩

/-- A dword of a record. -/
def recGet (s : State) (ctx : Nat) (rec : Word) (off : Nat) : Except Nat Word :=
  readDword s (devAgent ctx) (rec + BitVec.ofNat 64 off)

/-- A dword of a record, 0 where it cannot be read. -/
def recWord (s : State) (ctx : Nat) (rec : Word) (off : Nat) : Word :=
  match recGet s ctx rec off with
  | .ok w => w
  | .error _ => 0

/-- Bytes of a record written; a fault leaves it as it is. -/
def recPut (s : State) (ctx : Nat) (rec : Word) (off n v : Nat) : State :=
  match writeVA s (devAgent ctx) (rec + BitVec.ofNat 64 off) (leBytes n v) with
  | .ok s' => s'
  | .error _ => s

/-! The fields of R216 to R218. -/
def recControl (s : State) (ctx : Nat) (rec : Word) : Word := recWord s ctx rec 0x10
def recLink (s : State) (ctx : Nat) (rec : Word) : Word := recWord s ctx rec 0x20
def recState (s : State) (ctx : Nat) (rec : Word) : Word := recWord s ctx rec 0x38
def recJoin (s : State) (ctx : Nat) (rec : Word) : W32 := (recControl s ctx rec).setWidth 32
def recDepth (s : State) (ctx : Nat) (rec : Word) : Nat := fld (recControl s ctx rec) 39 32
def recPrio (s : State) (ctx : Nat) (rec : Word) : Nat := fld (recControl s ctx rec) 42 40
def recIsStage (s : State) (ctx : Nat) (rec : Word) : Bool := fld (recControl s ctx rec) 43 43 = 1
def recStatus (s : State) (ctx : Nat) (rec : Word) : Nat := fld (recState s ctx rec) 7 0
def recDies (s : State) (ctx : Nat) (rec : Word) : Nat := fld (recLink s ctx rec) 55 48
def recPin (s : State) (ctx : Nat) (rec : Word) : Bool := fld (recLink s ctx rec) 63 63 = 1

/-- status written, with a release at .dv (R219). -/
def recSetStatus (s : State) (ctx : Nat) (rec : Word) (v : Nat) : State := recPut s ctx rec 0x38 1 v

/-- The join counter changed by one atomic add (R229). -/
def recAddJoin (s : State) (ctx : Nat) (rec : Word) (d : W32) : State :=
  recPut s ctx rec 0x10 4 (recJoin s ctx rec + d).toNat

/-- The four groups a record names (R217). -/
def recGroups (s : State) (ctx : Nat) (rec : Word) : List Nat :=
  let l := recLink s ctx rec
  [fld l 23 16, fld l 31 24, fld l 39 32, fld l 47 40]

/-- The context holds a grant on a die (R220). -/
def Ctx.onDie (c : Ctx) (die : Nat) : Bool := c.tiles.any (fun p => dieOf p.2 = die)

/-- A dies mask allows a die; 0 allows every die (R217). -/
def dieAllowed (mask die : Nat) : Bool := mask = 0 ∨ mask.testBit die

/-- The check of R220 for a record that a run queue of a die takes, from its fields. -/
def recordOkFields (s : State) (code frame control link state : Word) (die : Nat) : Bool :=
  fld code 1 0 == 0 && fld frame 5 0 == 0 && fld control 47 44 == 0 && fld link 62 56 == 0 && fld state 47 12 == 0
    && decide (fld control 39 32 ≤ 24)
    && (match s.ctx? (fld control 63 48) with
      | some c => c.onDie die
      | none => false)

def recordOk (s : State) (ctx : Nat) (rec : Word) (die : Nat) : Bool :=
  recordOkFields s (recWord s ctx rec 0) (recWord s ctx rec 8) (recControl s ctx rec) (recLink s ctx rec)
    (recState s ctx rec) die

/-- A record rejected under R220. -/
def rejectRecord (s : State) (ctx : Nat) (rec : Word) : State :=
  let s := recSetStatus s ctx rec 5
  -- a suspended task is not resumed any more, and no agent reads its frame again
  let s := { s with suspended := s.suspended.filter (fun p => p ≠ (ctx, rec)) }
  s.tell ctx ⟨0, 0, 0⟩ (.badRecord rec)
    |>.mapCtx ctx (fun c => { c with
        spawnaUsed := c.spawnaUsed.filter (fun r => r ≠ rec), hostUsed := c.hostUsed.filter (fun r => r ≠ rec) })

/-- A record placed at the tail of its priority's run queue on a die, or rejected (R220, R226). -/
def appendRecord (s : State) (die ctx : Nat) (rec : Word) (waited : Nat := 0) : State :=
  if recordOk s ctx rec die then
    let s := recSetStatus s ctx rec 1
    { s with runq := s.runq ++ [⟨die, recPrio s ctx rec, ctx, rec, s.cyc, waited⟩] }
  else rejectRecord s ctx rec

/-- The die a record goes to: the one given if its mask allows it, else the lowest its mask allows (R229). -/
def dieFor (s : State) (ctx : Nat) (rec : Word) (die : Nat) : Nat :=
  let m := recDies s ctx rec
  if dieAllowed m die then die else ((List.range 8).find? (fun d => m.testBit d)).getD die

/-- The thread was saved by a pre-emption and is resumed with its context: it enters no run queue (R359). -/
def State.isSaved (s : State) (ctx : Nat) (rec : Word) : Bool :=
  match s.ctx? ctx with
  | some c => c.saved.any (fun x => x.record == rec)
  | none => false

/-- The regions of a record's incoming edges, for the core of its first transport (R179): the core's peer-marked lines in
them go, and the list with them. -/
def State.takeEdges (s : State) (k : CoreKey) (ctx : Nat) (rec : Word) : State :=
  let rs := (s.edges.filter (fun e => e.1 = ctx ∧ e.2.1 = rec)).map (fun e => e.2.2)
  let inside (l : PeerLine) (r : Word × Word) : Bool :=
    (List.range (r.2.toNat / 4096 + 2)).any fun i =>
      let a := if i = 0 then r.1 else BitVec.ofNat 64 ((r.1.toNat / 4096 + i) * 4096)
      decide (a.toNat < r.1.toNat + r.2.toNat) && match translate s (devAgent ctx) a .load with
        | .ok x => decide (x.cell / 64 * 64 ≤ l.cell
            ∧ l.cell < x.cell + min (4096 - a.toNat % 4096) (r.1.toNat + r.2.toNat - a.toNat))
        | .error _ => false
  { s with
    peerLines := s.peerLines.filter (fun l => !(l.core == k && rs.any (inside l)))
    edges := s.edges.filter (fun e => ¬(e.1 = ctx ∧ e.2.1 = rec)) }

/-- A decrement of a successor's join counter from a die (R229). A stage thread whose join or park it ends acquires at .dv
(R14, R261). -/
def decrementJoin (s : State) (ctx : Nat) (rec : Word) (die : Nat) : State :=
  let s := recAddJoin s ctx rec (-1)
  let j := recJoin s ctx rec
  if j = 0 then
    if recIsStage s ctx rec then
      -- its slot becomes ready, also where it is parked
      let parked (t : Thread) : Bool := match t.hold with
        | .park _ _ => true
        | _ => false
      let mine (t : Thread) : Bool := t.ctx == ctx && t.record == rec && (t.hold == .join || parked t)
      let s := (s.threads.filter mine).foldl (fun s t => (s.acquireAt t.key.coreKey 2).takeEdges t.key.coreKey ctx rec) s
      let s := { s with parks := s.parks.filter (fun p => ¬(p.ctx = ctx ∧ p.record = rec)) }
      s.mapAll (fun t => if mine t then
        { (if parked t then t.set .sr 1 else t) with hold := .none, life := .running, readyAt := s.cyc + 1 } else t)
    else if s.isSaved ctx rec then s
    else if recStatus s ctx rec = 0 ∨ recStatus s ctx rec = 3 then
      -- a parked continuation that a decrement queues is registered no longer
      let s := { s with parks := s.parks.filter (fun p => ¬(p.ctx = ctx ∧ p.record = rec)) }
      appendRecord s (dieFor s ctx rec die) ctx rec
    else s
  else if j.getLsbD 31 then s.tell ctx ⟨0, 0, 0⟩ (.negativeJoin rec)
  else s

/-! ### The full frame image (R347, R359) -/

/-- A retry latch record (R351). -/
def Retry.words (r : Retry) : List Word :=
  [BitVec.ofNat 64 (2 ^ 63 + (if r.ring.isSome then 2 ^ 62 else 0) + r.trig * 2 ^ 32 + r.ring.getD 0),
   r.addr, r.lo, r.lo2, r.lo3, r.pc, 0, 0]

/-- The retry latch of a record, or none; its window and its place in a sequence are those of the transport it names
(`restoreLatch`). -/
def retryOfImage (bs : List Byte) (off : Nat) : Option Retry :=
  let w := dwordAt bs off
  if fld w 63 63 = 0 then none
  else some { trig := fld w 42 32, kind := 0, addr := dwordAt bs (off + 8), lo := dwordAt bs (off + 16)
              lo2 := dwordAt bs (off + 24), lo3 := dwordAt bs (off + 32), pc := dwordAt bs (off + 40)
              ring := if fld w 62 62 = 1 then some (fld w 31 0) else none
              data := if fld w 42 32 = VTrig.num .vst then some (vecAt bs 0xC0) else none }

/-- The bytes at F + 0x5C0: the data of a held vst, or V's held result (R347). -/
def Thread.heldData (t : Thread) : List Byte :=
  if (t.latch.map (fun r => r.trig == VTrig.num .vst)).getD false then vecBytes ((t.latch.bind Retry.data).getD t.vo)
  else ((t.entryImage 0).drop 0xC0).take 64

/-- The bytes of F to F + 0xABF of a saved thread, with its resume PC and its withdrawn-operation record of 48 dwords
(R347, R351). -/
def Thread.fullImage (t : Thread) (resume : Word) (withdrawn : List Word) : List Byte :=
  dwords (t.g.toList.set 0 0) ++ t.v.toList.flatMap vecBytes ++ (t.entryImage resume).take 0xC0 ++ t.heldData
    ++ ((t.entryImage resume).drop 0x100).take 0x300
    ++ dwords (match t.latch with
      | some r => r.words
      | none => List.replicate 8 0)
    ++ dwords ((withdrawn ++ List.replicate 48 0).take 48)

/-- A thread restored whole from F to F + 0xABF (R223, R363). -/
def Thread.restoreFull (t : Thread) (bs : List Byte) : Thread :=
  let e := bs.drop 0x500
  let t := t.restoreEntry e
  let tw := dwordAt e 0x240
  let rr := dwordAt e 0x3F0
  { t with
    g := Vector.ofFn (fun i => dwordAt bs (8 * i.val))
    v := Vector.ofFn (fun i => vecAt bs (0x100 + 64 * i.val))
    port := Vector.ofFn (fun i => dwordAt e (0x100 + 8 * i.val))
    rep := repOfWords e 0x390 t.seqRnd
    rfq := tw.extractLsb' 32 16
    pc := dwordAt e 0x248
    bind := Vector.ofFn (fun i =>
      let w := dwordAt e (0x250 + 8 * i.val)
      ⟨fld w 63 63 = 1, fld w 62 62 = 1, fld w 47 0⟩)
    repAddr := rr.extractLsb' 0 48
    repKind := rr.extractLsb' 48 8
    mvec := dwordAt e 0x3F8
    latch := retryOfImage e 0x400 }

end Sys2Proof.Machine
end

