-- ==== Sys2Proof/Machine/Ring.lean ====
section
/-! DEFINITION. Ring objects at their homes (R254 to R256, R277). -/

namespace Sys2Proof.Machine

/-- A ring object's fields (R254). -/
structure RingObj where
  base : Word
  ssize : Nat
  count : Nat
  wp : W32
  rp : W32
  cp : W32
  ctl : W32
  fill : Word
  drain : Word
  push : Word
  deriving DecidableEq, Repr

def ringErr (r : RingObj) : Bool := r.ctl.getLsbD 31
def ringArmed (r : RingObj) : Bool := r.ctl.getLsbD 30
def ringScope (r : RingObj) : Nat := (r.ctl.extractLsb' 0 3).toNat

/-- The 64 bytes of a ring object as fields. -/
def ringOfBytes (bs : List Byte) : RingObj :=
  { base := dwordAt bs 0
    ssize := fld (dwordAt bs 8) 31 0, count := fld (dwordAt bs 8) 63 32
    wp := (dwordAt bs 16).setWidth 32, rp := (dwordAt bs 16).extractLsb' 32 32
    cp := (dwordAt bs 24).setWidth 32, ctl := (dwordAt bs 24).extractLsb' 32 32
    fill := dwordAt bs 32, drain := dwordAt bs 40, push := dwordAt bs 48 }

/-- The fields as 64 bytes. -/
def ringBytes (r : RingObj) : List Byte :=
  dwords [r.base, BitVec.ofNat 64 (r.ssize + r.count * 2 ^ 32), r.rp ++ r.wp, r.ctl ++ r.cp, r.fill, r.drain, r.push, 0]

/-- The ring object at a place. -/
def ringAt (s : State) (l : Loc) : RingObj := ringOfBytes (s.readAs l.aes l.cell 64)

/-- The words of a list from offset `off` on that differ, written. -/
def putWords (aes cell : Nat) : Nat → List Byte → List Byte → State → State
  | off, a0 :: a1 :: a2 :: a3 :: old, b0 :: b1 :: b2 :: b3 :: new, s =>
    putWords aes cell (off + 4) old new
      (if [a0, a1, a2, a3] = [b0, b1, b2, b3] then s else s.writeAs aes (cell + off) [b0, b1, b2, b3])
  | _, _, _, s => s

/-- The fields of a ring object that change, written at its home (R256). -/
def ringPut (s : State) (l : Loc) (r : RingObj) : State :=
  putWords l.aes l.cell 0 ((s.readAs l.aes l.cell 64).take 56) ((ringBytes r).take 56) s

/-- The handle of slot `n` (R254). -/
def ringHandle (r : RingObj) (n : W32) : Word :=
  r.base + BitVec.ofNat 64 (r.ssize * (if r.count = 0 then 0 else n.toNat % r.count))

/-- A claim can be granted (R256). -/
def ringCanClaim (r : RingObj) : Bool :=
  decide ((r.cp - r.rp).toNat < r.count) && decide ((r.cp - r.wp).toNat < 64)

/-- The die of the stack that holds an HBM address outside die-local pages (R25). -/
def stackDie (a : Nat) : Nat := ((a / 2 ^ 11 % 16) ^^^ (a / 2 ^ 15 % 16) ^^^ (a / 2 ^ 19 % 16)) / 2

/-- The home die of a place: a tile's die, or the die of the stack that holds the line (R25, R26). -/
def homeDie (l : Loc) : Nat :=
  match l.space, l.dlDie with
  | .scr t, _ => dieOf t
  | _, some d => d
  | _, none => stackDie l.cell

/-- The producer port a push dword names (R255). -/
def pushPort (s : State) (ctx : Nat) (w : Word) : Option Port :=
  match s.ctx? ctx with
  | none => none
  | some c =>
    match c.tile? (fld w 19 9) with
    | some t => some ⟨⟨t, fld w 8 6, fld w 5 3⟩, fld w 2 0⟩
    | none => none

/-- The channel a thread's port is bound to. -/
def boundChan (s : State) (p : Port) : Option Nat :=
  match s.thread? p.key with
  | some t =>
    match t.bind.toList[p.q]? with
    | some b => if b.bound then some b.chan else none
    | none => none
  | none => none

/-- The ring fires its drain record: armed cleared, the record's counter decremented (R256). -/
def ringDrain (s : State) (ctx : Nat) (l : Loc) : State :=
  let r := ringAt s l
  let s := ringPut s l { r with ctl := r.ctl &&& 0xBFFFFFFF }
  decrementJoin s ctx r.drain (homeDie l)

/-- The ring advances over its filled slots, each time draining and pushing (R256). -/
def ringAdvance : Nat → State → Nat → Loc → State
  | 0, s, _, _ => s
  | n + 1, s, ctx, l =>
    let r := ringAt s l
    if r.fill.getLsbD 0 then
      let s := ringPut s l { r with fill := r.fill >>> 1, wp := r.wp + 1 }
      let s := if r.wp = r.rp ∧ ringArmed r then ringDrain s ctx l else s
      let s :=
        if r.push.getLsbD 63 then
          match pushPort s ctx r.push with
          | some p =>
            match boundChan s p with
            | some c => { s with pushes := s.pushes ++ [⟨p, c, ringHandle r r.wp, l.cell⟩] }
            | none => s
          | none => s
        else s
      ringAdvance n s ctx l
    else s

/-- A claimed slot's fill bit set, and the ring advanced (R256). -/
def ringFill (s : State) (ctx : Nat) (l : Loc) (slot : W32) : State :=
  let r := ringAt s l
  let s := ringPut s l { r with fill := r.fill ||| (1#64 <<< (slot - r.wp).toNat) }
  ringAdvance 64 s ctx l

/-- The ring's error state (R271). -/
def ringFail (s : State) (l : Loc) : State :=
  let r := ringAt s l
  ringPut s l { r with ctl := r.ctl ||| 0x80000000 }

/-- Slot cp claimed (R256): the slot and the state, where the claim is granted. -/
def ringClaim? (s : State) (l : Loc) : Option (W32 × State) :=
  let r := ringAt s l
  if ringCanClaim r then some (r.cp, ringPut s l { r with cp := r.cp + 1 }) else none

/-- A ring object lies in scratchpad or HBM (R254). -/
def Loc.holdsRing (l : Loc) : Bool :=
  match l.space with
  | .scr _ | .hbm => true
  | _ => false

/-- The ring's advance has passed a slot filled before, or the ring has been written anew (R302). -/
def ringPassed (s : State) (aes cell : Nat) (slot : W32) : Bool :=
  decide (64 ≤ (slot - (ringOfBytes (s.readAs aes cell 64)).wp).toNat)

/-- A 64-byte record, or more, put into a ring at once by the heap unit or for a retry ring: claimed, written at its
handle, filled; none where the ring counts as full or cannot be written (R284, R341). -/
def ringRecord (s : State) (ag : Agent) (va : Word) (record : List Byte) : Option (W32 × State) :=
  match translate s ag va .amo with
  | .error _ => none
  | .ok l =>
    if ringErr (ringAt s l) ∨ !l.holdsRing ∨ s.denied l.cell 0 64 ≠ 0 ∨ s.denied l.cell 1 64 ≠ 0 then none
    else
      match ringClaim? s l with
      | none => none
      | some (slot, s1) =>
        match writeLines ag 3 s1 (ringHandle (ringAt s l) slot) record with
        | .error _ => none
        | .ok s2 => some (slot, ringFill s2 ag.ctx l slot)

end Sys2Proof.Machine
end

