-- ==== Sys2Proof/Machine/Transport.lean ====
section
/-! DEFINITION. How a transport issues (R32 to R43, R53, R55): the checks, the guard, the source, what it does, and what
becomes of a transport that waits, traps or faults. -/

namespace Sys2Proof.Machine

/-- What a transport does once its source is read. A transport that is not `done` has not been performed: it stays
at its PC and counts in no window. -/
inductive Act where
  | done (s : State)
  /-- performed, and once the source's dequeue has taken effect the thread leaves its slot -/
  | doneThen (s : State) (leave : State → State)
  /-- it waits, and is issued again when the hold ends -/
  | stall (h : Hold)
  /-- it starts, holds the thread, and is performed when its hold ends (R12, R125, R199) -/
  | hold (h : Hold) (start : State → State := id)
  /-- it is issued again from a cycle on -/
  | wait (cyc : Nat)
  | trap (cause detail : Nat) (info : W32) (maddr : Word)
  /-- a memory fault (R339) -/
  | fault (kind : Nat) (addr : Word)
  /-- a memory fault after part of the work, which stays done outside the thread (R192) -/
  | faultAfter (s : State) (kind : Nat) (addr : Word)
  /-- a double fault (R352) -/
  | double
  /-- not performed: the trap of an open window's operation is taken first (R39) -/
  | owing (u : Win) (ti : TrapInfo)

/-- The illegal-transport trap at a trigger (R6, R55). -/
def Act.illegal : Act := .trap 2 0 0 0
/-- The queue-error trap; `d` is the port, or 8 for a ring (R344). -/
def Act.queueError (d : Nat) : Act := .trap 9 d 0 0

/-! ### Memory faults (R338 to R342) -/

/-- The triggers whose faults go to the retry ring in retry-ring mode: loads, stores, atomics (origin 0), vld and vst
(origin 1) (R338). Vector triggers are numbered in the space of R54. -/
def ringOrigin (isV : Bool) (trig : Nat) : Option Nat :=
  if isV then some 1 else if 0x103 ≤ trig ∧ trig ≤ 0x125 then some 0 else none

/-- An entry of a retry ring (R342). -/
def retryEntry (ctx : Nat) (tid : Word) (trig origin kind : Nat) (addr lo lo2 lo3 pc : Word) (data : List Byte) :
    List Byte :=
  dwords [addr,
    BitVec.ofNat 64 (ctx % 2 ^ 16 * 2 ^ 48 + fld tid 16 0 * 2 ^ 31 + trig % 2 ^ 11 * 2 ^ 20 + origin * 2 ^ 16 + kind),
    lo, lo2, lo3, pc, 1, 0] ++ (data ++ List.replicate 64 0).take 64

/-- An entry put into a context's retry ring: its slot number; none where the ring cannot take it at once (R341). -/
def retryRingPut (s : State) (ctx : Nat) (entry : List Byte) : Option (Nat × State) :=
  match (s.ctx? ctx).bind Ctx.retryRing with
  | none => none
  | some va => (ringRecord s (devAgent ctx) va entry).map fun p => (p.1.toNat, p.2)

/-- The store data of a vst or st128 as captured (R342). -/
def faultData (t : Thread) (isV : Bool) (trig : Nat) : List Byte :=
  if isV then (if trig = 0x033 then vecBytes t.vo else [])
  else if trig = 0x10F then dwords [t.get .lo2, t.get .lo3] else []

/-- The primitive Retry (R339, R341): the faulting transport is held, and the fault goes to the retry ring or to the
policy core; in monitor mode, always to the latch (R352). `at_` is the faulting transport's address. -/
def raiseFault (s : State) (isV : Bool) (trig look kind : Nat) (addr : Word) (at_ : Word := s.th.pc) : State :=
  let t := s.th
  let r : Retry := { trig := trig, kind := kind, addr := addr, lo := t.get .lo, lo2 := t.get .lo2, lo3 := t.get .lo3
                     pc := at_, look := look }
  let toCore : State :=
    (s.map (fun t => { t with hold := .latch, latch := some { r with id := s.faultSeq } })).tell t.ctx t.key
      (.fault kind addr trig s.tid none)
  match if t.mode = .monitor then none else ringOrigin isV trig with
  | none => toCore
  | some o =>
    match retryRingPut s t.ctx (retryEntry t.ctx s.tid trig o kind addr r.lo r.lo2 r.lo3 at_ (faultData t isV trig)) with
    | none => toCore
    | some (slot, s) => s.map (fun t => { t with hold := .latch, latch := some { r with ring := some slot } })

/-- A hold in which the thread stands at an instruction boundary: it issues its next transport again. -/
def mayHold : Hold → Bool
  | .none | .line _ _ | .walk _ | .queue _ _ | .drain | .trap => true
  | _ => false

/-- An access of unit `u` that is refused after it has left: its thread, in focus, is held with the access in its retry
latch, its window closed (R192, R308, R371); in monitor mode, always in the latch (R352). The trap of a transport not
performed is dropped, as that transport issues again; one of an operation is owed (log entry 16). `data` is the entry's
data field (R342). -/
def lateHold (s : State) (u : Win) (r : Retry) (data : List Byte) : State :=
  let t := s.th
  let r := { r with look := (t.win u).left, late := true }
  let s := s.map (fun t => { t.setWin u {} with
    trapWait := none, hold := .latch, owed := t.trapWait.toList.filter (fun ti => ti.mtpc != t.pc) ++ t.owed })
  let toCore : State :=
    (s.map (fun t => { t with latch := some { r with id := s.faultSeq } })).tell t.ctx t.key (.fault r.kind r.addr r.trig s.tid none)
  match if t.mode = .monitor then none else ringOrigin (u == .v) r.trig with
  | none => toCore
  | some o =>
    match retryRingPut s t.ctx (retryEntry t.ctx s.tid r.trig o r.kind r.addr r.lo r.lo2 r.lo3 r.pc data) with
    | some (slot, s) => s.map (fun t => { t with latch := some { r with ring := some slot } })
    | none => toCore

/-! ### Issue -/

/-- A store leaves the write-combining buffer: it is acknowledged after its target's latency (R168, R190). -/
def State.flushWcb (s : State) : State :=
  s.map (fun t => { t with posted := t.posted.map (fun p =>
    if p.wcb then { p with wcb := false, due := s.cyc + p.lat } else p) })

/-- The outcome of a transport whose source has been read. -/
def conclude (isV : Bool) (trig look : Nat) (s : State) (d : Option (BitVec 3 × Nat × Elem))
    (a : Act) : State :=
  match a with
  | .done s' =>
    match d with
    | none => s'
    | some (q, c, e) => s'.queueTake q c e
  | .doneThen s' leave =>
    match d with
    | none => leave s'
    | some (q, c, e) => leave (s'.queueTake q c e)
  | .stall h =>
    let s := if h = .drain then s.flushWcb else s
    (s.map (fun t => { t with hold := h, again := h = .drain })).unissue
  | .hold h start => (start s).map (fun t => { t with hold := h, unperformed := some (d.map Prod.fst) })
  | .wait c => (s.map (fun t => { t with readyAt := c, again := true })).unissue
  -- a z.trap or a timeline error at its trigger resumes after the transport (R344)
  | .trap c d i m => takeTrap s { cause := c, detail := d, info := i, maddr := m, nx := c = 1 || c = 8, mtpc := s.th.pc }
  | .fault k a => raiseFault s isV trig look k a
  | .faultAfter s' k a => raiseFault { s' with th := s.th } isV trig look k a
  | .double => s.doubleFault
  | .owing u ti => takeTrap (s.map (fun t => t.setWin u {})) ti

/-- The checks of the word, then its guard, then its body (R34, R55). -/
def issue (fate : SlotKey → Mode → Fate) (g : Guard) (body : State → State) (s : State) : Out :=
  let s := s.map (fun t => t.settle s.cyc)
  .next (match fate s.th.key s.th.mode with
    | .illegal => trapIllegal s
    | .privilege => trapPrivilege s
    | .ok => if s.th.holds g then body s else s.advance)

/-- A scalar source read, with the operand latches `ops`, and what the transport does with its value. -/
def withSrc (trig look : Nat) (ops : List RegRef) (src : Src) (act : Word → State → Act) (s : State) : State :=
  match s.readSrc src with
  | .val w d => checked (srcRegs src ++ ops) (fun s => conclude false trig look s d (act w s.advance)) s
  | .due c => conclude false trig look s none (.wait c)
  | .empty q => conclude false trig look s none (.stall (.queue q.toNat true))
  | .qerror q => conclude false trig look s none (.queueError q.toNat)

/-- A trigger of a unit whose own window is open ends that window and holds; otherwise it goes on (R40). tfence ends
every open window (R75). -/
def endWindow (us : List Win) (body : State → State) (s : State) : State :=
  if us.any (fun u => (s.th.win u).isOpen) then
    (s.map (fun t => us.foldl (fun t u =>
      if (t.win u).isOpen then t.setWin u { t.win u with left := 0 } else t) t)).unissue
  else body s

/-- The units whose windows a scalar trigger ends. -/
def trigWins (t : Trig) : List Win :=
  match blockOf t with
  | .m => [.m] | .f => [.f] | .l => [.l] | .x => [.x] | .y => [.y] | .h => [.h] | .d => [.d]
  | .z => if t = .tfence then allWins else []
  | _ => []

/-- The thread goes on `n` cycles after the trigger. -/
def State.holdFor (s : State) (n : Nat) : State := s.map (fun t => { t with readyAt := s.cyc + n })

/-- A class 00 transport to a destination that is no trigger. -/
def moveTo (dst : SlotKey → Mode → Fate) (g : Guard) (src : Src) (act : Word → State → Act) (s : State) : Out :=
  issue (fun k m => (srcFate k m src).and (dst k m)) g (withSrc 0 0 [] src act) s

/-- A class 00 transport to a trigger. -/
def trigger (t : Trig) (look : BitVec 4) (g : Guard) (src : Src) (act : Word → State → Act) (s : State) : Out :=
  issue (fun k m => (srcFate k m src).and (trigFate k m t)) g
    (endWindow (trigWins t) (withSrc t.num look.toNat (operandRegs t) src act)) s

/-- The address of the transport that has been advanced past. -/
def State.at_ (s : State) : Word := s.th.pc - 4

/-! ### Order (R163, R165 to R171) -/

/-- An open window's operation acquires and its value has not arrived (R171). -/
def Thread.acquiring (t : Thread) (now : Nat) : Bool :=
  allWins.any (fun u => (t.win u).isOpen && (t.win u).acq && !(t.win u).complete now) || t.mem.any (fun a => a.acq.isSome)

/-! The pieces of a copy (R269, R270, R273). -/

def Copy.rows (c : Copy) : Nat := if c.cmd.isSome then 1 else fld c.shape 47 32
def Copy.rowBytes (c : Copy) : Nat := if c.cmd.isSome then c.len else fld c.shape 31 0
/-- The ring a copy names; 0 for none. -/
def Copy.ring (c : Copy) : Word := c.ctl &&& 0xFFFFFFFFFFC0
/-- The target tiles of a multicast, as logical numbers. -/
def Copy.targets (c : Copy) : List Nat :=
  ((List.range 32).filter (fun n => fld c.dst 63 32 / 2 ^ n % 2 = 1)).map (fun n => fld c.dst 29 19 + n)
/-- The bytes moved to one target, and over all. -/
def Copy.one (c : Copy) : Nat := c.rows * c.rowBytes
def Copy.total (c : Copy) : Nat := if c.kind = 2 then c.one * c.targets.length else c.one

/-- The agent of a copy; the local alias names no tile for a COPY packet (R24). -/
def Copy.agent (c : Copy) : Agent := ⟨c.ctx, c.monitor, if c.cmd.isSome then none else some c.key.tile, false⟩

/-- The piece at a copy offset: source, destination (none: outside its target's scratchpad, or its slot not yet claimed)
and length, a run of one row within one source page and one destination page (R270). -/
def Copy.piece (s : State) (c : Copy) (off : Nat) : Word × Option Word × Nat :=
  let o := off % max 1 c.one
  let r := o / max 1 c.rowBytes
  let b := o % max 1 c.rowBytes
  let src := c.src + BitVec.ofNat 64 (r * fld c.pitch 31 0 + b)
  let step := r * fld c.pitch 63 32 + b
  let dst : Option Word :=
    if c.kind = 2 then
      let e := fld c.dst 18 0 + step
      let lt := c.targets.getD (off / max 1 c.one) 0
      if e < 2 ^ 19 then some (BitVec.ofNat 64 (0x7F0000000000 + lt * 2 ^ 19 + e)) else none
    else if c.ring ≠ 0 then c.slot.map (fun x => x.2 + BitVec.ofNat 64 (fld c.dst 31 0 + step))
    else some (c.dst + BitVec.ofNat 64 step)
  (src, dst, min (c.rowBytes - b) (min (pageRoom s c.agent src .load) (match dst with
    | some d => pageRoom s c.agent d .store
    | none => 4096)))

/-- A run of cells lies in a line of `n` bytes at a virtual address, page by page. -/
def runHits (s : State) (ag : Agent) (cell len : Nat) : Nat → Word → Nat → Bool
  | 0, _, _ => false
  | k + 1, va, n =>
    if n = 0 then false
    else
      let m := min n (pageRoom s ag va .load)
      (match translate s ag va .load with
        | .ok l => decide (l.cell / 64 ≤ (cell + len - 1) / 64 ∧ cell / 64 ≤ (l.cell + m - 1) / 64)
        | .error _ => false) || runHits s ag cell len k (va + BitVec.ofNat 64 m) (n - m)

/-- A copy that waits for its slot writes a slot of its ring, and which one is not known before the claim: every slot's
lines count as written by it (R163, R177; log entry 6). -/
def claimHits (s : State) (c : Copy) (cell len : Nat) : Bool :=
  c.ring != 0 && c.slot.isNone &&
    match translate s c.agent c.ring .load with
    | .ok l =>
      let r := ringAt s l
      runHits s c.agent cell len (r.ssize * r.count / 4096 + 2) r.base (r.ssize * r.count)
    | .error _ => false

/-- A piece of the copy from an offset on writes, or reads where `rd`, one of the lines of a run of cells. -/
def copyPieceHits (s : State) (c : Copy) (cell len : Nat) (fuel off : Nat) (rd : Bool := true) : Bool :=
  match fuel with
  | 0 => false
  | n + 1 =>
    if c.total ≤ off then false
    else
      let (src, dst, k) := c.piece s off
      let hit (va : Word) (need : Need) : Bool :=
        match translate s c.agent va need with
        | .ok l => decide (l.cell / 64 ≤ (cell + len - 1) / 64 ∧ cell / 64 ≤ (l.cell + k - 1) / 64)
        | .error _ => false
      (rd && hit src .load) || (match dst with
        | some d => hit d .store
        | none => false) || copyPieceHits s c cell len n (off + max 1 k) rd

/-- What a copy has still to write, or read where `rd`, meets the lines of a run of cells. -/
def copyHits (s : State) (c : Copy) (cell len : Nat) (rd : Bool := true) : Bool :=
  claimHits s c cell len || copyPieceHits s c cell len (c.total + 1) c.off rd

/-- The scratchpad of the thread's own quire, where a class has no effect (R187). -/
def inQuire (tile cell : Nat) : Bool :=
  decide (2 ^ 56 ≤ cell ∧ cell < 2 ^ 57) && (cell - 2 ^ 56) / 2 ^ 19 / 16 == tile / 16

/-- Two accesses of a thread on `tile` travel in one class (R165, R187). -/
def oneClass (tile cls cell cls' cell' : Nat) : Bool := cls == cls' || (inQuire tile cell && inQuire tile cell')

/-- Two runs of cells share a 64-byte line. -/
def sameLine (c n c' n' : Nat) : Bool := decide (c / 64 ≤ (c' + n' - 1) / 64 ∧ c' / 64 ≤ (c + n - 1) / 64)

/-- What a vld of a running sequence reads as memory stands. -/
def State.vectorAt (s : State) (a : Word) : Vec :=
  match translate s s.self a .load with
  | .ok l => BitVec.ofNat 512 (leNat (s.readAs l.aes l.cell 64))
  | .error _ => 0

/-- The lines that the running sequence of the thread in focus has still to reach: the cell, and whether it is stored to
(R163, R183). -/
def State.seqLines (s : State) : List (Nat × Bool) :=
  (s.th.seqAccesses s.vectorAt).filterMap fun (a, st) =>
    match translate s s.self a (if st then .store else .load) with
    | .ok l => some (l.cell, st)
    | .error _ => none

/-- An earlier access of the thread to one of the lines of a run of cells is still to be performed (R163): a posted store,
a load or other store, an atomic, a copy, or one of its running sequence. `same` spares the posted stores of a unit and
class: an access of that unit and class takes its place behind them. `seq`: the access is the sequence's own. -/
def State.lineBusy (s : State) (cell len : Nat) (same : Option (Win × Nat)) (seq : Bool := false) : Bool :=
  s.th.posted.any (fun p => sameLine p.cell p.bytes.length cell len &&
      !((same.map (fun x => x.1 == p.u && (x.2 == p.cls || inQuire s.th.key.tile cell))).getD false))
    || s.th.mem.any (fun a => sameLine a.cell a.n cell len)
    || s.homeQ.any (fun a => a.key == s.th.key && sameLine a.cell 16 cell len)
    || s.copies.any (fun c => c.key == s.th.key && (!seq || decide (c.since < s.th.rep.since))
      && copyHits s c cell len)
    || s.ringOps.any (fun o => o.key == s.th.key && sameLine o.cell 64 cell len)
    || (!seq && s.seqLines.any (fun x => sameLine x.1 64 cell len))

/-- An earlier store, atomic or copy of the thread in focus that writes the word at a cell is still to be performed
(R183). -/
def codeBusy (s : State) (cell : Nat) : Bool :=
  let hits (c n : Nat) : Bool := decide (c < cell + 4 ∧ cell < c + n)
  s.th.mem.any (fun a => !a.load && hits a.cell a.n)
    || s.homeQ.any (fun a => a.key == s.th.key && hits a.cell 16)
    || s.copies.any (fun c => c.key == s.th.key && copyHits s c cell 4 false)
    || s.seqLines.any (fun x => x.2 && hits x.1 64)

/-- A store, atomic or copy of another thread of the core to the line has been sent and is not yet performed: what the
core holds of the line may show it (R162, R178). -/
def State.siblingPosts (s : State) (k : CoreKey) (me : SlotKey) (cell len : Nat) : Bool :=
  s.threads.any (fun t => t.key.coreKey == k && t.key != me && t.posted.any (fun p => sameLine p.cell p.bytes.length cell len))

/-- A load of the thread has read a sibling's store to one of the lines, and the store is still on its way: what the thread
writes there comes after it (R162, R163). -/
def State.behindSibling (s : State) (t : Thread) (cell len : Nat) : Bool :=
  t.saw.any (fun l => sameLine (64 * l) 64 cell len) && s.siblingPosts t.key.coreKey t.key cell len

/-- A store that the thread in focus has read is still on its way to memory: a release of the thread waits for it, as it is
to be performed for every observer of the release's scope (R170, R174, R175). -/
def State.sawPending (s : State) : Bool :=
  s.th.saw.any (fun l => s.siblingPosts s.th.key.coreKey s.th.key (64 * l) 64)

/-! ### Events -/

/-- An event of the slot that `ev` names: performed with the slot in focus. -/
def onSlot (f : State → Option State) (s : State) : Out :=
  match s.focus s.ev.key with
  | none => .fault .noSubject
  | some s1 =>
    match f s1 with
    | some s2 => .next s2
    | none => .fault .noSubject

/-- An event of the device: performed, or without a subject. -/
def orNone : Option State → Out
  | some s => .next s
  | none => .fault .noSubject

/-- The rotation takes a held thread back from the next cycle on. -/
def State.rejoin (s : State) : State := s.map (fun t => { t with hold := .none, readyAt := s.cyc + 1 })

/-- A drain of the press context of the thread in focus has still to issue its writes (R126, R170). -/
def State.drainQueued (s : State) : Bool :=
  match assoc s.presses s.th.key.tile with
  | some p => (p.ctx.toList.getD s.th.key.core {}).queue.any (fun e => match e.op with
    | .drain .. => true
    | _ => false)
  | none => false

/-- A load of the thread, in any unit, has not returned its value (R165, R170): one still to be performed, one on its way,
an atomic, or one of its running sequence. -/
def State.loadsOut (s : State) (seq : Bool := false) : Bool :=
  s.th.mem.any Access.load || s.homeQ.any (fun a => a.key == s.th.key) || (!seq && s.th.seqHas false)
    || [Win.l, .v, .d].any (fun u => (s.th.win u).isOpen && (s.th.win u).hasRes && !(s.th.win u).complete s.cyc
      && !(u == .v && s.th.rep.act))

/-- A store of the thread that is not posted has not been performed (R170). -/
def State.storesOut (s : State) (seq : Bool := false) : Bool :=
  s.th.mem.any (fun a => !a.load) || (!seq && s.th.seqHas true)

/-- Every access that slot `k`'s thread triggered before a cycle has been performed, and acknowledged where the scope
is .tl or wider: what a release of that trigger waits for (R170, R176, R177). -/
def State.earlierDone (s : State) (k : SlotKey) (since scope : Nat) : Bool :=
  let thread := match s.thread? k with
    | none => true
    | some t =>
      !t.mem.any (fun a => decide (a.since < since)) && !(decide (t.rep.since < since) && (t.seqHas false || t.seqHas true))
        && (decide (scope = 0) || (!t.posted.any (fun p => decide (p.since < since))
          && !t.saw.any (fun l => s.siblingPosts t.key.coreKey t.key (64 * l) 64)))
  let drains := match assoc s.presses k.tile with
    | some p => (p.ctx.toList.getD k.core {}).queue.any (fun e => decide (e.since < since) && (match e.op with
      | .drain .. => true
      | _ => false))
    | none => false
  thread && !drains && !s.homeQ.any (fun a => a.key == k && decide (a.since < since))
    && (decide (scope = 0) || !s.offers.any (fun o => o.key == k && decide (o.since < since)))

/-- What a release or fence still waits for (R170): acknowledgements at .tl and wider, the thread's own accesses under
way, and the drains of its press context. None when it may go on. -/
def State.releaseWait (s : State) (scope : Nat) (seq : Bool := false) : Option Act :=
  if 1 ≤ scope ∧ s.th.unacked ≠ 0 then some (.stall .drain)
  else if 1 ≤ scope ∧ s.sawPending then some (.wait (s.cyc + 1))
  else if s.loadsOut seq ∨ s.storesOut seq ∨ s.drainQueued then some (.wait (s.cyc + 1))
  else none

end Sys2Proof.Machine
end

