-- ==== Sys2Proof/Machine/Alu.lean ====
section
/-! DEFINITION. A: the integer operations (R80, R81). -/

namespace Sys2Proof.Machine

/-- The low word of a dword, sign-extended. -/
def sx32 (v : Word) : Word := (v.setWidth 32).signExtend 64

/-- 1 or 0. -/
def bool64 (b : Bool) : Word := if b then 1 else 0

/-- A shift count in the low six bits. -/
def sh6 (t : Word) : Nat := fld t 5 0
/-- A shift count in the low five bits. -/
def sh5 (t : Word) : Nat := fld t 4 0

/-- The number of one bits below bit `n`. -/
def popcount (w : Word) : Nat → Nat
  | 0 => 0
  | n + 1 => (if w.getLsbD n then 1 else 0) + popcount w n

/-- The number of zero bits from bit `n - 1` down to the first one. -/
def leading (w : Word) : Nat → Nat
  | 0 => 0
  | n + 1 => if w.getLsbD n then 0 else 1 + leading w n

/-- The number of zero bits from bit `64 - n` up to the first one. -/
def trailing (w : Word) : Nat → Nat
  | 0 => 0
  | n + 1 => if w.getLsbD (63 - n) then 0 else 1 + trailing w n

/-- a[n:0] sign-extended from bit n. -/
def sextFrom (a : Word) (n : Nat) : Word := (a <<< (63 - n)).sshiftRight (63 - n)

/-- a[n:0] zero-extended. -/
def zextFrom (a : Word) (n : Nat) : Word := (a <<< (63 - n)) >>> (63 - n)

/-- The field of a control word (R81), or none where a reserved bit is set. -/
def bitField (a t : Word) : Option Word :=
  if fld t 63 13 ≠ 0 then none
  else
    let n := fld t 11 6
    let f := a >>> sh6 t
    some (if t.getLsbD 12 then sextFrom f n else zextFrom f n)

/-- An A result, visible to the next transport (R79). -/
def aluDone (s : State) (r : Word) : Act := .done (s.map (fun t => t.set .ar r))

/-- A two-operand A operation on a.o and the trigger value. -/
def alu2 (f : Word → Word → Word) (t : Word) (s : State) : Act := aluDone s (f (s.th.get .ao) t)

def actAdd : Word → State → Act := alu2 (fun a t => a + t)
def actSub : Word → State → Act := alu2 (fun a t => a - t)
def actAddw : Word → State → Act := alu2 (fun a t => sx32 (a + t))
def actSubw : Word → State → Act := alu2 (fun a t => sx32 (a - t))
def actAnd : Word → State → Act := alu2 (fun a t => a &&& t)
def actOr : Word → State → Act := alu2 (fun a t => a ||| t)
def actXor : Word → State → Act := alu2 (fun a t => a ^^^ t)
def actAndn : Word → State → Act := alu2 (fun a t => a &&& ~~~t)
def actShl : Word → State → Act := alu2 (fun a t => a <<< sh6 t)
def actShr : Word → State → Act := alu2 (fun a t => a >>> sh6 t)
def actSra : Word → State → Act := alu2 (fun a t => a.sshiftRight (sh6 t))
def actShlw : Word → State → Act := alu2 (fun a t => (a.setWidth 32 <<< sh5 t).signExtend 64)
def actShrw : Word → State → Act := alu2 (fun a t => (a.setWidth 32 >>> sh5 t).signExtend 64)
def actSraw : Word → State → Act := alu2 (fun a t => ((a.setWidth 32).sshiftRight (sh5 t)).signExtend 64)
def actRotl : Word → State → Act := alu2 (fun a t => a.rotateLeft (sh6 t))
def actMin : Word → State → Act := alu2 (fun a t => if a.slt t then a else t)
def actMax : Word → State → Act := alu2 (fun a t => if a.slt t then t else a)
def actMinu : Word → State → Act := alu2 (fun a t => if a.ult t then a else t)
def actMaxu : Word → State → Act := alu2 (fun a t => if a.ult t then t else a)
def actMov : Word → State → Act := alu2 (fun _ t => t)
def actSext : Word → State → Act := alu2 (fun a t => sextFrom a (sh6 t))
def actZext : Word → State → Act := alu2 (fun a t => zextFrom a (sh6 t))
def actBfx (t : Word) (s : State) : Act :=
  match bitField (s.th.get .ao) t with
  | some r => aluDone s r
  | none => .illegal
def actClz : Word → State → Act := alu2 (fun _ t => BitVec.ofNat 64 (leading t 64))
def actCtz : Word → State → Act := alu2 (fun _ t => BitVec.ofNat 64 (trailing t 64))
def actPopc : Word → State → Act := alu2 (fun _ t => BitVec.ofNat 64 (popcount t 64))
def actCeq : Word → State → Act := alu2 (fun a t => bool64 (a == t))
def actCne : Word → State → Act := alu2 (fun a t => bool64 (a != t))
def actClt : Word → State → Act := alu2 (fun a t => bool64 (a.slt t))
def actCltu : Word → State → Act := alu2 (fun a t => bool64 (a.ult t))
def actCle : Word → State → Act := alu2 (fun a t => bool64 (a.sle t))
def actCleu : Word → State → Act := alu2 (fun a t => bool64 (a.ule t))
def actShl16or : Word → State → Act := alu2 (fun a t => (a <<< 16) ||| (t &&& 0xFFFF))

/-! ### The instructions -/

/-- ADD (R80). -/
def execAdd (g : Guard) (src : Src) (s : State) : Out := trigger .add 0 g src actAdd s
/-- SUB (R80). -/
def execSub (g : Guard) (src : Src) (s : State) : Out := trigger .sub 0 g src actSub s
/-- ADDW (R80). -/
def execAddw (g : Guard) (src : Src) (s : State) : Out := trigger .addw 0 g src actAddw s
/-- SUBW (R80). -/
def execSubw (g : Guard) (src : Src) (s : State) : Out := trigger .subw 0 g src actSubw s
/-- AND (R80). -/
def execAnd (g : Guard) (src : Src) (s : State) : Out := trigger .and 0 g src actAnd s
/-- OR (R80). -/
def execOr (g : Guard) (src : Src) (s : State) : Out := trigger .or 0 g src actOr s
/-- XOR (R80). -/
def execXor (g : Guard) (src : Src) (s : State) : Out := trigger .xor 0 g src actXor s
/-- ANDN (R80). -/
def execAndn (g : Guard) (src : Src) (s : State) : Out := trigger .andn 0 g src actAndn s
/-- SHL (R80). -/
def execShl (g : Guard) (src : Src) (s : State) : Out := trigger .shl 0 g src actShl s
/-- SHR (R80). -/
def execShr (g : Guard) (src : Src) (s : State) : Out := trigger .shr 0 g src actShr s
/-- SRA (R80). -/
def execSra (g : Guard) (src : Src) (s : State) : Out := trigger .sra 0 g src actSra s
/-- SHLW (R80). -/
def execShlw (g : Guard) (src : Src) (s : State) : Out := trigger .shlw 0 g src actShlw s
/-- SHRW (R80). -/
def execShrw (g : Guard) (src : Src) (s : State) : Out := trigger .shrw 0 g src actShrw s
/-- SRAW (R80). -/
def execSraw (g : Guard) (src : Src) (s : State) : Out := trigger .sraw 0 g src actSraw s
/-- ROTL (R80). -/
def execRotl (g : Guard) (src : Src) (s : State) : Out := trigger .rotl 0 g src actRotl s
/-- MIN (R80). -/
def execMin (g : Guard) (src : Src) (s : State) : Out := trigger .min 0 g src actMin s
/-- MAX (R80). -/
def execMax (g : Guard) (src : Src) (s : State) : Out := trigger .max 0 g src actMax s
/-- MINU (R80). -/
def execMinu (g : Guard) (src : Src) (s : State) : Out := trigger .minu 0 g src actMinu s
/-- MAXU (R80). -/
def execMaxu (g : Guard) (src : Src) (s : State) : Out := trigger .maxu 0 g src actMaxu s
/-- MOV (R80). -/
def execMov (g : Guard) (src : Src) (s : State) : Out := trigger .mov 0 g src actMov s
/-- SEXT (R80). -/
def execSext (g : Guard) (src : Src) (s : State) : Out := trigger .sext 0 g src actSext s
/-- ZEXT (R80). -/
def execZext (g : Guard) (src : Src) (s : State) : Out := trigger .zext 0 g src actZext s
/-- BFX (R81). -/
def execBfx (g : Guard) (src : Src) (s : State) : Out := trigger .bfx 0 g src actBfx s
/-- CLZ (R80). -/
def execClz (g : Guard) (src : Src) (s : State) : Out := trigger .clz 0 g src actClz s
/-- CTZ (R80). -/
def execCtz (g : Guard) (src : Src) (s : State) : Out := trigger .ctz 0 g src actCtz s
/-- POPC (R80). -/
def execPopc (g : Guard) (src : Src) (s : State) : Out := trigger .popc 0 g src actPopc s
/-- CEQ (R80). -/
def execCeq (g : Guard) (src : Src) (s : State) : Out := trigger .ceq 0 g src actCeq s
/-- CNE (R80). -/
def execCne (g : Guard) (src : Src) (s : State) : Out := trigger .cne 0 g src actCne s
/-- CLT (R80). -/
def execClt (g : Guard) (src : Src) (s : State) : Out := trigger .clt 0 g src actClt s
/-- CLTU (R80). -/
def execCltu (g : Guard) (src : Src) (s : State) : Out := trigger .cltu 0 g src actCltu s
/-- CLE (R80). -/
def execCle (g : Guard) (src : Src) (s : State) : Out := trigger .cle 0 g src actCle s
/-- CLEU (R80). -/
def execCleu (g : Guard) (src : Src) (s : State) : Out := trigger .cleu 0 g src actCleu s
/-- SHL16OR (R80). -/
def execShl16or (g : Guard) (src : Src) (s : State) : Out := trigger .shl16or 0 g src actShl16or s

end Sys2Proof.Machine
end

