-- ==== Sys2Proof/Machine/MulDiv.lean ====
section
/-! DEFINITION. M: multiply and divide (R82, R83). -/

namespace Sys2Proof.Machine

/-- A multiply result, visible after 3 cycles (R79). -/
def mulDone (f : Word → Word → Word) (t : Word) (s : State) : Act :=
  .done (s.launch (some .mr) 3 (f (s.th.get .mo) t) 0 0)

/-- The high half of a signed product. -/
def mulHigh (a t : Word) : Word := BitVec.ofInt 64 (a.toInt * t.toInt / 2 ^ 64)
/-- The high half of an unsigned product. -/
def mulHighU (a t : Word) : Word := BitVec.ofNat 64 (a.toNat * t.toNat / 2 ^ 64)

def actMul : Word → State → Act := mulDone (fun a t => a * t)
def actMulw : Word → State → Act := mulDone (fun a t => (a.setWidth 32 * t.setWidth 32).signExtend 64)
def actMulh : Word → State → Act := mulDone mulHigh
def actMulhu : Word → State → Act := mulDone mulHighU

/-- Signed quotient, truncated toward zero; −2^63 / −1 wraps (R83). -/
def quotS (a t : Word) : Word := if t = 0 then 0xFFFFFFFFFFFFFFFF else BitVec.ofInt 64 (a.toInt.tdiv t.toInt)
def quotU (a t : Word) : Word := if t = 0 then 0xFFFFFFFFFFFFFFFF else BitVec.ofNat 64 (a.toNat / t.toNat)
/-- Signed remainder, with the sign of the dividend (R83). -/
def remS (a t : Word) : Word := if t = 0 then a else BitVec.ofInt 64 (a.toInt.tmod t.toInt)
def remU (a t : Word) : Word := if t = 0 then a else BitVec.ofNat 64 (a.toNat % t.toNat)

/-- A division: 36 cycles whatever its operands; a zero divisor sets IDZ (R83). -/
def divDone (f : Word → Word → Word) (l : BitVec 4) (t : Word) (s : State) : Act :=
  .done (s.openWin .m l
    { doneAt := s.cyc + 36, hasRes := true, r := f (s.th.get .mo) t, flags := if t = 0 then flagIDZ else 0 })

def actDiv : BitVec 4 → Word → State → Act := divDone quotS
def actDivu : BitVec 4 → Word → State → Act := divDone quotU
def actRem : BitVec 4 → Word → State → Act := divDone remS
def actRemu : BitVec 4 → Word → State → Act := divDone remU

/-! ### The instructions -/

/-- MUL (R82). -/
def execMul (g : Guard) (src : Src) (s : State) : Out := trigger .mul 0 g src actMul s
/-- MULW (R82). -/
def execMulw (g : Guard) (src : Src) (s : State) : Out := trigger .mulw 0 g src actMulw s
/-- MULH (R82). -/
def execMulh (g : Guard) (src : Src) (s : State) : Out := trigger .mulh 0 g src actMulh s
/-- MULHU (R82). -/
def execMulhu (g : Guard) (src : Src) (s : State) : Out := trigger .mulhu 0 g src actMulhu s
/-- DIV (R83). -/
def execDiv (g : Guard) (l : BitVec 4) (src : Src) (s : State) : Out := trigger .div l g src (actDiv l) s
/-- DIVU (R83). -/
def execDivu (g : Guard) (l : BitVec 4) (src : Src) (s : State) : Out := trigger .divu l g src (actDivu l) s
/-- REM (R83). -/
def execRem (g : Guard) (l : BitVec 4) (src : Src) (s : State) : Out := trigger .rem l g src (actRem l) s
/-- REMU (R83). -/
def execRemu (g : Guard) (l : BitVec 4) (src : Src) (s : State) : Out := trigger .remu l g src (actRemu l) s

end Sys2Proof.Machine
end

