-- ==== Sys2Proof/Machine/FloatUnit.lean ====
section
/-! DEFINITION. F: scalar FP32 and conversions (R84 to R91). -/

namespace Sys2Proof.Machine

/-- An FP32 operand: bits [31:0] (R84). -/
def f32 (w : Word) : FVal := fp32.value (w.setWidth 32).toNat

/-- An F result, visible after 4 cycles (R79). -/
def fDone (s : State) (r : Word) (fl : Flags) : Act := .done (s.launch (some .fr) 4 r 0 fl)

/-- An operation that calls Round once: mode, sat and draw captured at the trigger (R70, R84). -/
def fRound (f : Rm → Nat → Thread → Word → FRes) (t : Word) (s : State) : Act :=
  let (rm, r, s') := s.round1
  let x := f rm r s.th t
  fDone s' (x.code.setWidth 64) x.flags

def actFadd : Word → State → Act := fRound (fun rm r th t => fp32.add rm r (f32 (th.get .fo)) (f32 t))
def actFsub : Word → State → Act := fRound (fun rm r th t => fp32.add rm r (f32 (th.get .fo)) (f32 t).neg)
def actFmul : Word → State → Act := fRound (fun rm r th t => fp32.mul rm r (f32 (th.get .fo)) (f32 t))
def actFma : Word → State → Act :=
  fRound (fun rm r th t => fp32.fma rm r (f32 (th.get .fo)) (f32 t) (f32 (th.get .fo2)))

/-- fmin and fmax deliver an operand unchanged (R86). -/
def fMinMax (isMax : Bool) (t : Word) (s : State) : Act :=
  let x := minMax isMax ((s.th.get .fo).setWidth 32) (t.setWidth 32)
  fDone s (x.code.setWidth 64) x.flags
def actFmin : Word → State → Act := fMinMax false
def actFmax : Word → State → Act := fMinMax true

def actFneg (t : Word) (s : State) : Act := fDone s ((t.setWidth 32 ^^^ 0x80000000#32).setWidth 64) 0

def fCompare (any : Bool) (f : FVal → FVal → Bool) (t : Word) (s : State) : Act :=
  let a := f32 (s.th.get .fo)
  let b := f32 t
  fDone s (bool64 (f a b)) (cmpFlags any a b)
def actFceq : Word → State → Act := fCompare false FVal.eq
def actFclt : Word → State → Act := fCompare true FVal.lt
def actFcle : Word → State → Act := fCompare true (fun a b => a.lt b || a.eq b)

/-- fdiv and fsqrt: 24 cycles whatever their operands (R85). -/
def fLong (f : Rm → Nat → Thread → Word → FRes) (l : BitVec 4) (t : Word) (s : State) : Act :=
  let (rm, r, s') := s.round1
  let x := f rm r s.th t
  .done (s'.openWin .f l { doneAt := s.cyc + 24, hasRes := true, r := x.code.setWidth 64, flags := x.flags })
def actFsqrt : BitVec 4 → Word → State → Act := fLong (fun rm r _ t => fp32.sqrt rm r (f32 t))
def actFdiv : BitVec 4 → Word → State → Act := fLong (fun rm r th t => fp32.div rm r (f32 (th.get .fo)) (f32 t))

/-- fcvt.i: a NaN delivers 0 and NV; the one call of Round takes its draw all the same (R67, R89). -/
def actFcvtI (t : Word) (s : State) : Act :=
  let (rm, r, s') := s.round1
  let x := toInt64 rm r (f32 t)
  fDone s' x.1 x.2
def actFcvtF : Word → State → Act :=
  fRound (fun rm r _ t => fp32.round rm r (decide (t.toInt < 0)) t.toInt.natAbs 0)
def actFcvtBf : Word → State → Act := fRound (fun rm r _ t => bf16.convert rm r (f32 t))
def actFcvtE4 : Word → State → Act := fRound (fun rm r _ t => e4m3.convert rm r (f32 t))
def actFcvtE5 : Word → State → Act := fRound (fun rm r _ t => e5m2.convert rm r (f32 t))

/-- The exact expansions (R90). -/
def fExpand (f : Fmt) (bits : Nat) (t : Word) (s : State) : Act :=
  let x := widen f (t.toNat % 2 ^ bits)
  fDone s (x.code.setWidth 64) x.flags
def actFexpBf : Word → State → Act := fExpand bf16 16
def actFexpE4 : Word → State → Act := fExpand e4m3 8
def actFexpE5 : Word → State → Act := fExpand e5m2 8

def actFclass (t : Word) (s : State) : Act := fDone s (fclassOf (t.setWidth 32)) 0

/-! ### The instructions -/

/-- FADD (R85). -/
def execFadd (g : Guard) (src : Src) (s : State) : Out := trigger .fadd 0 g src actFadd s
/-- FSUB (R85). -/
def execFsub (g : Guard) (src : Src) (s : State) : Out := trigger .fsub 0 g src actFsub s
/-- FMUL (R85). -/
def execFmul (g : Guard) (src : Src) (s : State) : Out := trigger .fmul 0 g src actFmul s
/-- FMA (R85). -/
def execFma (g : Guard) (src : Src) (s : State) : Out := trigger .fma 0 g src actFma s
/-- FMIN (R86). -/
def execFmin (g : Guard) (src : Src) (s : State) : Out := trigger .fmin 0 g src actFmin s
/-- FMAX (R86). -/
def execFmax (g : Guard) (src : Src) (s : State) : Out := trigger .fmax 0 g src actFmax s
/-- FNEG (R87). -/
def execFneg (g : Guard) (src : Src) (s : State) : Out := trigger .fneg 0 g src actFneg s
/-- FCEQ (R88). -/
def execFceq (g : Guard) (src : Src) (s : State) : Out := trigger .fceq 0 g src actFceq s
/-- FCLT (R88). -/
def execFclt (g : Guard) (src : Src) (s : State) : Out := trigger .fclt 0 g src actFclt s
/-- FCLE (R88). -/
def execFcle (g : Guard) (src : Src) (s : State) : Out := trigger .fcle 0 g src actFcle s
/-- FSQRT (R85). -/
def execFsqrt (g : Guard) (l : BitVec 4) (src : Src) (s : State) : Out := trigger .fsqrt l g src (actFsqrt l) s
/-- FDIV (R85). -/
def execFdiv (g : Guard) (l : BitVec 4) (src : Src) (s : State) : Out := trigger .fdiv l g src (actFdiv l) s
/-- FCVT_I (R89). -/
def execFcvtI (g : Guard) (src : Src) (s : State) : Out := trigger .fcvtI 0 g src actFcvtI s
/-- FCVT_F (R89). -/
def execFcvtF (g : Guard) (src : Src) (s : State) : Out := trigger .fcvtF 0 g src actFcvtF s
/-- FCVT_BF (R90). -/
def execFcvtBf (g : Guard) (src : Src) (s : State) : Out := trigger .fcvtBf 0 g src actFcvtBf s
/-- FCVT_E4 (R90). -/
def execFcvtE4 (g : Guard) (src : Src) (s : State) : Out := trigger .fcvtE4 0 g src actFcvtE4 s
/-- FCVT_E5 (R90). -/
def execFcvtE5 (g : Guard) (src : Src) (s : State) : Out := trigger .fcvtE5 0 g src actFcvtE5 s
/-- FEXP_BF (R90). -/
def execFexpBf (g : Guard) (src : Src) (s : State) : Out := trigger .fexpBf 0 g src actFexpBf s
/-- FEXP_E4 (R90). -/
def execFexpE4 (g : Guard) (src : Src) (s : State) : Out := trigger .fexpE4 0 g src actFexpE4 s
/-- FEXP_E5 (R90). -/
def execFexpE5 (g : Guard) (src : Src) (s : State) : Out := trigger .fexpE5 0 g src actFexpE5 s
/-- FCLASS (R91). -/
def execFclass (g : Guard) (src : Src) (s : State) : Out := trigger .fclass 0 g src actFclass s

end Sys2Proof.Machine
end

