-- ==== Sys2Proof/Machine/LoadStore.lean ====
section
/-! DEFINITION. L: loads, stores, atomics, waits on a word, fences and cache maintenance (R160 to R204). -/

namespace Sys2Proof.Machine

/-! ### The attribute word (R185 to R187) -/

/-- The fields of l.o. -/
structure Attr where
  scope : Nat
  order : Nat
  cls : Nat
  deriving DecidableEq, Repr

def attrOf (w : Word) : Attr := ⟨fld w 2 0, fld w 4 3, fld w 6 5⟩

/-- l.o is legal for an operation that allows the orderings of `orders` (R186). -/
def attrOk (w : Word) (orders : List Nat) : Bool :=
  let a := attrOf w
  fld w 63 8 == 0 && decide (a.scope ≤ 4) && decide (a.cls ≤ 2) && orders.contains a.order

/-- Orderings by operation (R186): 0 rlx, 1 acq, 2 rel, 3 ar. -/
def ordLoad : List Nat := [0, 1]
def ordStore : List Nat := [0, 2]
def ordAll : List Nat := [0, 1, 2, 3]

def Attr.acq (a : Attr) : Bool := a.order % 2 = 1
def Attr.rel (a : Attr) : Bool := 2 ≤ a.order

/-- The class an atomic travels in: class 0 is urgent, 1 (R187). -/
def amoClass (cls : Nat) : Nat := if cls = 0 then 1 else cls

/-! ### Places -/

/-- The unloaded least latency of an access (R22, R190). -/
def leastLatency (s : State) (l : Loc) : Nat :=
  match l.space with
  | .scr t => tileLatency s.th.key.tile t
  | .hbm | .hostCached | .stageRecord => 6
  | .peer => 6
  | .hostUncached => 1000

/-- The unloaded least latency of a store that is not posted: the level that performs it (R22, R190). -/
def storeLeast (l : Loc) : Nat :=
  match l.space with
  | .scr _ => 2
  | _ => 6

/-- The unloaded least latency of an atomic: the way to its home and the operation there (R22, R190). -/
def amoLeast (s : State) (l : Loc) : Nat :=
  match l.space with
  | .scr _ => leastLatency s l + 2
  | .hbm => 80
  | .hostCached => 62
  | _ => 8

/-- A store to the place is posted (R167). -/
def isPosted (s : State) (l : Loc) : Bool :=
  match l.space with
  | .scr t => t ≠ s.th.key.tile
  | .peer | .hostUncached => true
  | _ => false

/-- A store to the place passes through the write-combining buffer (R168). -/
def isCombined (l : Loc) : Bool :=
  match l.space with
  | .peer | .hostUncached => true
  | _ => false

/-- The place is read as the core last saw it: peer memory through the core's L1 (R178), and host memory, whose stores do
not reach every observer at once (R164). -/
def Loc.viewed (l : Loc) : Bool :=
  match l.space with
  | .peer | .hostCached | .hostUncached => true
  | _ => false

/-- The bytes of an access of `n` bytes that are performed together (R100, R180): sixteen in scratchpad and HBM, else at
most eight. -/
def Loc.grain (l : Loc) (n : Nat) : Nat :=
  match l.space with
  | .scr _ | .hbm => if n = 16 then 16 else 8
  | _ => 8

/-- The lines of a core's L1 data cache: 64 KiB on a stage core, 16 KiB on a streamer core (R17). -/
def viewMax (k : CoreKey) : Nat := if k.core < 4 then 1024 else 256

/-- A core's view of the line that holds a cell. -/
def State.view? (s : State) (k : CoreKey) (cell : Nat) : Option PeerLine :=
  s.peerLines.find? (fun p => p.core = k ∧ p.cell = cell / 64 * 64)

/-- Bytes stored by a core show in its view of their line (R178). -/
def State.show (s : State) (k : CoreKey) (cell : Nat) (bs : List Byte) : State :=
  { s with peerLines := s.peerLines.map (fun p =>
      if p.core = k ∧ p.cell = cell / 64 * 64 then
        { p with bytes := p.bytes.take (cell % 64) ++ bs ++ p.bytes.drop (cell % 64 + bs.length) }
      else p) }

/-- Bytes of one line of peer or host memory as the thread in focus reads them: from its core's view of the line, or
from memory, whose line the core then holds. Which of the two is a free value (log entry 8), but that the view of a line
with a sibling's store on its way stays, and no line is read behind such a store (R162). A load that acquires waits for
such a store to be performed, as what it synchronises with is (R174, R175); any other notes that it has read it. None where
it has to wait. -/
def State.viewBytes (s : State) (cell n : Nat) (acq : Bool := false) : Option (List Byte × State) :=
  let k := s.th.key.coreKey
  let posts := s.siblingPosts k s.th.key cell n
  let (x, s) := s.draw
  match s.view? k cell with
  | some p =>
    if posts then
      if acq then none
      else some ((p.bytes.drop (cell % 64)).take n, s.map (fun t => { t with saw := (cell / 64) :: t.saw.erase (cell / 64) }))
    else if x % 2 = 0 then some ((p.bytes.drop (cell % 64)).take n, s) else some (fetchLine s k)
  | none => if posts then none else some (fetchLine s k)
where
  /-- the line is read and kept as the core's view -/
  fetchLine (s : State) (k : CoreKey) : List Byte × State :=
    let base := cell / 64 * 64
    let s := s.evict k cell
    let mine := ⟨k, base, Mem.bytes s.mem base 64⟩ :: s.peerLines.filter (fun p => p.core = k)
    (Mem.bytes s.mem cell n, { s with peerLines := mine.take (viewMax k) ++ s.peerLines.filter (fun p => p.core ≠ k) })

/-- The checks that every L access makes before it acts: the attribute word, alignment, an acquire under way, the
translation, what the memory type admits, the other party's refusal, and the thread's own earlier accesses to the line
(R163, R171, R186, R191). -/
def access (orders : List Nat) (n : Nat) (need : Need) (op : Nat) (same : Option (Win × Nat)) (a : Word) (s : State)
    (k : Attr → Loc → Act) (seq : Bool := false) (admits : Loc → Bool := fun _ => true) : Act :=
  let at_ := attrOf (s.th.get .lo)
  if !attrOk (s.th.get .lo) orders then .illegal
  else if a.toNat % n ≠ 0 then .fault kAlignment a
  else if s.th.acquiring s.cyc then .wait (s.cyc + 1)
  else
    match translate s s.self a need with
    | .error e => .fault e a
    | .ok l =>
      if !admits l then .fault kPermission a
      else if s.denied l.cell op n ≠ 0 ∧ ¬(op = 1 ∧ isPosted s l) then .fault (s.denied l.cell op n) a
      else if s.lineBusy l.cell n (if op = 1 ∧ isPosted s l then same else none) seq then .wait (s.cyc + 1)
      else k at_ l

/-- The cycle in which an access completes, at least `least` cycles from now, and the one by which it is performed: a
free value up to its completion (R162 to R171, log entry 6). -/
def State.leave (s : State) (least : Nat) : Nat × Nat × State :=
  let (at1, s) := s.after least
  let (x, s) := s.draw
  (at1, min at1 (s.cyc + x), s)

/-! ### Loads (R194) -/

/-- The cycle of the trigger of an access; a sequence's words belong to its rep. -/
def State.sinceOf (s : State) (seq : Bool) : Nat := if seq then s.th.rep.since else s.cyc

/-- A load of `n` bytes at `va` leaves in unit `u`, or for a word of the thread's sequence. -/
def launchLoad (s : State) (u : Win) (seq : Bool) (n : Nat) (sext : Bool) (l : BitVec 4) (at_ : Attr) (va : Word) (loc : Loc) :
    State :=
  let (at1, due, s) := s.leave (leastLatency s loc)
  let at1 := if u = .v then s.th.flightDue none at1 else at1
  let a : Access :=
    { u, seq, load := true, cell := loc.cell, aes := loc.aes, viewed := loc.viewed, n, grain := loc.grain n, sext
      cls := amoClass at_.cls, acq := if at_.acq then some at_.scope else none, due, done := at1, since := s.sinceOf seq, va
      lo := s.th.get .lo, pc := s.at_ }
  let s := s.map (fun t => { t with mem := t.mem ++ [a] })
  if seq then s else s.openWin u l { known := false, doneAt := at1, hasRes := true, acq := at_.acq }

/-- A load of `n` bytes, sign-extended or not. -/
def loadAct (n : Nat) (sext : Bool) (l : BitVec 4) (a : Word) (s : State) : Act :=
  access ordLoad n .load 0 none a s fun at_ loc => .done (launchLoad s .l false n sext l at_ a loc)

/-- Sign- and zero-extension of loaded bytes. -/
def sextBytes (n : Nat) (bs : List Byte) : Word × Word := ((BitVec.ofNat (8 * n) (leNat bs)).signExtend 64, 0)
def zextBytes (bs : List Byte) : Word × Word := (BitVec.ofNat 64 (leNat bs), 0)
def pairBytes (bs : List Byte) : Word × Word := (dwordAt bs 0, dwordAt bs 8)

/-- What l.r and l.r2 receive from a load's bytes (R189, R194). -/
def Access.value (a : Access) : Word × Word :=
  if a.n = 16 then pairBytes a.bytes else if a.sext then sextBytes a.n a.bytes else zextBytes a.bytes

def actLd8 : BitVec 4 → Word → State → Act := loadAct 1 true
def actLd8u : BitVec 4 → Word → State → Act := loadAct 1 false
def actLd16 : BitVec 4 → Word → State → Act := loadAct 2 true
def actLd16u : BitVec 4 → Word → State → Act := loadAct 2 false
def actLd32 : BitVec 4 → Word → State → Act := loadAct 4 true
def actLd32u : BitVec 4 → Word → State → Act := loadAct 4 false
def actLd64 : BitVec 4 → Word → State → Act := loadAct 8 false
def actLd128 : BitVec 4 → Word → State → Act := loadAct 16 false

/-! ### Stores (R165, R167, R168, R194) -/

/-- The posted stores of a core in the write-combining buffer, as entries: a thread and a line (R168). -/
def wcbLines (s : State) : List (SlotKey × Nat) :=
  ((s.threads.filter (fun t => t.key.coreKey = s.th.key.coreKey)).flatMap (fun t =>
    (t.posted.filter Posted.wcb).map (fun p => (t.key, p.cell / 64)))).eraseDups

/-- An entry's stores leave the write-combining buffer; each is acknowledged after its target's latency (R168, R190). -/
def sendLine (s : State) (e : SlotKey × Nat) : State :=
  s.mapSlot e.1 (fun t => { t with posted := t.posted.map (fun p =>
    if p.wcb ∧ p.cell / 64 = e.2 then { p with wcb := false, due := s.cyc + p.lat } else p) })

/-- The bytes of a line that the thread's combined stores of a class cover. -/
def wcbCover (t : Thread) (line cls : Nat) : Nat :=
  (List.range 64).countP (fun o => t.posted.any (fun p =>
    p.wcb && p.cls == cls && decide (p.cell ≤ line * 64 + o ∧ line * 64 + o < p.cell + p.bytes.length)))

/-- Room in the write-combining buffer of 8 lines for the thread's entry of a line: an entry that has to leave is a free
choice (R168, log entry 8). -/
def wcbRoom (s : State) (line : Nat) : State :=
  let es := wcbLines s
  if 8 ≤ es.length ∧ ¬es.contains (s.th.key, line) then
    let (x, s) := s.draw
    match es[x % es.length]? with
    | some e => sendLine s e
    | none => s
  else s

/-- What the core sees of a posted store's line: it shows the store, or no longer holds the line where a sibling's store
to it is on its way (R162, R178). -/
def State.showPosted (s : State) (cell : Nat) (bs : List Byte) : State :=
  if s.siblingPosts s.th.key.coreKey s.th.key cell bs.length then s.evict s.th.key.coreKey cell
  else s.show s.th.key.coreKey cell bs

/-- A posted store sent by unit `u`: counted, and on its way or in the write-combining buffer (R167, R168). -/
def postStore (s : State) (u : Win) (at_ : Attr) (l : Loc) (va : Word) (bs : List Byte) (op : Nat) (seq : Bool := false) :
    State :=
  let line := l.cell / 64
  let s := if isCombined l then wcbRoom s line else s
  let (at1, s) := s.after (leastLatency s l)
  let first := (s.th.posted.find? (fun p => p.wcb && p.cell / 64 == line)).map Posted.due
  let p : Posted :=
    { cell := l.cell, bytes := bs, cls := at_.cls, va, key := l.aes, refuse := s.denied l.cell op bs.length
      due := if isCombined l then first.getD (s.cyc + 64) else at1
      scr := match l.space with
        | .scr _ => true
        | _ => false
      wcb := isCombined l, u, lat := at1 - s.cyc, since := s.sinceOf seq, grain := l.grain bs.length }
  let s := if l.viewed then s.showPosted l.cell bs else s
  let s := s.map (fun t => { t with unacked := t.unacked + 1, posted := t.posted ++ [p] })
  if isCombined l ∧ (wcbCover s.th line at_.cls = 64 ∨ (at_.rel ∧ 1 ≤ at_.scope)) then sendLine s (s.th.key, line) else s

/-- An earlier access of the thread comes before a store of class `cls` to the place (R165). Scratchpad: a store or
atomic of its class, but that a posted store takes its place behind other posted stores, unless those go to another
tile's scratchpad. HBM: any load, and a store of its class. Host memory: any load. -/
def State.storeBehind (s : State) (l : Loc) (cls : Nat) (seq : Bool := false) : Bool :=
  let tile := s.th.key.tile
  let same (c cell : Nat) : Bool := oneClass tile c cell cls l.cell
  let posted (far : Bool) : Bool :=
    s.th.posted.any (fun p => same p.cls p.cell && !(far && (!p.scr || (p.cell - 2 ^ 56) / 2 ^ 19 == (l.cell - 2 ^ 56) / 2 ^ 19)))
  let stores : Bool := s.th.mem.any (fun a => !a.load && same a.cls a.cell) || (!seq && s.th.seqHas true)
  match l.space with
  | .scr t => stores || posted (t != tile)
      || s.homeQ.any (fun a => a.key == s.th.key && same (amoClass (attrOf a.lo).cls) a.cell)
  | .hbm | .stageRecord => stores || posted false || s.loadsOut seq
  | .hostCached | .hostUncached => s.loadsOut seq
  | .peer => false

/-- A store to `va` that is not posted leaves in unit `u`, or for a word of the thread's sequence: it is performed at its
bank or line (R165, R194). -/
def launchStore (s : State) (u : Win) (seq : Bool) (bs : List Byte) (l : BitVec 4) (at_ : Attr) (va : Word) (loc : Loc) : State :=
  let (at1, due, s) := s.leave (storeLeast loc)
  let a : Access :=
    { u, seq, load := false, cell := loc.cell, aes := loc.aes, viewed := loc.viewed, n := bs.length
      grain := loc.grain bs.length, bytes := bs, cls := at_.cls, due, done := at1, since := s.sinceOf seq
      va, lo := s.th.get .lo, pc := s.at_ }
  let s := s.map (fun t => { t with mem := t.mem ++ [a] })
  if seq then s else s.openWin u l { known := false, doneAt := at1 }

/-- A store of bytes in unit `u` (L, or V for vst): posted, or on its way to its bank or line (R165, R170, R194). -/
def storeAct (u : Win) (n : Nat) (bs : List Byte) (l : BitVec 4) (a : Word) (s : State) (seq : Bool := false) : Act :=
  access ordStore n .store 1 (some (u, (attrOf (s.th.get .lo)).cls)) a s (fun at_ loc =>
    match if at_.rel then s.releaseWait at_.scope seq else none with
    | some w => w
    | none =>
      if s.storeBehind loc at_.cls seq ∨ s.behindSibling s.th loc.cell n then .wait (s.cyc + 1)
      else if isPosted s loc then
        if 255 ≤ s.th.unacked then .wait (s.cyc + 1)
        else
          let s := postStore s u at_ loc a bs 1 seq
          .done (if seq then s else s.openWin u l { doneAt := s.cyc + 1 })
      else .done (launchStore s u seq bs l at_ a loc)) seq

/-- The low `n` bytes of l.o2. -/
def lowBytes (n : Nat) (s : State) : List Byte := leBytes n (s.th.get .lo2).toNat

def actSt8 (l : BitVec 4) (a : Word) (s : State) : Act := storeAct .l 1 (lowBytes 1 s) l a s
def actSt16 (l : BitVec 4) (a : Word) (s : State) : Act := storeAct .l 2 (lowBytes 2 s) l a s
def actSt32 (l : BitVec 4) (a : Word) (s : State) : Act := storeAct .l 4 (lowBytes 4 s) l a s
def actSt64 (l : BitVec 4) (a : Word) (s : State) : Act := storeAct .l 8 (lowBytes 8 s) l a s
def actSt128 (l : BitVec 4) (a : Word) (s : State) : Act :=
  storeAct .l 16 (dwords [s.th.get .lo2, s.th.get .lo3]) l a s

/-! ### Atomics (R173, R195 to R198) -/

/-- The width in bytes of an atomic. -/
def amoBytes : Trig → Nat
  | .amoAddD | .amoAndD | .amoOrD | .amoXorD | .amoMinD | .amoMaxD | .amoMinuD | .amoMaxuD | .amoSwapD | .amoCasD => 8
  | .amoCasQ => 16
  | _ => 4

/-- What an atomic writes, from the old value, the operand and the second operand, all of `n` bytes; none where it
writes nothing (R196 to R198). Flags come from amo.fadd alone. -/
def amoResult (t : Trig) (n : Nat) (m v w : Nat) : Option Nat × Flags :=
  let top := 2 ^ (8 * n)
  let sgn (x : Nat) : Int := if x < top / 2 then x else (x : Int) - top
  match t with
  | .amoAddW | .amoAddD => (some ((m + v) % top), 0)
  | .amoAndW | .amoAndD => (some (m &&& v), 0)
  | .amoOrW | .amoOrD => (some (m ||| v), 0)
  | .amoXorW | .amoXorD => (some (m ^^^ v), 0)
  | .amoMinW | .amoMinD => (some (if sgn v < sgn m then v else m), 0)
  | .amoMaxW | .amoMaxD => (some (if sgn m < sgn v then v else m), 0)
  | .amoMinuW | .amoMinuD => (some (min m v), 0)
  | .amoMaxuW | .amoMaxuD => (some (max m v), 0)
  | .amoSwapW | .amoSwapD => (some v, 0)
  | .amoCasW | .amoCasD | .amoCasQ => (if m = v then some w else none, 0)
  | _ =>
    let r := fp32.add Rm.rne 0 (fp32.value m) (fp32.value v)
    (some r.code.toNat, r.flags)

/-- The memory types that admit an atomic (R173, R191). -/
def amoAdmits (t : Trig) (l : Loc) : Bool :=
  match l.space with
  | .scr _ | .hbm => true
  | .peer | .hostCached => t ≠ .amoCasQ
  | _ => false

/-- The operand, and the second operand or new value, captured at the trigger: for cas.q the compare pair is the last
visible L result (R196, R197). -/
def amoOperands (t : Trig) (th : Thread) : BitVec 128 × BitVec 128 :=
  let top (w : Word) : BitVec 128 := BitVec.ofNat 128 (w.toNat % 2 ^ (8 * amoBytes t))
  match t with
  | .amoCasQ => (th.get .lr2 ++ th.get .lr, th.get .lo3 ++ th.get .lo2)
  | _ => (top (th.get .lo2), top (th.get .lo3))

/-- An atomic leaves for its home, where ATOMIC_AT_HOME performs it (R173). -/
def amoAct (t : Trig) (l : BitVec 4) (a : Word) (s : State) : Act :=
  access ordAll (amoBytes t) .amo 2 none a s (fun at_ loc =>
    match if at_.rel then s.releaseWait at_.scope else none with
    | some w => w
    | none =>
      if s.storeBehind loc (amoClass at_.cls) ∨ (loc.viewed ∧ s.siblingPosts s.th.key.coreKey s.th.key loc.cell 16) then
        .wait (s.cyc + 1)
      else
        let (at1, s) := s.after (amoLeast s loc)
        let (v, w) := amoOperands t s.th
        let q : Amo := { key := s.th.key, amo := t, cell := loc.cell, aes := loc.aes, va := a, v, w, due := at1, pc := s.at_
                         lo := s.th.get .lo, since := s.cyc }
        let s := { s with homeQ := s.homeQ ++ [q] }
        .done (s.openWin .l l { known := false, doneAt := at1, hasRes := true, acq := at_.acq }))
    (admits := amoAdmits t)

/-! ### Accesses refused after they have left (R192, R308, R371) -/

/-- The trigger of a load or store. -/
def Access.trig (a : Access) : Nat :=
  if a.u = .v then VTrig.num (if a.load then .vld else .vst)
  else Trig.num (match a.load, a.n, a.sext with
    | true, 1, true => .ld8
    | true, 1, false => .ld8u
    | true, 2, true => .ld16
    | true, 2, false => .ld16u
    | true, 4, true => .ld32
    | true, 4, false => .ld32u
    | true, 16, _ => .ld128
    | true, _, _ => .ld64
    | false, 1, _ => .st8
    | false, 2, _ => .st16
    | false, 4, _ => .st32
    | false, 16, _ => .st128
    | false, _, _ => .st64)

/-- What the retry latch holds of a load or store. -/
def Access.latch (a : Access) (kind : Nat) : Retry :=
  { trig := a.trig, kind := kind, addr := a.va, lo := a.lo, lo2 := if a.load then 0 else dwordAt a.bytes 0
    lo3 := if a.load ∨ a.n ≠ 16 then 0 else dwordAt a.bytes 8, pc := a.pc
    data := if a.u = .v ∧ !a.load then some (vecAt a.bytes 0) else none }

/-- Bytes and sign extension of a load's trigger. -/
def loadShape (t : Trig) : Nat × Bool :=
  match t with
  | .ld8 => (1, true)
  | .ld8u => (1, false)
  | .ld16 => (2, true)
  | .ld16u => (2, false)
  | .ld32 => (4, true)
  | .ld32u => (4, false)
  | .ld128 => (16, false)
  | _ => (8, false)

/-- The bytes that a held store stores. -/
def Retry.stored (r : Retry) (t : Thread) : List Byte :=
  if r.trig = VTrig.num .vst then vecBytes (r.data.getD t.vo)
  else if r.trig = Trig.num .st128 then dwords [r.lo2, r.lo3]
  else leBytes (if r.trig = Trig.num .st8 then 1 else if r.trig = Trig.num .st16 then 2 else if r.trig = Trig.num .st32 then 4
    else 8) r.lo2.toNat

/-- A held access that had left before it was refused is performed again, as at its trigger, behind the window it opened,
whose count goes on from where it stood (R339). The thread is in focus. -/
def replayLate (s : State) (r : Retry) : State :=
  let isV := r.trig = VTrig.num .vld ∨ r.trig = VTrig.num .vst
  let u : Win := if isV then .v else .l
  let isLoad : Bool := r.trig == VTrig.num .vld || (decide (0x103 ≤ r.trig) && decide (r.trig ≤ Trig.num .ld128))
  let isStore : Bool := r.trig == VTrig.num .vst || (decide (Trig.num .st8 ≤ r.trig) && decide (r.trig ≤ Trig.num .st128))
  let at_ := attrOf r.lo
  let look := BitVec.ofNat 4 r.look
  let s := s.map (fun t => { t with hold := .none, latch := none, readyAt := s.cyc + 1 })
  let again (kind : Nat) : State :=
    lateHold (s.openWin u look { known := false }) u { r with kind := kind, ring := none }
      (if isStore then r.stored s.th else [])
  let named (a : Access) : Access := { a with lo := r.lo, pc := r.pc }
  let mine (s : State) : State := s.map (fun t => { t with mem := t.mem.dropLast ++ (t.mem.getLast?.map named).toList })
  match translate s s.self r.addr (if isLoad then .load else if isStore then .store else .amo) with
  | .error k => again k
  | .ok loc =>
    let op := if isLoad then 0 else if isStore then 1 else 2
    let n := if isV then 64 else 1
    if s.denied loc.cell op n ≠ 0 then again (s.denied loc.cell op n)
    else if isLoad then
      let (n, sext) := if isV then (64, false) else loadShape ((Trig.ofNum r.trig).getD .ld64)
      mine (launchLoad s u false n sext look at_ r.addr loc)
    else if isStore then mine (launchStore s u false (r.stored s.th) look at_ r.addr loc)
    else
      let t := (Trig.ofNum r.trig).getD .amoAddW
      let (at1, s) := s.after (amoLeast s loc)
      let q : BitVec 128 := r.lo3 ++ r.lo2
      let (v, w) : BitVec 128 × BitVec 128 :=
        if t = .amoCasQ then (s.th.get .lr2 ++ s.th.get .lr, q) else (r.lo2.setWidth 128, r.lo3.setWidth 128)
      let a : Amo := { key := s.th.key, amo := t, cell := loc.cell, aes := loc.aes, va := r.addr, v, w, due := at1, pc := r.pc
                       lo := r.lo, since := s.cyc }
      let s : State := { s with homeQ := s.homeQ ++ [a] }
      s.openWin .l look { known := false, doneAt := at1, hasRes := true, acq := at_.acq }

def actAmoAddW : BitVec 4 → Word → State → Act := amoAct .amoAddW
def actAmoAddD : BitVec 4 → Word → State → Act := amoAct .amoAddD
def actAmoAndW : BitVec 4 → Word → State → Act := amoAct .amoAndW
def actAmoAndD : BitVec 4 → Word → State → Act := amoAct .amoAndD
def actAmoOrW : BitVec 4 → Word → State → Act := amoAct .amoOrW
def actAmoOrD : BitVec 4 → Word → State → Act := amoAct .amoOrD
def actAmoXorW : BitVec 4 → Word → State → Act := amoAct .amoXorW
def actAmoXorD : BitVec 4 → Word → State → Act := amoAct .amoXorD
def actAmoMinW : BitVec 4 → Word → State → Act := amoAct .amoMinW
def actAmoMinD : BitVec 4 → Word → State → Act := amoAct .amoMinD
def actAmoMaxW : BitVec 4 → Word → State → Act := amoAct .amoMaxW
def actAmoMaxD : BitVec 4 → Word → State → Act := amoAct .amoMaxD
def actAmoMinuW : BitVec 4 → Word → State → Act := amoAct .amoMinuW
def actAmoMinuD : BitVec 4 → Word → State → Act := amoAct .amoMinuD
def actAmoMaxuW : BitVec 4 → Word → State → Act := amoAct .amoMaxuW
def actAmoMaxuD : BitVec 4 → Word → State → Act := amoAct .amoMaxuD
def actAmoSwapW : BitVec 4 → Word → State → Act := amoAct .amoSwapW
def actAmoSwapD : BitVec 4 → Word → State → Act := amoAct .amoSwapD
def actAmoCasW : BitVec 4 → Word → State → Act := amoAct .amoCasW
def actAmoCasD : BitVec 4 → Word → State → Act := amoAct .amoCasD
def actAmoCasQ : BitVec 4 → Word → State → Act := amoAct .amoCasQ
def actAmoFadd : BitVec 4 → Word → State → Act := amoAct .amoFadd

/-! ### Waiting on a word (R199 to R201) -/

/-- The condition of a wait (R199). -/
def waitDone (ge : Bool) (n : Nat) (x v : Nat) : Bool :=
  let v := v % 2 ^ (8 * n)
  if ge then decide ((x + 2 ^ (8 * n) - v) % 2 ^ (8 * n) < 2 ^ (8 * n - 1)) else x != v

/-- A wait returns (R199): it is performed, with the last value, the status, and the acquire of the read that ended it. -/
def waitReturn (s : State) (lo : Word) (x : Nat) (status : Nat) : State :=
  let s := s.performHeld.map (fun t => { (t.set .lr (BitVec.ofNat 64 x)).set .lr2 (BitVec.ofNat 64 status) with
    hold := .none, readyAt := s.cyc + 1 })
  if (attrOf lo).acq then s.acquire (attrOf lo).scope else s

/-- The thread in focus has read memory at a place itself: its core's older view of the line goes (R162). -/
def State.dropView (s : State) (l : Loc) : State := if l.viewed then s.evict s.th.key.coreKey l.cell else s

/-- A wait at its trigger: its first read ends it when it meets the condition; otherwise the thread holds. -/
def waitAct (n : Nat) (ge : Bool) (a : Word) (s : State) : Act :=
  if fld (s.th.get .lo3) 63 32 ≠ 0 ∧ a.toNat % n = 0 then .illegal
  else
    access ordLoad n .load 0 none a s fun _ loc =>
      let v := (s.th.get .lo2).toNat
      let x := leNat (s.readAs loc.aes loc.cell n)
      let tmo := fld (s.th.get .lo3) 31 0
      if loc.viewed ∧ s.siblingPosts s.th.key.coreKey s.th.key loc.cell n then .wait (s.cyc + 1)
      else if waitDone ge n x v then
        let (at1, s) := s.after (leastLatency s loc)
        .done ((waitReturn (s.dropView loc) (s.th.get .lo) x 0).map (fun t => { t with readyAt := at1 }))
      else
        .hold (.waddr a n ge (s.th.get .lo2) (s.th.get .lo) (if tmo = 0 then none else some (s.cyc + tmo)) (s.cyc + 2800))
          (fun s => s.map (fun t => { t with retr := 0 }))

def actWaddrW : Word → State → Act := waitAct 4 false
def actWaddrD : Word → State → Act := waitAct 8 false
def actWaddrGeW : Word → State → Act := waitAct 4 true
def actWaddrGeD : Word → State → Act := waitAct 8 true

/-! ### Fences (R172, R202) -/

/-- The remote-store-fault trap (R193): the first report's address and kind, and rfq. -/
def remoteStoreFault (t : Thread) : Act :=
  .trap 5 t.repKind.toNat (t.rfq.setWidth 32) (reportAddress t)
where
  /-- maddr receives an offer's target word in full: the compact form of R348 unpacked into the word of R292 -/
  reportAddress (t : Thread) : Word :=
    if t.repKind = 6 then
      let a : Word := t.repAddr.setWidth 64
      BitVec.ofNat 64 (fld a 10 0 + fld a 20 11 * 2 ^ 48 + fld a 21 21 * 2 ^ 63)
    else t.repAddr.setWidth 64

/-- What a fence still waits for (R172): the counter in every form; earlier loads but where it is rlx; earlier stores and
drains where it releases. -/
def State.fenceWait (s : State) (a : Attr) : Option Act :=
  if s.th.unacked ≠ 0 then some (.stall .drain)
  else if a.rel then s.releaseWait a.scope
  else if a.acq ∧ (s.loadsOut ∨ s.sawPending) then some (.wait (s.cyc + 1))
  else none

/-- A fence holds until the order is established (R172). -/
def actFence (_ : Word) (s : State) : Act :=
  let a := attrOf (s.th.get .lo)
  if !attrOk (s.th.get .lo) ordAll then .illegal
  else if a.scope = 0 then .done s
  else
    match s.fenceWait a with
    | some w => w
    | none =>
      if 3 ≤ a.scope ∧ s.th.rfq ≠ 0 ∧ s.th.mode = .user then remoteStoreFault s.th
      else .done (if a.acq then s.acquire a.scope else s)

/-! ### Cache maintenance (R181, R203, R204) -/

/-- Which operation: discard, clean, or clean and invalidate. -/
inductive Maint where
  | disc | clean | inval
  deriving DecidableEq, Repr

/-- A line discarded: it holds its value from before, or a value stored to it earlier; which one is free (R181). The value
from before stays one that a later discard may bring back. -/
def discardLine (s : State) (line : Nat) : State :=
  let (x, s) := s.draw
  let old := (s.hist.filter (fun p => p.1 = line)).map Prod.snd
  match old[x - 1]? with
  | some bs =>
    if x = 0 then s
    else { s with mem := Mem.write s.mem (line * 64) bs, hist := (line, Mem.bytes s.mem (line * 64) 64) :: s.hist }
  | none => s

/-- No core holds its view of a cell's line any longer. -/
def State.evictAll (s : State) (cell : Nat) : State :=
  { s with peerLines := s.peerLines.filter (fun p => p.cell ≠ cell / 64 * 64) }

/-- The lines of one page of the range, from cell `c` on. -/
def maintLines (op : Maint) (l : Loc) : Nat → Nat → State → State
  | 0, _, s => s
  | k + 1, c, s =>
    let s := match op, l.space with
      | .disc, .hbm => discardLine s (c / 64)
      | .disc, .hostCached => (discardLine s (c / 64)).evictAll c
      | .inval, .hostCached => s.evictAll c
      | .disc, .peer | .inval, .peer => s.evict s.th.key.coreKey c
      | _, _ => s
    let s := if op = .clean then s else { s with l2 := s.l2.filter (fun y => y.2.2 ≠ c / 64) }
    maintLines op l k (c + 64) s

/-- The rights that an operation needs of a page (R191). -/
def Maint.need (op : Maint) : Need := if op = .clean then .load else .store

/-- The first fault of a page of the range: translation's, or that of the home or the host (R192). -/
def maintFault (op : Maint) (s : State) (a : Word) (len : Nat) : Except Nat Loc :=
  match translate s s.self a op.need with
  | .error e => .error e
  | .ok l =>
    match l.space with
    | .hbm | .hostCached =>
      let e := s.denied l.cell (if op = .clean then 0 else 1) len
      if e ≠ 0 then .error e else .ok l
    | _ => .ok l

/-- The pages of a range in address order; a fault stops with the pages before it handled (R192, R203). The state
given back with a fault is that of the handled lines. -/
def maintPages (op : Maint) : Nat → Word → Nat → State → State × Option (Nat × Word)
  | 0, _, _, s => (s, none)
  | k + 1, a, n, s =>
    if n = 0 then (s, none)
    else
      let len := min n (4096 - a.toNat % 4096)
      match maintFault op s a len with
      | .error e => (s, some (e, a))
      | .ok l => maintPages op k (a + BitVec.ofNat 64 len) (n - len) (maintLines op l (len / 64) l.cell s)

/-- An earlier access of the thread to the range is still to be performed (R163, R186). -/
def maintBusy (op : Maint) (s : State) : Nat → Word → Nat → Bool
  | 0, _, _ => false
  | k + 1, a, n =>
    if n = 0 then false
    else
      let len := min n (4096 - a.toNat % 4096)
      (match translate s s.self a op.need with
        | .ok l => s.lineBusy l.cell len none
        | .error _ => false) || maintBusy op s k (a + BitVec.ofNat 64 len) (n - len)

/-- Cache maintenance (R203). A replay after a fault handles the lines before the faulting page again, to no effect. -/
def maintAct (op : Maint) (l : BitVec 4) (a : Word) (s : State) : Act :=
  let at_ := attrOf (s.th.get .lo)
  let len := s.th.get .lo2
  if !attrOk (s.th.get .lo) ordStore then .illegal
  else if fld len 63 32 ≠ 0 then .illegal
  else if a.toNat % 64 ≠ 0 ∨ len.toNat % 64 ≠ 0 then .fault kAlignment a
  else if s.th.acquiring s.cyc ∨ maintBusy op s (len.toNat / 4096 + 2) a len.toNat then .wait (s.cyc + 1)
  else
    match if at_.rel then s.releaseWait at_.scope else none with
    | some w => w
    | none =>
      match maintPages op (len.toNat / 4096 + 2) a len.toNat s with
      | (s', some (e, b)) => .faultAfter s' e b
      | (s, none) =>
        let (at1, s) := s.after 1
        .done (s.openWin .l l { doneAt := at1 })

def actDdisc : BitVec 4 → Word → State → Act := maintAct .disc
def actDclean : BitVec 4 → Word → State → Act := maintAct .clean
def actDinval : BitVec 4 → Word → State → Act := maintAct .inval

/-! ### The instructions -/

/-- LD8 (R194). -/
def execLd8 (g : Guard) (l : BitVec 4) (src : Src) (s : State) : Out := trigger .ld8 l g src (actLd8 l) s
/-- LD8U (R194). -/
def execLd8u (g : Guard) (l : BitVec 4) (src : Src) (s : State) : Out := trigger .ld8u l g src (actLd8u l) s
/-- LD16 (R194). -/
def execLd16 (g : Guard) (l : BitVec 4) (src : Src) (s : State) : Out := trigger .ld16 l g src (actLd16 l) s
/-- LD16U (R194). -/
def execLd16u (g : Guard) (l : BitVec 4) (src : Src) (s : State) : Out := trigger .ld16u l g src (actLd16u l) s
/-- LD32 (R194). -/
def execLd32 (g : Guard) (l : BitVec 4) (src : Src) (s : State) : Out := trigger .ld32 l g src (actLd32 l) s
/-- LD32U (R194). -/
def execLd32u (g : Guard) (l : BitVec 4) (src : Src) (s : State) : Out := trigger .ld32u l g src (actLd32u l) s
/-- LD64 (R194). -/
def execLd64 (g : Guard) (l : BitVec 4) (src : Src) (s : State) : Out := trigger .ld64 l g src (actLd64 l) s
/-- LD128 (R194). -/
def execLd128 (g : Guard) (l : BitVec 4) (src : Src) (s : State) : Out := trigger .ld128 l g src (actLd128 l) s
/-- ST8 (R194). -/
def execSt8 (g : Guard) (l : BitVec 4) (src : Src) (s : State) : Out := trigger .st8 l g src (actSt8 l) s
/-- ST16 (R194). -/
def execSt16 (g : Guard) (l : BitVec 4) (src : Src) (s : State) : Out := trigger .st16 l g src (actSt16 l) s
/-- ST32 (R194). -/
def execSt32 (g : Guard) (l : BitVec 4) (src : Src) (s : State) : Out := trigger .st32 l g src (actSt32 l) s
/-- ST64 (R194). -/
def execSt64 (g : Guard) (l : BitVec 4) (src : Src) (s : State) : Out := trigger .st64 l g src (actSt64 l) s
/-- ST128 (R194). -/
def execSt128 (g : Guard) (l : BitVec 4) (src : Src) (s : State) : Out := trigger .st128 l g src (actSt128 l) s
/-- AMO_ADD_W (R196). -/
def execAmoAddW (g : Guard) (l : BitVec 4) (src : Src) (s : State) : Out := trigger .amoAddW l g src (actAmoAddW l) s
/-- AMO_ADD_D (R196). -/
def execAmoAddD (g : Guard) (l : BitVec 4) (src : Src) (s : State) : Out := trigger .amoAddD l g src (actAmoAddD l) s
/-- AMO_AND_W (R196). -/
def execAmoAndW (g : Guard) (l : BitVec 4) (src : Src) (s : State) : Out := trigger .amoAndW l g src (actAmoAndW l) s
/-- AMO_AND_D (R196). -/
def execAmoAndD (g : Guard) (l : BitVec 4) (src : Src) (s : State) : Out := trigger .amoAndD l g src (actAmoAndD l) s
/-- AMO_OR_W (R196). -/
def execAmoOrW (g : Guard) (l : BitVec 4) (src : Src) (s : State) : Out := trigger .amoOrW l g src (actAmoOrW l) s
/-- AMO_OR_D (R196). -/
def execAmoOrD (g : Guard) (l : BitVec 4) (src : Src) (s : State) : Out := trigger .amoOrD l g src (actAmoOrD l) s
/-- AMO_XOR_W (R196). -/
def execAmoXorW (g : Guard) (l : BitVec 4) (src : Src) (s : State) : Out := trigger .amoXorW l g src (actAmoXorW l) s
/-- AMO_XOR_D (R196). -/
def execAmoXorD (g : Guard) (l : BitVec 4) (src : Src) (s : State) : Out := trigger .amoXorD l g src (actAmoXorD l) s
/-- AMO_MIN_W (R196). -/
def execAmoMinW (g : Guard) (l : BitVec 4) (src : Src) (s : State) : Out := trigger .amoMinW l g src (actAmoMinW l) s
/-- AMO_MIN_D (R196). -/
def execAmoMinD (g : Guard) (l : BitVec 4) (src : Src) (s : State) : Out := trigger .amoMinD l g src (actAmoMinD l) s
/-- AMO_MAX_W (R196). -/
def execAmoMaxW (g : Guard) (l : BitVec 4) (src : Src) (s : State) : Out := trigger .amoMaxW l g src (actAmoMaxW l) s
/-- AMO_MAX_D (R196). -/
def execAmoMaxD (g : Guard) (l : BitVec 4) (src : Src) (s : State) : Out := trigger .amoMaxD l g src (actAmoMaxD l) s
/-- AMO_MINU_W (R196). -/
def execAmoMinuW (g : Guard) (l : BitVec 4) (src : Src) (s : State) : Out := trigger .amoMinuW l g src (actAmoMinuW l) s
/-- AMO_MINU_D (R196). -/
def execAmoMinuD (g : Guard) (l : BitVec 4) (src : Src) (s : State) : Out := trigger .amoMinuD l g src (actAmoMinuD l) s
/-- AMO_MAXU_W (R196). -/
def execAmoMaxuW (g : Guard) (l : BitVec 4) (src : Src) (s : State) : Out := trigger .amoMaxuW l g src (actAmoMaxuW l) s
/-- AMO_MAXU_D (R196). -/
def execAmoMaxuD (g : Guard) (l : BitVec 4) (src : Src) (s : State) : Out := trigger .amoMaxuD l g src (actAmoMaxuD l) s
/-- AMO_SWAP_W (R196). -/
def execAmoSwapW (g : Guard) (l : BitVec 4) (src : Src) (s : State) : Out := trigger .amoSwapW l g src (actAmoSwapW l) s
/-- AMO_SWAP_D (R196). -/
def execAmoSwapD (g : Guard) (l : BitVec 4) (src : Src) (s : State) : Out := trigger .amoSwapD l g src (actAmoSwapD l) s
/-- AMO_CAS_W (R196). -/
def execAmoCasW (g : Guard) (l : BitVec 4) (src : Src) (s : State) : Out := trigger .amoCasW l g src (actAmoCasW l) s
/-- AMO_CAS_D (R196). -/
def execAmoCasD (g : Guard) (l : BitVec 4) (src : Src) (s : State) : Out := trigger .amoCasD l g src (actAmoCasD l) s
/-- AMO_CAS_Q (R197). -/
def execAmoCasQ (g : Guard) (l : BitVec 4) (src : Src) (s : State) : Out := trigger .amoCasQ l g src (actAmoCasQ l) s
/-- AMO_FADD (R198). -/
def execAmoFadd (g : Guard) (l : BitVec 4) (src : Src) (s : State) : Out := trigger .amoFadd l g src (actAmoFadd l) s
/-- WADDR_W (R199). -/
def execWaddrW (g : Guard) (src : Src) (s : State) : Out := trigger .waddrW 0 g src actWaddrW s
/-- WADDR_D (R199). -/
def execWaddrD (g : Guard) (src : Src) (s : State) : Out := trigger .waddrD 0 g src actWaddrD s
/-- WADDR_GE_W (R199). -/
def execWaddrGeW (g : Guard) (src : Src) (s : State) : Out := trigger .waddrGeW 0 g src actWaddrGeW s
/-- WADDR_GE_D (R199). -/
def execWaddrGeD (g : Guard) (src : Src) (s : State) : Out := trigger .waddrGeD 0 g src actWaddrGeD s
/-- FENCE (R172). -/
def execFence (g : Guard) (src : Src) (s : State) : Out := trigger .fence 0 g src actFence s
/-- DDISC (R203). -/
def execDdisc (g : Guard) (l : BitVec 4) (src : Src) (s : State) : Out := trigger .ddisc l g src (actDdisc l) s
/-- DCLEAN (R203). -/
def execDclean (g : Guard) (l : BitVec 4) (src : Src) (s : State) : Out := trigger .dclean l g src (actDclean l) s
/-- DINVAL (R203). -/
def execDinval (g : Guard) (l : BitVec 4) (src : Src) (s : State) : Out := trigger .dinval l g src (actDinval l) s

end Sys2Proof.Machine
end

