-- ==== Sys2Proof/Machine/Integrator.lean ====
section
/-! DEFINITION. D: the integrator array of a stage core (R134 to R159). -/

namespace Sys2Proof.Machine

/-! ### The array of a core -/

def State.array (s : State) (c : CoreKey) : DArray := ((s.arrays.find? (fun x => x.1 = c)).map Prod.snd).getD {}
def State.setArray (s : State) (c : CoreKey) (a : DArray) : State :=
  { s with arrays := (c, a) :: s.arrays.filter (fun x => x.1 ≠ c) }

def DArray.cell (a : DArray) (n : Nat) : DCell := (assoc a.cells n).getD {}
def DArray.setCell (a : DArray) (n : Nat) (c : DCell) : DArray :=
  { a with cells := (n, c) :: a.cells.filter (fun x => x.1 ≠ n) }
def DArray.dom (a : DArray) (d : Nat) : DDomain := a.doms.toList.getD d {}
def DArray.mapDoms (a : DArray) (f : Nat → DDomain → DDomain) : DArray :=
  { a with doms := Vector.ofFn (fun i => f i.val a.doms[i]) }

/-! ### Patch entries (R137, R142) -/

def DCell.en (c : DCell) : Bool := c.d0.getLsbD 13
def DCell.dom (c : DCell) : Nat := fld c.d0 12 10
/-- The four source codes of a cell. -/
def DCell.codes (c : DCell) : List Nat := [fld c.d0 8 0, fld c.d1 8 0, fld c.d1 24 16, fld c.d1 40 32]

/-- A source code that is not reserved (R136). -/
def codeOk (x : Nat) : Bool := decide (x ≤ 0x100) || x == 0x1FE || x == 0x1FF

/-- A valid entry for an index (R137, R142). -/
def entryOk (ix : Nat) (d0 d1 : Word) : Bool :=
  if ix < 0x100 then
    fld d0 63 14 == 0 && fld d1 63 48 == 0 && !d1.getLsbD 41 && !d1.getLsbD 25 && !d1.getLsbD 9
      && ({ d0, d1 : DCell }).codes.all codeOk
  else if ix = 0x100 then fld d0 63 12 == 0 && d1 == 0
  else fld d0 63 12 == 0 && fld d0 7 3 == 0 && d1 == 0

/-- The bridge's fields (R142). -/
def bridgeOn (w : Word) : Bool := w.getLsbD 11
def bridgeQ (w : Word) : Nat := fld w 10 8

/-! ### A tick (R135, R136, R140 to R144) -/

/-- The value of a source code to a cell of domain `d`, the bridge source giving `inc`. -/
def sourceValue (a : DArray) (d : Nat) (inc : Int) (x : Nat) : Int :=
  if x < 0x100 then
    let m := a.cell x
    if m.dom = d then (if m.en then m.z else 0)
    else if m.full.getLsbD d then (if m.neg.getLsbD d then -1 else 1) else 0
  else if x = 0x100 then inc
  else if x = 0x1FE then 1
  else 0

/-- A step of a cell before it is committed. -/
structure Stepped where
  n : Nat
  cell : DCell
  q : BitVec 32
  z : Int
  y : Int

/-- A weighted increment. -/
def negIf (b : Bool) (v : Int) : Int := if b then -v else v

/-- A step computed in exact integers (R135). -/
def stepCell (a : DArray) (inc : Int) (n : Nat) (c : DCell) : Stepped :=
  let v (x : Nat) : Int := sourceValue a c.dom inc x
  let dx := negIf (c.d0.getLsbD 9) (v (fld c.d0 8 0))
  let s := c.q.toInt + dx * c.y.toInt
  let z : Int := if 2 ^ 31 ≤ s then 1 else if s < -(2 ^ 31) then -1 else 0
  let y := c.y.toInt
    + negIf (c.d1.getLsbD 15) (v (fld c.d1 8 0)) * 2 ^ fld c.d1 14 10
    + negIf (c.d1.getLsbD 31) (v (fld c.d1 24 16)) * 2 ^ fld c.d1 30 26
    + negIf (c.d1.getLsbD 47) (v (fld c.d1 40 32)) * 2 ^ fld c.d1 46 42
  { n, cell := c, q := BitVec.ofInt 32 (s - z * 2 ^ 32), z, y }

def Stepped.overflows (x : Stepped) : Bool := decide (x.y < -(2 ^ 31) ∨ 2 ^ 31 ≤ x.y)

/-- The domains whose latches from a stepped cell it would overrun, lowest first (R140). -/
def Stepped.overruns (x : Stepped) (ticking : Nat → Bool) : List Nat :=
  if x.z = 0 then []
  else (List.range 8).filter (fun e => e != x.cell.dom && x.cell.full.getLsbD e && !ticking e)

/-- The cell of the lowest number among some. -/
def lowest (l : List Stepped) : Option Stepped :=
  l.foldl (fun b x => match b with
    | none => some x
    | some y => if x.n < y.n then some x else b) none

/-- An enabled cell of domain `e` names cell `x`. -/
def named (a : DArray) (e x : Nat) : Bool :=
  a.cells.any (fun p => p.2.en && p.2.dom == e && p.2.codes.contains x)

/-- The channel behind an owner's port, in a role. -/
def ownerChan (s : State) (a : DArray) (q : Nat) (prod : Bool) : Option (Port × Chan) :=
  match a.owner with
  | none => none
  | some k =>
    if (s.thread? k).isNone then
      -- a binding is kept while its thread is saved (R248)
      (s.chans.find? (fun c => if prod then c.prod == some ⟨k, q⟩ else c.cons.any (fun x => x.1 == ⟨k, q⟩))).map
        (fun c => (⟨k, q⟩, c))
    else
    match (s.thread? k).bind (fun t => t.bind.toList[q]?) with
    | some b => if b.bound ∧ b.prod = prod then (s.chan? b.chan).map (fun c => (⟨k, q⟩, c)) else none
    | none => none

/-- The element at the head of the bridge source's port at a tick of its domain (R144). -/
def sourceHead (s : State) (a : DArray) : Option (Port × Chan × Elem) :=
  match ownerChan s a (bridgeQ a.src) false with
  | none => none
  | some (p, c) =>
    match c.head? p with
    | some e => if e.ready ≤ s.cyc then some (p, c, e) else none
    | none => none

/-- The increment of an element (R144). -/
def elemIncrement (e : Elem) : Int :=
  if e.tag then 0 else if e.word.toInt = 0 then 0 else if 0 < e.word.toInt then 1 else -1

/-- A fault's cause, cell and domain (R145). -/
def tickFault (s : State) (a : DArray) (steps : List Stepped) (ticking : Nat → Bool) : Option (Nat × Nat × Nat) :=
  match lowest (steps.filter Stepped.overflows) with
  | some x => some (1, x.n, x.cell.dom)
  | none =>
    match lowest (steps.filter (fun x => !(x.overruns ticking).isEmpty)) with
    | some x => some (2, x.n, (x.overruns ticking).headD 0)
    | none =>
      if !bridgeOn a.sink then none
      else
        match steps.find? (fun x => x.n = fld a.sink 7 0 ∧ x.z ≠ 0) with
        | none => none
        | some x =>
          match ownerChan s a (bridgeQ a.sink) true with
          | some (_, c) => if c.st ≠ 1 ∧ c.hasRoom 1 s.cyc then none else some (3, x.n, x.cell.dom)
          | none => some (3, x.n, x.cell.dom)

/-- The array frozen by a fault at cycle `now` (R145, R146). -/
def freeze (a : DArray) (now : Nat) (ticking : Nat → Bool) (f : Nat × Nat × Nat) : DArray :=
  let (cause, cell, dom) := f
  let frozen := (List.range 8).foldl (fun n d => if (a.dom d).run then n + 2 ^ d else n) 0
  let w : Word := (a.status &&& 0xF000000000) |||
    BitVec.ofNat 64 (frozen * 2 ^ 28 + dom * 2 ^ 25 + cell * 2 ^ 16 + cause)
  let a := a.mapDoms (fun d x => if x.run then
    { x with run := false, next := if ticking d then 1 else x.tick - now } else x)
  { a with status := w, due := some w }

/-- The cells after a committed tick: stepped, latches read and emptied, then filled (R140). -/
def commitCells (a : DArray) (steps : List Stepped) (ticking : Nat → Bool) : DArray :=
  let keep : BitVec 8 := (List.range 8).foldl (fun m d => if ticking d then m else m ||| (1#8 <<< d)) 0
  let empty := { a with cells := a.cells.map (fun (n, c) => (n, { c with full := c.full &&& keep, neg := c.neg &&& keep })) }
  steps.foldl (fun b x =>
    let c := b.cell x.n
    let fill : BitVec 8 := if x.z = 0 then 0
      else (List.range 8).foldl (fun m e => if e ≠ c.dom ∧ named a e x.n then m ||| (1#8 <<< e) else m) 0
    b.setCell x.n { c with
      y := BitVec.ofInt 32 x.y, q := x.q, z := x.z
      full := c.full ||| fill
      neg := if x.z = -1 then c.neg ||| fill else c.neg &&& ~~~fill }) empty

/-- One tick of a core's array: every running domain with a tick in this cycle (R140). -/
def tickArray (s : State) (k : CoreKey) : State :=
  let a := s.array k
  let ticking (d : Nat) : Bool := (a.dom d).run && decide ((a.dom d).tick ≤ s.cyc)
  let srcOn := bridgeOn a.src && ticking (fld a.src 2 0)
  let head := if srcOn then sourceHead s a else none
  let inc : Int := match head with
    | some (_, _, e) => elemIncrement e
    | none => 0
  let live := a.cells.filter (fun p => p.2.en && ticking p.2.dom)
  let steps := live.map (fun p => stepCell a inc p.1 p.2)
  match tickFault s a steps ticking with
  | some f => s.setArray k (freeze a s.cyc ticking f)
  | none =>
    let b := (commitCells a steps ticking).mapDoms (fun d x => if ticking d then
      { x with steps := x.steps + 1, tick := x.tick + x.period } else x)
    let (s, b) : State × DArray := match head with
      | some (p, c, e) =>
        (s.dequeueAt p c.id, if e.tag then
          { b with src := b.src &&& ~~~0x800, status := (b.status &&& ~~~0xF000000000) |||
              BitVec.ofNat 64 (2 ^ 36 + fld e.word 2 0 * 2 ^ 37) } else b)
      | none => (s, b)
    let out := if bridgeOn a.sink then steps.find? (fun x => x.n = fld a.sink 7 0 ∧ x.z ≠ 0) else none
    match out with
    | none => s.setArray k b
    | some x =>
      match ownerChan s a (bridgeQ a.sink) true with
      | some (_, c) => (s.setArray k { b with sunk := some s.cyc }).enqueueAt c.id (BitVec.ofInt 64 x.z) false false
      | none => s.setArray k b

/-- A tick of the array is due in this cycle. -/
def tickDue (s : State) (a : DArray) : Bool := a.doms.toList.any (fun d => d.run && decide (d.tick ≤ s.cyc))

/-- Every running domain of a mask halts (R155). -/
def haltDomains (a : DArray) (mask now : Nat) : DArray :=
  a.mapDoms (fun d x => if x.run ∧ mask.testBit d then { x with run := false, next := x.tick - now } else x)

/-- The owner retires: every domain halts and the owner is cleared (R148). -/
def releaseArray (s : State) (k : SlotKey) : State :=
  if (s.array k.coreKey).owner = some k then
    s.setArray k.coreKey { haltDomains (s.array k.coreKey) 0xFF s.cyc with owner := none, due := none }
  else s

/-! ### Using the array (R148, R149) -/

/-- A D trigger by a thread that may use the array: a stage thread, its owner or while it has none. -/
def dWith (s : State) (f : DArray → Act) : Act :=
  let a := s.array s.th.key.coreKey
  if recIsStageOf s ∧ (a.owner = none ∨ a.owner = some s.th.key) then f a else .illegal
where
  /-- bit 43 of the record's control dword (R216) -/
  recIsStageOf (s : State) : Bool :=
    match readDword s ⟨s.th.ctx, true, none, true⟩ (s.th.record + 0x10) with
    | .ok w => w.getLsbD 43
    | .error _ => false

/-- The array written by the thread in focus, which becomes or stays its owner. -/
def State.putArray (s : State) (a : DArray) : State :=
  s.setArray s.th.key.coreKey { a with owner := some s.th.key }

/-- The array of the thread in focus has lost words: what consumes them takes a data error (R370, log entry 14). -/
def State.arrayLost (s : State) : Bool := s.lost.contains (.array s.th.key.coreKey)

/-- No domain runs. -/
def DArray.still (a : DArray) : Bool := a.doms.toList.all (fun d => !d.run)

/-- A cell's entry set: its latches stay, but for those into its new own domain, which are emptied (R150). -/
def DArray.patchCell (a : DArray) (ix : Nat) (d0 d1 : Word) : DArray :=
  let c := a.cell ix
  let own : BitVec 8 := 1#8 <<< fld d0 12 10
  a.setCell ix { c with d0, d1, full := c.full &&& ~~~own, neg := c.neg &&& ~~~own }

def actDpatch (t : Word) (s : State) : Act :=
  dWith s fun a =>
    let ix := fld t 8 0
    let d0 := s.th.get .dO
    let d1 := s.th.get .dO2
    if fld t 63 9 ≠ 0 ∨ 0x101 < ix ∨ !entryOk ix d0 d1 ∨ !a.still then .illegal
    else if ix = 0x100 then .done (s.putArray { a with sink := d0 })
    else if ix = 0x101 then .done (s.putArray { a with src := d0 })
    else .done (s.putArray (a.patchCell ix d0 d1))

/-- dsety and dsetr (R151). -/
def setCellAct (res : Bool) (t : Word) (s : State) : Act :=
  dWith s fun a =>
    if fld t 63 8 ≠ 0 ∨ !a.still then .illegal
    else
      let c := a.cell t.toNat
      let v : BitVec 32 := (s.th.get .dO).setWidth 32
      .done (s.putArray (a.setCell t.toNat (if res then { c with q := v } else { c with y := v })))

def actDsety : Word → State → Act := setCellAct false
def actDsetr : Word → State → Act := setCellAct true

/-- dgety and dgetr (R152). -/
def getCellAct (res : Bool) (l : BitVec 4) (t : Word) (s : State) : Act :=
  dWith s fun a =>
    if fld t 63 8 ≠ 0 then .illegal
    else if s.arrayLost then .fault kData 0
    else
      let c := a.cell t.toNat
      .done ((s.putArray a).openWin .d l
        { doneAt := s.cyc + 4, hasRes := true, r := (if res then c.q else c.y).signExtend 64 })

def actDgety : BitVec 4 → Word → State → Act := getCellAct false
def actDgetr : BitVec 4 → Word → State → Act := getCellAct true

def actDclk (t : Word) (s : State) : Act :=
  dWith s fun a =>
    let d := fld t 18 16
    if fld t 63 19 ≠ 0 ∨ fld t 15 0 = 0 ∨ (a.dom d).run then .illegal
    else .done (s.putArray (a.mapDoms (fun i x => if i = d then { x with period := fld t 15 0, next := 0 } else x)))

/-- The enabled cells of a domain. -/
def DArray.load (a : DArray) (d : Nat) : Nat := a.cells.countP (fun p => p.2.en && p.2.dom == d)

/-- R139's conditions for the domains of a mask with those running, evaluated exactly. -/
def loadOk (a : DArray) (mask : Nat) : Bool :=
  let on := (List.range 8).filter (fun d => mask.testBit d || (a.dom d).run)
  let all := on.foldl (fun n d => n * (a.dom d).period) 1
  on.all (fun d => (a.dom d).period != 0 && decide ((a.load d + 63) / 64 ≤ (a.dom d).period))
    && decide ((on.map (fun d => a.load d * (all / (a.dom d).period))).sum ≤ 64 * all)

/-- The first queue port of an active bridge that the thread has not bound in its role (R154). -/
def bridgeUnbound (s : State) (a : DArray) : Option Nat :=
  let bad (w : Word) (prod : Bool) : Bool :=
    bridgeOn w && !(match s.th.bind.toList[bridgeQ w]? with
      | some b => b.bound && b.prod == prod
      | none => false)
  if bad a.sink true then some (bridgeQ a.sink) else if bad a.src false then some (bridgeQ a.src) else none

def actDrun (t : Word) (s : State) : Act :=
  dWith s fun a =>
    if fld t 63 8 ≠ 0 ∨ fld a.status 3 0 ≠ 0 ∨ !loadOk a t.toNat then .illegal
    else if s.arrayLost then .fault kData 0
    else
      match bridgeUnbound s a with
      | some q => .queueError q
      | none =>
        if a.cells.any (fun p => p.2.en && p.2.codes.contains 0x100 && p.2.dom != fld a.src 2 0) then .illegal
        else .done (s.putArray (a.mapDoms (fun d x => if t.toNat.testBit d ∧ !x.run then
          { x with run := true, tick := s.cyc + (if x.next = 0 then x.period else x.next) } else x)))

def actDhalt (t : Word) (s : State) : Act :=
  dWith s fun a => if fld t 63 8 ≠ 0 then .illegal else .done (s.putArray (haltDomains a t.toNat s.cyc))

/-- A domain word as dstat reads it in a cycle (R138). -/
def DDomain.word (x : DDomain) (now : Nat) : Word :=
  BitVec.ofNat 64 (x.steps.toNat * 2 ^ 40 + (if x.run then x.tick - now else x.next) % 2 ^ 16 * 2 ^ 24
    + (if x.run then 2 ^ 16 else 0) + x.period % 2 ^ 16)

def actDstat (t : Word) (s : State) : Act :=
  dWith s fun a =>
    let sel := fld t 3 0
    if fld t 63 5 ≠ 0 ∨ 8 < sel ∨ (t.getLsbD 4 ∧ sel ≠ 8) then .illegal
    else
      let w := if sel = 8 then a.status else (a.dom sel).word s.cyc
      let a := if t.getLsbD 4 then { a with status := 0 } else a
      .done ((s.putArray a).launch (some .dr) 2 w 0 0)

/-! ### The array image (R156 to R158) -/

/-- A cell's link dword. -/
def DCell.link (c : DCell) : Word :=
  let bits := (List.range 8).foldl (fun n d =>
    n + (if c.full.getLsbD d then (1 + (if c.neg.getLsbD d then 2 else 0)) * 2 ^ (2 * d + 2) else 0)) 0
  BitVec.ofNat 64 (bits + (if c.z = 1 then 1 else if c.z = -1 then 3 else 0))

/-- The 0x2080 bytes of an array at a cycle; every run bit is 0. -/
def arrayImage (a : DArray) (now : Nat) : List Byte :=
  let cs := (List.range 256).map a.cell
  dwords (cs.map (fun c => c.q ++ c.y)) ++ dwords (cs.map DCell.link) ++ dwords (cs.flatMap (fun c => [c.d0, c.d1]))
    ++ dwords [a.sink, 0, a.src, 0]
    ++ dwords (a.doms.toList.map (fun x =>
        { x with run := false, next := if x.run then x.tick - now else x.next : DDomain }.word now))
    ++ dwords [a.status, 0, 0, 0]

/-- A cell of an image. R158 does not say what a latch bit pair with the sign set and the full bit clear means: it is taken as
an empty latch (log entry 50). -/
def cellOfImage (bs : List Byte) (n : Nat) : DCell :=
  let yq := dwordAt bs (8 * n)
  let link := dwordAt bs (0x800 + 8 * n)
  let bitsAt (i : Nat) : BitVec 8 := (List.range 8).foldl (fun m d =>
    if link.getLsbD (2 * d + 2) && link.getLsbD (2 * d + 2 + i) then m ||| (1#8 <<< d) else m) 0
  { y := yq.setWidth 32, q := yq.extractLsb' 32 32
    z := if fld link 1 0 = 1 then 1 else if fld link 1 0 = 3 then -1 else 0
    d0 := dwordAt bs (0x1000 + 16 * n), d1 := dwordAt bs (0x1008 + 16 * n), full := bitsAt 0, neg := bitsAt 1 }

/-- The checks of drest (R158). -/
def imageOk (bs : List Byte) : Bool :=
  (List.range 256).all (fun n =>
    let link := dwordAt bs (0x800 + 8 * n)
    let d0 := dwordAt bs (0x1000 + 16 * n)
    fld link 63 18 == 0 && fld link 1 0 != 2 && (fld link 17 2 / 4 ^ fld d0 12 10) % 4 == 0
      && entryOk n d0 (dwordAt bs (0x1008 + 16 * n)))
  && entryOk 0x100 (dwordAt bs 0x2000) (dwordAt bs 0x2008) && entryOk 0x101 (dwordAt bs 0x2010) (dwordAt bs 0x2018)
  && (List.range 8).all (fun d =>
    let w := dwordAt bs (0x2020 + 8 * d)
    fld w 23 16 == 0 && decide (fld w 39 24 ≤ fld w 15 0))
  && (let w := dwordAt bs 0x2060
      fld w 63 40 == 0 && !w.getLsbD 24 && fld w 15 4 == 0 && decide (fld w 3 0 ≤ 3))
  && (List.range 3).all (fun i => dwordAt bs (0x2068 + 8 * i) == 0)

/-- An array's contents replaced from an image, its owner kept. -/
def arrayOfImage (a : DArray) (bs : List Byte) : DArray :=
  { a with
    cells := ((List.range 256).map (fun n => (n, cellOfImage bs n))).filter (fun p => p.2 ≠ {})
    doms := Vector.ofFn (fun i =>
      let w := dwordAt bs (0x2020 + 8 * i.val)
      { steps := w.extractLsb' 40 24, next := fld w 39 24, run := false, period := fld w 15 0, tick := 0 })
    sink := dwordAt bs 0x2000, src := dwordAt bs 0x2010, status := dwordAt bs 0x2060 }

/-- The places of `n` bytes from an address on, line by line with their lengths, each in scratchpad or HBM, or the
first fault (R125, R157, R293). -/
def spanLocs (s : State) (need : Need) : Nat → Word → Nat → Except (Nat × Word) (List (Loc × Nat))
  | 0, _, _ => .ok []
  | fuel + 1, a, n =>
    if n = 0 then .ok []
    else
      match translate s s.self a need with
      | .error k => .error (k, a)
      | .ok l =>
        let here := match l.space with
          | .scr _ | .hbm => true
          | _ => false
        let len := min n (64 - a.toNat % 64)
        let op := if need.wr then 1 else 0
        if !here then .error (kPermission, a)
        else if s.denied l.cell op len ≠ 0 ∧ ¬(need.wr ∧ isPosted s l) then .error (s.denied l.cell op len, a)
        else
          match spanLocs s need fuel (a + BitVec.ofNat 64 len) (n - len) with
          | .error e => .error e
          | .ok ls => .ok ((l, len) :: ls)

/-- The bytes of a span at their places. -/
def readLocs (s : State) (ls : List (Loc × Nat)) : List Byte := ls.flatMap (fun l => s.readAs l.1.aes l.1.cell l.2)

/-- An engine's stores over a span that begins at `va`, at thread scope in the normal class (R157, R293): performed at the own tile's banks
and in HBM, posted to another tile's scratchpad. -/
def storeLocs (u : Win) (at_ : Nat) : Word → List (Loc × Nat) → List Byte → State → State
  | _, [], _, s => s
  | va, (l, n) :: ls, bs, s =>
    if bs.isEmpty then s
    else
      let b := bs.take n
      let p : Posted :=
        { cell := l.cell, bytes := b, va, due := max at_ (s.cyc + leastLatency s l), key := l.aes, scr := true
          refuse := s.denied l.cell 1 b.length, u, lat := leastLatency s l, since := s.cyc, grain := l.grain b.length }
      storeLocs u at_ (va + BitVec.ofNat 64 n) ls (bs.drop n)
        (if isPosted s l then s.map (fun t => { t with unacked := t.unacked + 1, posted := t.posted ++ [p] })
        else s.writeAs l.aes l.cell b)

/-- The engine's stores have to wait: for earlier stores that come before them (R165), or for room in the counter. -/
def storesHeld (s : State) (ls : List (Loc × Nat)) : Bool :=
  ls.any (fun l => s.storeBehind l.1 0) || decide (255 < s.th.unacked + ls.countP (fun l => isPosted s l.1))

/-- An earlier access of the thread to the span is still under way (R163). -/
def spanBusy (s : State) (ls : List (Loc × Nat)) : Bool := ls.any (fun l => s.lineBusy l.1.cell l.2 none)

/-- The checks that dsave and drest share: the places of the image's 130 lines. -/
def imageAct (need : Need) (t : Word) (s : State) (f : DArray → List (Loc × Nat) → Act) : Act :=
  dWith s fun a =>
    if !a.still then .illegal
    else if t.toNat % 64 ≠ 0 then .fault kAlignment t
    else if s.th.acquiring s.cyc then .wait (s.cyc + 1)
    else
      match spanLocs s need 131 t 0x2080 with
      | .error (k, x) => .fault k x
      | .ok ls => if spanBusy s ls then .wait (s.cyc + 1) else f a ls

def actDsave (t : Word) (s : State) : Act :=
  imageAct .store t s fun a ls =>
    if s.arrayLost then .fault kData t
    else if storesHeld s ls then .wait (s.cyc + 1)
    else
      let (at_, s) := s.after 1
      .done ((storeLocs .d at_ t ls (arrayImage a s.cyc) (s.putArray a)).map (fun th => { th with readyAt := at_ }))

def actDrest (t : Word) (s : State) : Act :=
  imageAct .load t s fun a ls =>
    let bs := readLocs s ls
    if !imageOk bs then .illegal
    else
      let (at_, s) := { s with lost := s.lost.erase (.array s.th.key.coreKey) }.after 1
      .done ((s.putArray (arrayOfImage a bs)).map (fun th => { th with readyAt := at_ }))

/-! ### Events -/

/-- DOMAIN_TICK (R140): the core that `ev` names. -/
def execDomainTick (s : State) : Out :=
  let k := s.ev.key.coreKey
  if tickDue s (s.array k) then .next (tickArray s k) else .fault .noSubject

/-- A slot that its array's fault trap can interrupt (R146): its boundary, or a wait for a queue. -/
def Thread.canTrap (t : Thread) : Bool :=
  t.life = .running && t.mode = .user && (match t.hold with
    | .none | .queue _ _ => true
    | _ => false)

/-- The fault of the array that a slot owns and has still to trap for. -/
def faultDue (s : State) (t : Thread) : Option Word :=
  let a := s.array t.key.coreKey
  if a.owner = some t.key ∧ t.canTrap ∧ ¬t.again then a.due else none

/-- INTEGRATOR_FAULT_TRAP (R146): a blocked transport is abandoned, and mtpc names it. -/
def execIntegratorFaultTrap : State → Out :=
  onSlot fun s =>
    (faultDue s s.th).map fun w =>
      let k := s.th.key.coreKey
      let s := (s.setArray k { s.array k with due := none }).map (fun t => { t with hold := .none })
      trapHere s (if fld w 3 0 = 1 then 6 else 7) (fld w 3 0) 0 w

/-! ### The instructions -/

/-- DPATCH (R150). -/
def execDpatch (g : Guard) (src : Src) (s : State) : Out := trigger .dpatch 0 g src actDpatch s
/-- DSETY (R151). -/
def execDsety (g : Guard) (src : Src) (s : State) : Out := trigger .dsety 0 g src actDsety s
/-- DSETR (R151). -/
def execDsetr (g : Guard) (src : Src) (s : State) : Out := trigger .dsetr 0 g src actDsetr s
/-- DGETY (R152). -/
def execDgety (g : Guard) (l : BitVec 4) (src : Src) (s : State) : Out := trigger .dgety l g src (actDgety l) s
/-- DGETR (R152). -/
def execDgetr (g : Guard) (l : BitVec 4) (src : Src) (s : State) : Out := trigger .dgetr l g src (actDgetr l) s
/-- DCLK (R153). -/
def execDclk (g : Guard) (src : Src) (s : State) : Out := trigger .dclk 0 g src actDclk s
/-- DRUN (R154). -/
def execDrun (g : Guard) (src : Src) (s : State) : Out := trigger .drun 0 g src actDrun s
/-- DHALT (R155). -/
def execDhalt (g : Guard) (src : Src) (s : State) : Out := trigger .dhalt 0 g src actDhalt s
/-- DSAVE (R157). -/
def execDsave (g : Guard) (src : Src) (s : State) : Out := trigger .dsave 0 g src actDsave s
/-- DREST (R158). -/
def execDrest (g : Guard) (src : Src) (s : State) : Out := trigger .drest 0 g src actDrest s
/-- DSTAT (R159). -/
def execDstat (g : Guard) (src : Src) (s : State) : Out := trigger .dstat 0 g src actDstat s

end Sys2Proof.Machine
end

