-- ==== Sys2Proof/Machine/Heap.lean ====
section
/-! DEFINITION. H: the heap unit, offers and the replica table (R282 to R294). -/

namespace Sys2Proof.Machine

/-! ### The heap of a tile (R283, R285) -/

def State.heap (s : State) (tile : Nat) : Heap := (assoc s.heaps tile).getD {}
def State.setHeap (s : State) (tile : Nat) (h : Heap) : State :=
  { s with heaps := (tile, h) :: s.heaps.filter (fun x => x.1 ≠ tile) }

/-- An FP32 code as a number in the order of R283, −0 below +0. -/
def scoreKey (w : Word) : Nat :=
  let c := fld w 31 0
  if w.getLsbD 31 then 2 ^ 32 - 1 - c else c + 2 ^ 31

/-- A pair with a NaN score. -/
def nanScore (w : Word) : Bool := (fp32.value (fld w 31 0)).isNaN

/-- Pair `p` beats pair `q`. -/
def beats (p q : Word) : Bool :=
  decide (scoreKey q < scoreKey p) || (scoreKey p == scoreKey q && decide (fld p 63 32 < fld q 63 32))

/-- A pair inserted in decreasing order, behind those it does not beat: of pairs alike in score and tag, which R283 does not
order, the one inserted later is the lower (log entry 53). -/
def insertPair (p : Word × Bool) : List (Word × Bool) → List (Word × Bool)
  | [] => [p]
  | q :: qs => if beats p.1 q.1 then p :: q :: qs else q :: insertPair p qs

/-- An overflow or spill record (R284). -/
def heapRecord (h : Heap) (logical : Nat) (p : Word × Bool) (reason : Nat) : List Byte :=
  dwords ([p.1, h.expert.setWidth 64, BitVec.ofNat 64 ((if p.2 then 2 ^ 20 else 0) + reason * 2 ^ 16 + logical)]
    ++ List.replicate 5 0)

/-- The ring slot that a record filled: key and cell of the ring object, slot. -/
abbrev RingSlot := Nat × Nat × W32

/-- A pair that finds no place: to the overflow ring, the spill ring, or dropped (R285); with the ring slot its record
filled. -/
def overflowPair (s : State) (tile : Nat) (p : Word × Bool) (reason : Nat) : State × Option RingSlot :=
  let h := s.heap tile
  let ag : Agent := ⟨h.ctx, false, some tile, false⟩
  let record := heapRecord h (((s.ctx? h.ctx).map (fun c => c.logical tile)).getD 0) p reason
  let put (on : Bool) (ring : Word) : Option (State × Option RingSlot) :=
    if on ∧ ring ≠ 0 then
      (ringRecord s ag ring record).map fun x =>
        (x.2, match translate s ag ring .amo with
          | .ok l => some (l.aes, l.cell, x.1)
          | .error _ => none)
    else none
  match put (!p.2) h.ovf with
  | some x => x
  | none =>
    match put true h.spill with
    | some x => x
    | none => (s.setHeap tile { h with drops := min (2 ^ 32 - 1) (h.drops + 1) }, none)

/-- An offer decided at an initialised heap, in one step (R285). -/
def decideOffer (s : State) (tile : Nat) (p : Word × Bool) : State × Option RingSlot :=
  let h := s.heap tile
  if nanScore p.1 then overflowPair s tile p 2
  else if h.pairs.length < h.cap then (s.setHeap tile { h with pairs := insertPair p h.pairs }, none)
  else
    match h.pairs.getLast? with
    | none => overflowPair s tile p 0
    | some m =>
      if beats p.1 m.1 then
        overflowPair (s.setHeap tile { h with pairs := insertPair p h.pairs.dropLast }) tile m 1
      else overflowPair s tile p 0

/-- An offer at its heap, by logical tile of the target context: decided, refused with kind 6 (R287), or met by a data
error where the unit has lost its words (R370). -/
def offerAtHeap (s : State) (ctx tile : Nat) (layer : BitVec 16) (p : Word × Bool) : State × Nat × Option RingSlot :=
  match (s.ctx? ctx).bind (fun c => c.tile? tile) with
  | none => (s, kOffer, none)
  | some t =>
    let h := s.heap t
    if s.lost.contains (.heap t) then (s, kData, none)
    else if s.closing ctx ∨ h.cap = 0 ∨ h.ctx ≠ ctx ∨ h.key ≠ layer then (s, kOffer, none)
    else let x := decideOffer s t p; (x.1, 0, x.2)

/-! ### The triggers -/

def actHinit (t : Word) (s : State) : Act :=
  let o := s.th.get .ho
  let o2 := s.th.get .ho2
  let cap := fld t 8 0
  if fld t 47 44 ≠ 0 ∨ fld t 31 9 ≠ 0 ∨ cap = 0 ∨ 256 < cap ∨ fld o 5 0 ≠ 0 ∨ fld o2 5 0 ≠ 0 then .illegal
  else if s.th.acquiring s.cyc then .wait (s.cyc + 1)
  else .done ({ s with lost := s.lost.erase (.heap s.th.key.tile) }.setHeap s.th.key.tile
    { cap, key := t.extractLsb' 48 16, expert := t.extractLsb' 32 12, ctx := s.th.ctx, ovf := o, spill := o2 })

/-- The least latency of an offer's way to its heap (R190). -/
def offerLeast (s : State) (t : Word) : Nat :=
  if fld t 63 63 = 1 then 6
  else match s.myCtx.bind (fun c => c.tile? (fld t 10 0)) with
    | some h => tileLatency s.th.key.tile h
    | none => 6

def actHoffer (t : Word) (s : State) : Act :=
  let o2 := s.th.get .ho2
  let imp := fld t 57 48
  if fld o2 63 17 ≠ 0 ∨ fld t 62 58 ≠ 0 ∨ fld t 47 11 ≠ 0 ∨ (fld t 63 63 = 0 ∧ imp ≠ 0) then .illegal
  else
    let entry := if fld t 63 63 = 1 then s.importFor s.th.ctx imp else none
    let known := if fld t 63 63 = 1 then entry.isSome else ((s.myCtx.bind (fun c => c.tile? (fld t 10 0))).isSome)
    if !known then .fault kPermission t
    else if 255 ≤ s.th.unacked ∨ s.th.acquiring s.cyc then .wait (s.cyc + 1)
    else
      let (at_, s) := s.after (offerLeast s t)
      let o : Offer :=
        { key := s.th.key, pair := s.th.get .ho, fin := o2.getLsbD 16, layer := o2.setWidth 16, tile := fld t 10 0
          ctx := s.th.ctx, target := t, due := at_, since := s.cyc
          remote := entry.map (fun w => (fld w.d0 60 48, fld w.d0 41 32, w.d0.setWidth 32)) }
      .done ({ s with offers := s.offers ++ [o] }.map (fun th => { th with unacked := th.unacked + 1 }))

def actHdrain (t : Word) (s : State) : Act :=
  let tile := s.th.key.tile
  let h := s.heap tile
  if t.toNat % 8 ≠ 0 then .fault kAlignment t
  else if h.cap = 0 then .illegal
  else if s.lost.contains (.heap tile) then .fault kData t
  else if s.th.acquiring s.cyc then .wait (s.cyc + 1)
  else
    match spanLocs s .store 34 t (8 + 8 * h.cap) with
    | .error (k, a) => .fault k a
    | .ok ls =>
      if spanBusy s ls ∨ storesHeld s ls then .wait (s.cyc + 1)
      else
        let n := h.pairs.length
        let bytes := dwords (BitVec.ofNat 64 (h.drops * 2 ^ 32 + n) :: h.pairs.map Prod.fst)
        let s := s.setHeap tile { h with pairs := [], drops := 0 }
        let (at_, s) := s.after 1
        .done ((storeLocs .h at_ t (trim bytes.length ls) bytes s).map (fun th =>
          { th.set .hr (BitVec.ofNat 64 n) with readyAt := at_ }))
where
  /-- the part of the checked span that the pairs written take -/
  trim : Nat → List (Loc × Nat) → List (Loc × Nat)
    | _, [] => []
    | n, (l, k) :: ls => if n = 0 then [] else (l, min n k) :: trim (n - k) ls

/-- The replica hroute chooses (R294). -/
def routeOf (s : State) (e : Word) : Word :=
  if fld e 47 47 = 0 ∨ fld e 63 48 ≠ s.th.ctx then -1
  else
    let cands := (List.range (fld e 46 45 + 1)).filterMap fun k =>
      let lt := fld e 43 0 / 2 ^ (11 * k) % 2 ^ 11
      match s.myCtx.bind (fun c => c.tile? lt) with
      | none => none
      | some tile =>
        match assoc s.published tile with
        | some (count, cap) => if count < cap then some (lt, count) else none
        | none => none
    match cands with
    | [] => -1
    | c :: cs => BitVec.ofNat 64 (cs.foldl (fun b x => if x.2 < b.2 then x else b) c).1

def actHroute (l : BitVec 4) (t : Word) (s : State) : Act :=
  if fld t 63 12 ≠ 0 then .illegal
  else if s.th.acquiring s.cyc then .wait (s.cyc + 1)
  else
    let r := routeOf s ((assoc s.replicas t.toNat).getD 0)
    let (at_, s) := s.after 30
    .done (s.openWin .h l { doneAt := at_, hasRes := true, r })

/-! ### Events -/

/-- The `n`-th element of a list replaced. -/
def setNth {α : Type} (l : List α) (n : Nat) (x : α) : List α := l.take n ++ x :: l.drop (n + 1)

/-- The least cycles from an offer's arrival at its heap to its acknowledgement: its decision, and where a record was
written, that write and its ring's advance at the ring's home (R190). -/
def decisionLeast (s : State) (o : Offer) (ring : Option RingSlot) : Nat :=
  2 + match ring with
    | none => 0
    | some (_, cell, _) =>
      match (s.ctx? o.ctx).bind (fun c => c.tile? o.tile) with
      | some t => if 2 ^ 56 ≤ cell then tileLatency t ((cell - 2 ^ 56) / 2 ^ 19) else 60
      | none => 0

/-- HEAP_OFFER_ARRIVAL (R285, R287): offer `n`, once its way to the heap is over. The decision of another device's heap is
an input (log entry 3). -/
def execHeapOfferArrival (s : State) : Out :=
  match s.offers[s.ev.n]? with
  | none => .fault .noSubject
  | some o =>
    if o.decided.isSome ∨ s.cyc < o.due then .fault .noSubject
    else
      let (s, kind, ring) := match o.remote with
        | none => offerAtHeap s o.ctx o.tile o.layer (o.pair, o.fin)
        | some (dev, exp, _) => (s, if s.denied (peerCell dev exp 0) 2 ≠ 0 then kOffer else 0, none)
      let (at_, s) := s.after (decisionLeast s o ring)
      .next { s with offers := setNth s.offers s.ev.n { o with decided := some kind, due := at_, ring := ring } }

/-- The counter of a slot falls by 1; at 0 a thread that drains goes on (R167, R170). -/
def State.acked (s : State) (k : SlotKey) : State :=
  s.mapSlot k fun t =>
    let t := { t with unacked := t.unacked - 1 }
    if t.unacked = 0 ∧ t.hold = .drain then { t with hold := .none, readyAt := s.cyc + 1 } else t

/-- OFFER_ACKNOWLEDGEMENT (R287): the oldest accepted offer of the slot `ev` names is acknowledged, once any record it
caused has been written and its ring advanced (R285, R302). -/
def execOfferAcknowledgement (s : State) : Out :=
  let mine (o : Offer) : Bool := o.key == s.ev.key && o.decided == some 0 && decide (o.due ≤ s.cyc) && (match o.ring with
    | some (aes, cell, slot) => ringPassed s aes cell slot
    | none => true)
  match s.offers.findIdx? mine with
  | none => .fault .noSubject
  | some i => .next ({ s with offers := s.offers.eraseIdx i }.acked s.ev.key)

/-- The heap units that hold something to publish. -/
def publishAll (s : State) : List (Nat × Nat × Nat) := s.heaps.map (fun (t, h) => (t, h.pairs.length, h.cap))

/-- HEAP_COUNT_PUBLISH (R289): once in each window of 1,400 cycles. -/
def execHeapCountPublish (s : State) : Out :=
  if s.pubWin < s.cyc / 1400 + 1 then .next { s with published := publishAll s, pubWin := s.cyc / 1400 + 1 }
  else .fault .noSubject

/-! ### The instructions -/

/-- HINIT (R291). -/
def execHinit (g : Guard) (src : Src) (s : State) : Out := trigger .hinit 0 g src actHinit s
/-- HOFFER (R292). -/
def execHoffer (g : Guard) (src : Src) (s : State) : Out := trigger .hoffer 0 g src actHoffer s
/-- HDRAIN (R293). -/
def execHdrain (g : Guard) (src : Src) (s : State) : Out := trigger .hdrain 0 g src actHdrain s
/-- HROUTE (R294). -/
def execHroute (g : Guard) (l : BitVec 4) (src : Src) (s : State) : Out := trigger .hroute l g src (actHroute l) s

end Sys2Proof.Machine
end

