-- ==== Sys2Proof/Machine/RefUnit.lean ====
section
/-! DEFINITION. X: the reference unit's streams (R264 to R267). -/

namespace Sys2Proof.Machine

/-! ### Streams -/

/-- The running stream of a core. -/
def State.stream? (s : State) (c : CoreKey) (n : Nat) : Option Stream :=
  s.streams.find? (fun st => st.core = c ∧ st.strm = n ∧ st.running)

/-- The running stream of a core changed. -/
def State.mapStream (s : State) (c : CoreKey) (n : Nat) (f : Stream → Stream) : State :=
  { s with streams := s.streams.map (fun st => if st.core = c ∧ st.strm = n ∧ st.running then f st else st) }

def Stream.qin (st : Stream) : Port := ⟨st.owner, fld st.cfg 18 16⟩
def Stream.qout (st : Stream) : Port := ⟨st.owner, fld st.cfg 22 20⟩
/-- The element size in bytes (R264). -/
def Stream.size (st : Stream) : Nat :=
  match fld st.cfg 3 2 with
  | 0 => 4
  | 1 => 8
  | 2 => 16
  | _ => 64
/-- The elements of one index. -/
def Stream.width (st : Stream) : Nat := max 1 (st.size / 8)
/-- The stream's own agent: the thread's context and mode. -/
def Stream.agent (st : Stream) : Agent := ⟨st.ctx, st.monitor, some st.core.tile, false⟩

/-- The X window of a slot completes with a result in a cycle. -/
def State.completeX (s : State) (k : SlotKey) (at_ : Nat) (r : Option Word) : State :=
  s.mapSlot k fun t =>
    let p := t.win .x
    if p.isOpen ∧ ¬p.known then
      t.setWin .x { p with known := true, doneAt := max p.doneAt at_, hasRes := r.isSome, r := r.getD 0 }
    else t

/-- The oldest xgo that waits for a stream starts it. -/
def startNext (s : State) (c : CoreKey) (n : Nat) : State :=
  match s.streams.findIdx? (fun st => st.core = c ∧ st.strm = n) with
  | none => s
  | some i =>
    match s.streams[i]? with
    | none => s
    | some st => { s with streams := setAt s.streams i { st with running := true } }.completeX st.owner (s.cyc + 4) none
where
  setAt (l : List Stream) (i : Nat) (x : Stream) : List Stream := l.take i ++ x :: l.drop (i + 1)

/-- A stream that takes no more indices and has enqueued every fetch ends: its waiters get its count (R266). -/
def endStream (s : State) (c : CoreKey) (n : Nat) : State :=
  match s.stream? c n with
  | none => s
  | some st =>
    if !st.ending ∨ !st.fetches.isEmpty then s
    else
      let s := { s with streams := s.streams.filter (fun x => ¬(x.core = c ∧ x.strm = n ∧ x.running)) }
      let mine (w : SlotKey × Nat) : Bool := w.1.coreKey == c && w.2 == n
      let s := (s.xwaits.filter mine).foldl
        (fun s w => s.completeX w.1 (s.cyc + 1) (some (BitVec.ofNat 64 st.count))) s
      startNext { s with xwaits := s.xwaits.filter (fun w => !mine w) } c n

/-! ### The triggers -/

/-- A port that breaks R248 for a role, other than by being held by the stream that the xgo waits for: it is unbound, bound
to the other role, or its channel is in error for that role. -/
def portBreaks (s : State) (strm q : Nat) (prod : Bool) : Bool :=
  let p : Port := ⟨s.th.key, q⟩
  let held := s.streams.any (fun st => st.running && st.strm != strm && (st.qin == p || st.qout == p))
  held || !(match s.th.bind.toList[q]? with
    | some b => b.bound && b.prod == prod && match s.chan? b.chan with
      | some c => c.st != 1 || (!prod && (c.head? p).isSome)
      | none => false
    | none => false)

def actXgo (l : BitVec 4) (t : Word) (s : State) : Act :=
  let strm := fld t 1 0
  let qin := fld t 18 16
  let qout := fld t 22 20
  if fld t 63 24 ≠ 0 ∨ t.getLsbD 19 ∨ fld t 14 13 ≠ 0 ∨ fld t 7 4 ≠ 0 then .illegal
  else if portBreaks s strm qin false ∨ qin = qout then .queueError qin
  else if portBreaks s strm qout true then .queueError qout
  else if s.th.acquiring s.cyc then .wait (s.cyc + 1)
  else
    let busy := s.streams.any (fun st => st.core == s.th.key.coreKey && st.strm == strm)
    let st : Stream :=
      { core := s.th.key.coreKey, strm, owner := s.th.key, ctx := s.th.ctx, monitor := s.th.mode = .monitor, cfg := t
        base := s.th.get .xo, limit := s.th.get .xo2, running := !busy }
    .done ({ s with streams := s.streams ++ [st] }.openWin .x l { known := !busy, doneAt := s.cyc + 4 })

/-- xstop and xwait: the window waits for the stream's end (R266). -/
def endAct (stop : Bool) (l : BitVec 4) (t : Word) (s : State) : Act :=
  let c := s.th.key.coreKey
  if fld t 63 2 ≠ 0 then .illegal
  else
    match s.stream? c t.toNat with
    | none => .done (s.openWin .x l { doneAt := s.cyc + 4, hasRes := true })
    | some _ =>
      let s := { s with xwaits := s.xwaits ++ [(s.th.key, t.toNat)] }.openWin .x l
        { known := false, doneAt := s.cyc + 4, hasRes := true }
      .done (if stop then endStream (s.mapStream c t.toNat (fun st => { st with ending := true })) c t.toNat else s)

def actXstop : BitVec 4 → Word → State → Act := endAct true
def actXwait : BitVec 4 → Word → State → Act := endAct false

/-! ### Dequeue and fetch (R265) -/

/-- The channel of a port of a slot, in a role: as its thread's binding says, or as the channel says where the thread has
been saved and its slot is free (R361). -/
def portChan (s : State) (p : Port) (prod : Bool) : Option Chan :=
  match s.thread? p.key with
  | some t =>
    match t.bind.toList[p.q]? with
    | some b => if b.bound ∧ b.prod = prod then s.chan? b.chan else none
    | none => none
  | none => s.chans.find? (fun c => if prod then c.prod == some p else c.cons.any (fun x => x.1 == p))

/-- Fetches of a core's unit that have not returned. -/
def outstanding (s : State) (c : CoreKey) : Nat :=
  (s.streams.filter (fun st => st.core = c)).foldl
    (fun n st => n + st.fetches.countP (fun f => f.va.isSome && f.elems.isNone)) 0

/-- Elements a stream has still to enqueue. -/
def Stream.pending (st : Stream) : Nat :=
  st.fetches.foldl (fun n f => n + match f.elems with
    | some es => es.length
    | none => st.width) 0

/-- The element a stream can dequeue now. -/
def streamHead (s : State) (st : Stream) : Option (Chan × Elem) :=
  if !st.running ∨ st.ending ∨ 64 ≤ outstanding s st.core ∨ s.closing st.ctx then none
  else
    match portChan s st.qin false, portChan s st.qout true with
    | some ci, some co =>
      if !co.hasRoom (st.pending + st.width) s.cyc then none
      else
        match ci.head? st.qin with
        | some e => if e.ready ≤ s.cyc then some (ci, e) else none
        | none => none
    | _, _ => none

/-- An index out of a stream's limit. -/
def outOfLimit (st : Stream) (w : Word) : Bool :=
  st.limit != 0 && (if st.cfg.getLsbD 15 then decide (w.toInt < 0 ∨ (st.limit.toNat : Int) ≤ w.toInt)
    else decide (st.limit.toNat ≤ w.toNat))

/-- The elements of a fetched value, lowest dword first; a synced index marks the first (R252). -/
def fetchElems (st : Stream) (sync : Bool) (bs : List Byte) : List Elem :=
  let ws : List Word :=
    if st.size = 4 then
      let x := BitVec.ofNat 32 (leNat bs)
      [if st.cfg.getLsbD 23 then x.signExtend 64 else x.setWidth 64]
    else (List.range (st.size / 8)).map (fun i => dwordAt bs (8 * i))
  ((List.range ws.length).zip ws).map (fun (i, w) => { word := w, sync := sync && i == 0 })

/-- A dequeued element as the fetch it starts. -/
def fetchOf (st : Stream) (e : Elem) (due : Nat) : Fetch :=
  if e.tag then { elems := some [{ word := e.word, tag := true, sync := e.sync }], last := fld e.word 2 0 = 7 }
  else if outOfLimit st e.word then
    { elems := some (fetchElems st e.sync (List.replicate st.size 0)), idx := e.word, sync := e.sync }
  else { va := some (st.base + (e.word <<< fld st.cfg 12 8)), due, idx := e.word, sync := e.sync }

/-- The values at the head of a stream are enqueued in index order. -/
def enqueueReady : Nat → CoreKey → Nat → State → State
  | 0, _, _, s => s
  | k + 1, c, n, s =>
    match s.stream? c n with
    | none => s
    | some st =>
      match st.fetches with
      | f :: rest =>
        match f.elems with
        | none => s
        | some es =>
          let s := match portChan s st.qout true with
            | some ch => es.foldl (fun (s : State) (e : Elem) => s.enqueueAt ch.id e.word e.tag e.sync) s
            | none => s
          enqueueReady k c n (s.mapStream c n (fun st => { st with fetches := rest }))
      | [] => endStream s c n

/-- Every value ready at the head of a stream is enqueued. -/
def enqueueAll (c : CoreKey) (n : Nat) (s : State) : State :=
  enqueueReady (((s.stream? c n).map (fun st => st.fetches.length)).getD 0 + 1) c n s

/-- The stream that a core's unit serves next: of those that can dequeue, round robin from the one behind the stream served
last (R265, R393). -/
def nextStream (s : State) (c : CoreKey) : Option Nat :=
  let last := ((s.rrX.find? (fun x => x.1 = c)).map Prod.snd).getD 3
  (List.range 4).map (fun i => (last + 1 + i) % 4) |>.find? (fun n =>
    ((s.stream? c n).bind (streamHead s)).isSome)

/-- The unloaded least latency of a fetch: that of the level that can supply the unit, a scratchpad or an L2 slice (R22). -/
def fetchLeast (s : State) (st : Stream) (w : Word) : Nat :=
  match translate s st.agent (st.base + (w <<< fld st.cfg 12 8)) .load with
  | .ok l => (match l.space with
    | .scr t => tileLatency st.core.tile t
    | .hbm | .hostCached | .stageRecord => 60
    | .hostUncached => 1000
    | .peer => 6)
  | .error _ => 6

/-- REFERENCE_STREAM_DEQUEUE (R265): stream `n` of core `key`, which its unit serves next. -/
def execReferenceStreamDequeue (s : State) : Out :=
  let c := s.ev.key.coreKey
  orNone do
    let st ← s.stream? c s.ev.n
    let (ch, e) ← if nextStream s c = some st.strm then streamHead s st else none
    let (due, s) := { s with rrX := (c, st.strm) :: s.rrX.filter (fun x => x.1 ≠ c) }.after (fetchLeast s st e.word)
    let s := s.dequeueAt st.qin ch.id
    let f := fetchOf st e due
    let s := s.mapStream c st.strm (fun st => { st with
      fetches := st.fetches ++ [f], count := st.count + (if e.tag then 0 else 1), ending := f.last })
    pure (enqueueAll c st.strm s)

/-- A fetch performed: its bytes or the fault kind. -/
def fetchBytes (s : State) (st : Stream) (va : Word) : Except Nat (List Byte) :=
  if va.toNat % st.size ≠ 0 then .error kAlignment else readVA s st.agent va st.size

/-- The first fetch of a stream that meets a test, changed. -/
def Stream.mapFirst (st : Stream) (p : Fetch → Bool) (f : Fetch → Fetch) : Stream :=
  let rec go : List Fetch → List Fetch
    | [] => []
    | x :: xs => if p x then f x :: xs else x :: go xs
  { st with fetches := go st.fetches }

/-- A fetch on its way that returns by a cycle. -/
def Fetch.returns (f : Fetch) (now : Nat) : Bool :=
  f.va.isSome && f.elems.isNone && !f.demand && f.fault.isNone && decide (f.due ≤ now)

/-- REFERENCE_FETCH_RETURN (R265, R267): the oldest due fetch of stream `n` returns its value, or is dropped, to be
issued again as a demand fetch. -/
def execReferenceFetchReturn (s : State) : Out :=
  let c := s.ev.key.coreKey
  orNone do
    let st ← s.stream? c s.ev.n
    let f ← st.fetches.find? (fun f => f.returns s.cyc)
    let va ← f.va
    let g : Fetch := match if 3 ≤ f.retr then .error kLink else fetchBytes s st va with
      | .ok bs => { f with elems := some (fetchElems st f.sync bs) }
      | .error _ => { f with demand := true, due := s.cyc + 1, retr := 0 }
    pure (enqueueAll c st.strm (s.mapStream c st.strm (fun st =>
      st.mapFirst (fun f => f.returns s.cyc) (fun _ => g))))

/-- A demand fetch at the head of its stream. -/
def Stream.demands (st : Stream) (now : Nat) : Option (Fetch × Word) :=
  match st.fetches with
  | f :: _ => if f.demand ∧ f.elems.isNone ∧ f.fault.isNone ∧ f.due ≤ now then f.va.map (fun va => (f, va)) else none
  | [] => none

/-- The head fetch of a stream changed. -/
def Stream.setHead (st : Stream) (f : Fetch) : Stream := { st with fetches := f :: st.fetches.drop 1 }

/-- A fault on a demand fetch holds the stream: to the retry ring in retry-ring mode, else to the policy core
(R267, R338). -/
def fetchFault (s : State) (st : Stream) (f : Fetch) (va : Word) (kind : Nat) : State :=
  let tid : Word := match s.ctx? st.ctx with
    | some c => BitVec.ofNat 64 (st.owner.slot + 8 * st.owner.core + 64 * c.logical st.owner.tile)
    | none => 0
  match retryRingPut s st.ctx (retryEntry st.ctx tid 0x1B2 2 kind va 0 f.idx st.cfg 0 []) with
  | some (slot, s) => s.mapStream st.core st.strm (fun x => x.setHead { f with fault := some kind, id := slot, ring := true })
  | none =>
    (s.mapStream st.core st.strm (fun x => x.setHead { f with fault := some kind, id := s.faultSeq, ring := false })).tell
      st.ctx st.owner (.fault kind va 0x1B2 tid (some st.strm))

/-- REFERENCE_DEMAND_FETCH (R267): the oldest outstanding fetch of stream `n` is made again. -/
def execReferenceDemandFetch (s : State) : Out :=
  let c := s.ev.key.coreKey
  orNone do
    let st ← s.stream? c s.ev.n
    let (f, va) ← st.demands s.cyc
    match if 3 ≤ f.retr then .error kLink else fetchBytes s st va with
    | .ok bs => pure (enqueueAll c st.strm (s.mapStream c st.strm (fun x =>
        x.setHead { f with elems := some (fetchElems st f.sync bs) })))
    | .error k => pure (fetchFault s st f va k)

/-- The policy core's answer for a stream's fault (R267): replayed, or the stream ends with qout in error. The indices
already dequeued behind the faulted one are then discarded and do not count: the spec does not say what becomes of them
(log entry 46). -/
def answerStream (s : State) (st : Stream) (replay : Bool) : State :=
  match st.fetches with
  | [] => s
  | f :: _ =>
    if replay then s.mapStream st.core st.strm (fun x => x.setHead { f with fault := none, due := s.cyc + 1, retr := 0 })
    else
      let s := match portChan s st.qout true with
        | some ch => s.mapChan ch.id (fun ch => { ch with st := 1 })
        | none => s
      endStream (s.mapStream st.core st.strm (fun x => { x with
        fetches := [], ending := true
        count := x.count - (st.fetches.drop 1).countP (fun g => !(match g.elems with
          | some (e :: _) => e.tag
          | _ => false)) })) st.core st.strm

/-! ### The instructions -/

/-- XGO (R265). -/
def execXgo (g : Guard) (l : BitVec 4) (src : Src) (s : State) : Out := trigger .xgo l g src (actXgo l) s
/-- XSTOP (R266). -/
def execXstop (g : Guard) (l : BitVec 4) (src : Src) (s : State) : Out := trigger .xstop l g src (actXstop l) s
/-- XWAIT (R266). -/
def execXwait (g : Guard) (l : BitVec 4) (src : Src) (s : State) : Out := trigger .xwait l g src (actXwait l) s

end Sys2Proof.Machine
end

