-- ==== Sys2Proof/Machine/CopyUnit.lean ====
section
/-! DEFINITION. Y: the copy unit and the ring operations (R268 to R278). -/

namespace Sys2Proof.Machine

/-! ### Places of rings -/

/-- A ring object named by a trigger: in scratchpad or HBM (R254). -/
def ringLoc (s : State) (va : Word) : Except Nat Loc :=
  match translate s s.self va .amo with
  | .error k => .error k
  | .ok l =>
    match l.space with
    | .scr _ | .hbm => if s.denied l.cell 2 64 ≠ 0 then .error (s.denied l.cell 2 64) else .ok l
    | _ => .error kPermission

/-- A ring object reached by a trigger once the thread's earlier accesses to it are over. -/
def withRing (s : State) (va : Word) (f : Loc → RingObj → Act) : Act :=
  if s.th.acquiring s.cyc then .wait (s.cyc + 1)
  else
    match ringLoc s va with
    | .error k => .fault k va
    | .ok l => if s.lineBusy l.cell 64 none then .wait (s.cyc + 1) else f l (ringAt s l)

/-! ### Copies at their trigger (R269 to R274) -/

/-- The operands of a copy. -/
structure CopyArgs where
  src : Word
  dst : Word
  shape : Word
  pitch : Word
  ctl : Word

/-- The checks of the operands (R269, R270, R272, R273). -/
def copyOk (kind : Nat) (a : CopyArgs) : Bool :=
  fld a.shape 63 48 == 0 && fld a.ctl 63 48 == 0 && fld a.ctl 5 3 == 0 && decide (fld a.ctl 2 0 ≤ 4)
    && (fld a.ctl 47 6 == 0 || kind == 2 || fld a.dst 63 32 == 0)
    && (kind != 1 || (fld a.shape 1 0 == 0 && fld a.pitch 1 0 == 0 && fld a.pitch 33 32 == 0))
    && (kind != 2 || (fld a.ctl 47 6 == 0 && fld a.dst 31 30 == 0))

/-- A copy starts: its window waits for COPY_COMPLETE. -/
def startCopy (trig kind : Nat) (l : BitVec 4) (a : CopyArgs) (s : State) : Act :=
  let go (s : State) : Act :=
    let (due, s) := s.after 1
    let c : Copy :=
      { key := s.th.key, ctx := s.th.ctx, monitor := s.th.mode = .monitor, pc := s.at_, trig, kind, src := a.src
        dst := a.dst, shape := a.shape, pitch := a.pitch, ctl := a.ctl, due, since := s.cyc }
    .done ({ s with copies := s.copies ++ [c] }.openWin .y l { known := false, doneAt := due })
  let ring : Word := a.ctl &&& 0xFFFFFFFFFFC0
  if !copyOk kind a then .illegal
  else if kind = 1 ∧ fld a.src 1 0 ≠ 0 then .fault kAlignment a.src
  else if kind = 1 ∧ fld a.dst 1 0 ≠ 0 then .fault kAlignment a.dst
  else if ring = 0 then (if s.th.acquiring s.cyc then .wait (s.cyc + 1) else go s)
  else
    withRing s ring fun _ r =>
      let rows := fld a.shape 47 32
      if 0 < rows ∧ r.ssize < fld a.dst 31 0 + (rows - 1) * fld a.pitch 63 32 + fld a.shape 31 0 then .illegal
      else go (s.acquire 2)

/-- The copy operands in the operand ports. -/
def portArgs (s : State) (t : Word) : CopyArgs :=
  ⟨s.th.get .yo, s.th.get .yo2, s.th.get .yo3, s.th.get .yo4, t⟩

def actYcopy (l : BitVec 4) (t : Word) (s : State) : Act := startCopy 0x1C4 0 l (portArgs s t) s
def actYcopyAdd (l : BitVec 4) (t : Word) (s : State) : Act := startCopy 0x1C5 1 l (portArgs s t) s
def actYmcast (l : BitVec 4) (t : Word) (s : State) : Act := startCopy 0x1C6 2 l (portArgs s t) s

def actYdesc (l : BitVec 4) (t : Word) (s : State) : Act :=
  if fld t 5 0 ≠ 0 then .illegal
  else if s.th.acquiring s.cyc then .wait (s.cyc + 1)
  else
    match spanLocs t with
    | .error k => .fault k t
    | .ok loc =>
      if s.lineBusy loc.cell 64 none then .wait (s.cyc + 1)
      else
        let bs := s.readAs loc.aes loc.cell 64
        let kind := (dwordAt bs 0).toNat
        if 2 < kind ∨ dwordAt bs 0x30 ≠ 0 ∨ dwordAt bs 0x38 ≠ 0 ∨ (kind = 2 ∧ s.th.key.core ≠ 6) then .illegal
        else startCopy 0x1CB kind l ⟨dwordAt bs 8, dwordAt bs 16, dwordAt bs 24, dwordAt bs 32, dwordAt bs 40⟩ (s.acquire 2)
where
  /-- the block's place, in scratchpad or HBM -/
  spanLocs (t : Word) : Except Nat Loc :=
    match translate s s.self t .load with
    | .error k => .error k
    | .ok l =>
      match l.space with
      | .scr _ | .hbm => if s.denied l.cell 0 64 ≠ 0 then .error (s.denied l.cell 0 64) else .ok l
      | _ => .error kPermission

/-! ### Ring operations (R275 to R277) -/

/-- Mode 0's operands are legal (R275). -/
def ringInitOk (t : Thread) : Bool :=
  let size := fld (t.get .yo2) 31 0
  fld (t.get .yo) 5 0 == 0 && decide (64 ≤ size ∧ size ≤ 2 ^ 24) && size % 64 == 0
    && decide (fld (t.get .yo2) 63 32 ≤ 2 ^ 20) && fld (t.get .yo3) 63 4 == 0 && decide (fld (t.get .yo3) 2 0 ≤ 4)
    && fld (t.get .yo4) 5 0 == 0 && !((t.get .yo3).getLsbD 3 && t.get .yo4 == 0)

/-- The operation waits no more: mode 0 for the ring's copies (R275) and the thread's earlier accesses, an unbinding for
the ring's pushes (R277). -/
def ringOpReady (s : State) (o : RingOp) : Bool :=
  match o.init with
  | some _ =>
    let r := ringOfBytes (s.readAs o.aes o.cell 64)
    (r.cp == r.wp || ringErr r) && s.earlierDone o.key o.since 2
  | none => !s.pushes.any (fun p => p.ring == o.cell)

/-- It is performed at the ring's home, and completes: mode 0 writes the object whole, and with its push dword goes its
binding; an unbinding clears the push dword. -/
def ringOpNow (s : State) (o : RingOp) : State :=
  let s := match o.init with
    | some bs => s.writeAs o.aes o.cell bs
    | none => s.writeAs o.aes (o.cell + 48) (leBytes 8 0)
  { s with pushBinds := s.pushBinds.filter (fun b => b.cell ≠ o.cell), ringOps := s.ringOps.erase o }.mapSlot o.key fun t =>
    let p := t.win .y
    t.setWin .y { p with known := true, doneAt := max p.doneAt (s.cyc + 1) }

/-- The first ring operation that waits no more, performed. -/
def ringOpDue (s : State) : Option State := (s.ringOps.find? (ringOpReady s)).map (ringOpNow s)

/-- A ring operation reaches the ring's home with its window open. -/
def startRingOp (s : State) (l : BitVec 4) (loc : Loc) (init : Option (List Byte)) : State :=
  let (at_, s) := s.after 6
  let o : RingOp := { key := s.th.key, ctx := s.th.ctx, cell := loc.cell, aes := loc.aes, init, since := s.cyc }
  let s := { s with ringOps := s.ringOps ++ [o] }.openWin .y l { known := false, doneAt := at_ }
  if ringOpReady s o then ringOpNow s o else s

def actYring (l : BitVec 4) (t : Word) (s : State) : Act :=
  let va : Word := t &&& 0xFFFFFFFFFFC0
  let fin (s : State) : Act :=
    let (at_, s) := s.after 6
    .done (s.openWin .y l { doneAt := at_ })
  if fld t 63 48 ≠ 0 ∨ fld t 5 2 ≠ 0 ∨ 1 < fld t 1 0 ∨ (fld t 1 0 = 0 ∧ !ringInitOk s.th) then .illegal
  else
    withRing s va fun loc r =>
      if fld t 1 0 = 1 then
        if r.drain = 0 then .illegal
        else
          let s := ringPut s loc { r with ctl := r.ctl ||| 0x40000000 }
          fin (if r.wp ≠ r.rp then ringDrain s s.th.ctx loc else s)
      else
        let o := s.th.get
        .done (startRingOp s.flushWcb l loc (some (ringBytes
          { base := o .yo, ssize := fld (o .yo2) 31 0, count := fld (o .yo2) 63 32, wp := 0, rp := 0, cp := 0
            ctl := (o .yo3).extractLsb' 0 3 |>.setWidth 32 |>.or (if (o .yo3).getLsbD 3 then 0x40000000 else 0)
            fill := 0, drain := o .yo4, push := 0 })))

/-- yawait and yrel name a ring (R276). -/
def ringNamed (t : Word) : Bool := fld t 5 0 == 0 && fld t 63 48 == 0

def actYawait (t : Word) (s : State) : Act :=
  if !ringNamed t then .illegal
  else
    withRing s t fun _ r =>
      if r.wp ≠ r.rp then .done ((s.map (fun th => th.set .yr (ringHandle r r.rp))).acquire (ringScope r))
      else if ringErr r then .queueError 8
      else .stall (.yawait t)

def actYrel (l : BitVec 4) (t : Word) (s : State) : Act :=
  if !ringNamed t then .illegal
  else
    withRing s t fun loc r =>
      match s.releaseWait (ringScope r) with
      | some w => w
      | none =>
        let (at_, s) := s.after (leastLatency s loc)
        if r.rp = r.wp then
          .done (s.openWin .y l { doneAt := at_, trap := some { cause := 9, detail := 8, mtpc := s.at_ } })
        else
          .done ((ringPut s loc { r with rp := r.rp + 1 }).openWin .y l
            { doneAt := at_, hasRes := true, r := (r.rp + 1).setWidth 64 })

/-- The push dword that binds a ring to a port of the thread in focus (R255). -/
def pushWord (s : State) (q : Nat) : Word :=
  let lt := match s.myCtx with
    | some c => c.logical s.th.key.tile
    | none => 0
  BitVec.ofNat 64 (2 ^ 63 + lt % 2 ^ 11 * 2 ^ 9 + s.th.key.core * 2 ^ 6 + s.th.key.slot * 2 ^ 3 + q)

def actYpush (l : BitVec 4) (t : Word) (s : State) : Act :=
  let va : Word := t &&& 0xFFFFFFFFFFC0
  let o := s.th.get .yo
  let q : BitVec 3 := o.setWidth 3
  if fld t 63 48 ≠ 0 ∨ fld t 5 1 ≠ 0 ∨ fld o 63 3 ≠ 0 then .illegal
  else if s.queueWrite q = .error then .queueError q.toNat
  else
    withRing s va fun loc r =>
      if r.push.getLsbD 63 && (pushPort s s.th.ctx r.push).map Port.key != some s.th.key then .queueError 8
      else if t.getLsbD 0 then
        let chan := (s.th.bind[q.toFin]).chan
        let s := (ringPut s loc { r with push := pushWord s q.toNat }).mapChan chan
          (fun c => { c with scope := max c.scope (ringScope r) })
        let binds := ⟨s.th.ctx, va, loc.cell, s.myPort q⟩ :: s.pushBinds.filter (fun b => b.cell ≠ loc.cell)
        let (at_, s) := { s with pushBinds := binds }.after 6
        .done (s.openWin .y l { doneAt := at_ })
      else .done (startRingOp s l loc none)

/-! ### Pieces (R270 to R273) -/

/-- A piece's source and destination checked: their places, or the fault kind. -/
def checkPiece (s : State) (c : Copy) (src : Word) (dst : Option Word) (n : Nat) : Except Nat (Loc × Loc) := do
  let ls ← translate s c.agent src .load
  let d ← match dst with
    | some d => pure d
    | none => .error kPermission
  let ld ← translate s c.agent d (if c.kind = 1 then .amo else .store)
  if c.kind = 1 ∧ (ld.space = .hostCached ∨ ld.space = .hostUncached) then .error kPermission
  else if s.denied ls.cell 0 n ≠ 0 then .error (s.denied ls.cell 0 n)
  else if s.denied ld.cell (if c.kind = 1 then 2 else 1) n ≠ 0 then
    .error (s.denied ld.cell (if c.kind = 1 then 2 else 1) n)
  else pure (ls, ld)

/-- Bytes read from a cell on, line by line. -/
def readRun (s : State) (aes : Nat) : Nat → Nat → Nat → List Byte
  | 0, _, _ => []
  | k + 1, cell, n =>
    let len := min n (64 - cell % 64)
    if n = 0 then [] else s.readAs aes cell len ++ readRun s aes k (cell + len) (n - len)

/-- Bytes written from a cell on, line by line. -/
def writeRun (s : State) (aes : Nat) : Nat → Nat → List Byte → State
  | 0, _, _ => s
  | k + 1, cell, bs =>
    if bs.isEmpty then s
    else
      let n := 64 - cell % 64
      writeRun (s.writeAs aes cell (bs.take n)) aes k (cell + n) (bs.drop n)

/-- Words added at their homes in offset order (R272), with the flags raised. -/
def addRun (s : State) (aes : Nat) : Nat → List Byte → Flags → State × Flags
  | cell, b0 :: b1 :: b2 :: b3 :: bs, f =>
    let m := leNat (s.readAs aes cell 4)
    let r := fp32.add Rm.rne 0 (fp32.value m) (fp32.value (leNat [b0, b1, b2, b3]))
    addRun (s.writeAs aes cell (leBytes 4 r.code.toNat)) aes (cell + 4) bs (f ||| r.flags)
  | _, _, f => (s, f)

/-- A copy's entry replaced or removed; a slot has at most one. -/
def State.putCopy (s : State) (k : SlotKey) (c : Option Copy) : State :=
  { s with copies := s.copies.filterMap (fun x => if x.key = k then c else some x) }

/-- A copy's window answered by a result, or by the copy-fault trap (R271). R272 and R73 merge the flags of ycopy.add at its
completion and do not say what becomes of those of a copy that faults: the model drops them (log entry 51). -/
def answerCopy (s : State) (c : Copy) (r : Word) (trap : Option TrapInfo) : State :=
  (s.mapSlot c.key fun t =>
    let p := t.win .y
    t.setWin .y { p with known := true, doneAt := max p.doneAt (s.cyc + 1), hasRes := trap.isNone, r
                         flags := if trap.isNone then c.flags else 0, trap }).putCopy c.key none

/-- The packet of a COPY command ends, or ends with an error (R234, R235). -/
def endCommand (s : State) (q i : Nat) (fail : Option Nat) : State :=
  { s with queues := s.queues.map fun x =>
      if x.num = q then { x with started := x.started.map fun p =>
        if p.idx = i then { p with finished := true, fail := fail } else p } else x }

/-- A copy stopped by a failed piece (R271), or a COPY packet (R235). -/
def failCopy (s : State) (c : Copy) (kind : Nat) : State :=
  match c.cmd with
  | some (q, i) => endCommand { s with copies := s.copies.filter (fun x => x.key ≠ c.key) } q i (some 6)
  | none =>
  let s := if c.ring = 0 then s
    else match translate s c.agent c.ring .amo with
      | .ok l => ringFail s l
      | .error _ => s
  answerCopy s c 0 (some { cause := 10, detail := kind, maddr := BitVec.ofNat 64 c.off, mtpc := c.pc, nx := true })

/-- The copy of a slot. -/
def State.copy? (s : State) (k : SlotKey) : Option Copy := s.copies.find? (fun c => c.key = k)

/-- A copy that waits for its slot of a ring. -/
def Copy.claims (c : Copy) (now : Nat) : Bool := c.ring != 0 && c.slot.isNone && decide (c.due ≤ now)

/-- A copy with a piece to perform. -/
def Copy.moves (c : Copy) (now : Nat) : Bool :=
  (c.ring == 0 || c.slot.isSome) && decide (c.off < c.total) && decide (c.due ≤ now)

/-- A copy whose bytes are all performed. -/
def Copy.ends (c : Copy) (now : Nat) : Bool :=
  (c.ring == 0 || c.slot.isSome) && decide (c.total ≤ c.off) && decide (c.due ≤ now)

/-- A claim that can be granted now. -/
def claimNow (s : State) (c : Copy) : Option State :=
  if !c.claims s.cyc then none
  else
    match translate s c.agent c.ring .amo with
    | .error k => some (failCopy s c k)
    | .ok l =>
      match ringClaim? s l with
      | none => none
      | some (slot, s1) => some (s1.putCopy c.key (some { c with slot := some (slot, ringHandle (ringAt s l) slot) }))

/-- RING_CLAIM (R256): the copy of slot `key` claims slot cp. -/
def execRingClaim (s : State) : Out := orNone do
  let c ← s.copy? s.ev.key
  claimNow s c

/-- An earlier access of the copy's thread to its piece's lines is still under way (R163): a store, a load, an atomic, or one
of a sequence that its rep started before. -/
def pieceBusy (s : State) (c : Copy) (cell n : Nat) : Bool :=
  (match s.focus c.key with
    | some s =>
      s.th.posted.any (fun p => sameLine p.cell p.bytes.length cell n) || s.th.mem.any (fun a => sameLine a.cell a.n cell n)
        || s.behindSibling s.th cell n
        || (decide (s.th.rep.since < c.since) && s.seqLines.any (fun x => sameLine x.1 64 cell n))
    | none => false) || s.homeQ.any (fun a => a.key == c.key && sameLine a.cell 16 cell n)

/-- A core no longer holds its views of a run of cells' lines: its thread's engine has read or written them (R163, R178). -/
def State.evictRun (s : State) (k : CoreKey) (cell n : Nat) : State :=
  { s with peerLines := s.peerLines.filter (fun p => !(p.core == k && sameLine p.cell 64 cell n)) }

/-- The places of a piece that has passed its checks, as they are translated now. -/
def pieceLocs (s : State) (c : Copy) (src : Word) (dst : Option Word) (n : Nat) : Except Nat (Loc × Loc) :=
  if c.off < c.cut then do
    let ls ← translate s c.agent src .load
    let ld ← match dst with
      | some d => translate s c.agent d .store
      | none => .error kPermission
    pure (ls, ld)
  else checkPiece s c src dst n

/-- The bytes of a piece of `n` bytes that one step performs: all, or the aligned dwords of a scratchpad destination up to
the `k`th, which other observers may see one by one (R177). The lines of other destinations are owned by the engine until
the piece is written, so that nothing is seen between them. -/
def Loc.part (ld : Loc) (k n : Nat) : Nat :=
  match ld.space with
  | .scr _ => if k = 0 then n else min n (8 * k - ld.cell % 8)
  | _ => n

/-- The next piece of a copy, or `k` dwords of it where `k` is not 0, where it can be checked and performed now. -/
def pieceNow (s : State) (c : Copy) (k : Nat := 0) : Option State :=
  if !c.moves s.cyc then none
  else
    let (src, dst, n) := c.piece s c.off
    match if 3 ≤ c.retr then .error kLink else pieceLocs s c src dst n with
    | .error k => some (failCopy s c k)
    | .ok (ls, ld) =>
      let cut := c.off + n
      let n := if c.kind = 1 ∧ k ≠ 0 then min n (8 * k) else ld.part k n
      if pieceBusy s c ls.cell n ∨ pieceBusy s c ld.cell n then none
      else
        let bs := readRun s ls.aes (n / 64 + 2) ls.cell n
        let s := (s.evictRun c.key.coreKey ls.cell n).evictRun c.key.coreKey ld.cell n
        let (due, s) := s.after 1
        if c.kind = 1 then
          let (s, f) := addRun s ld.aes ld.cell bs c.flags
          some (s.putCopy c.key (some { c with off := c.off + n, cut, flags := f, due, retr := 0 }))
        else some ((writeRun s ld.aes (n / 64 + 2) ld.cell bs).putCopy c.key (some { c with off := c.off + n, cut, due, retr := 0 }))

/-- COPY_PIECE (R270): the next piece of the copy of slot `key`, or `n` dwords of it. -/
def execCopyPiece (s : State) : Out := orNone do
  let c ← s.copy? s.ev.key
  pieceNow s c s.ev.n

/-- The widest scope at which the advance over a copy's slot releases: the copy's own, the ring's where it pushes, .dv where
it may fire the drain record (R252, R256). -/
def advanceScope (c : Copy) (r : RingObj) : Nat :=
  max (fld c.ctl 2 0) (max (if r.push.getLsbD 63 then ringScope r else 0) (if ringArmed r then 2 else 0))

/-- The copy can fill its slot: the accesses of its thread from before the trigger, which the ring's advance releases, are
performed (R177, R256, R270). -/
def mayFill (s : State) (c : Copy) : Bool :=
  match translate s c.agent c.ring .amo with
  | .ok l => s.earlierDone c.key c.since (advanceScope c (ringAt s l))
  | .error _ => true

/-- COPY_COMPLETE (R270): the copy of slot `key` fills its slot and gives its result. -/
def execCopyComplete (s : State) : Out := orNone do
  let c ← s.copy? s.ev.key
  if !c.ends s.cyc ∨ (c.slot.isSome ∧ !mayFill s c) then none
  else
    let s := match c.slot with
      | none => s
      | some (slot, _) =>
        match translate s c.agent c.ring .amo with
        | .ok l => ringFill s c.ctx l slot
        | .error _ => s
    pure (match c.cmd with
      | some (q, i) => endCommand { s with copies := s.copies.filter (fun x => x.key ≠ c.key) } q i none
      | none => answerCopy s c (BitVec.ofNat 64 c.total) none)

/-! ### Pushes (R277) -/

/-- A push that is first of its port and finds room. -/
def pushReady (s : State) (n : Nat) : Bool :=
  match s.pushes[n]? with
  | none => false
  | some p =>
    !(s.pushes.take n).any (fun q => q.port == p.port) &&
      match s.chan? p.chan with
      | some c => c.st != 1 && c.hasRoom 1 s.cyc
      | none => true

/-- RING_PUSH (R277): handle `n` of those waiting is enqueued, synced; one whose channel is gone is dropped. -/
def execRingPush (s : State) : Out :=
  if !pushReady s s.ev.n then .fault .noSubject
  else
    orNone ((s.pushes[s.ev.n]?).map fun p =>
      { s with pushes := s.pushes.eraseIdx s.ev.n }.enqueueAt p.chan p.handle false true)

/-! ### The instructions -/

/-- YCOPY (R270). -/
def execYcopy (g : Guard) (l : BitVec 4) (src : Src) (s : State) : Out := trigger .ycopy l g src (actYcopy l) s
/-- YCOPY_ADD (R272). -/
def execYcopyAdd (g : Guard) (l : BitVec 4) (src : Src) (s : State) : Out := trigger .ycopyAdd l g src (actYcopyAdd l) s
/-- YMCAST (R273). -/
def execYmcast (g : Guard) (l : BitVec 4) (src : Src) (s : State) : Out := trigger .ymcast l g src (actYmcast l) s
/-- YRING (R275). -/
def execYring (g : Guard) (l : BitVec 4) (src : Src) (s : State) : Out := trigger .yring l g src (actYring l) s
/-- YAWAIT (R276). -/
def execYawait (g : Guard) (src : Src) (s : State) : Out := trigger .yawait 0 g src actYawait s
/-- YREL (R276). -/
def execYrel (g : Guard) (l : BitVec 4) (src : Src) (s : State) : Out := trigger .yrel l g src (actYrel l) s
/-- YPUSH (R277). -/
def execYpush (g : Guard) (l : BitVec 4) (src : Src) (s : State) : Out := trigger .ypush l g src (actYpush l) s
/-- YDESC (R274). -/
def execYdesc (g : Guard) (l : BitVec 4) (src : Src) (s : State) : Out := trigger .ydesc l g src (actYdesc l) s

end Sys2Proof.Machine
end

