-- ==== Sys2Proof/Machine/VectorUnit.lean ====
section
/-! DEFINITION. V: lane operations, conversions, selections, reductions, vector loads and stores, and repetition
sequences (R13, R47, R92 to R102). -/

namespace Sys2Proof.Machine

/-! ### Vector triggers -/

/-- A vector source read, with the operand latches `ops`, and what the transport does with its value. -/
def withVSrc (trig look : Nat) (ops : List RegRef) (src : VSource) (act : Vec → State → Act) (s : State) : State :=
  match s.readVSource src with
  | .val v d => checked (vsrcRegs src ++ ops) (fun s => conclude true trig look s d (act v s.advance)) s
  | .due c => conclude true trig look s none (.wait c)
  | .empty q => conclude true trig look s none (.stall (.queue q.toNat true))
  | .qerror q => conclude true trig look s none (.queueError q.toNat)

/-- A class 01 word takes V in its cycle (R101). -/
def State.takeV (s : State) : State := { s with vUsed := s.th.key.coreKey :: s.vUsed }

/-- A word of the thread's sequence takes V in its cycle, and its slot is the one its core's sequencers served last. -/
def State.takeSeq (s : State) : State :=
  { s.takeV with rrRep := (s.th.key.coreKey, s.th.key.slot) :: s.rrRep.filter (fun x => x.1 ≠ s.th.key.coreKey) }

/-- A class 01 transport to a vector trigger: it ends an open V window (R40, R47, R78, R100). -/
def vtrigger (t : VTrig) (look : BitVec 4) (g : Guard) (src : VSource) (act : Vec → State → Act) (s : State) : Out :=
  issue (fun k m => vsourceFate k m src) g
    (endWindow [.v] (withVSrc t.num look.toNat (vOperandRegs t) src act)) s.takeV

/-- A fixed-latency V operation by its thread: operands, mode and draws captured at the trigger. -/
def vectorAct (op : VTrig) (t : Vec) (s : State) : Act :=
  let y := vectorOp op s.th.vo s.th.vo2 t (s.th.get .xrnd)
  .done ((s.map (fun th => th.set .xrnd y.xrnd)).launch none (vectorLatency op) 0 y.v y.flags)

def actVaddF : Vec → State → Act := vectorAct .vaddF
def actVsubF : Vec → State → Act := vectorAct .vsubF
def actVmulF : Vec → State → Act := vectorAct .vmulF
def actVfmaF : Vec → State → Act := vectorAct .vfmaF
def actVmaxF : Vec → State → Act := vectorAct .vmaxF
def actVminF : Vec → State → Act := vectorAct .vminF
def actVexp2F : Vec → State → Act := vectorAct .vexp2F
def actVrcpF : Vec → State → Act := vectorAct .vrcpF
def actVrsqF : Vec → State → Act := vectorAct .vrsqF
def actVcvtBf : Vec → State → Act := vectorAct .vcvtBf
def actVcvtE4 : Vec → State → Act := vectorAct .vcvtE4
def actVcvtE5 : Vec → State → Act := vectorAct .vcvtE5
def actVunpBf : Vec → State → Act := vectorAct .vunpBf
def actVunpE4 : Vec → State → Act := vectorAct .vunpE4
def actVunpE5 : Vec → State → Act := vectorAct .vunpE5
def actVaddI : Vec → State → Act := vectorAct .vaddI
def actVsubI : Vec → State → Act := vectorAct .vsubI
def actVmulI : Vec → State → Act := vectorAct .vmulI
def actVand : Vec → State → Act := vectorAct .vand
def actVor : Vec → State → Act := vectorAct .vor
def actVxor : Vec → State → Act := vectorAct .vxor
def actVshl : Vec → State → Act := vectorAct .vshl
def actVshr : Vec → State → Act := vectorAct .vshr
def actVsra : Vec → State → Act := vectorAct .vsra
def actVceqF : Vec → State → Act := vectorAct .vceqF
def actVcltF : Vec → State → Act := vectorAct .vcltF
def actVsel : Vec → State → Act := vectorAct .vsel
def actVbc : Vec → State → Act := vectorAct .vbc
def actVrot : Vec → State → Act := vectorAct .vrot
def actVperm : Vec → State → Act := vectorAct .vperm
def actVsumF : Vec → State → Act := vectorAct .vsumF
def actVmaxR : Vec → State → Act := vectorAct .vmaxR

def actVld (l : BitVec 4) (t : Vec) (s : State) : Act :=
  access ordLoad 64 .load 0 none (s.th.vectorAddr t) s fun at_ loc => .done (launchLoad s .v false 64 false l at_ (s.th.vectorAddr t) loc)

def actVst (l : BitVec 4) (t : Vec) (s : State) : Act :=
  storeAct .v 64 (vecBytes s.th.vo) l (s.th.vectorAddr t) s

/-! ### Repetition (R13, R47, R102) -/

/-- The highest v register a block word names, 0 for none: a block that names none is not checked for its stride and count,
as R47 gives that no value (log entry 51). -/
def BlockWord.top (b : BlockWord) : Nat :=
  max (match b.src with
    | .vec (.v r) => r.toNat
    | _ => 0)
    (match b.dst with
    | .vec (.v r) => r.toNat
    | _ => 0)

/-- The block word names a v register. -/
def BlockWord.namesV (b : BlockWord) : Bool :=
  (match b.src with
    | .vec (.v _) => true
    | _ => false) ||
  (match b.dst with
    | .vec (.v _) => true
    | _ => false)

/-- An instruction word fetched (R183): the word, or the fault kind. -/
def fetchWord (s : State) (va : Word) : Except Nat (BitVec 32) :=
  match translate s s.self va .code with
  | .error k => .error k
  | .ok l =>
    match l.space with
    | .hbm | .hostCached =>
      if s.denied l.cell 0 4 ≠ 0 then .error (s.denied l.cell 0 4) else .ok (BitVec.ofNat 32 (leNat (s.readAs l.aes l.cell 4)))
    | _ => .error kPermission

/-- What a block says: its words, a fetch fault, or the trap of R47 (2 illegal-transport, 3 privilege). -/
inductive Block47 where
  | ok (ws : List BlockWord)
  | fault (kind : Nat) (addr : Word)
  | trap (cause : Nat)

/-- The words of a block from an address on. -/
def blockWords (s : State) : Nat → Word → Block47
  | 0, _ => .ok []
  | n + 1, va =>
    match fetchWord s va with
    | .error k => .fault k va
    | .ok w =>
      match blockWord w with
      | none => .trap 2
      | some b =>
        match blockWords s n (va + 4) with
        | .ok bs => .ok (b :: bs)
        | x => x

/-- R47's checks of a block of `bm1 + 1` words after the rep word at `va`. -/
def checkBlock (s : State) (va : Word) (bm1 stride cm1 : Nat) : Block47 :=
  if ¬isStage s.th.key then .trap 2
  else
    match blockWords s (bm1 + 1) (va + 4) with
    | .ok bs =>
      if bs.any (fun b => b.namesV && decide (15 < b.top + cm1 * stride)) then .trap 2
      else
        match (bs.map (fun b => vsourceFate s.th.key s.th.mode b.src)).foldl Fate.and .ok with
        | .ok => .ok bs
        | .privilege => .trap 3
        | .illegal => .trap 2
    | x => x

/-- A word of the block of `n` words after `va` is still to be written by an earlier store of the thread (R183). -/
def blockBusy (s : State) (va : Word) (n : Nat) : Bool :=
  (List.range n).any fun j =>
    match translate s s.self (va + 4 * BitVec.ofNat 64 (j + 1)) .code with
    | .ok l => codeBusy s l.cell
    | .error _ => false

/-- The words after a rep word. -/
def blockRaw (s : State) (va : Word) (n : Nat) : List (BitVec 32) :=
  (List.range n).map fun j =>
    match fetchWord s (va + 4 * BitVec.ofNat 64 (j + 1)) with
    | .ok w => w
    | .error _ => 0

/-- A restored sequence with its block words read again, where it passes R47's checks (R350, R355). -/
def rereadRep (s : State) (r : Rep) : Option Rep :=
  match checkBlock s r.addr r.bm1 r.stride r.cm1 with
  | .ok _ => if r.word ≤ r.bm1 ∧ r.pass ≤ r.cm1 then some { r with words := blockRaw s r.addr (r.bm1 + 1) } else none
  | _ => none

/-- The scalar sources of the block's words whose guard holds, read in order with their dequeues (R47). The guards are
those of `t0`, captured before the first dequeue. -/
def captureScalars (t0 : Thread) (s : State) : List BlockWord → Except Act (List Word × State)
  | [] => .ok ([], s)
  | b :: bs =>
    let rest (w : Word) (s : State) : Except Act (List Word × State) :=
      match captureScalars t0 s bs with
      | .ok (ws, s) => .ok (w :: ws, s)
      | .error a => .error a
    match b.src with
    | .vec _ => rest 0 s
    | .bc p =>
      if !t0.holds b.g then rest 0 s
      else
        match s.readPort p with
        | .val w none => rest w s
        | .val w (some (q, c, e)) => rest w (s.queueTake q c e)
        | .due c => .error (.wait c)
        | .empty q => .error (.stall (.queue q.toNat true))
        | .qerror q => .error (.queueError q.toNat)

/-- The registers of the scalar sources that a rep captures. -/
def blockRegs (t : Thread) (bs : List BlockWord) : List RegRef :=
  (bs.filter (fun b => t.holds b.g)).flatMap (fun b => match b.src with
    | .vec _ => []
    | .bc p => portRegs p)

/-- The draws of all passes (R70). -/
def blockDraws (bs : List BlockWord) (gv : BitVec 8) (count : Nat) : Nat :=
  count * ((List.range bs.length).zip bs |>.foldl (fun n (i, b) =>
    match b.dst with
    | .trig t => if gv.getLsbD i then n + vectorDraws t else n
    | _ => n) 0)

/-- The guard values of a block's words. -/
def blockGuards (t : Thread) (bs : List BlockWord) : BitVec 8 :=
  ((List.range bs.length).zip bs).foldl (fun v (i, b) => if t.holds b.g then v ||| (1#8 <<< i) else v) 0

/-- A rep whose guard holds (R47): the block checked and captured, the sequence handed to V, the thread going on
after the block. -/
def repAct (cm1 : BitVec 6) (stride : BitVec 4) (bm1 : BitVec 3) (la : BitVec 4) (s : State) : State :=
  if blockBusy s s.th.pc (bm1.toNat + 1) then conclude false 0 0 s none (.wait (s.cyc + 1)) else
  match checkBlock s s.th.pc bm1.toNat stride.toNat cm1.toNat with
  | .trap c => trapHere s c
  | .fault k a => raiseFault s false 0 0 k a
  | .ok bs =>
    let gv := blockGuards s.th bs
    match captureScalars s.th s bs with
    | .error a => conclude false 0 0 s none a
    | .ok (ws, s1) => checked (blockRegs s.th bs) (fun s =>
      let r : Rep :=
        { act := true, gv := gv, word := 0, pass := 0, bm1 := bm1.toNat, stride := stride.toNat, cm1 := cm1.toNat
          addr := s.th.pc, words := blockRaw s s.th.pc (bm1.toNat + 1)
          scal := Vector.ofFn (fun i => ws.getD i.val 0), xrnd := s.th.get .xrnd, next := s.cyc + 1, since := s.cyc }
      let s2 := s1.advance.openWin .v la { known := false, rep := true }
      s2.map (fun t => { t.set .xrnd (skipDraws (blockDraws bs gv (cm1.toNat + 1)) (t.get .xrnd)) with
        rep := r, pc := s.th.pc + 4 * (BitVec.ofNat 64 (bm1.toNat + 2)) })) s

/-- The sequence ended: its window completes once the last result is visible, and not before cycle `next` (R47). -/
def endSequence (s : State) (next : Nat) : State :=
  s.map (fun t =>
    let p := t.win .v
    let due := t.flightDue none next
    { t.setWin .v { p with known := true, doneAt := max p.doneAt due } with rep := {} })

/-- The sequence moves past a word. -/
def stepSequence (s : State) (pass word next : Nat) : State :=
  let r : Rep := { s.th.rep with pass := pass, word := word + 1, next := next }
  let s := s.map (fun t => { t with rep := r })
  match r.todo with
  | none => endSequence s next
  | some (p, w) => s.map (fun t => { t with rep := { r with pass := p, word := w } })

/-- The value a block word moves in a pass, or the cycle from which it can be read. -/
def blockValue (s : State) (b : BlockWord) (pass word : Nat) : VRead :=
  match b.src with
  | .vec (.v r) => .val (s.th.getV (renamed r pass s.th.rep.stride)) none
  | .vec .vr => s.readVPort .vr
  | .bc _ => .val (broadcast ((s.th.rep.scal.toList.getD word 0).setWidth 32)) none

/-- A fault of a sequence's word at `at_` suspends the sequence, and the thread with it; the thread's own hold stays
(R102). While the thread's own transport is held for a fault, the word is issued again later. -/
def sequenceFault (s : State) (trig kind : Nat) (x at_ : Word) : State :=
  if s.th.latch.isSome then s.map (fun th => { th with rep := { th.rep with next := s.cyc + 1 } })
  else
    let h := s.th.hold
    (raiseFault s true trig 0 kind x at_).map (fun th =>
      { th with hold := h, latch := th.latch.map (fun r => { r with seq := true }) })

/-- A block word's vld or vst: it holds the sequence until it completes; a fault suspends the sequence (R102). -/
def sequenceMemory (s : State) (t : VTrig) (v : Vec) (pass word : Nat) : State :=
  let a := s.th.vectorAddr v
  let at_ := s.th.rep.addr + 4 * BitVec.ofNat 64 (word + 1)
  let act : Act :=
    if t = .vld then
      access ordLoad 64 .load 0 none a s (fun at2 loc => .done (launchLoad s .v true 64 false 0 at2 a loc)) true
    else storeAct .v 64 (vecBytes s.th.vo) 0 a s true
  match act with
  | .done s1 => let s1 := s1.takeSeq; if s1.th.mem.any Access.seq then s1 else stepSequence s1 pass word (s.cyc + 1)
  | .doneThen s1 _ => s1
  | .stall h => (if h = .drain then s.flushWcb else s).map (fun th => { th with rep := { th.rep with next := s.cyc + 1 } })
  | .hold _ _ => s
  | .wait c => s.map (fun th => { th with rep := { th.rep with next := c } })
  | .trap c d i m => takeTrap s { cause := c, detail := d, info := i, maddr := m, mtpc := s.th.pc }
  | .fault k x => sequenceFault s t.num k x at_
  | .faultAfter s1 k x => sequenceFault { s1 with th := s.th } t.num k x at_
  | .double => s.doubleFault
  | .owing u ti => takeTrap (s.map (fun t => t.setWin u {})) ti

/-- The registers that a block word reads in a pass. -/
def passRegs (s : State) (b : BlockWord) (pass : Nat) : List RegRef :=
  (match b.src with
    | .vec (.v r) => [.v (renamed r pass s.th.rep.stride)]
    | .vec .vr => [.vr]
    | .bc _ => []) ++ (match b.dst with
    | .trig t => vOperandRegs t
    | _ => [])

/-- A block word issued by the sequencer in a pass (R13, R47, R102). -/
def sequenceWord (s : State) (b : BlockWord) (pass word : Nat) : State :=
  match blockValue s b pass word with
  | .val v _ => checked (passRegs s b pass) (fun s =>
    let s0 := s
    let s := s.takeSeq
    match b.dst with
    | .vec (.v r) => stepSequence (s.map (fun t => t.setV (renamed r pass t.rep.stride) v)) pass word (s.cyc + 1)
    | .vec .vo => stepSequence (s.map (fun t => t.setVo v)) pass word (s.cyc + 1)
    | .vec .vo2 => stepSequence (s.map (fun t => t.setVo2 v)) pass word (s.cyc + 1)
    | .g r => stepSequence (s.map (fun t => t.setG r (v.setWidth 64))) pass word (s.cyc + 1)
    | .trig t =>
      if t = .vld ∨ t = .vst then sequenceMemory s0 t v pass word
      else
        let y := vectorOp t s.th.vo s.th.vo2 v s.th.rep.xrnd
        let s := s.launch none (vectorLatency t) 0 y.v 0
        let p := s.th.win .v
        let s := s.map (fun th => { th.setWin .v { p with flags := p.flags ||| y.flags } with
          rep := { th.rep with xrnd := y.xrnd } })
        stepSequence s pass word (s.cyc + 1)) s
  | .due c => s.map (fun t => { t with rep := { t.rep with next := c } })
  | _ => s

/-- The sequence of the thread in focus issues its next word (R101). -/
def sequenceIssue (s : State) : State :=
  let s := s.map (fun t => t.settle s.cyc)
  match s.th.rep.todo with
  | none => endSequence s (s.cyc + 1)
  | some (pass, word) =>
    match (s.th.rep.words[word]?).bind blockWord with
    | some b => sequenceWord s b pass word
    | none => endSequence s (s.cyc + 1)

/-! ### Accesses performed (R162 to R166, R171, R180) -/

/-- Access `n` of the thread in focus replaced, or removed. -/
def State.putAccess (s : State) (n : Nat) (a : Option Access) : State :=
  s.map (fun t => { t with mem := t.mem.take n ++ a.toList ++ t.mem.drop (n + 1) })

/-- The access has been performed: its value is delivered to its window or to its sequence, and it acquires. -/
def finishAccess (s : State) (n : Nat) (a : Access) : State :=
  let s := s.putAccess n none
  let s := match a.acq with
    | some scope => s.acquire scope
    | none => s
  let x := a.value
  let v := BitVec.ofNat 512 (leNat a.bytes)
  if a.seq then
    let s := if a.load then
        s.map (fun t => { t with flight := t.flight ++ [⟨none, t.flightDue none (max a.done s.cyc), 0, v, 0⟩] })
      else s
    stepSequence s s.th.rep.here.1 s.th.rep.here.2 (max a.done (s.cyc + 1))
  else
    s.map (fun t =>
      let p := { t.win a.u with known := true, doneAt := max (t.win a.u).doneAt s.cyc }
      t.setWin a.u (if a.load ∧ a.u = .v then { p with v := v } else if a.load then { p with r := x.1, r2 := x.2 } else p))

/-- The packet of access `n` of the thread in focus has met its third retrain: a link fault (R192, R371), once its thread
can be held; one of its sequence suspends the sequence (R102). -/
def failAccess (s : State) (n : Nat) (a : Access) : Option State :=
  if a.seq then
    some (sequenceFault (s.putAccess n none) a.trig kLink a.va (s.th.rep.addr + 4 * BitVec.ofNat 64 (s.th.rep.here.2 + 1)))
  else if mayHold s.th.hold ∧ s.th.latch.isNone then
    some (lateHold (s.putAccess n none) a.u (a.latch kLink) (if a.load then [] else a.bytes))
  else none

/-- The next piece of access `n` of the thread in focus performed: read, or written; none where it has to wait. -/
def performNow (s : State) (n : Nat) : Option State :=
  match s.th.mem[n]? with
  | none => none
  | some a =>
    if 3 ≤ a.retr then failAccess s n a else
    let cell := a.cell + a.off
    let k := min a.grain (a.n - a.off)
    let go (a : Access) (s : State) : State := if a.off < a.n then s.putAccess n (some a) else finishAccess s n a
    if a.load then
      (if a.viewed then s.viewBytes cell k a.acq.isSome else some (s.readAs a.aes cell k, s)).map fun (bs, s) =>
        go { a with bytes := a.bytes ++ bs, off := a.off + k } s
    else
      let bs := (a.bytes.drop a.off).take k
      let s := s.writeAs a.aes cell bs
      some (go { a with off := a.off + k } (if a.viewed then s.show s.th.key.coreKey cell bs else s))

/-- REP (R47). A false guard skips the block. -/
def execRep (g : Guard) (cm1 : BitVec 6) (stride : BitVec 4) (bm1 : BitVec 3) (la : BitVec 4) (s : State) : Out :=
  let s := s.map (fun t => t.settle s.cyc)
  if s.th.holds g then .next (endWindow [.v] (repAct cm1 stride bm1 la) s)
  else .next (s.advance.map (fun t => { t with pc := s.th.pc + 4 * (BitVec.ofNat 64 (bm1.toNat + 2)) }))

/-! ### The instructions -/

/-- VADD_F (R93). -/
def execVaddF (g : Guard) (src : VSource) (s : State) : Out := vtrigger .vaddF 0 g src actVaddF s
/-- VSUB_F (R93). -/
def execVsubF (g : Guard) (src : VSource) (s : State) : Out := vtrigger .vsubF 0 g src actVsubF s
/-- VMUL_F (R93). -/
def execVmulF (g : Guard) (src : VSource) (s : State) : Out := vtrigger .vmulF 0 g src actVmulF s
/-- VFMA_F (R93). -/
def execVfmaF (g : Guard) (src : VSource) (s : State) : Out := vtrigger .vfmaF 0 g src actVfmaF s
/-- VMAX_F (R93). -/
def execVmaxF (g : Guard) (src : VSource) (s : State) : Out := vtrigger .vmaxF 0 g src actVmaxF s
/-- VMIN_F (R93). -/
def execVminF (g : Guard) (src : VSource) (s : State) : Out := vtrigger .vminF 0 g src actVminF s
/-- VEXP2_F (R94). -/
def execVexp2F (g : Guard) (src : VSource) (s : State) : Out := vtrigger .vexp2F 0 g src actVexp2F s
/-- VRCP_F (R94). -/
def execVrcpF (g : Guard) (src : VSource) (s : State) : Out := vtrigger .vrcpF 0 g src actVrcpF s
/-- VRSQ_F (R94). -/
def execVrsqF (g : Guard) (src : VSource) (s : State) : Out := vtrigger .vrsqF 0 g src actVrsqF s
/-- VCVT_BF (R95). -/
def execVcvtBf (g : Guard) (src : VSource) (s : State) : Out := vtrigger .vcvtBf 0 g src actVcvtBf s
/-- VCVT_E4 (R95). -/
def execVcvtE4 (g : Guard) (src : VSource) (s : State) : Out := vtrigger .vcvtE4 0 g src actVcvtE4 s
/-- VCVT_E5 (R95). -/
def execVcvtE5 (g : Guard) (src : VSource) (s : State) : Out := vtrigger .vcvtE5 0 g src actVcvtE5 s
/-- VUNP_BF (R96). -/
def execVunpBf (g : Guard) (src : VSource) (s : State) : Out := vtrigger .vunpBf 0 g src actVunpBf s
/-- VUNP_E4 (R96). -/
def execVunpE4 (g : Guard) (src : VSource) (s : State) : Out := vtrigger .vunpE4 0 g src actVunpE4 s
/-- VUNP_E5 (R96). -/
def execVunpE5 (g : Guard) (src : VSource) (s : State) : Out := vtrigger .vunpE5 0 g src actVunpE5 s
/-- VADD_I (R93). -/
def execVaddI (g : Guard) (src : VSource) (s : State) : Out := vtrigger .vaddI 0 g src actVaddI s
/-- VSUB_I (R93). -/
def execVsubI (g : Guard) (src : VSource) (s : State) : Out := vtrigger .vsubI 0 g src actVsubI s
/-- VMUL_I (R93). -/
def execVmulI (g : Guard) (src : VSource) (s : State) : Out := vtrigger .vmulI 0 g src actVmulI s
/-- VAND (R93). -/
def execVand (g : Guard) (src : VSource) (s : State) : Out := vtrigger .vand 0 g src actVand s
/-- VOR (R93). -/
def execVor (g : Guard) (src : VSource) (s : State) : Out := vtrigger .vor 0 g src actVor s
/-- VXOR (R93). -/
def execVxor (g : Guard) (src : VSource) (s : State) : Out := vtrigger .vxor 0 g src actVxor s
/-- VSHL (R93). -/
def execVshl (g : Guard) (src : VSource) (s : State) : Out := vtrigger .vshl 0 g src actVshl s
/-- VSHR (R93). -/
def execVshr (g : Guard) (src : VSource) (s : State) : Out := vtrigger .vshr 0 g src actVshr s
/-- VSRA (R93). -/
def execVsra (g : Guard) (src : VSource) (s : State) : Out := vtrigger .vsra 0 g src actVsra s
/-- VCEQ_F (R88). -/
def execVceqF (g : Guard) (src : VSource) (s : State) : Out := vtrigger .vceqF 0 g src actVceqF s
/-- VCLT_F (R88). -/
def execVcltF (g : Guard) (src : VSource) (s : State) : Out := vtrigger .vcltF 0 g src actVcltF s
/-- VSEL (R97). -/
def execVsel (g : Guard) (src : VSource) (s : State) : Out := vtrigger .vsel 0 g src actVsel s
/-- VBC (R97). -/
def execVbc (g : Guard) (src : VSource) (s : State) : Out := vtrigger .vbc 0 g src actVbc s
/-- VROT (R97). -/
def execVrot (g : Guard) (src : VSource) (s : State) : Out := vtrigger .vrot 0 g src actVrot s
/-- VPERM (R97). -/
def execVperm (g : Guard) (src : VSource) (s : State) : Out := vtrigger .vperm 0 g src actVperm s
/-- VSUM_F (R98). -/
def execVsumF (g : Guard) (src : VSource) (s : State) : Out := vtrigger .vsumF 0 g src actVsumF s
/-- VMAX_R (R98). -/
def execVmaxR (g : Guard) (src : VSource) (s : State) : Out := vtrigger .vmaxR 0 g src actVmaxR s
/-- VLD (R99). -/
def execVld (g : Guard) (l : BitVec 4) (src : VSource) (s : State) : Out := vtrigger .vld l g src (actVld l) s
/-- VST (R99). -/
def execVst (g : Guard) (l : BitVec 4) (src : VSource) (s : State) : Out := vtrigger .vst l g src (actVst l) s

end Sys2Proof.Machine
end

