-- ==== Sys2Proof/Machine/Control.lean ====
section
/-! DEFINITION. Control words and C (R45, R46, R48). -/

namespace Sys2Proof.Machine

/-- A branch offset in bytes. -/
def branchOffset (off : BitVec 22) : Word := off.signExtend 64 * 4

/-- A taken branch: the first transport at the target issues no earlier than the second cycle after it (R45). -/
def State.jump (s : State) (pc : Word) : State := s.map (fun t => { t with pc := pc, readyAt := s.cyc + 2 })

/-- BR (R45). -/
def execBr (g : Guard) (off : BitVec 22) (s : State) : Out :=
  issue (fun _ _ => .ok) g (fun s => s.advance.jump (s.th.pc + branchOffset off)) s

/-- BRL (R45): g31 takes the address of the following word. -/
def execBrl (g : Guard) (off : BitVec 22) (s : State) : Out :=
  issue (fun _ _ => .ok) g
    (fun s => (s.advance.map (fun t => t.setG 31 (s.th.pc + 4))).jump (s.th.pc + branchOffset off)) s

/-- NOP (R46). -/
def execNop (g : Guard) (s : State) : Out := issue (fun _ _ => .ok) g State.advance s

/-- A jump to the trigger value (R48). -/
def jumpAct (link : Bool) (t : Word) (s : State) : Act :=
  if t.extractLsb' 0 2 ≠ 0 then .illegal
  else .done ((if link then s.map (fun th => th.setG 31 th.pc) else s).jump t)

def actJr : Word → State → Act := jumpAct false
def actJrl : Word → State → Act := jumpAct true

/-! ### The instructions -/

/-- JR (R48). -/
def execJr (g : Guard) (src : Src) (s : State) : Out := trigger .jr 0 g src actJr s
/-- JRL (R48). -/
def execJrl (g : Guard) (src : Src) (s : State) : Out := trigger .jrl 0 g src actJrl s

end Sys2Proof.Machine
end

