-- ==== Sys2Proof/Machine/Tasks.lean ====
section
/-! DEFINITION. S: spawn, retirement, suspension and barriers (R14, R215 to R229, R243, R257 to R263), and how a thread
starts, is saved and resumes (R38, R223, R351, R359, R363). -/

namespace Sys2Proof.Machine

/-! ### Starting (R38) -/

/-- The thread at continuation start of a record. xrnd takes the record's rnd field as it is: no rule rejects a record with
the reserved mode 6 or 7 (log entry 49). -/
def startThread (s : State) (key : SlotKey) (ctx : Nat) (rec : Word) (bind : Vector Binding 8) : Thread :=
  let t : Thread :=
    { key, ctx, record := rec, life := .running, pc := recWord s ctx rec 0, bind
      preq := ((s.ctx? ctx).map Ctx.preq).getD false }
  let t := (((t.setG 1 (recWord s ctx rec 0x28)).setG 2 (recWord s ctx rec 0x30)).setG 29 rec).setG 30
    (recWord s ctx rec 8)
  t.set .xrnd (BitVec.ofNat 64 (2 ^ 32 + fld (recState s ctx rec) 11 8))

/-- A thread placed in its slot and brought into focus. -/
def State.place (s : State) (t : Thread) : State :=
  let rest := s.threads.filter (fun u => u.key ≠ t.key)
  { s with th := t, others := rest }

/-- The slot in focus becomes idle. -/
def State.freeSlot (s : State) : State := { s with th := { key := s.th.key } }

/-! ### Saving (R351, R359, R360) -/

/-- The withdrawn-operation record of a hold (R351). -/
def withdrawn (t : Thread) (now : Nat) : List Word :=
  let left (d : Option Nat) : Word := match d with
    | none => 0
    | some d => BitVec.ofNat 64 (max 1 (d - now))
  let head (kind trig : Nat) : Word := BitVec.ofNat 64 (kind + trig * 256)
  match t.hold with
  | .waddr a n ge v lo d _ =>
    [head 1 (0x126 + (if n = 8 then 1 else 0) + (if ge then 2 else 0)), a, v, left d, lo]
  | .sigWait q v lo d => [head 2 0x12F, BitVec.ofNat 64 q, v, left d, lo]
  | .park a v => [head 3 0x196, a, v]
  | .sleep u => [head 4 0x19B, BitVec.ofNat 64 (u - now)]
  | .yawait r => [head 5 0x1C8, r]
  | .gbar g p => [head 6 0x198, BitVec.ofNat 64 g, BitVec.ofNat 64 p]
  | .join => [head 7 0x197]
  | _ => [0]

/-- The hold that a withdrawn operation issues again (R351, R363); its first read is made afresh. -/
def reissued (bs : List Byte) (now : Nat) : Hold :=
  let w := dwordAt bs 0x440
  let d (i : Nat) : Word := dwordAt bs (0x440 + 8 * i)
  let dead (x : Word) : Option Nat := if x = 0 then none else some (now + x.toNat)
  match fld w 7 0 with
  | 1 => .waddr (d 1) (if fld w 18 8 % 2 = 1 then 8 else 4) (decide (0x128 ≤ fld w 18 8)) (d 2) (d 4) (dead (d 3))
      (now + 2800)
  | 2 => .sigWait (d 1).toNat (d 2) (d 4) (dead (d 3))
  | 3 => .park (d 1) (d 2)
  | 4 => .sleep (now + (d 1).toNat)
  | 6 => .gbar (d 1).toNat (d 2).toNat
  | 7 => .join
  | _ => .none

/-- The thread in focus written whole into its frame extension (R347); none where a write to it fails. -/
def saveFrame (s : State) (resume : Word) (wd : List Word) : Option State :=
  match s.frameOf with
  | .error _ => none
  | .ok f =>
    match writeLines s.dev 44 s f (s.th.fullImage resume wd) with
    | .error _ => none
    | .ok s => some (if s.th.rep.act then { s with seqRnds := (s.th.ctx, s.th.record, s.th.rep.xrnd) :: s.seqRnds } else s)

/-- A thread saved because its context is pre-empted (R359, R360): its status, and its slot freed. `c`: a withdrawn copy's
trigger address and record. -/
def savePreempted (s : State) (resume : Word) (wd : List Word) (c : Word × List Word := (0, [])) : State :=
  match saveFrame s resume wd with
  | none => s.doubleFault
  | some s =>
    let t := s.th
    let stage := recIsStage s t.ctx t.record
    let s := if stage then s else recSetStatus s t.ctx t.record 3
    let x : Saved :=
      { record := t.record, key := t.key, stage, pipe := t.pipe, owed := t.owes
        look := ((t.latch.filter Retry.late).map Retry.look).getD 0, yleft := (t.win .y).left, ypc := c.1, copy := c.2 }
    (s.mapCtx t.ctx (fun d => { d with saved := d.saved ++ [x] })).freeSlot

/-- A task suspended (R223): written back, its status set, its slot idle. `sr` is the s.r it resumes with. -/
def suspendTask (s : State) (status : Nat) (sr : Option Word) : State :=
  let s := match sr with
    | some w => s.map (fun t => t.set .sr w)
    | none => s
  match saveFrame s s.th.pc [] with
  | none => s.doubleFault
  | some s =>
    let t := s.th
    let s := recSetStatus s t.ctx t.record status
    { s with suspended := s.suspended ++ [(t.ctx, t.record)] }.freeSlot

/-- A restored latch (R337, R351): that of a word of the thread's sequence, of the transport at the resume PC, or, where it
names neither, of an access whose thread had gone on, with `look` transports left in its window (R192). One on a ring slot
waits again. Any other is replayed at once: the transport and the sequence's word issue again, the access is performed
again. -/
def restoreLatch (s : State) (r : Retry) (look : Nat) : State :=
  let off := (r.pc - s.th.rep.addr).toNat
  let seq := s.th.rep.act && r.pc != s.th.pc && decide (4 ≤ off ∧ off ≤ 4 * (s.th.rep.bm1 + 1))
  let late := !seq && r.pc != s.th.pc
  let word := match fetchWord s r.pc with
    | .ok w => (w.extractLsb' 22 4).toNat
    | .error _ => 0
  let r := { r with look := if late then look else word, late := late, seq := seq }
  if r.ring.isNone then (if late then replayLate s r else s)
  else if seq then s.map (fun t => { t with latch := some r })
  else s.map (fun t => { t with hold := .latch, latch := some r })

/-- The queue port that a held transport dequeues as its source. -/
def heldDequeue (s : State) (pc : Word) : Option (BitVec 3) :=
  match fetchWord s pc with
  | .error _ => none
  | .ok w =>
    if w.getLsbD 31 ∨ w.getLsbD 10 ≠ w.getLsbD 30 then none
    else match SPort.ofNum (w.extractLsb' 0 10).toNat with
      | some (.deq q) => some q
      | _ => none

/-- The thread in focus stands in a transport that a save withdrew: it is performed when its hold ends (R201). -/
def State.asHeld (s : State) : State :=
  s.map (fun t => { t with pc := t.pc - 4, unperformed := some (heldDequeue s (t.pc - 4)) })

/-- A wait on a word that is issued again makes its first read afresh (R201); one that cannot read its word finds that
when its watch is due. -/
def waitAfresh (s : State) : State :=
  match s.th.hold with
  | .waddr a n ge v lo _ _ =>
    match translate s s.self a .load with
    | .error _ => s
    | .ok l =>
      let x := leNat (s.readAs l.aes l.cell n)
      if s.denied l.cell 0 n = 0 ∧ waitDone ge n x v.toNat then waitReturn (s.dropView l) lo x 0 else s
  | _ => s

/-- A saved thread restored into a slot and brought into focus (R223, R351, R363): its latch replayed, or waiting again
on its ring slot, its withdrawn operation issued again, its sequence's words read again. `look`: the count left of a held
access that had left. -/
def resumeThread (s : State) (key : SlotKey) (ctx : Nat) (rec : Word) (pipe : Option (Nat × Nat)) (look : Nat := 0) : State :=
  let f := recWord s ctx rec 8
  match readLines s (devAgent ctx) 44 f 0xAC0 with
  | .error _ => (s.place { key, ctx, record := rec, life := .running, pipe }).doubleFault
  | .ok bs =>
    let t : Thread := { key, ctx, record := rec, life := .running, pipe }
    let mine (x : Nat × Word × Word) : Bool := x.1 == ctx && x.2.1 == rec
    let t := { t with seqRnd := ((s.seqRnds.find? mine).map (fun x : Nat × Word × Word => x.2.2)).getD (Config.startRnd s.draws) }.restoreFull bs
    let s := { s with seqRnds := s.seqRnds.filter (fun x => !mine x) }
    let s := s.place { t with preq := ((s.ctx? ctx).map Ctx.preq).getD false, readyAt := s.cyc + 1 }
    let h := reissued (bs.drop 0x500) s.cyc
    let s := s.map (fun t => { t with hold := h, latch := none })
    let s := match t.latch with
      | some r => restoreLatch s r look
      | none => s
    -- a yawait is issued afresh
    let s := if fld (dwordAt (bs.drop 0x500) 0x440) 7 0 = 5 then s.map (fun t => { t with pc := t.pc - 4 }) else s
    -- a join whose counter has reached zero and a barrier that has completed are over; a park is issued afresh
    let s := match h with
      | .join => if recJoin s ctx rec = 0 then (s.map (fun t => { t with hold := .none })).acquire 2 else s
      | .gbar g p =>
        if (assoc s.groups g).all (fun x => x.phase == (p == 1)) then s else (s.map (fun t => { t with hold := .none })).acquire 2
      | .park _ _ => s.map (fun t => { t with hold := .none })
      | .waddr _ _ _ _ _ _ _ => waitAfresh s.asHeld
      | _ => s
    if s.th.rep.act then
      match rereadRep s s.th.rep with
      | some r => s.map (fun t => { t with rep := r })
      | none => s.doubleFault
    else s

/-- The result of an S operation, visible `lat` cycles after the trigger. -/
def State.sResult (s : State) (lat : Nat) (w : Word) : State := s.launch (some .sr) lat w 0 0

/-! ### Releases that do not hold the thread (R176, R258, R262) -/

/-- The slots waiting past a phase of a completed group return, acquiring at .dv. -/
def wakeGroup (s : State) (grp : Nat) (phase : Bool) : State :=
  let past (t : Thread) : Bool := match t.hold with
    | .gbar g p => decide (g = grp ∧ (p = 1) ≠ phase)
    | _ => false
  let s := (s.threads.filter past).foldl (fun s t => s.acquireAt t.key.coreKey 2) s
  s.mapAll fun t => if past t then { t with hold := .none, readyAt := s.cyc + 1 } else t

def setGroup (s : State) (grp : Nat) (g : Group) : State :=
  { s with groups := (grp, g) :: s.groups.filter (fun p => p.1 ≠ grp) }

/-- The barrier completes when its arrivals equal its member count. -/
def checkGroup (s : State) (grp : Nat) (g : Group) : State :=
  if g.members ≠ 0 ∧ g.arrivals = g.members then
    wakeGroup (setGroup s grp { g with arrivals := 0, phase := !g.phase }) grp (!g.phase)
  else setGroup s grp g

/-- A group's entry of the table (R243); one that no stage set up has no member. -/
def groupAt (s : State) (ctx grp : Nat) : Group := (assoc s.groups grp).getD { ctx, members := 0 }

/-- One arrival counted. -/
def arrive (s : State) (ctx grp : Nat) : State :=
  let g := groupAt s ctx grp
  checkGroup s grp { g with arrivals := g.arrivals + 1 }

/-- The phase a garrive gives (R262). -/
def bit01 (b : Bool) : Nat := if b then 1 else 0

/-- A release of the thread in focus performed: its record queued, or left waiting for its counter; or its arrival
counted, with the group's phase just before in s.r, at the earliest 4 cycles after the trigger. -/
def release (r : Release) (s : State) : State :=
  let ctx := s.th.ctx
  match r.group with
  | some grp =>
    let g := groupAt s ctx grp
    (arrive s ctx grp).sResult (r.since + 4 - s.cyc) (BitVec.ofNat 64 (bit01 g.phase))
  | none =>
    if recJoin s ctx r.rec_ ≠ 0 then recSetStatus s ctx r.rec_ 0
    else if s.runq.any (fun q => q.ctx == ctx && q.record == r.rec_) then s
    else appendRecord s (dieFor s ctx r.rec_ r.die) ctx r.rec_

/-- The next release of the thread in focus whose earlier accesses are performed (R170, R176), performed. -/
def releaseNow (s : State) : Option State :=
  match s.th.rels with
  | [] => none
  | r :: rest =>
    if s.earlierDone s.th.key r.since 2 then some (release r (s.map (fun t => { t with rels := rest }))) else none

/-- A release at .dv that does not hold its thread: performed now where nothing comes before it. The write-combining
buffer is emptied first. -/
def State.releasing (s : State) (r : Release) : State :=
  let s := s.flushWcb.map (fun t => { t with rels := t.rels ++ [r] })
  if s.th.rels.length = 1 then (releaseNow s).getD s else s

/-- An earlier garrive has still to give its phase: a later result of s.r comes after it (R78). -/
def Thread.awaitsPhase (t : Thread) : Bool := t.rels.any (fun r => r.group.isSome)

/-! ### Spawning (R224, R225, R258) -/

/-- The free slots of the spawning die's pool. -/
def freePoolSlots (c : Ctx) (die : Nat) : List Word :=
  match (c.pools.find? (fun p => p.1 = die)) with
  | none => []
  | some (_, base, n) =>
    ((List.range n).map (fun i => base + BitVec.ofNat 64 (i * 0x1100))).filter (fun a => !c.poolUsed.contains a)

/-- The child record of a spawn (R216 to R218, R224, R258) and its successor entry. -/
def childRecord (s : State) (slot code : Word) : List Byte :=
  let t := s.th
  let ctl := recControl s t.ctx t.record
  dwords [code, slot + 0x40,
    BitVec.ofNat 64 (t.ctx * 2 ^ 48 + fld ctl 42 40 * 2 ^ 40 + (fld ctl 39 32 + 1) * 2 ^ 32),
    slot + 0x1040, 1, t.get .so, t.get .so2, BitVec.ofNat 64 (fld (t.get .xrnd) 3 0 * 2 ^ 8)]

def actSpawn (t : Word) (s : State) : Act :=
  if t.extractLsb' 0 2 ≠ 0 then .illegal
  else if s.th.awaitsPhase then .wait (s.cyc + 1)
  else
    let th := s.th
    match s.myCtx with
    | none => .done (s.sResult 6 0)
    | some c =>
      let die := dieOf th.key.tile
      let (x, s) := s.draw
      let free := freePoolSlots c die
      match free[x % max 1 free.length]? with
      | none => .done (s.sResult 6 0)
      | some slot =>
        if 23 < recDepth s th.ctx th.record then .done (s.sResult 6 0)
        else
          let bytes := childRecord s slot t
          let s := match writeLines (devAgent th.ctx) 3 s slot bytes with
            | .ok s => s
            | .error _ => s
          let s := recPut s th.ctx slot 0x1040 8 th.record.toNat
          let s := recPut s th.ctx slot 0x1048 8 0
          let s := recAddJoin s th.ctx th.record 1
          let s := s.mapCtx th.ctx (fun c => { c with poolUsed := slot :: c.poolUsed })
          .done ((s.releasing { rec_ := slot, die, since := s.cyc }).sResult 6 slot)

/-- spawna (R258): the record is read and written at the trigger, after the thread's earlier accesses to its line (R163) and
an acquire under way (R171). -/
def actSpawna (t : Word) (s : State) : Act :=
  let th := s.th
  if t.extractLsb' 0 6 ≠ 0 ∨ fld (th.get .so) 63 16 ≠ 0 then .illegal
  else if th.awaitsPhase then .wait (s.cyc + 1)
  else
    match translate s s.self t .amo with
    | .error k => .fault k t
    | .ok l =>
      if l.space ≠ .hbm then .fault kPermission t
      else if s.denied l.cell 0 64 ≠ 0 then .fault (s.denied l.cell 0 64) t
      else if s.denied l.cell 2 64 ≠ 0 then .fault (s.denied l.cell 2 64) t
      else if s.lineBusy l.cell 64 none ∨ th.acquiring s.cyc then .wait (s.cyc + 1)
      else
        match s.myCtx with
        | none => .done (s.sResult 6 0)
        | some c =>
          let die := dieOf th.key.tile
          let own := recDepth s th.ctx th.record
          let ctl := recWord s th.ctx t 0x10
          -- ctx, depth and stage as spawna rewrites them
          let ctl' := BitVec.ofNat 64 (th.ctx * 2 ^ 48 + fld ctl 47 44 * 2 ^ 44 + fld ctl 42 40 * 2 ^ 40
            + (own + 1) * 2 ^ 32 + fld ctl 31 0)
          if c.spawnaMax ≤ c.spawnaUsed.length then .done (s.sResult 6 0)
          else if 23 < own ∨ !recordOkFields s (recWord s th.ctx t 0) (recWord s th.ctx t 8) ctl'
              (recWord s th.ctx t 0x20) (recWord s th.ctx t 0x38) (dieFor s th.ctx t die) then
            .done ((recSetStatus s th.ctx t 5).sResult 6 0)
          else
            let s := recPut s th.ctx t 0x10 8 ctl'.toNat
            let s := recAddJoin s th.ctx th.record (BitVec.ofNat 32 (fld (th.get .so) 15 0))
            let s := s.mapCtx th.ctx (fun c => { c with spawnaUsed := t :: c.spawnaUsed })
            .done ((s.releasing { rec_ := t, die, since := s.cyc }).sResult 6 t)

/-! ### Group barriers (R243, R262) -/

/-- A member retires: the member count falls by 1. -/
def leaveGroup (s : State) (grp : Nat) : State :=
  if grp = 0 then s
  else
    match assoc s.groups grp with
    | some g =>
      if g.members ≤ 1 then setGroup s grp { g with members := 0, arrivals := 0 }
      else checkGroup s grp { g with members := g.members - 1 }
    | none => s

/-- The checks of gbar and garrive; the group's phase where they pass. -/
def groupOf (t : Word) (ge : Bool) (s : State) : Option Group :=
  let th := s.th
  let grp := fld t 7 0
  if !recIsStage s th.ctx th.record ∨ grp = 0 ∨ fld t 63 10 ≠ 0 ∨ !(recGroups s th.ctx th.record).contains grp
      ∨ (!ge ∧ fld t 9 8 ≠ 0) then none
  else some (groupAt s th.ctx grp)

def actGbar (t : Word) (s : State) : Act :=
  match groupOf t true s with
  | none => .illegal
  | some g =>
    let grp := fld t 7 0
    if fld t 8 8 = 1 then
      let ph := fld t 9 9
      if bit01 g.phase ≠ ph then .done (s.acquire 2)
      else .done (s.map (fun th => { th with hold := .gbar grp ph }))
    else
      match s.releaseWait 2 with
      | some w => w
      | none => .done (arrive (s.map (fun th => { th with hold := .gbar grp (bit01 g.phase) })) s.th.ctx grp)

def actGarrive (t : Word) (s : State) : Act :=
  match groupOf t false s with
  | none => .illegal
  | some _ =>
    if s.th.awaitsPhase then .wait (s.cyc + 1)
    else .done (s.releasing { group := some (fld t 7 0), since := s.cyc })

/-! ### Retirement (R229, R259) -/

/-- The pairs of a region list that name a byte: base and length (R221). -/
def regionPairs (s : State) (ctx : Nat) (list : Word) : List (Word × Word) :=
  if list = 0 then []
  else ((List.range 4).map fun i => (recWord s ctx list (16 * i), recWord s ctx list (16 * i + 8))).filter (fun p => p.2 ≠ 0)

/-- A successor entry's effects: the region list, then the decrement (R179, R229). Of the producer's stores, all those
to the regions have been acknowledged, as its counter is zero; the regions wait for the successor's first transport. -/
def successor (s : State) (ctx : Nat) (die : Nat) (entry : Word) : State :=
  let target := recWord s ctx entry 0
  let new := (regionPairs s ctx (recWord s ctx entry 8)).map fun p => (ctx, target, p)
  decrementJoin { s with edges := s.edges ++ new } ctx target die

/-- The successors in list order. -/
def successors (ctx die : Nat) : Nat → Word → State → State
  | 0, _, s => s
  | n + 1, e, s => successors ctx die n (e + 16) (successor s ctx die e)

/-- The push dwords of a retiring thread's rings cleared (R259, R277). -/
def clearPushes (s : State) : State :=
  let mine := s.pushBinds.filter (fun b => b.port.key = s.th.key)
  let s := mine.foldl (fun s b =>
    match translate s ⟨b.ctx, true, some s.th.key.tile, true⟩ b.va .store with
    | .ok l => ringPut s l { ringAt s l with push := 0 }
    | .error _ => s) s
  { s with pushBinds := s.pushBinds.filter (fun b => b.port.key ≠ s.th.key) }

/-- A launched packet's stage or record retires (R233). -/
def packetRetire (s : State) (t : Thread) : State :=
  { s with queues := s.queues.map fun q =>
    if q.ctx ≠ t.ctx then q
    else { q with started := q.started.map fun p =>
      if t.pipe = some (q.num, p.idx) then
        let l := p.stages.filter (fun k => k ≠ t.key)
        { p with stages := l, finished := p.finished || l.isEmpty }
      else if p.record = some t.record then { p with finished := true } else p } }

/-- Stages of a pipeline that a queue's packet launched are still there. -/
def pipeAlive (s : State) (but : SlotKey) (p : (Nat × Nat) → Bool) : Bool :=
  (s.th :: s.others).any (fun t => t.key != but && t.pipe.any p) || s.ctxs.any (fun c => c.saved.any (fun x => x.pipe.any p))

/-- With the last stage of a packet whose queue was destroyed while it was parked (R238) its channels go. -/
def endPipe (s : State) (t : Thread) : State :=
  match t.pipe with
  | none => s
  | some p =>
    if s.queues.any (fun q => q.num == p.1 && q.started.any (fun x => x.idx == p.2)) || pipeAlive s t.key (· == p) then s
    else s.dropChans (fun c => c.pipe == p)

/-- The continuation retires (R229, R259): successors, status, pool slot, groups, slot. -/
def retire (s : State) : State :=
  let t := s.th
  let stage := recIsStage s t.ctx t.record
  let link := recLink s t.ctx t.record
  let s := releaseArray (clearPushes s) t.key
  let s := successors t.ctx (dieOf t.key.tile) (fld link 15 0) (recWord s t.ctx t.record 0x18) s
  let s := if stage then (recGroups s t.ctx t.record).eraseDups.foldl leaveGroup s else s
  let s := recSetStatus s t.ctx t.record 4
  let s := s.mapCtx t.ctx (fun c => { c with
    poolUsed := c.poolUsed.filter (fun r => r ≠ t.record)
    spawnaUsed := c.spawnaUsed.filter (fun r => r ≠ t.record)
    hostUsed := c.hostUsed.filter (fun r => r ≠ t.record) })
  (endPipe (packetRetire s t) t).freeSlot

/-- A pclr is still queued in the press context of the thread's core: merged entries serve several threads (R105). -/
def clearQueued (s : State) (k : SlotKey) : Bool :=
  match assoc s.presses k.tile with
  | some p => (p.ctx.toList.getD k.core {}).queue.any (fun e => match e.op with
    | .clr _ => true
    | _ => false)
  | none => false

/-- Something the thread has triggered has not completed: a window's operation, a result in flight, a pclr, a stream it
started (R259). -/
def Thread.busy (t : Thread) (s : State) : Bool :=
  allWins.any (fun u => (t.win u).isOpen && !(t.win u).complete s.cyc)
    || t.flight.any (fun f => decide (s.cyc < f.due)) || !t.mem.isEmpty || !t.rels.isEmpty
    || clearQueued s t.key || s.streams.any (fun st => st.running && st.owner == t.key)

def actDone (_ : Word) (s : State) : Act :=
  if s.th.busy s then .wait (s.cyc + 1)
  else
    match s.th.owing, s.releaseWait 2 with
    | some (u, ti), _ => .owing u ti
    | none, some w => w
    | none, none =>
      if s.th.rfq ≠ 0 ∧ s.th.mode = .user then remoteStoreFault s.th
      else .doneThen s retire

/-! ### Suspension (R223, R260, R261, R263) -/

/-- A suspension waits for the thread's operations, as trap entry does, and releases at .dv. A trap that one of them
delivers is taken first (R39). -/
def suspendWait (s : State) : Option Act :=
  if !s.th.drained s.cyc then some (.wait (s.cyc + 1))
  else
    match s.th.owing with
    | some (u, ti) => some (.owing u ti)
    | none => s.releaseWait 2

/-- The thread's state with everything due visible, before it is saved. -/
def State.quiet (s : State) : State := s.map (fun t => (t.settle s.cyc).closeDone s.cyc)

def actYield (_ : Word) (s : State) : Act :=
  let t := s.th
  if recIsStage s t.ctx t.record then .done s
  else
    match suspendWait s with
    | some w => w
    | none =>
      .doneThen s fun s =>
        let s := suspendTask s.quiet 1 none
        if s.th.life = .idle then appendRecord s (dieFor s t.ctx t.record (dieOf t.key.tile)) t.ctx t.record else s

def actJoin (_ : Word) (s : State) : Act :=
  let t := s.th
  if recJoin s t.ctx t.record = 0 then .done (s.acquire 2)
  else if recIsStage s t.ctx t.record then
    match s.releaseWait 2 with
    | some w => w
    | none => .done ((recSetStatus s t.ctx t.record 3).map (fun t => { t with hold := .join, life := .suspended }))
  else
    match suspendWait s with
    | some w => w
    | none => .doneThen s (fun s => suspendTask s.quiet 3 none)

/-- The granule or line that a parked word's home watches (R261). -/
def parkUnit (l : Loc) : Nat × Nat :=
  match l.space with
  | .scr _ => (l.cell / 16 * 16, 16)
  | _ => (l.cell / 64 * 64, 64)

def actPark (t : Word) (s : State) : Act :=
  let th := s.th
  if t.extractLsb' 0 3 ≠ 0 then .fault kAlignment t
  else
    match translate s s.self t .load with
    | .error k => .fault k t
    | .ok l =>
      let ok := match l.space with
        | .scr _ | .hbm => true
        | _ => false
      if !ok then .fault kPermission t
      else if s.denied l.cell 0 8 ≠ 0 then .fault (s.denied l.cell 0 8) t
      else if s.lineBusy l.cell 8 none ∨ th.awaitsPhase ∨ th.acquiring s.cyc then .wait (s.cyc + 1)
      else if BitVec.ofNat 64 (leNat (s.readAs l.aes l.cell 8)) ≠ th.get .so then
        .done (s.sResult (leastLatency s l) 0)
      else
        let (c, n) := parkUnit l
        let reg (s : State) : State := { s with parks := s.parks ++ [⟨th.ctx, th.record, homeDie l, c, n, false⟩] }
        if recIsStage s th.ctx th.record then
          match s.releaseWait 2 with
          | some w => w
          | none => .done (reg ((recSetStatus s th.ctx th.record 3).map (fun x =>
              { x with hold := .park t (th.get .so), life := .suspended })))
        else
          match suspendWait s with
          | some w => w
          | none =>
            .doneThen s fun s =>
              let s := suspendTask s.quiet 3 (some 1)
              if s.th.life = .idle then reg s else s

/-- pyield: no effect while preq reads 0; otherwise the thread is saved once its operations have completed (R263,
R359). In monitor mode the thread is saved at its tret (R360). -/
def actPyield (_ : Word) (s : State) : Act :=
  if !s.th.preq ∨ s.th.mode = .monitor then .done s
  else
    match suspendWait s with
    | some w => w
    | none => .doneThen s (fun s => savePreempted s.quiet s.th.pc [])

def actSleep (t : Word) (s : State) : Act :=
  if fld t 63 32 ≠ 0 then .illegal
  else if t = 0 then .done s
  else .done (s.map (fun th => { th with hold := .sleep (s.cyc + t.toNat) }))

/-! ### The instructions -/

/-- SPAWN (R258). -/
def execSpawn (g : Guard) (src : Src) (s : State) : Out := trigger .spawn 0 g src actSpawn s
/-- SPAWNA (R258). -/
def execSpawna (g : Guard) (src : Src) (s : State) : Out := trigger .spawna 0 g src actSpawna s
/-- DONE (R259). -/
def execDone (g : Guard) (src : Src) (s : State) : Out := trigger .done 0 g src actDone s
/-- YIELD (R260). -/
def execYield (g : Guard) (src : Src) (s : State) : Out := trigger .yield 0 g src actYield s
/-- PARK (R261). -/
def execPark (g : Guard) (src : Src) (s : State) : Out := trigger .park 0 g src actPark s
/-- JOIN (R14). -/
def execJoin (g : Guard) (src : Src) (s : State) : Out := trigger .join 0 g src actJoin s
/-- GBAR (R262). -/
def execGbar (g : Guard) (src : Src) (s : State) : Out := trigger .gbar 0 g src actGbar s
/-- GARRIVE (R262). -/
def execGarrive (g : Guard) (src : Src) (s : State) : Out := trigger .garrive 0 g src actGarrive s
/-- PYIELD (R263). -/
def execPyield (g : Guard) (src : Src) (s : State) : Out := trigger .pyield 0 g src actPyield s
/-- SLEEP (R263). -/
def execSleep (g : Guard) (src : Src) (s : State) : Out := trigger .sleep 0 g src actSleep s

end Sys2Proof.Machine
end

