-- ==== Sys2Proof/Machine/Timeline.lean ====
section
/-! DEFINITION. Timelines: sig.add, sig.wait and the signal unit (R205 to R207). -/

namespace Sys2Proof.Machine

/-- A software queue that has not been freed. -/
def State.queue? (s : State) (n : Nat) : Option SwQueue := s.queues.find? (fun q => q.num = n ∧ q.st ≠ .freed)
/-- That queue changed. -/
def State.mapQueue (s : State) (n : Nat) (f : SwQueue → SwQueue) : State :=
  { s with queues := s.queues.map (fun q => if q.num = n ∧ q.st ≠ .freed then f q else q) }

/-- The queue a handle names, where it is allocated to the context and not freed (R205). -/
def handleQueue (s : State) (ctx : Nat) (handle : Word) : Option SwQueue :=
  match s.queue? handle.toNat with
  | some q => if q.ctx = ctx then some q else none
  | none => none

/-- A timeline has met a threshold, by the wrapping compare (R207). -/
def meets (t v : Word) : Bool := !(t - v).msb

/-- The least latency of sig.add and its reply (R190), and of sig.wait's (log entry 53). -/
def signalLatency : Nat := 150

def actSigAdd (l : BitVec 4) (t : Word) (s : State) : Act :=
  let lo := s.th.get .lo
  let u := s.th.get .lo2
  if !attrOk lo ordAll ∨ fld t 63 16 ≠ 0 then .illegal
  else if 2 ^ 63 ≤ u.toNat then .trap 8 0 0 t
  else if s.th.acquiring s.cyc then .wait (s.cyc + 1)
  else
    match if (attrOf lo).rel then s.releaseWait (attrOf lo).scope else none with
    | some w => w
    | none =>
      let (due, s) := s.after signalLatency
      let a : SigAdd := { key := s.th.key, ctx := s.th.ctx, handle := t, u, lo, pc := s.at_, due }
      .done ({ s with sigQ := s.sigQ ++ [a] }.openWin .l l
        { known := false, doneAt := due, hasRes := true, acq := (attrOf lo).acq })

/-- The timeline error of a performed transport (R205, R344). -/
def timelineTrap (handle pc : Word) : TrapInfo := { cause := 8, maddr := handle, mtpc := pc, nx := true }

/-- SIG_WAIT at its trigger. A threshold met at once is answered, and a timeline error delivered, once the signal unit's reply is
there: the spec gives that time for sig.add alone, and the model takes it for sig.wait too (log entry 53). In monitor mode the
error stops the thread (R352). -/
def actSigWait (t : Word) (s : State) : Act :=
  let lo := s.th.get .lo
  let v := s.th.get .lo2
  let tmo := fld (s.th.get .lo3) 31 0
  if !attrOk lo ordLoad ∨ fld t 63 16 ≠ 0 ∨ fld (s.th.get .lo3) 63 32 ≠ 0 then .illegal
  else if s.th.acquiring s.cyc then .wait (s.cyc + 1)
  else
    match handleQueue s s.th.ctx t with
    | none =>
      if s.th.mode = .monitor then .doneThen s (fun s => takeTrap s (timelineTrap t s.at_))
      else
        let (at_, s) := s.after signalLatency
        .done (s.map (fun th => { th with owed := th.owed ++ [timelineTrap t s.at_], readyAt := at_ }))
    | some q =>
      if meets q.timeline v then
        let (at_, s) := s.after signalLatency
        .done ((waitReturn s lo q.timeline.toNat 0).map (fun th => { th with readyAt := at_ }))
      else
        .done (s.map (fun th => { th with
          hold := .sigWait t.toNat v lo (if tmo = 0 then none else some (s.cyc + tmo)) }))

/-! ### Events -/

/-- The L window of a slot answered. -/
def State.answerL (s : State) (k : SlotKey) (f : Pend → Pend) : State :=
  s.mapSlot k fun t =>
    let p := t.win .l
    if p.isOpen ∧ ¬p.known then t.setWin .l { f p with known := true, doneAt := max p.doneAt (s.cyc + 1) } else t

/-- The parked queues whose WAIT a timeline now meets ask to be mapped (R206, R237). -/
def wakeParked (s : State) (n : Nat) (t : Word) : State :=
  { s with queues := s.queues.map fun q =>
      match q.waits with
      | some (m, v) => if q.st = .parked ∧ m = n ∧ meets t v ∧ q.ready.isNone then { q with ready := some s.cyc } else q
      | none => q }

/-- An add to a queue's timeline, performed at the signal unit (R206). -/
def addTimeline (s : State) (n : Nat) (u : Word) : State :=
  let s := s.mapQueue n (fun q => { q with timeline := q.timeline + u })
  match s.queue? n with
  | some q => wakeParked s n q.timeline
  | none => s

/-- Add `n` has arrived, and is the first to have arrived of those to its timeline (R206). -/
def sigDue (s : State) (n : Nat) : Bool :=
  match s.sigQ[n]? with
  | none => false
  | some a =>
    decide (a.due ≤ s.cyc) && (List.range s.sigQ.length).all (fun i =>
      match s.sigQ[i]? with
      | some b => b.handle != a.handle || decide (a.due < b.due) || (a.due == b.due && decide (n ≤ i))
      | none => true)

/-- SIGNAL_UNIT_ADD (R206): add `n` of those on their way, in the order of arrival on its timeline. -/
def execSignalUnitAdd (s : State) : Out :=
  match s.sigQ[s.ev.n]? with
  | none => .fault .noSubject
  | some a =>
    if !sigDue s s.ev.n then .fault .noSubject
    else
    let s := { s with sigQ := s.sigQ.eraseIdx s.ev.n }
    .next (match handleQueue s a.ctx a.handle with
      | none => s.answerL a.key (fun p => { p with hasRes := false, trap := some (timelineTrap a.handle a.pc) })
      | some q =>
        let s := addTimeline s q.num a.u
        let s := s.answerL a.key (fun p => { p with r := q.timeline + a.u, r2 := 0 })
        if (attrOf a.lo).acq then s.acquireAt a.key.coreKey (attrOf a.lo).scope else s)

/-- The attribute word a waiting operation was issued with. -/
def Hold.attr : Hold → Word
  | .waddr _ _ _ _ lo _ _ => lo
  | .sigWait _ _ lo _ => lo
  | _ => 0

/-- The deadline of a hold with a timeout. -/
def Hold.deadline : Hold → Option Nat
  | .waddr _ _ _ _ _ d _ => d
  | .sigWait _ _ _ d => d
  | .idle d => d
  | _ => Option.none

/-- What a waiting sig.wait finds now: the value and status it returns with (R207): the threshold met, then the timeout,
then the queue freed, with the value it last held. -/
def sigWaitReturns (s : State) (t : Thread) : Option (Word × Nat) :=
  match t.hold with
  | .sigWait q v _ d =>
    let x := handleQueue s t.ctx (BitVec.ofNat 64 q)
    let r := ((x.orElse (fun _ => s.queues.find? (fun x => x.num = q))).map SwQueue.timeline).getD 0
    if (x.map (fun x => meets x.timeline v)).getD false then some (r, 0)
    else if (d.map (fun d => decide (d ≤ s.cyc))).getD false then some (r, 1)
    else if x.isNone then some (r, 3) else none
  | _ => none

/-- The wait ends with what it finds, where that is the timeout (`late`) or is not. -/
def sigWaitEnd (late : Bool) (s : State) : Option State :=
  match sigWaitReturns s s.th with
  | some (r, st) => if (st == 1) == late then some (waitReturn s s.th.hold.attr r.toNat st) else none
  | none => none

/-- SIG_WAIT_WAKE (R207): the threshold is met, or the queue was freed. -/
def execSigWaitWake : State → Out :=
  onSlot (sigWaitEnd false)

/-- SIG_WAIT_TIMEOUT (R207): the value read, with status 1. -/
def execSigWaitTimeout : State → Out :=
  onSlot (sigWaitEnd true)

/-! ### The instructions -/

/-- SIG_ADD (R206). -/
def execSigAdd (g : Guard) (l : BitVec 4) (src : Src) (s : State) : Out := trigger .sigAdd l g src (actSigAdd l) s
/-- SIG_WAIT (R207). -/
def execSigWait (g : Guard) (src : Src) (s : State) : Out := trigger .sigWait 0 g src actSigWait s

end Sys2Proof.Machine
end

