-- ==== Sys2Proof/Machine/System.lean ====
section
/-! DEFINITION. Z: trap, tret, tfence and idle (R75, R353 to R356), and the completion of retry-ring entries by mfill
(R343). -/

namespace Sys2Proof.Machine

/-! ### The triggers -/

def actTrap (t : Word) (s : State) : Act :=
  if fld t 63 32 ≠ 0 then .illegal
  else if s.th.mode = .monitor then .double
  else .trap 1 0 (t.setWidth 32) (s.th.get .zo)

/-- Everything the handler has started is over. -/
def handlerDone (s : State) : Bool :=
  s.th.drained s.cyc && !s.th.rep.act && allWins.all (fun u => !(s.th.win u).isOpen || (s.th.win u).complete s.cyc)

def actTret (_ : Word) (s : State) : Act :=
  if !handlerDone s then .wait (s.cyc + 1)
  else
    match s.th.owing with
    | some (u, ti) => .owing u ti
    | none => .doneThen s (returnFromTrap rereadRep)

/-- tfence's tests, once every window has closed and every flag has merged (R75); a monitor handler takes neither
trap (R352). -/
def actTfence (_ : Word) (s : State) : Act :=
  let due := s.th.flight.foldl (fun n f => max n f.due) s.cyc
  if s.cyc < due then .wait due
  else if s.th.mode = .monitor then .done s
  else if s.th.rfq ≠ 0 then remoteStoreFault s.th
  else if s.th.trapFlags ≠ 0 then .trap 4 0 (s.th.trapFlags.setWidth 32) 0
  else .done s

def actIdle (t : Word) (s : State) : Act :=
  if fld t 63 32 ≠ 0 then .double
  else .done (s.map (fun th => { th with hold := .idle (if t = 0 then none else some (s.cyc + t.toNat)) }))

/-! ### Retry-ring entries (R342, R343) -/

/-- A context's retry ring and the entry at its slot rp, when the ring has one: place, slot number and entry. -/
def retryHead (s : State) (ctx : Nat) : Option (Loc × W32 × Word) :=
  match (s.ctx? ctx).bind Ctx.retryRing with
  | none => none
  | some va =>
    match translate s (devAgent ctx) va .amo with
    | .error _ => none
    | .ok l =>
      let r := ringAt s l
      if r.wp = r.rp then none else some (l, r.rp, ringHandle r r.rp)

/-- A field of an entry: `n` bytes at an offset. -/
def entryBytes (s : State) (ctx : Nat) (entry : Word) (off n : Nat) : List Byte :=
  match readLines s (devAgent ctx) 3 (entry + BitVec.ofNat 64 off) n with
  | .ok bs => bs
  | .error _ => List.replicate n 0

/-- The entry at rp is held. -/
def entryHeld (s : State) (ctx : Nat) (entry : Word) : Bool := (dwordAt (entryBytes s ctx entry 0x30 8) 0).getLsbD 0

/-- The events of idle that hold (R356). -/
def idleEvents (s : State) (deadline : Option Nat) : BitVec 3 :=
  let ring := match retryHead s s.th.ctx with
    | some (_, _, e) => entryHeld s s.th.ctx e
    | none => false
  BitVec.ofBool s.th.preq ++ BitVec.ofBool ring ++ BitVec.ofBool ((deadline.map (fun d => decide (d ≤ s.cyc))).getD false)

/-- IDLE_WAKE (R356): from the cycle after the trigger on. -/
def execIdleWake : State → Out :=
  onSlot fun s =>
    match s.th.hold with
    | .idle d =>
      let e := idleEvents s d
      if e = 0 ∨ s.cyc < s.th.readyAt then none else some ((s.map (fun t => t.set .zr (e.setWidth 64))).rejoin)
    | _ => none

/-- The result an L access takes from its entry: `v` and the data field (R343). -/
def fillResult (t : Trig) (v : Word) (data : List Byte) : Option (Word × Word) :=
  let low (n : Nat) : List Byte := leBytes n v.toNat
  match t with
  | .ld8 => some (sextBytes 1 (low 1))
  | .ld16 => some (sextBytes 2 (low 2))
  | .ld32 => some (sextBytes 4 (low 4))
  | .ld8u => some (zextBytes (low 1))
  | .ld16u => some (zextBytes (low 2))
  | .ld32u => some (zextBytes (low 4))
  | .ld64 => some (v, 0)
  | .ld128 | .amoCasQ => some (pairBytes data)
  | .st8 | .st16 | .st32 | .st64 | .st128 => none
  | t => some (zextBytes (low (amoBytes t)))

/-- A transport held on a retry-ring entry counts as performed, its thread in focus (R343). -/
def fillThread (s : State) (r : Retry) (v : Word) (data : List Byte) : State :=
  let s := (s.map (fun t => if r.seq then { t with latch := none } else
    { t with hold := .none, latch := none, readyAt := s.cyc + 1 })).acquire 2
  if r.seq then
    let s := if r.trig = VTrig.num .vld then s.map (fun t => t.setVr (vecAt data 0)) else s
    stepSequence s s.th.rep.here.1 s.th.rep.here.2 (s.cyc + 1)
  else
    let s := if r.late then s else
      match (heldDequeue s r.pc).map (fun q => (q, s.queueRead q)) with
      | some (q, .head c e) => (s.queueTake q c e).advance
      | _ => s.advance
    let look := BitVec.ofNat 4 r.look
    if r.trig = VTrig.num .vld then s.openWin .v look { doneAt := s.cyc + 1, hasRes := true, v := vecAt data 0 }
    else if r.trig = VTrig.num .vst then s.openWin .v look { doneAt := s.cyc + 1 }
    else
      match (Trig.ofNum r.trig).bind (fun t => fillResult t v data) with
      | some (x, y) => s.openWin .l look { doneAt := s.cyc + 1, hasRes := true, r := x, r2 := y }
      | none => s.openWin .l look { doneAt := s.cyc + 1 }

/-- The stream or thread that waits on a slot goes on. -/
def fillSlot (s : State) (ctx : Nat) (slot : W32) (v : Word) (data : List Byte) : State :=
  match s.streams.find? (fun st => st.running && st.ctx == ctx && (match st.fetches with
      | f :: _ => f.ring && f.fault.isSome && f.id == slot.toNat
      | [] => false)) with
  | some st =>
    let es := fetchElems st ((st.fetches.head?.map Fetch.sync).getD false)
      (if st.size ≤ 8 then leBytes st.size v.toNat else data.take st.size)
    enqueueAll st.core st.strm (s.mapStream st.core st.strm (fun x =>
      match x.fetches with
      | f :: rest => { x with fetches := { f with elems := some es, fault := none } :: rest }
      | [] => x))
  | none =>
    match s.threads.find? (fun t => t.ctx = ctx ∧ (t.latch.bind Retry.ring) = some slot.toNat) with
    | none => s
    | some t =>
      let me := s.th.key
      match s.focus t.key, t.latch with
      | some s1, some r => ((fillThread s1 r v data).focus me).getD s
      | _, _ => s

/-- mfill written (R343): the entry at the retry ring's slot rp is completed. -/
def mfillAct (v : Word) (s : State) : Act :=
  let ctx := s.th.ctx
  match retryHead s ctx with
  | none => .done s
  | some (l, slot, entry) =>
    if !entryHeld s ctx entry then .done s
    else
      match s.releaseWait 2 with
      | some w => w
      | none =>
        let put (s : State) (off : Nat) (w : Word) : State :=
          match writeVA s (devAgent ctx) (entry + BitVec.ofNat 64 off) (dwords [w]) with
          | .ok s => s
          | .error _ => s
        let s := put (put s 0x38 v) 0x30 2
        let data := entryBytes s ctx entry 0x40 64
        let s := ringPut s l { ringAt s l with rp := (ringAt s l).rp + 1 }
        .done (fillSlot s ctx slot v data)

/-! ### The instructions -/

/-- TRAP (R354). -/
def execTrap (g : Guard) (src : Src) (s : State) : Out := trigger .trap 0 g src actTrap s
/-- TRET (R355). -/
def execTret (g : Guard) (src : Src) (s : State) : Out := trigger .tret 0 g src actTret s
/-- TFENCE (R75). -/
def execTfence (g : Guard) (src : Src) (s : State) : Out := trigger .tfence 0 g src actTfence s
/-- IDLE (R356). -/
def execIdle (g : Guard) (src : Src) (s : State) : Out := trigger .idle 0 g src actIdle s

end Sys2Proof.Machine
end

