-- ==== Sys2Proof/Machine/Events.lean ====
section
/-! DEFINITION. The events of a slot and of memory: results, holds, posted stores, atomics, waits, traps, and the slot's
parking and sleep. Each `…Due` says when an event can take place (R39, R45, R101, R165 to R173, R193, R199 to R201,
R240, R261, R263, R316, R346). -/

namespace Sys2Proof.Machine

/-! ### V's sequencer (R101) -/

/-- A thread of a context that is being pre-empted, in user mode and not saved by its deadline: it issues nothing more and
is saved at the boundary it stands at (R360). -/
def overdue (s : State) (t : Thread) : Bool :=
  t.mode == .user && ((s.ctx? t.ctx).map (fun c => c.preq && !c.quiet && decide (c.limit ≤ s.cyc))).getD false

/-- A thread's sequence can issue its next word. A trap that the thread owes in user mode is taken first. -/
def sequenceDue (s : State) (t : Thread) : Bool :=
  !overdue s t && t.rep.act && t.life != .stopped && decide (t.rep.next ≤ s.cyc) && !s.vUsed.contains t.key.coreKey
    && t.hold != .trap && (t.owed.isEmpty || t.mode == .monitor) && !t.mem.any Access.seq && !(t.latch.map Retry.seq).getD false

/-- REPETITION_SEQUENCE_ISSUE (R101). -/
def execRepetitionSequenceIssue : State → Out :=
  onSlot fun s => if sequenceDue s s.th then some (sequenceIssue s) else none

/-! ### Results (R39) -/

/-- A window's result is visible: its count is over and its operation complete. A trap in its place waits for an
instruction boundary (R39, R346). -/
def resultDue (s : State) (t : Thread) (u : Win) : Bool :=
  let p := t.win u
  t.life != .stopped && p.isOpen && p.left == 0 && p.complete s.cyc && !(u == .v && t.rep.act)
    && (p.trap.isNone || mayHold t.hold)

/-- RESULT_VISIBLE (R39, R73): the result delivered, or the trap that takes its place (R205, R271, R276). Behind a trap
that waits for its entry, it is owed. -/
def execResultVisible (s : State) : Out :=
  onSlot (fun s =>
    let u := s.ev.win
    if !resultDue s s.th u then none
    else
      match (s.th.win u).trap with
      | none => some (s.map (fun t => ((t.settle s.cyc).closeWin u).note s.cyc (t.win u).flags))
      | some ti =>
        some (if s.th.trapWait.isSome then s.map (fun t => { t.setWin u {} with owed := t.owed ++ [ti] })
          else takeTrap (s.map (fun t => t.setWin u {})) ti)) s

/-! ### Instruction fetch (R45, R316) -/

/-- The lines of a core's instruction cache: 32 KiB on a stage core, 16 KiB on a streamer core (R17). -/
def ilineMax (c : CoreKey) : Nat := if c.core < 4 then 512 else 256

/-- A line enters a core's instruction cache; the line that leaves a full one is the model's choice (log entry 8). -/
def fillIline (l : List (CoreKey × Nat × Nat)) (c : CoreKey) (ctx line : Nat) : List (CoreKey × Nat × Nat) :=
  ((c, ctx, line) :: l.filter (fun e => e.1 = c ∧ e ≠ (c, ctx, line))).take (ilineMax c) ++ l.filter (fun e => e.1 ≠ c)

/-- A line enters a slice of 1 MiB: 16,384 lines (R17, R22). -/
def fillSlice (l : List (Nat × Nat × Nat)) (x : Nat × Nat × Nat) : List (Nat × Nat × Nat) :=
  let here (y : Nat × Nat × Nat) : Bool := y.1 == x.1 && y.2.1 == x.2.1
  (x :: l.filter (fun y => here y && y != x)).take 16384 ++ l.filter (fun y => !here y)

/-- The home slice of an HBM line at a place: its die, one of the die's 48 slices, the line (R15, R26). -/
def homeSlice (l : Loc) : Nat × Nat × Nat := (homeDie l, Config.homeSlice (l.cell / 64) % 48, l.cell / 64)

/-- A line that a core's fetch has missed is in its home slice. -/
def demandFill (s : State) (va : Word) : State :=
  match translate s s.self va .code with
  | .ok l =>
    if l.space = .hbm ∧ !s.l2.any (fun y => y.2.2 = l.cell / 64) then
      { s with l2 := fillSlice s.l2 (homeSlice l) }
    else s
  | .error _ => s

/-- INSTRUCTION_LINE_ARRIVAL (R45). -/
def execInstructionLineArrival : State → Out :=
  onSlot fun s =>
    match s.th.hold with
    | .line va due =>
      if due ≤ s.cyc then
        let s := demandFill s va
        some ({ s with ilines := fillIline s.ilines s.th.key.coreKey s.th.ctx (va.toNat / 64) }.map (fun t =>
          { t with hold := .none, readyAt := s.cyc }))
      else none
    | _ => none

/-- A translation enters a core's TLB of 64 entries. -/
def fillTlb (l : List (CoreKey × Nat × Nat)) (c : CoreKey) (ctx page : Nat) : List (CoreKey × Nat × Nat) :=
  ((c, ctx, page) :: l.filter (fun e => e.1 = c)).take 64 ++ l.filter (fun e => e.1 ≠ c)

/-- The threads that wait for a walk go on, or take its fault, each in focus. -/
def serveWalk (s : State) (w : Walk) : State :=
  let mine (t : Thread) : Bool := t.hold == .walk w.page && t.ctx == w.ctx && dieOf t.key.tile == w.die
  ((s.threads.filter mine).map Thread.key).foldl (fun s k =>
    let me := s.th.key
    match s.focus k with
    | none => s
    | some s1 =>
      let s1 := s1.map (fun t => { t with hold := .none, readyAt := s.cyc })
      let s2 := match translate s1 s1.self s1.th.pc .code with
        | .ok _ =>
          { s1 with tlb := fillTlb s1.tlb k.coreKey w.ctx w.page }
        | .error kind => raiseFault s1 false 0 0 kind s1.th.pc
      (s2.focus me).getD s2) s

/-- The first miss that waits for one of a die's 64 walks starts its own (R316). -/
def startWalk (s : State) (die : Nat) : State :=
  match s.walkQ.find? (fun x => x.1 = die) with
  | none => s
  | some x =>
    let (due, s) := s.after 1
    { s with walkQ := s.walkQ.erase x, walks := s.walks ++ [⟨die, x.2.1, x.2.2, due⟩] }

/-- PAGE_WALK_COMPLETE (R316): walk `n` of those in flight serves the misses joined to it. -/
def execPageWalkComplete (s : State) : Out :=
  match s.walks[s.ev.n]? with
  | none => .fault .noSubject
  | some w =>
    if w.due ≤ s.cyc then .next (startWalk (serveWalk { s with walks := s.walks.eraseIdx s.ev.n } w) w.die)
    else .fault .noSubject

/-- L2_PREFETCH (R182): a slice of 32 miss registers fetches ahead the line at address `w` of context `n`, after its page's
line before it. A prefetch that misses translation is dropped. -/
def execL2Prefetch (s : State) : Out :=
  match translate s ⟨s.ev.n, false, none, false⟩ s.ev.w .load with
  | .error _ => .next s
  | .ok l =>
    let x := homeSlice l
    if l.space = .hbm ∧ l.cell < hbmEnd ∧ s.l2miss.countP (fun y => y.1 = x.1 ∧ y.2.1 = x.2.1) < 32 ∧ x.2.2 % 64 ≠ 0
        ∧ ¬s.l2miss.contains x then
      .next { s with l2miss := s.l2miss ++ [x] }
    else .fault .noSubject

/-- L2_LINE_ARRIVAL (R26): the line is in its slice, and its miss register is free. -/
def execL2LineArrival (s : State) : Out :=
  let x := (s.ev.n, s.ev.m, s.ev.p)
  if s.l2miss.contains x then .next { s with l2miss := s.l2miss.erase x, l2 := fillSlice s.l2 x }
  else .fault .noSubject

/-! ### Queues (R240, R249) -/

/-- A blocked transport can be performed, or finds its queue in error; its thread in focus. -/
def unblocked (s : State) : Bool :=
  match s.th.hold with
  | .queue q true => s.queueRead (BitVec.ofNat 3 q) != .empty
  | .queue q false => s.queueWrite (BitVec.ofNat 3 q) != .full
  | _ => false

/-- QUEUE_BLOCK_RESUME (R240): the slot is ready again and issues its transport. -/
def execQueueBlockResume : State → Out := onSlot fun s => if unblocked s then some s.rejoin else none

/-! ### Posted stores (R165 to R168, R193) -/

/-- Store `n` of a thread's list is performed or refused at its target now: its line has been sent, its time has come,
and no earlier store of its list has to come first: one to its line, or one of its class where it goes to a scratchpad
(R163, R165, R187). -/
def postedDue (s : State) (t : Thread) (n : Nat) : Bool :=
  match t.posted[n]? with
  | none => false
  | some p =>
    !p.wcb && decide (p.due ≤ s.cyc)
      && !(t.posted.take n).any (fun q => sameLine q.cell q.bytes.length p.cell p.bytes.length
        || (p.scr && oneClass t.key.tile q.cls q.cell p.cls p.cell))

/-- POSTED_STORE_ACKNOWLEDGEMENT (R167): the next piece of store `n` is performed at its home (R180); with its last, the
store is acknowledged. -/
def execPostedStoreAcknowledgement (s : State) : Out :=
  onSlot (fun s =>
    match s.th.posted[s.ev.n]? with
    | some p =>
      if postedDue s s.th s.ev.n ∧ p.refuse = 0 then
        let s1 := s.writeAs p.key p.cell (p.bytes.take p.grain)
        let rest := p.bytes.drop p.grain
        if rest.isEmpty then some ((s1.map (fun t => { t with posted := t.posted.eraseIdx s.ev.n })).acked s.th.key)
        else
          let q := { p with cell := p.cell + p.grain, bytes := rest }
          some (s1.map (fun t => { t with posted := setNth t.posted s.ev.n q }))
      else none
    | none => none) s

/-- An offer's target word in the compact form of R348. -/
def compactTarget (t : Word) : BitVec 48 := BitVec.ofNat 48 (fld t 10 0 + fld t 57 48 * 2 ^ 11 + fld t 63 63 * 2 ^ 21)

/-- A report arrives: the counter falls and rfq rises in one cycle; the first is kept (R193, R348). -/
def State.reported (s : State) (k : SlotKey) (addr : BitVec 48) (kind : Nat) : State :=
  (s.mapSlot k fun t =>
    { t with
      rfq := if t.rfq = 65535 then t.rfq else t.rfq + 1
      repAddr := if t.rfq = 0 then addr else t.repAddr
      repKind := if t.rfq = 0 then BitVec.ofNat 8 kind else t.repKind }).acked k

/-- REMOTE_FAULT_REPORT (R193, R287): of a refused store of slot `key` to address `w` with kind `n`, or of a refused
offer with target word `w`. -/
def execRemoteFaultReport (s : State) : Out := orNone do
  let e := s.ev
  let t ← s.thread? e.key
  match (List.range t.posted.length).find? (fun i => postedDue s t i && (match t.posted[i]? with
      | some p => p.refuse != 0 && p.refuse == e.n && p.va == e.w
      | none => false)) with
  | some i =>
    pure ((s.mapSlot e.key (fun t => { t with posted := t.posted.eraseIdx i })).reported e.key (e.w.setWidth 48) e.n)
  | none =>
    let i ← s.offers.findIdx? (fun o => o.key = e.key ∧ o.decided = some e.n ∧ e.n ≠ 0 ∧ o.target = e.w ∧ o.due ≤ s.cyc)
    pure ({ s with offers := s.offers.eraseIdx i }.reported e.key (compactTarget e.w) e.n)

/-- A combined store whose line has waited 64 cycles. -/
def combineDue (s : State) (p : Posted) : Bool := p.wcb && decide (p.due ≤ s.cyc)

/-- WRITE_COMBINING_TIMEOUT (R168): the lines of core `key` that have waited 64 cycles are sent. -/
def execWriteCombiningTimeout (s : State) : Out :=
  let c := s.ev.key.coreKey
  if s.threads.any (fun t => t.key.coreKey = c ∧ t.posted.any (combineDue s)) then
    .next (s.mapAll (fun t => if t.key.coreKey = c then
      { t with posted := t.posted.map (fun p => if combineDue s p then { p with wcb := false, due := s.cyc + p.lat } else p) }
      else t))
  else .fault .noSubject

/-! ### Atomics (R173, R195 to R198) -/

/-- Two cells have one home (R173): the bank of a scratchpad (R23); for other memory, the line stands for its slice, as the
spec does not say which lines share one. -/
def oneHome (c c' : Nat) : Bool :=
  if 2 ^ 56 ≤ c ∧ c < 2 ^ 57 then decide (2 ^ 56 ≤ c' ∧ c' < 2 ^ 57) && c / 2 ^ 19 == c' / 2 ^ 19 && c / 16 % 32 == c' / 16 % 32
  else c / 64 == c' / 64

/-- The class an atomic travels in. -/
def Amo.cls (a : Amo) : Nat := amoClass (attrOf a.lo).cls

/-- Entry `n` of the homes can be performed: it has arrived, and is the first to have arrived of its class at its home
(R173, R195). -/
def amoDue (s : State) (n : Nat) : Bool :=
  match s.homeQ[n]? with
  | none => false
  | some a =>
    decide (a.due ≤ s.cyc) && (List.range s.homeQ.length).all (fun i =>
      match s.homeQ[i]? with
      | some b => !(oneHome a.cell b.cell && oneClass a.key.tile a.cls a.cell b.cls b.cell)
          || decide (a.due < b.due) || (a.due == b.due && decide (n ≤ i))
      | none => true)

/-- An atomic that its home does not perform: its packet met three retrains, or its tile has been taken away (R308). -/
def Amo.ends (a : Amo) : Bool := decide (3 ≤ a.retr) || a.refuse != 0

/-- The fault kind of an atomic that its home does not perform. -/
def Amo.kind (a : Amo) : Nat := if a.refuse = 0 then kLink else a.refuse

/-- An atomic that its home does not perform: its thread is held, with the atomic in its retry latch and the kind of the
refusal (R192, R308, R371). The thread in focus issued it. -/
def lateFault (s : State) (a : Amo) : State :=
  lateHold s .l
    { trig := Trig.num a.amo, kind := a.kind, addr := a.va, lo := a.lo
      lo2 := if a.amo = .amoCasQ then a.w.setWidth 64 else a.v.setWidth 64
      lo3 := if a.amo = .amoCasQ then (a.w >>> 64).setWidth 64 else a.w.setWidth 64
      pc := a.pc } []

/-- Atomic `n` of the homes reported to its thread. -/
def reportAmo (s : State) (a : Amo) : Option State :=
  let me := s.th.key
  let s := { s with homeQ := s.homeQ.eraseIdx s.ev.n }
  match s.focus a.key with
  | none => some s
  | some s1 => if mayHold s1.th.hold ∧ s1.th.latch.isNone then some (let s2 := lateFault s1 a; (s2.focus me).getD s2) else none

/-- ATOMIC_AT_HOME (R173): one adjacent read and write, and the answer to the thread, which acquires on the value read
(R171, R195) and no longer holds an older view of the line (R163); or the report that it is not performed (R308, R371). -/
def execAtomicAtHome (s : State) : Out :=
  match s.homeQ[s.ev.n]? with
  | none => .fault .noSubject
  | some a =>
    if !amoDue s s.ev.n then .fault .noSubject
    else if a.ends then orNone (reportAmo s a)
    else
      let n := amoBytes a.amo
      let m := leNat (s.readAs a.aes a.cell n)
      let (w?, f) := amoResult a.amo n m a.v.toNat a.w.toNat
      let s := { s with homeQ := s.homeQ.eraseIdx s.ev.n }
      let s := match w? with
        | some w => s.writeAs a.aes a.cell (leBytes n w)
        | none => s
      let s := s.evict a.key.coreKey a.cell
      let s := if (attrOf a.lo).acq then s.acquireAt a.key.coreKey (attrOf a.lo).scope else s
      .next (s.answerL a.key (fun p => { p with r := BitVec.ofNat 64 m, r2 := BitVec.ofNat 64 (m / 2 ^ 64), flags := f }))

/-! ### Waits on a word (R199 to R201) -/

/-- A waiting thread reads its word: the place and the value, or the fault kind. -/
def waitRead (s : State) (a : Word) (n : Nat) : Except Nat (Loc × Nat) :=
  match translate s s.self a .load with
  | .error k => .error k
  | .ok l => if s.denied l.cell 0 n ≠ 0 then .error (s.denied l.cell 0 n) else .ok (l, leNat (s.readAs l.aes l.cell n))

/-- The wait of the thread in focus finds what ends it: its condition holds, or its word cannot be read. -/
def wakeDue (s : State) : Bool :=
  match s.th.hold with
  | .waddr a n ge v _ _ w =>
    match waitRead s a n with
    | .ok (l, x) => (match l.space with
      | .peer => false
      | _ => true) && waitDone ge n x v.toNat
    | .error _ => decide (w ≤ s.cyc)
  | _ => false

/-- A wait whose new read faults, or meets a third retrain, is held as at its trigger: it has not been performed (R192). -/
def waitFault (s : State) (trig kind : Nat) (a : Word) : State :=
  raiseFault (s.map (fun t => { t with hold := .none, unperformed := none })) false trig 0 kind a

/-- The trigger of a wait form. -/
def waitTrig (n : Nat) (ge : Bool) : Nat := 0x126 + (if n = 8 then 1 else 0) + (if ge then 2 else 0)

/-- WAIT_WAKE (R200): the word is read again and ends the wait. -/
def execWaitWake : State → Out :=
  onSlot fun s =>
    match s.th.hold with
    | .waddr a n ge _ lo _ _ =>
      if !wakeDue s then none
      else
        match waitRead s a n with
        | .ok (l, x) => some (waitReturn (s.dropView l) lo x 0)
        | .error k => some (waitFault s (waitTrig n ge) k a)
    | _ => none

/-- WATCH_UNIT_READ (R200): the watch unit reads a peer word; a read that does not meet the condition ends the wait
with status 2, or 1 where the timeout has expired. -/
def execWatchUnitRead : State → Out :=
  onSlot fun s =>
    match s.th.hold with
    | .waddr a n ge v lo d w =>
      if s.cyc < w then none
      else if 3 ≤ s.th.retr then some (waitFault s (waitTrig n ge) kLink a)
      else
        match waitRead s a n with
        | .error k => some (waitFault s (waitTrig n ge) k a)
        | .ok (l, x) =>
          match l.space with
          | .peer =>
            let late := (d.map (fun d => decide (d ≤ s.cyc))).getD false
            some (waitReturn (s.dropView l) lo x (if waitDone ge n x v.toNat then 0 else if late then 1 else 2))
          | _ => none
    | _ => none

/-- WAIT_TIMEOUT (R199): the value of the last read, with status 1, or 0 where it meets the condition. -/
def execWaitTimeout : State → Out :=
  onSlot fun s =>
    match s.th.hold with
    | .waddr a n ge v lo (some d) _ =>
      if s.cyc < d ∨ wakeDue s then none
      else
        match waitRead s a n with
        | .ok (l, x) => some (waitReturn (s.dropView l) lo x (if waitDone ge n x v.toNat then 0 else 1))
        | .error k => some (waitFault s (waitTrig n ge) k a)
    | _ => none

/-- One more read of a host line by a thread that waits on it (R200). -/
def snoopWait (line : Nat) (s : State) : State :=
  match s.th.hold with
  | .waddr a n ge v lo _ _ =>
    match waitRead s a n with
    | .ok (l, x) =>
      if l.cell / 64 = hostCell (line * 64) / 64 then
        waitReturn (s.dropView l) lo x (if waitDone ge n x v.toNat then 0 else 2) else s
    | .error _ => s
  | _ => s

/-- Each bound slot taken in turn. -/
def eachSlot (f : State → State) (s : State) : State :=
  (s.threads.map Thread.key).foldl (fun s k =>
    let me := s.th.key
    match s.focus k with
    | none => s
    | some s1 => let s2 := f s1; (s2.focus me).getD s2) s

/-- SNOOP_OR_BACK_INVALIDATE (R200): the host takes line `n` of its memory, with its new contents where `bytes` holds a
whole line; the waits on the line read once more. -/
def execSnoopOrBackInvalidate (s : State) : Out :=
  let s := if s.ev.bytes.length = 64 then s.poke (hostCell (s.ev.n * 64)) s.ev.bytes else s
  .next (eachSlot (snoopWait s.ev.n) s)

/-! ### Park and sleep (R261, R263) -/

/-- The s.r of a saved task, in its frame extension (R347). -/
def setSavedSr (s : State) (ctx : Nat) (rec w : Word) : State :=
  match writeVA s (devAgent ctx) (recWord s ctx rec 8 + 0x600 + 8 * 14) (dwords [w]) with
  | .ok s => s
  | .error _ => s

/-- PARK_WAKE (R261): the continuation of record `w` of context `n`. -/
def execParkWake (s : State) : Out := orNone do
  let i ← s.parks.findIdx? (fun p => p.ctx = s.ev.n ∧ p.record = s.ev.w ∧ p.woken)
  let p ← s.parks[i]?
  let s := { s with parks := s.parks.eraseIdx i }
  match s.threads.find? (fun t => t.ctx = p.ctx ∧ t.record = p.record) with
  | some t =>
    pure ((s.mapSlot t.key (fun t => { (t.set .sr 1) with hold := .none, life := .running, readyAt := s.cyc + 1 })).acquireAt
      t.key.coreKey 2)
  | none => pure (appendRecord (setSavedSr s p.ctx p.record 1) (dieFor s p.ctx p.record p.die) p.ctx p.record)

/-- SLEEP_EXPIRY (R263). -/
def execSleepExpiry : State → Out :=
  onSlot fun s =>
    match s.th.hold with
    | .sleep u => if u ≤ s.cyc then some (s.map (fun t => { t with hold := .none, readyAt := s.cyc })) else none
    | _ => none

/-! ### Trap entry (R346) -/

/-- TRAP_ENTRY (R346): a trap that waited for the thread's operations is entered. -/
def execTrapEntry : State → Out :=
  onSlot fun s =>
    match s.th.trapWait with
    | some ti => if s.th.drained s.cyc then some (enterTrap s ti) else none
    | none => none

end Sys2Proof.Machine
end

