-- ==== Sys2Proof/Machine/Dispatcher.lean ====
section
/-! DEFINITION. The dispatch units: popping, priority rise and migration (R220, R223, R226 to R230). A run queue's three
parts keep one arrival order, so one list stands for all of them (R226). -/

namespace Sys2Proof.Machine

/-! ### Idle slots (R222, R223) -/

/-- A context that is not pre-empted. -/
def ctxLive (s : State) (n : Nat) : Bool := ((s.ctx? n).map (fun c => !c.preq)).getD false

/-- The slot is bound to no thread: it is idle. -/
def slotIdle (s : State) (k : SlotKey) : Bool := s.threads.all (fun t => t.key != k)

/-- The idle stage-core slots of a context's tiles on a die. -/
def idleSlots (s : State) (c : Ctx) (die : Nat) : List SlotKey :=
  (c.tiles.filter (fun p => dieOf p.2 = die)).flatMap fun p =>
    (List.range 32).filterMap fun i =>
      let k : SlotKey := ⟨p.2, i / 8, i % 8⟩
      if slotIdle s k then some k else none

/-- The records of a die's run queues in pop order: highest priority first, then arrival. -/
def popOrder (s : State) (die : Nat) : List Queued :=
  (List.range 8).flatMap fun i => s.runq.filter (fun q => q.die = die ∧ q.prio = 7 - i)

/-- The record that a slot of a context's tiles on a die pops: the first in pop order that the slot may run. -/
def headFor (s : State) (c : Ctx) (die : Nat) : Option Queued :=
  (popOrder s die).find? (fun q => q.ctx = c.num ∧ dieAllowed (recDies s q.ctx q.record) die)

/-- A pop by slot `k`: the record checked again, then started or resumed (R220, R223). A record whose ctx field names another
context with a tile on the die passes R220's check, and runs under the context that queued it (log entry 53). -/
def popInto (s : State) (k : SlotKey) (q : Queued) : State :=
  let s := { s with runq := s.runq.erase q }
  let waits := s.suspended.contains (q.ctx, q.record)
  let s := { s with suspended := s.suspended.filter (fun x => x ≠ (q.ctx, q.record)) }
  if !recordOk s q.ctx q.record q.die then rejectRecord s q.ctx q.record
  else
    let me := s.th.key
    let s := recSetStatus s q.ctx q.record 2
    let (at_, s) := s.after 300
    let s := if waits then resumeThread s k q.ctx q.record none
      else s.place (startThread s k q.ctx q.record (Vector.replicate 8 {}))
    let s := ((s.acquire 2).takeEdges k.coreKey q.ctx q.record).map (fun t => { t with readyAt := max t.readyAt at_ })
    (s.focus me).getD s

/-- RUN_QUEUE_POP (R223): idle slot `key` pops from its die, `n`. -/
def execRunQueuePop (s : State) : Out := orNone do
  let k := s.ev.key
  let c ← s.ctxs.find? (fun c => c.tiles.any (fun p => p.2 = k.tile))
  if !(slotIdle s k) ∨ 4 ≤ k.core ∨ 8 ≤ k.slot ∨ dieOf k.tile ≠ s.ev.n ∨ !(ctxLive s c.num) then none
  else
    let q ← headFor s c s.ev.n
    pure (popInto s k q)

/-- The slots that can pop now, with their die: of one context and die; which of them pops is a free value (R223). -/
def popChoice (s : State) : Option (Nat × SlotKey) :=
  s.runq.findSome? fun q =>
    match s.ctx? q.ctx with
    | none => none
    | some c =>
      if c.preq then none
      else
        match headFor s c q.die with
        | none => none
        | some _ =>
          let ks := idleSlots s c q.die
          (ks[Config.free s.draws % max 1 ks.length]?).map fun k => (q.die, k)

/-! ### Waiting time (R228, R358) -/

/-- The cycles a record has waited at its level. -/
def waitedNow (s : State) (q : Queued) : Nat := if ctxLive s q.ctx then q.waited + (s.cyc - q.since) else q.waited

/-- A record that rises. -/
def riseDue (s : State) (q : Queued) : Bool := decide (q.prio < 7) && decide (65536 ≤ waitedNow s q)

/-- PRIORITY_RISE (R228): of the first record of die `n` at level `m` that has waited 65,536 cycles there. -/
def execPriorityRise (s : State) : Out := orNone do
  let q ← s.runq.find? (fun q => q.die = s.ev.n ∧ q.prio = s.ev.m ∧ riseDue s q)
  let s := { s with runq := s.runq.erase q ++ [{ q with prio := q.prio + 1, since := s.cyc, waited := 0 }] }
  let c := recControl s q.ctx q.record
  pure (recPut s q.ctx q.record 0x10 8 (c.toNat - fld c 42 40 * 2 ^ 40 + (q.prio + 1) * 2 ^ 40))

/-! ### Migration (R230) -/

/-- The idle task slots of a die. -/
def dieIdle (s : State) (die : Nat) : Nat := (s.ctxs.map (fun c => (idleSlots s c die).length)).sum

/-- A die that advertises. -/
def advertises (s : State) (die : Nat) : Bool :=
  s.runq.all (fun q => q.die != die) && decide (0 < dieIdle s die)

/-- MIGRATION_ADVERTISEMENT (R230): die `n` names up to 4 idle slots on its links. -/
def execMigrationAdvertisement (s : State) : Out :=
  if advertises s s.ev.n then
    let k := min 4 (dieIdle s s.ev.n)
    .next { s with adverts := s.adverts.filter (fun a => a.1 ≠ s.ev.n)
      ++ ((List.range 8).filter (fun d => d ≠ s.ev.n)).map (fun d => (s.ev.n, d, k)) }
  else .fault .noSubject

/-- A queued record that may leave for a die. -/
def mayMigrate (s : State) (die : Nat) (q : Queued) : Bool :=
  !recPin s q.ctx q.record && dieAllowed (recDies s q.ctx q.record) die

/-- MIGRATION_ANSWER (R230): die `n` answers the oldest advertisement it has received with one message, where it holds
records that may go. -/
def execMigrationAnswer (s : State) : Out := orNone do
  let a ← s.adverts.find? (fun a => a.2.1 = s.ev.n)
  let s := { s with adverts := s.adverts.erase a }
  let go := ((popOrder s s.ev.n).filter (mayMigrate s a.1)).take a.2.2
  if go.isEmpty then pure s
  else pure { s with
    runq := s.runq.filter (fun q => !go.contains q)
    migrations := s.migrations ++ [(a.1, go.map (fun q => { q with waited := waitedNow s q, since := s.cyc }))] }

/-- MIGRATION_MESSAGE (R230): the oldest message to die `n`: its records go to the tails of their priorities and keep
their waiting time. -/
def execMigrationMessage (s : State) : Out := orNone do
  let m ← s.migrations.find? (fun m => m.1 = s.ev.n)
  let s := { s with migrations := s.migrations.erase m }
  pure (m.2.foldl (fun s q => appendRecord s s.ev.n q.ctx q.record q.waited) s)

/-- A migration that would move something: an idle die, and a record of another die that may go there. -/
def migrationUseful (s : State) (die : Nat) : Bool :=
  advertises s die && s.adverts.all (fun a => a.1 != die) && s.migrations.all (fun m => m.1 != die)
    && s.runq.any (fun q => ctxLive s q.ctx && mayMigrate s die q && (match s.ctx? q.ctx with
      | some c => !(idleSlots s c die).isEmpty
      | none => false))

end Sys2Proof.Machine
end

