-- ==== Sys2Proof/Machine/Mailbox.lean ====
section
/-! DEFINITION. The bindery's mailbox and event ring (R325 to R333): how a request is served and answered, and what the
requests share: the host's buffers, the bindery's page tables, and the zeroing of a tile (R308). -/

namespace Sys2Proof.Machine

/-! ### Events for the host driver (R332, R333) -/

/-- The 64 bytes of an event. -/
def HostEvent.bytes (e : HostEvent) : List Byte :=
  dwords [BitVec.ofNat 64 (e.id * 2 ^ 32 + e.ctx * 2 ^ 16 + e.kind), e.d1, e.d2, e.d3, 0, 0, 0, 0]

/-- Events not consumed by the host. -/
def EventRing.used (r : EventRing) : Nat := (r.head - r.tail).toNat

/-- The ring can take one more event. -/
def EventRing.room (r : EventRing) : Bool :=
  match r.ring with
  | some (_, log2) => decide (r.used < 2 ^ log2)
  | none => false

/-- One event written, and then the head advanced (R333). -/
def writeEvent (s : State) (e : HostEvent) : State :=
  match s.events.ring with
  | none => s
  | some (base, log2) =>
    let s := s.poke (hostCell (base + 64 * (s.events.head.toNat % 2 ^ log2))) e.bytes
    { s with events := { s.events with head := s.events.head + 1 } }

/-- Held events written as room appears. -/
def flushEvents : Nat → State → State
  | 0, s => s
  | n + 1, s =>
    match s.events.held with
    | [] => s
    | e :: rest =>
      if s.events.room then flushEvents n (writeEvent { s with events := { s.events with held := rest } } e) else s

/-- An event of another kind than 1 reported: written, held, or lost (R333). -/
def report (s : State) (e : HostEvent) : State :=
  if s.events.held.isEmpty ∧ s.events.room then writeEvent s e
  else if s.events.held.length < 4096 then { s with events := { s.events with held := s.events.held ++ [e] } }
  else { s with events := { s.events with lost := min (s.events.lost + 1) (2 ^ 32 - 1) } }

/-! ### Requests (R328, R329) -/

end Sys2Proof.Machine

namespace Sys2Proof

/-- Dword `i` of a request, 1 to 7. -/
def Request.d (r : Request) (i : Nat) : Word := r.body.toList.getD (i - 1) 0

/-- Dwords after the first `k` body dwords are zero. -/
def Request.rest0 (r : Request) (k : Nat) : Bool := (r.body.toList.drop k).all (fun w => w == 0)

end Sys2Proof

namespace Sys2Proof.Machine

/-- The bits of a dword from `n` up are zero. -/
def below (w : Word) (n : Nat) : Bool := decide (w.toNat < 2 ^ n)

/-- The aligned address of a buffer or region. -/
def aligned (w : Word) (n : Nat) : Bool := w.toNat % n == 0

/-- How a request ends: refused with a status, done with its results, or still waiting. -/
inductive Answer where
  | no (status : Nat)
  | yes (s : State) (results : List Word)
  | later (s : State) (a : Await)

/-- The response written, then go and busy cleared together (R328). -/
def respond (s : State) (status : Nat) (results : List Word) : State :=
  let tag := fld (s.mail.req[(0 : Fin 8)]) 63 32
  let ws := BitVec.ofNat 64 (tag * 2 ^ 32 + status) :: results
  { s with mail := { s.mail with
      resp := Vector.ofFn (fun i => ws.getD i.val 0), go := false, busy := false, await := .none } }

/-- Every access a context has made is over: loads returned, stores and offers acknowledged or reported, atomics returned,
copies and fetches performed (R308, R317). A copy that has claimed no slot has made none. -/
def accessesDone (s : State) (ctx : Nat) : Bool :=
  let mine (k : SlotKey) : Bool := s.threads.any (fun t => t.key == k && t.ctx == ctx)
  s.threads.all (fun t => t.ctx != ctx || (t.posted.isEmpty && t.mem.isEmpty))
    && s.homeQ.all (fun a => !mine a.key) && s.offers.all (fun o => !mine o.key)
    && s.copies.all (fun c => c.ctx != ctx || (c.ring != 0 && c.slot.isNone)) && s.ringOps.all (fun o => o.ctx != ctx)
    && s.streams.all (fun st => st.ctx != ctx || st.fetches.all (fun f => f.va.isNone || f.elems.isSome || f.fault.isSome))

/-- A byte of the scratchpad of one of some tiles. -/
def onTiles (tiles : List Nat) (cell : Nat) : Bool :=
  decide (2 ^ 56 ≤ cell ∧ cell < 2 ^ 57) && tiles.contains ((cell - 2 ^ 56) / 2 ^ 19)

/-- Physical tiles taken out of their context's map (R308): the stores and atomics on their way to them are refused. -/
def refuseTiles (tiles : List Nat) (s : State) : State :=
  { s.mapAll (fun t => { t with
      posted := t.posted.map (fun p => if onTiles tiles p.cell ∧ p.refuse = 0 then { p with refuse := kPermission } else p) }) with
    homeQ := s.homeQ.map (fun a => if onTiles tiles a.cell then { a with refuse := kPermission } else a) }

/-- The tile of something lost. -/
def Lost.onTile (x : Lost) (t : Nat) : Bool :=
  match x with
  | .cell n => decide (scrCell t 0 ≤ n ∧ n < scrCell (t + 1) 0)
  | .press u _ _ | .heap u => u == t
  | .array k => k.tile == t

/-- A tile zeroed: scratchpad, register files with the channels that have an end there, streams, arrays, press, heap, slots and L1 lines (R308); its rotations
start again (R393). -/
def zeroTile (s : State) (t : Nat) : State :=
  let s := s.dropChans (fun c => c.onTile t)
  { s with
    th := if s.th.key.tile = t then {} else s.th
    others := s.others.filter (fun x => x.key.tile ≠ t)
    mem := Mem.clear s.mem (scrCell t 0) (scrCell t 0 + 2 ^ 19)
    presses := s.presses.filter (fun p => p.1 ≠ t)
    heaps := s.heaps.filter (fun p => p.1 ≠ t)
    arrays := s.arrays.filter (fun p => p.1.tile ≠ t)
    streams := s.streams.filter (fun st => st.core.tile ≠ t)
    peerLines := s.peerLines.filter (fun l => l.core.tile ≠ t)
    ilines := s.ilines.filter (fun l => l.1.tile ≠ t)
    tlb := s.tlb.filter (fun l => l.1.tile ≠ t)
    published := s.published.filter (fun p => p.1 ≠ t)
    rr := s.rr.filter (fun x => x.1.tile ≠ t)
    rrRep := s.rrRep.filter (fun x => x.1.tile ≠ t)
    lost := s.lost.filter (fun x => !x.onTile t)
    rrX := s.rrX.filter (fun x => x.1.tile ≠ t) }

/-- A context freed with all it holds (R330, op 0x02). -/
def freeCtx (s : State) (n : Nat) : State :=
  let rest := s.ctxs.filter (fun c => c.num ≠ n)
  let s := s.dropChans (fun c => c.ctx == n)
  { s with
    ctxs := rest
    streams := s.streams.filter (fun st => st.ctx ≠ n)
    suspended := s.suspended.filter (fun x => x.1 ≠ n)
    seqRnds := s.seqRnds.filter (fun x => x.1 ≠ n)
    edges := s.edges.filter (fun x => x.1 ≠ n)
    migrations := s.migrations.map (fun m => (m.1, m.2.filter (fun q => q.ctx ≠ n)))
    hbmTop := rest.foldl (fun a c => min a c.poolLow) hbmEnd
    imports := s.imports.filter (fun e => ¬(fld e.2.d1 63 48 = n))
    exports := s.exports.filter (fun e => ¬(fld e.2.d1 63 48 = n))
    keyIds := s.keyIds.filter (fun k => assoc s.keyOwner k.1 ≠ some n)
    keyOwner := s.keyOwner.filter (fun k => k.2 ≠ n)
    groupOwner := s.groupOwner.filter (fun g => g.2 ≠ n)
    expertOwner := s.expertOwner.filter (fun e => e.2.2 ≠ n)
    groups := s.groups.filter (fun g => g.2.ctx ≠ n)
    replicas := s.replicas.filter (fun r => fld r.2 63 48 ≠ n)
    sets := s.sets.filter (fun x => x.ctx ≠ n)
    pushBinds := s.pushBinds.filter (fun b => b.ctx ≠ n)
    queues := s.queues.filter (fun q => q.ctx ≠ n)
    tlb := s.tlb.filter (fun e => e.2.1 ≠ n)
    ilines := s.ilines.filter (fun e => e.2.1 ≠ n)
    runq := s.runq.filter (fun q => q.ctx ≠ n)
    parks := s.parks.filter (fun p => p.ctx ≠ n) }

/-- A queue number that is allocated. -/
def queueAllocated (s : State) (n : Nat) : Bool := (s.queue? n).isSome

/-- The request in service completes once what it waits for holds (R327). -/
def completeRequest (s : State) : State :=
  if !s.mail.busy then s
  else
    match s.mail.await with
    | .none => s
    | .settled ctx tiles gone =>
      if accessesDone s ctx then
        let s := tiles.foldl zeroTile s
        respond (if gone then freeCtx s ctx else s) 0 []
      else s
    | .queueFreed q => if queueAllocated s q then s else respond s 0 []
    | .preempted ctx =>
      match s.ctx? ctx with
      | some c => if c.quiet then respond s 0 [] else s
      | none => s

/-- The request in the request area, and its op. -/
def Mailbox.request (m : Mailbox) : Request :=
  let h := m.req[(0 : Fin 8)]
  ⟨h.extractLsb' 32 32, h.extractLsb' 16 16, h.extractLsb' 8 8, Vector.ofFn (fun i => m.req[i.succ])⟩
def Mailbox.op (m : Mailbox) : Nat := fld m.req[(0 : Fin 8)] 7 0

/-- The host has started the request in the request area, and it is not served yet. -/
def Mailbox.started (m : Mailbox) : Bool := m.busy && m.go && m.await == .none

/-- A request served: `named` says whether it acts on a context, `fmt` checks the body, `f` performs it. It is the request
that the host has started, or one whose dwords and go the host writes with this event (log entry 48). A request started
before the mailbox is open, or while one is served, is discarded (R328, R335). -/
def serve (op : Nat) (named : Bool) (fmt : Request → Bool) (f : Request → State → Answer) (s : State) : Out :=
  let r := s.ev.req
  if !s.mail.opened ∨ (s.mail.busy ∧ ¬(s.mail.started ∧ s.mail.op = op ∧ s.mail.request = r)) then .next s
  else
    let head := BitVec.ofNat 64 (r.tag.toNat * 2 ^ 32 + r.ctx.toNat * 2 ^ 16 + r.rsv.toNat * 2 ^ 8 + op)
    let s := { s with mail := { s.mail with req := Vector.ofFn (fun i => (head :: r.body.toList).getD i.val 0) } }
    .next (
      if r.rsv ≠ 0 ∨ (¬named ∧ r.ctx ≠ 0) ∨ !fmt r then respond s 1 []
      else if named ∧ (s.ctx? r.ctx.toNat).isNone then respond s 2 []
      else
        match f r s with
        | .no status => respond s status []
        | .yes s results => respond s 0 results
        | .later s a => completeRequest { s with mail := { s.mail with go := true, busy := true, await := a } })

/-- Bytes the bindery reads from the host through CXL.cache, or none where they cannot be read. -/
def hostBytes (s : State) (pa n : Nat) : Option (List Byte) :=
  if s.denied (hostCell pa) 0 n ≠ 0 then none else some (Mem.bytes s.mem (hostCell pa) n)

/-- The `n` bytes of a buffer, given to the rest of a request (R329). -/
def withBuffer (s : State) (w : Word) (n : Nat) (f : List Byte → Answer) : Answer :=
  match hostBytes s w.toNat n with
  | none => .no 5
  | some bs => f bs

/-- A range of bytes of a list is zero. -/
def zeros (bs : List Byte) (off n : Nat) : Bool := ((bs.drop off).take n).all (fun b => b == 0)

/-- A little-endian number of a byte list. -/
def numAt (bs : List Byte) (off n : Nat) : Nat := leNat ((bs.drop off).take n)

/-! ### Page tables (R311 to R314) -/

/-- A dword of bindery memory written. -/
def setBindery (s : State) (a : Nat) (w : Nat) : State := { s with mem := Mem.write s.mem (binderyCell a) (leBytes 8 w) }

/-- A fresh table of 4 KiB, all zero. -/
def allocTable (s : State) : Nat × State := ((s.tables + 1) * 4096, { s with tables := s.tables + 1 })

/-- A leaf written at level `lv` for an address, with the tables above it; none where a larger leaf stands there. -/
def putLeaf (leaf lv va : Nat) : Nat → Nat → State → Option State
  | 0, _, _ => none
  | level + 1, table, s =>
    let a := table + 8 * (va / 2 ^ (12 + 9 * level) % 512)
    let e := binderyWord s.mem a
    if level + 1 = lv then some (setBindery s a leaf)
    else if fld e 0 0 = 0 then
      let (t, s) := allocTable s
      putLeaf leaf lv va level t (setBindery s a (t + 1))
    else if fld e 6 6 = 1 then none
    else putLeaf leaf lv va level (fld e 51 12 * 4096) s

/-- The leaf of level `lv` for an address removed. -/
def dropLeaf (lv va : Nat) : Nat → Nat → State → State
  | 0, _, s => s
  | level + 1, table, s =>
    let a := table + 8 * (va / 2 ^ (12 + 9 * level) % 512)
    let e := binderyWord s.mem a
    if fld e 0 0 = 0 then s
    else if level + 1 = lv then (if fld e 6 6 = 1 then setBindery s a 0 else s)
    else if fld e 6 6 = 1 then s
    else dropLeaf lv va level (fld e 51 12 * 4096) s

/-- A page of the tables from a level down carries an AES key number (op 0x08). -/
def usesKey (m : List Host.Cell) (key : Nat) : Nat → Nat → Bool
  | 0, _ => false
  | level + 1, table =>
    (List.range 512).any fun i =>
      let e := binderyWord m (table + 8 * i)
      fld e 0 0 == 1 && (if fld e 6 6 = 1 then fld e 59 54 == key else usesKey m key level (fld e 51 12 * 4096))

/-- Sizes of MAP_PAGES: the level of the leaves, and how many leaves make a page of a size. -/
def sizeLevel (size : Nat) : Nat := if size = 3 then 3 else if size = 2 then 2 else 1
def sizeLeaves (size : Nat) : Nat := if size = 1 then 16 else 1
/-- The bytes of a page of a size. -/
def sizeBytes (size : Nat) : Nat := 2 ^ leafBits (sizeLevel size) * sizeLeaves size

/-- The translations of a context leave every TLB (R317). -/
def purge (s : State) (ctx : Nat) : State := { s with tlb := s.tlb.filter (fun e => e.2.1 ≠ ctx) }

/-- A run of leaves written from an address on: leaf `i` names the template's page plus `i` pages. -/
def putLeaves (root : Nat) (template lv va count : Nat) (s : State) : Option State :=
  (List.range count).foldl (fun s? i => s?.bind (fun s =>
    putLeaf (template + i * 2 ^ leafBits lv) lv (va + i * 2 ^ leafBits lv) 4 root s)) (some s)

/-! ### Helpers for queues -/

/-- A queue of the request's context, or the status that refuses it. -/
def withQueue (r : Request) (s : State) (f : SwQueue → Answer) : Answer :=
  match s.queue? (r.d 1).toNat with
  | none => .no 4
  | some q => if q.ctx ≠ r.ctx.toNat then .no 7 else f q

/-- Bytes of a queue record that the device writes in host memory (R231). -/
def State.putRecord (s : State) (q : SwQueue) (off : Nat) (bs : List Byte) : State := s.poke (hostCell (q.recAddr + off)) bs

end Sys2Proof.Machine
end

