-- ==== Sys2Proof/Machine/Bindery.lean ====
section
/-! DEFINITION. The mailbox requests that set up contexts, memory, keys, windows, queues and the host's own settings
(R329 to R334, ops 0x01 to 0x1B and 0x1F of R330). -/

namespace Sys2Proof.Machine

/-- A dword between two bounds. -/
def within (w : Word) (lo hi : Nat) : Bool := decide (lo ≤ w.toNat ∧ w.toNat ≤ hi)

/-! ### Contexts (R305, R331) -/

/-- The lowest number from 1 that no context has. -/
def freeCtxNumber (s : State) : Nat :=
  ((List.range 4097).find? (fun n => n ≠ 0 ∧ (s.ctx? n).isNone)).getD 4097

/-- The creation block is valid (R331). -/
def blockOk (b : List Byte) : Bool :=
  let d := numAt b 0xC 4
  let mode := numAt b 0x12 1
  decide (1024 ≤ numAt b 0 4 ∧ numAt b 0 4 ≤ 65536) && decide (numAt b 4 4 ≤ 2 ^ 20)
    && decide (1 ≤ numAt b 8 4 ∧ numAt b 8 4 ≤ 2 ^ 16) && (d == 0 || decide (1024 ≤ d ∧ d ≤ 2 ^ 24))
    && decide (mode ≤ 1) && zeros b 0x13 5 && numAt b 0x18 8 % 4 == 0 && (mode == 0 || numAt b 0x20 8 % 64 == 0)
    && zeros b 0x28 88

/-- The address of a die's pool: the bindery's choice (log entry 22). -/
def poolBase (die : Nat) : Nat := 0x7E0000000000 + die * 2 ^ 32

/-- 2 MiB pages of a pool. -/
def poolPages (slots : Nat) : Nat := (slots * 0x1100 + 2 ^ 21 - 1) / 2 ^ 21

/-- The pools of a context mapped, die-local, readable and writable; none where the HBM is used up (R224). -/
def mapPools (root slots : Nat) (s : State) : Option State :=
  (List.range 8).foldl (fun s? die => s?.bind fun s =>
    let size := poolPages slots * 2 ^ 21
    if s.hbmTop / 2 ^ 21 * 2 ^ 21 < size then none
    else
      let pa := s.hbmTop / 2 ^ 21 * 2 ^ 21 - size
      putLeaves root (pa + 2 ^ 11 + die * 2 ^ 8 + 0x47) 2 (poolBase die) (poolPages slots) { s with hbmTop := pa }) (some s)

/-- CREATE_CONTEXT (R331). A context created while a checkpoint is under way is pre-empted with the others (R372). -/
def createCtx (r : Request) (s : State) : Answer :=
  if 4096 ≤ s.ctxs.length then .no 3
  else
    withBuffer s (r.d 1) 128 fun b =>
      if !blockOk b then .no 1
      else
        let n := freeCtxNumber s
        let (root, s) := allocTable s
        let slots := numAt b 0 4
        match mapPools root slots s with
        | none => .no 3
        | some s =>
          let c : Ctx :=
            { num := n, root, vector := BitVec.ofNat 64 (numAt b 0x18 8)
              retryRing := if numAt b 0x12 1 = 1 then some (BitVec.ofNat 64 (numAt b 0x20 8)) else none
              pools := (List.range 8).map (fun die => (die, BitVec.ofNat 64 (poolBase die), slots))
              spawnaMax := numAt b 4 4, hostMax := numAt b 8 4
              deadline := if numAt b 0xC 4 = 0 then 100000 else numAt b 0xC 4
              rank := numAt b 0x10 2, poolLow := s.hbmTop, preq := s.ckpt.isSome, quiet := s.ckpt.isSome }
          .yes { s with ctxs := s.ctxs ++ [c] } [BitVec.ofNat 64 n]

/-- The context holds a continuation that has not retired. -/
def hasContinuation (s : State) (n : Nat) : Bool :=
  s.threads.any (fun t => t.ctx == n) || s.runq.any (fun q => q.ctx == n) || s.suspended.any (fun x => x.1 == n)
    || s.parks.any (fun p => p.ctx == n) || s.migrations.any (fun m => m.2.any (fun q => q.ctx == n))
    || (match s.ctx? n with
      | some c => !c.saved.isEmpty || !c.poolUsed.isEmpty || !c.spawnaUsed.isEmpty || !c.hostUsed.isEmpty
      | none => false)

/-- The physical tiles of a context. -/
def tilesOf (s : State) (n : Nat) : List Nat :=
  match s.ctx? n with
  | some c => c.tiles.map Prod.snd
  | none => []

/-- DESTROY_CONTEXT (R330): its tiles are taken from it, and it is freed once its accesses are over. -/
def destroyCtx (r : Request) (s : State) : Answer :=
  let n := r.ctx.toNat
  if s.queues.any (fun q => q.ctx = n ∧ q.st ≠ .freed) ∨ hasContinuation s n then .no 4
  else .later (refuseTiles (tilesOf s n) (s.mapCtx n (fun c => { c with tiles := [] }))) (.settled n (tilesOf s n) true)

/-! ### Tiles (R306 to R308) -/

/-- A tile that a request in service has still to zero (R308). -/
def tilePending (s : State) (t : Nat) : Bool :=
  match s.mail.await with
  | .settled _ tiles _ => tiles.contains t
  | _ => false

/-- Physical tiles in no grant, zeroed and not retired, on the dies of a mask. -/
def freeTiles (s : State) (mask : Nat) : List Nat :=
  (List.range 1536).filter fun t => dieAllowed mask (dieOf t) && !s.badTiles.contains t && !tilePending s t && s.ctxs.all (fun c => c.tiles.all (fun p => p.2 != t))

/-- HBM below what has been handed out, in pieces of 1 MiB, for the images of logical tiles that have none yet (R361);
none where the HBM is used up. -/
def saveAreas : List Nat → Nat → List (Nat × Nat) → Option (Nat × List (Nat × Nat))
  | [], top, areas => some (top, areas)
  | k :: ks, top, areas =>
    if (assoc areas k).isSome then saveAreas ks top areas
    else if top / 2 ^ 20 = 0 then none
    else saveAreas ks ((top / 2 ^ 20 - 1) * 2 ^ 20) (areas ++ [(k, (top / 2 ^ 20 - 1) * 2 ^ 20)])

/-- GRANT_TILES (R330): which free tiles is the bindery's choice, a free value. -/
def grantTiles (r : Request) (s : State) : Answer :=
  let n := (r.d 1).toNat
  let free := freeTiles s (r.d 2).toNat
  match s.ctx? r.ctx.toNat with
  | none => .no 2
  | some c =>
    if free.length < n ∨ 1536 < c.tiles.length + n then .no 3
    else
      let first := c.tiles.length
      match saveAreas (List.range' first n) s.hbmTop c.areas with
      | none => .no 3
      | some (top, areas) =>
      let (x, s) := { s with hbmTop := top }.draw
      let k := x % max 1 free.length
      let got := (free.drop k ++ free.take k).take n
      let s := got.foldl zeroTile s
      .yes (s.mapCtx c.num (fun c => { c with
          tiles := c.tiles ++ (List.range' first n).zip got, areas := areas, poolLow := min c.poolLow top }))
        [BitVec.ofNat 64 first, BitVec.ofNat 64 n]

/-- A thread of the context runs on a tile, or a stage of it is bound there. -/
def tileInUse (s : State) (n t : Nat) : Bool :=
  s.threads.any (fun x => x.ctx == n && x.key.tile == t)
    || (match s.ctx? n with
      | some c => c.saved.any (fun x => x.stage && x.key.tile == t)
      | none => false)

/-- REVOKE_TILES (R308, R330): the highest logical tiles. -/
def revokeTiles (r : Request) (s : State) : Answer :=
  match s.ctx? r.ctx.toNat with
  | none => .no 2
  | some c =>
    let n := (r.d 1).toNat
    if c.tiles.length < n then .no 1
    else
      let gone := (c.tiles.drop (c.tiles.length - n)).map Prod.snd
      if gone.any (tileInUse s c.num) then .no 4
      else .later (refuseTiles gone (s.mapCtx c.num (fun c => { c with tiles := c.tiles.take (c.tiles.length - n) })))
        (.settled c.num gone false)

/-! ### Pages and keys (R310 to R317) -/

/-- The run of pages of a MAP_PAGES or UNMAP_PAGES: its size word is valid, and it lies in the translated addresses. -/
def runOk (r : Request) : Bool :=
  let size := fld (r.d 3) 1 0
  let n := fld (r.d 3) 63 32
  let va := (r.d 1).toNat
  let top := va + n * sizeBytes size
  fld (r.d 3) 31 2 == 0 && decide (1 ≤ n) && va % sizeBytes size == 0
    && (decide (top ≤ 0x7F0000000000) || decide (2 ^ 47 ≤ va ∧ top ≤ 2 ^ 48))

/-- The body of MAP_PAGES is valid, its leaves among it (R313, R314). -/
def mapOk (r : Request) : Bool :=
  let size := fld (r.d 3) 1 0
  let leaf := r.d 2
  runOk r && r.rest0 3 && fld leaf 0 0 == 1 && fld leaf 6 6 == 1 && leafOk leaf (sizeLevel size)
    && (fld leaf 51 12 * 4096) % sizeBytes size == 0
    && decide (fld leaf 51 12 * 4096 + fld (r.d 3) 63 32 * sizeBytes size ≤ 2 ^ 52)

/-- MAP_PAGES (R330). -/
def mapPages (r : Request) (s : State) : Answer :=
  let size := fld (r.d 3) 1 0
  let key := fld (r.d 2) 59 54
  match s.ctx? r.ctx.toNat with
  | none => .no 2
  | some c =>
    if key ≠ 0 ∧ assoc s.keyOwner key ≠ some c.num then .no 7
    else
      let leaf := (if size = 1 then r.d 2 ||| 0x80 else r.d 2).toNat
      match putLeaves c.root leaf (sizeLevel size) (r.d 1).toNat (fld (r.d 3) 63 32 * sizeLeaves size) s with
      | none => .no 4
      | some s => .later (purge s c.num) (.settled c.num [] false)

/-- UNMAP_PAGES (R317, R330). -/
def unmapPages (r : Request) (s : State) : Answer :=
  let size := fld (r.d 3) 1 0
  let lv := sizeLevel size
  match s.ctx? r.ctx.toNat with
  | none => .no 2
  | some c =>
    let s := (List.range (fld (r.d 3) 63 32 * sizeLeaves size)).foldl
      (fun s i => dropLeaf lv ((r.d 1).toNat + i * 2 ^ leafBits lv) 4 c.root s) s
    .later (purge s c.num) (.settled c.num [] false)

/-- LOAD_KEY (R315, R330): a key loaded before is the same key again. -/
def loadKey (r : Request) (s : State) : Answer :=
  let k := (r.d 1).toNat
  if (assoc s.keyOwner k).isSome then .no 4
  else
    withBuffer s (r.d 2) 64 fun b =>
      let keys := if s.keys.contains b then s.keys else s.keys ++ [b]
      .yes { s with keys, keyOwner := (k, r.ctx.toNat) :: s.keyOwner
                    keyIds := (k, keys.findIdx (fun x => x == b) + 1) :: s.keyIds } []

/-- FREE_KEY (R330). -/
def freeKey (r : Request) (s : State) : Answer :=
  let k := (r.d 1).toNat
  match assoc s.keyOwner k, s.ctx? r.ctx.toNat with
  | none, _ | _, none => .no 4
  | some n, some c =>
    if n ≠ c.num then .no 7
    else if usesKey s.mem k 4 c.root then .no 4
    else .yes { s with keyOwner := s.keyOwner.filter (fun p => p.1 ≠ k), keyIds := s.keyIds.filter (fun p => p.1 ≠ k) } []

/-! ### Windows (R318, R319) -/

/-- The 32 bytes of an entry. -/
def winOfBytes (b : List Byte) : Win256 := ⟨dwordAt b 0, dwordAt b 8, dwordAt b 16, dwordAt b 24⟩

/-- Reserved bits of an import or export entry are zero. -/
def winOk (exp : Bool) (w : Win256) : Bool :=
  if exp then fld w.d0 58 56 == 0 && fld w.d0 42 32 == 0 && fld w.d1 11 0 == 0 && fld w.d2 63 30 == 0 && w.d3 == 0
  else fld w.d0 62 61 == 0 && fld w.d0 47 42 == 0 && fld w.d1 47 0 == 0 && w.d2 == 0 && w.d3 == 0

/-- The window word of a request is valid. -/
def windowFmt (r : Request) : Bool := fld (r.d 1) 15 1 == 0 && fld (r.d 1) 63 26 == 0

/-- The entry stands and belongs to another context. -/
def windowTaken (s : State) (r : Request) : Bool :=
  match assoc (if fld (r.d 1) 0 0 = 1 then s.exports else s.imports) (fld (r.d 1) 25 16) with
  | some w => fld w.d0 63 63 == 1 && fld w.d1 63 48 != r.ctx.toNat
  | none => false

/-- The entry without its old contents. -/
def dropWindow (s : State) (r : Request) : State :=
  let n := fld (r.d 1) 25 16
  if fld (r.d 1) 0 0 = 1 then { s with exports := s.exports.filter (fun p => p.1 ≠ n) }
  else { s with imports := s.imports.filter (fun p => p.1 ≠ n) }

/-- WRITE_WINDOW (R330). -/
def writeWindow (r : Request) (s : State) : Answer :=
  withBuffer s (r.d 2) 32 fun b =>
    let w := winOfBytes b
    let exp := decide (fld (r.d 1) 0 0 = 1)
    let n := fld (r.d 1) 25 16
    if !winOk exp w then .no 1
    else if fld w.d1 63 48 ≠ r.ctx.toNat ∨ windowTaken s r then .no 7
    else
      let s := dropWindow s r
      .later (if exp then { s with exports := (n, w) :: s.exports } else { s with imports := (n, w) :: s.imports })
        (.settled r.ctx.toNat [] false)

/-- CLEAR_WINDOW (R317, R330). -/
def clearWindow (r : Request) (s : State) : Answer :=
  if windowTaken s r then .no 7 else .later (dropWindow s r) (.settled r.ctx.toNat [] false)

/-! ### Queues (R231, R235, R238) -/

/-- The queue record's host fields are valid. -/
def recordFmt (b : List Byte) : Bool :=
  numAt b 0 8 % 4096 == 0 && decide (4 ≤ numAt b 8 1 ∧ numAt b 8 1 ≤ 16) && zeros b 9 7 && zeros b 0x14 4 && zeros b 0x28 24

/-- ALLOCATE_QUEUE (R330): the lowest number that is free and on which no stage of an earlier queue still runs. -/
def allocateQueue (r : Request) (s : State) : Answer :=
  withBuffer s (r.d 1) 64 fun b =>
    if !recordFmt b then .no 1
    else
      match (List.range 65536).find? (fun n => !queueAllocated s n && !pipeAlive s ⟨1536, 0, 0⟩ (fun p => p.1 == n)) with
      | none => .no 3
      | some n =>
        let q : SwQueue :=
          { num := n, ctx := r.ctx.toNat, recAddr := (r.d 1).toNat, base := numAt b 0 8, log2 := numAt b 8 1
            wr := numAt b 0x10 4, rd := numAt b 0x10 4 }
        .yes { s with queues := s.queues.filter (fun q => q.num ≠ n) ++ [q] } [BitVec.ofNat 64 n]

/-- DESTROY_QUEUE (R238): a parked queue is freed at once, and stages it started run on; another is freed once what it
has started is over. -/
def destroyQueue (r : Request) (s : State) : Answer :=
  withQueue r s fun q =>
    .later (s.mapQueue q.num (fun q =>
      { q with st := .draining, slot := none, ready := none, waits := none
               started := if q.st = .parked then [] else q.started })) (.queueFreed q.num)

/-- RESTART_QUEUE (R235, R330). -/
def restartQueue (r : Request) (s : State) : Answer :=
  withQueue r s fun q =>
    let rd := (r.d 2).toNat
    if q.st ≠ .error then .no 4
    else if 2 ^ q.log2 < (q.wr + 2 ^ 32 - rd) % 2 ^ 32 then .no 1
    else
      let s := (s.putRecord q 0x18 (leBytes 8 0)).putRecord q 0x10 (leBytes 4 rd)
      .yes (s.mapQueue q.num (fun q =>
        { q with st := .running, rd, ready := if q.wr = rd then none else some s.cyc })) []

/-- MARK_CHECKPOINT_QUEUE (R372). -/
def markQueue (r : Request) (s : State) : Answer :=
  withQueue r s fun q => .yes (s.mapQueue q.num (fun q => { q with ckpt := decide (r.d 2 = 1) })) []

/-- PAUSE_QUEUE (R330). -/
def pauseQueue (r : Request) (s : State) : Answer :=
  withQueue r s fun q => .yes (s.mapQueue q.num (fun q => { q with paused := decide (r.d 2 = 1) })) []

/-! ### Groups, experts and image keys -/

/-- ALLOT_GROUPS (R243, R330). -/
def allotGroups (r : Request) (s : State) : Answer :=
  let free := ((List.range 256).filter (fun g => g ≠ 0 ∧ (assoc s.groupOwner g).isNone)).take (r.d 1).toNat
  if free.length < (r.d 1).toNat then .no 3
  else
    let mask := free.foldl (fun m g => m + 2 ^ g) 0
    .yes { s with groupOwner := s.groupOwner ++ free.map (fun g => (g, r.ctx.toNat)) }
      ((List.range 4).map (fun i => BitVec.ofNat 64 (mask / 2 ^ (64 * i))))

/-- An expert number that is allotted. -/
def expertTaken (s : State) (e : Nat) : Bool := s.expertOwner.any (fun x => decide (x.1 ≤ e ∧ e < x.1 + x.2.1))

/-- ALLOT_EXPERTS (R330). -/
def allotExperts (r : Request) (s : State) : Answer :=
  let n := (r.d 1).toNat
  match (List.range (4097 - n)).find? (fun b => (List.range n).all (fun i => !expertTaken s (b + i))) with
  | none => .no 3
  | some b => .yes { s with expertOwner := s.expertOwner ++ [(b, n, r.ctx.toNat)] } [BitVec.ofNat 64 b]

/-- A key's identifier: the first 8 bytes of its digest (R321). -/
def keyIdent (point : List Byte) : List Byte := (digestBytes (sha384 point)).take 8

/-- REGISTER_IMAGE_KEY (R321). -/
def registerKey (r : Request) (s : State) : Answer :=
  match s.ctx? r.ctx.toNat with
  | none => .no 2
  | some c =>
    if c.imageKey ≠ [] then .no 4
    else
      withBuffer s (r.d 1) 97 fun b =>
        if !onCurve b then .no 6
        else .yes (s.mapCtx c.num (fun c => { c with imageKey := b })) [BitVec.ofNat 64 (leNat (keyIdent b))]

/-! ### A context's settings -/

/-- SET_FAULT_MODE (R338). -/
def setFaultMode (r : Request) (s : State) : Answer :=
  .yes (s.mapCtx r.ctx.toNat (fun c => { c with retryRing := if r.d 1 = 1 then some (r.d 2) else none })) []

/-- SET_MONITOR_VECTOR (R346). -/
def setVector (r : Request) (s : State) : Answer := .yes (s.mapCtx r.ctx.toNat (fun c => { c with vector := r.d 1 })) []

/-- SET_DEADLINE (R358). -/
def setDeadline (r : Request) (s : State) : Answer :=
  .yes (s.mapCtx r.ctx.toNat (fun c => { c with deadline := (r.d 1).toNat })) []

/-- SET_POWER_RANK (R365). -/
def setRank (r : Request) (s : State) : Answer := .yes (s.mapCtx r.ctx.toNat (fun c => { c with rank := (r.d 1).toNat })) []

/-! ### The host's settings (R332, R334, R372) -/

/-- A range added to a list, or removed from it. -/
def setRange {α : Type} [DecidableEq α] (l : List α) (x : α) (add : Bool) : Option (List α) :=
  if add then some (x :: l.filter (fun y => y ≠ x)) else if l.contains x then some (l.filter (fun y => y ≠ x)) else none

/-- REGISTER_SAFE_TIER (R372). -/
def registerTier (r : Request) (s : State) : Answer :=
  match setRange s.safeTier ((r.d 1).toNat, (r.d 2).toNat) (r.d 3 = 1) with
  | some l => .yes { s with safeTier := l } []
  | none => .no 4

/-- RESERVE_BUDDY_REGION (R372). -/
def reserveBuddy (r : Request) (s : State) : Answer :=
  match setRange s.buddies ((r.d 1).toNat, (r.d 2).toNat, (r.d 3).toNat) (r.d 4 = 1) with
  | some l => .yes { s with buddies := l } []
  | none => .no 4

/-- SET_HOST_VISIBLE (R334). -/
def setVisible (r : Request) (s : State) : Answer :=
  match setRange s.visible ((r.d 1).toNat, (r.d 2).toNat) (r.d 3 = 1) with
  | some l => .yes { s with visible := l } []
  | none => .no 4

/-- REGISTER_COLLECTIVE_SET (R234). A set registered again counts its sums anew. -/
def registerSet (r : Request) (s : State) : Answer :=
  let n := (r.d 2).toNat
  withBuffer s (r.d 4) (2 * n) fun b =>
    let ranks := (List.range n).map (fun i => numAt b (2 * i) 2)
    if ranks.any (fun d => decide (2 ^ 13 ≤ d)) then .no 1
    else
      let x : CollSet := ⟨r.ctx.toNat, (r.d 1).toNat, ranks, (r.d 3).toNat, 0⟩
      let mine (c n : Nat) : Bool := c == x.ctx && n == x.num
      let again := s.sets.any (fun y => mine y.ctx y.num)
      .yes { s with
        sets := x :: s.sets.filter (fun y => !mine y.ctx y.num)
        contribs := s.contribs.filter (fun c => !(again && mine c.ctx c.set)) } []

/-- SET_EVENT_RING (R332): head and tail restart, and held events are written. -/
def setEventRing (r : Request) (s : State) : Answer :=
  .yes (flushEvents 4096 { s with events := { s.events with
    ring := some ((r.d 1).toNat, (r.d 2).toNat), head := 0, tail := 0 } }) []

/-- FAULT_ANSWER (R340). -/
def faultAnswer (r : Request) (s : State) : Answer :=
  match s.policyQ.find? (fun x => x.id = (r.d 1).toNat ∧ x.posted ∧ x.answer.isNone) with
  | none => .no 4
  | some x =>
    if x.ctx ≠ r.ctx.toNat then .no 7
    else .yes { s with policyQ := s.policyQ.map (fun y => if y.id = x.id then { y with answer := some (decide (r.d 2 = 0)) } else y) } []

/-! ### The instructions -/

/-- A bit field that is 0 or 1. -/
def bit (w : Word) : Bool := below w 1

/-- CREATE_CONTEXT (R331). -/
def execCreateContext (s : State) : Out := serve 0x01 false (fun r => aligned (r.d 1) 64 && r.rest0 1) createCtx s
/-- DESTROY_CONTEXT (R330). -/
def execDestroyContext (s : State) : Out := serve 0x02 true (fun r => r.rest0 0) destroyCtx s
/-- GRANT_TILES (R330). -/
def execGrantTiles (s : State) : Out :=
  serve 0x03 true (fun r => within (r.d 1) 1 1536 && below (r.d 2) 8 && r.rest0 2) grantTiles s
/-- REVOKE_TILES (R330). -/
def execRevokeTiles (s : State) : Out := serve 0x04 true (fun r => within (r.d 1) 1 1536 && r.rest0 1) revokeTiles s
/-- MAP_PAGES (R330). -/
def execMapPages (s : State) : Out := serve 0x05 true mapOk mapPages s
/-- UNMAP_PAGES (R330). -/
def execUnmapPages (s : State) : Out := serve 0x06 true (fun r => runOk r && r.d 2 == 0 && r.rest0 3) unmapPages s
/-- LOAD_KEY (R315). -/
def execLoadKey (s : State) : Out :=
  serve 0x07 true (fun r => within (r.d 1) 1 63 && aligned (r.d 2) 64 && r.rest0 2) loadKey s
/-- FREE_KEY (R330). -/
def execFreeKey (s : State) : Out := serve 0x08 true (fun r => within (r.d 1) 1 63 && r.rest0 1) freeKey s
/-- WRITE_WINDOW (R330). -/
def execWriteWindow (s : State) : Out :=
  serve 0x09 true (fun r => windowFmt r && aligned (r.d 2) 64 && r.rest0 2) writeWindow s
/-- CLEAR_WINDOW (R330). -/
def execClearWindow (s : State) : Out := serve 0x0A true (fun r => windowFmt r && r.rest0 1) clearWindow s
/-- ALLOCATE_QUEUE (R231). -/
def execAllocateQueue (s : State) : Out := serve 0x0B true (fun r => aligned (r.d 1) 64 && r.rest0 1) allocateQueue s
/-- DESTROY_QUEUE (R238). -/
def execDestroyQueue (s : State) : Out := serve 0x0C true (fun r => below (r.d 1) 16 && r.rest0 1) destroyQueue s
/-- RESTART_QUEUE (R235). -/
def execRestartQueue (s : State) : Out :=
  serve 0x0D true (fun r => below (r.d 1) 16 && below (r.d 2) 32 && r.rest0 2) restartQueue s
/-- MARK_CHECKPOINT_QUEUE (R372). -/
def execMarkCheckpointQueue (s : State) : Out :=
  serve 0x0E true (fun r => below (r.d 1) 16 && bit (r.d 2) && r.rest0 2) markQueue s
/-- ALLOT_GROUPS (R330). -/
def execAllotGroups (s : State) : Out := serve 0x0F true (fun r => within (r.d 1) 1 255 && r.rest0 1) allotGroups s
/-- ALLOT_EXPERTS (R330). -/
def execAllotExperts (s : State) : Out := serve 0x10 true (fun r => within (r.d 1) 1 4096 && r.rest0 1) allotExperts s
/-- REGISTER_IMAGE_KEY (R321). -/
def execRegisterImageKey (s : State) : Out := serve 0x11 true (fun r => aligned (r.d 1) 64 && r.rest0 1) registerKey s
/-- SET_FAULT_MODE (R338, R341). -/
def execSetFaultMode (s : State) : Out :=
  serve 0x12 true (fun r => bit (r.d 1) && (if r.d 1 = 1 then aligned (r.d 2) 64 else r.d 2 == 0) && r.rest0 2) setFaultMode s
/-- SET_MONITOR_VECTOR (R346). -/
def execSetMonitorVector (s : State) : Out := serve 0x13 true (fun r => aligned (r.d 1) 4 && r.rest0 1) setVector s
/-- SET_DEADLINE (R358). -/
def execSetDeadline (s : State) : Out := serve 0x14 true (fun r => within (r.d 1) 1024 (2 ^ 24) && r.rest0 1) setDeadline s
/-- SET_POWER_RANK (R365). -/
def execSetPowerRank (s : State) : Out := serve 0x15 true (fun r => below (r.d 1) 16 && r.rest0 1) setRank s
/-- REGISTER_SAFE_TIER (R372). -/
def execRegisterSafeTier (s : State) : Out :=
  serve 0x16 false (fun r => aligned (r.d 1) 4096 && bit (r.d 3) && r.rest0 3) registerTier s
/-- RESERVE_BUDDY_REGION (R372). -/
def execReserveBuddyRegion (s : State) : Out :=
  serve 0x17 false (fun r => below (r.d 1) 13 && aligned (r.d 2) 4096
    && decide ((r.d 2).toNat + (r.d 3).toNat ≤ hbmEnd) && bit (r.d 4) && r.rest0 4) reserveBuddy s
/-- SET_HOST_VISIBLE (R334). -/
def execSetHostVisible (s : State) : Out :=
  serve 0x18 false (fun r => aligned (r.d 1) 4096 && decide ((r.d 1).toNat + (r.d 2).toNat ≤ hbmEnd)
    && bit (r.d 3) && r.rest0 3) setVisible s
/-- REGISTER_COLLECTIVE_SET (R234). -/
def execRegisterCollectiveSet (s : State) : Out :=
  serve 0x19 true (fun r => within (r.d 1) 1 65535 && within (r.d 2) 1 6144 && decide ((r.d 3).toNat < (r.d 2).toNat)
    && aligned (r.d 4) 64 && r.rest0 4) registerSet s
/-- SET_EVENT_RING (R332). -/
def execSetEventRing (s : State) : Out :=
  serve 0x1A false (fun r => aligned (r.d 1) 4096 && within (r.d 2) 6 16 && r.rest0 2) setEventRing s
/-- FAULT_ANSWER (R340). -/
def execFaultAnswer (s : State) : Out := serve 0x1B true (fun r => below (r.d 1) 32 && bit (r.d 2) && r.rest0 2) faultAnswer s
/-- PAUSE_QUEUE (R330). -/
def execPauseQueue (s : State) : Out := serve 0x1F true (fun r => below (r.d 1) 16 && bit (r.d 2) && r.rest0 2) pauseQueue s

/-- RESERVED_OP_REQUEST (R329, R330): no effect, and status 1. `n` is the op. -/
def execReservedOpRequest (s : State) : Out :=
  if s.ev.n = 0 ∨ (0x20 ≤ s.ev.n ∧ s.ev.n ≤ 0xFF) then serve s.ev.n false (fun _ => false) (fun _ _ => .no 1) s
  else .fault .noSubject

end Sys2Proof.Machine
end

