-- ==== Sys2Proof/Machine/HostQueue.lean ====
section
/-! DEFINITION. Host queues: doorbells, hardware queue slots, the command packets but LAUNCH_PIPELINE and CHECKPOINT, and
their errors and completion (R77, R231 to R238, R326). An event of a queue names it in `n`, a packet in `m`. -/

namespace Sys2Proof.Machine

/-! ### Slots (R237) -/

/-- The queue has a packet to start. -/
def SwQueue.has (q : SwQueue) : Bool := q.wr != q.rd

/-- A queue in order asks for a slot where it has a packet to start and neither holds nor awaits one. -/
def SwQueue.ask (q : SwQueue) (now : Nat) : SwQueue :=
  if q.st = .running ∧ q.has ∧ q.slot.isNone ∧ q.ready.isNone then { q with ready := some now } else q

/-- A doorbell leaves the queue without a packet to start (R237, R326): it loses its slot or its place, and one that was
parked waits no more. -/
def SwQueue.outOfPackets (q : SwQueue) : SwQueue :=
  { q with slot := none, ready := none, waits := none, st := if q.st = .parked then .running else q.st }

/-- The error state with its word written; the read index names the failing packet (R235). -/
def failQueue (s : State) (q : SwQueue) (idx : Nat) (tag : W32) (cause : Nat) : State :=
  let s := (s.putRecord q 0x18 (leBytes 8 (tag.toNat * 2 ^ 32 + cause))).putRecord q 0x10 (leBytes 4 idx)
  s.mapQueue q.num (fun q => { q with st := if q.st = .draining then .draining else .error, rd := idx, slot := none, ready := none, waits := none })

/-- The queue's doorbell (R326): a dword of `n` bytes, `w`, as the host wrote it. -/
def execDoorbell (s : State) : Out :=
  let w := s.ev.w
  if s.ev.n ≠ 8 ∨ fld w 31 16 ≠ 0 then .next s
  else
    match s.queue? (fld w 15 0) with
    | none => .next s
    | some q =>
      let wr := fld w 63 32
      .next (
        if q.st = .draining then s
        else if wr = q.rd then s.mapQueue q.num (fun q => { q with wr }.outOfPackets)
        else if (wr + 2 ^ 32 - q.rd) % 2 ^ 32 ≤ 2 ^ q.log2 then
          s.mapQueue q.num (fun q => { q with wr }.ask s.cyc)
        else if q.st = .error then s else failQueue s q q.rd 0 1)

/-- Hardware slots in use. -/
def slotsUsed (s : State) : Nat := s.queues.countP (fun q => q.slot.isSome)

/-- The waiting queue that became ready first, of those that may start packets. -/
def nextMapped (s : State) : Option SwQueue :=
  let ready := s.queues.filter (fun q => q.ready.isSome && ctxLive s q.ctx)
  ready.find? (fun q => ready.all (fun r => decide (q.ready.getD 0 ≤ r.ready.getD 0)))

/-- A packet started: the read index advances, and a queue without more packets loses its slot. -/
def startPacket (s : State) (q : SwQueue) : State :=
  let rd := (q.rd + 1) % 2 ^ 32
  (s.putRecord q 0x10 (leBytes 4 rd)).mapQueue q.num (fun q =>
    { q with rd, slot := if q.wr = rd then none else q.slot })

/-- A packet's completion: cinc (R232). -/
def completePacket (s : State) (q : Nat) (cinc : Bool) : State := if cinc then addTimeline s q 1 else s

/-- QUEUE_MAP (R237): the first waiting queue gets a free slot; a parked one completes its WAIT. -/
def execQueueMap (s : State) : Out := orNone do
  let q ← nextMapped s
  if q.num ≠ s.ev.n ∨ 64 ≤ slotsUsed s then none
  else
    let s1 := s.mapQueue q.num (fun q => { q with ready := none, slot := some s.cyc })
    if q.st = .parked then
      let cinc := Mem.byte s.mem (hostCell (q.base + 64 * (q.rd % 2 ^ q.log2) + 1)) &&& 1
      let s1 := s1.mapQueue q.num (fun q => { q with st := .running, waits := none })
      pure (completePacket (startPacket s1 q) q.num (cinc = 1))
    else pure s1

/-- A queue has held its slot for 1 ms while another waits. -/
def quantumOver (s : State) (q : SwQueue) : Bool :=
  (match q.slot with
    | some t => decide (t + 1400000 ≤ s.cyc)
    | none => false) && s.queues.any (fun r => r.ready.isSome && ctxLive s r.ctx) && decide (64 ≤ slotsUsed s)

/-- QUEUE_QUANTUM_EXPIRY (R237). -/
def execQueueQuantumExpiry (s : State) : Out := orNone do
  let q ← s.queue? s.ev.n
  if quantumOver s q then pure (s.mapQueue q.num (fun q => { q with slot := none, ready := some s.cyc })) else none

/-! ### Packets (R231 to R236) -/

/-- The packet a queue starts next. -/
def headPacket (s : State) (q : SwQueue) : List Byte :=
  Mem.bytes s.mem (hostCell (q.base + 64 * (q.rd % 2 ^ q.log2))) 64

def packetOp (b : List Byte) : Nat := numAt b 0 1
def packetTag (b : List Byte) : W32 := BitVec.ofNat 32 (numAt b 4 4)
def packetCinc (b : List Byte) : Bool := numAt b 1 1 % 2 == 1
/-- The header's reserved bits are zero. -/
def headerOk (b : List Byte) : Bool := numAt b 1 3 < 2

/-- A mapped queue that may start a packet (R237, R358). -/
def mayStart (s : State) (q : SwQueue) : Bool :=
  q.st == .running && q.slot.isSome && q.has && !q.paused && ctxLive s q.ctx

/-- A CHECKPOINT stops every queue from starting packets, from its turn on (R372). -/
def ckptStops (s : State) : Bool :=
  s.ckpt.isSome || s.queues.any (fun q => mayStart s q && q.ckpt && packetOp (headPacket s q) == 7)

/-- The queue an event names, where it starts a packet of op `op` next. -/
def headOf (s : State) (op : Nat) : Option (SwQueue × List Byte) := do
  let q ← s.queue? s.ev.n
  let b := headPacket s q
  if mayStart s q ∧ packetOp b = op ∧ (op = 7 ∨ ¬ckptStops s) then some (q, b) else none

/-- A packet of an op: performed by `act` (none while it has to wait), or the queue error of its format. -/
def packet (op : Nat) (fmt : List Byte → Bool) (act : SwQueue → List Byte → State → Option State) (s : State) : Out :=
  orNone do
    let (q, b) ← headOf s op
    if !headerOk b ∨ !fmt b then pure (failQueue s q q.rd (packetTag b) 1) else act q b s

/-- A packet started whose completion comes later. -/
def launchPacket (s : State) (q : SwQueue) (b : List Byte) (f : Started → Started) : State :=
  (startPacket s q).mapQueue q.num (fun x =>
    { x with started := x.started ++ [f { idx := q.rd, op := packetOp b, tag := packetTag b, cinc := packetCinc b }] })

/-- A packet that completes where it starts. -/
def oncePacket (s : State) (q : SwQueue) (b : List Byte) : State := completePacket (startPacket s q) q.num (packetCinc b)

/-- NOP_COMMAND (R233). -/
def execNopCommand (s : State) : Out := packet 0 (fun b => zeros b 8 56) (fun q b s => some (oncePacket s q b)) s

/-- The lowest die a record may use: one its mask allows and on which the context holds a tile (R220, R233). -/
def launchDie (s : State) (c : Ctx) (rec_ : Word) : Option Nat :=
  (List.range 8).find? (fun d => dieAllowed (recDies s c.num rec_) d && c.onDie d)

/-- A LAUNCH_TASK's record is accepted on a die. Of a record that is not in HBM or whose join is not 0 (R233) the spec does
not name the error: it is rejected with cause 4 and status 5, as one that fails R220 (log entry 47). R220 does not reject a record with stage = 1: it is
queued, and runs as a stage thread that no queue of a pipeline is bound to (log entry 53). -/
def taskDie (s : State) (c : Ctx) (rec_ : Word) : Option Nat := do
  let die ← launchDie s c rec_
  let inHbm : Bool := match translate s ⟨c.num, false, none, false⟩ rec_ .load with
    | .ok l => (match l.space with
      | .hbm => true
      | _ => false)
    | .error _ => false
  if inHbm ∧ recJoin s c.num rec_ = 0 ∧ fld (recControl s c.num rec_) 63 48 = c.num ∧ recordOk s c.num rec_ die then some die
  else none

/-- LAUNCH_TASK (R220, R227, R233). A record address that is not a multiple of 64 breaks the packet's format, cause 1: the
spec does not name its error (log entry 47). -/
def execLaunchTask (s : State) : Out :=
  packet 2 (fun b => zeros b 16 48 && numAt b 8 8 % 64 == 0) (fun q b s => do
    let rec_ : Word := BitVec.ofNat 64 (numAt b 8 8)
    let c ← s.ctx? q.ctx
    if c.hostMax ≤ c.hostUsed.length then none
    else
      match taskDie s c rec_ with
      | none => pure (failQueue (recSetStatus s c.num rec_ 5) q q.rd (packetTag b) 4)
      | some die =>
        let s := launchPacket s q b (fun p => { p with record := some rec_ })
        pure (appendRecord (s.mapCtx c.num (fun c => { c with hostUsed := rec_ :: c.hostUsed })) die c.num rec_)) s

/-- WAIT (R237): satisfied, or the queue is parked. -/
def execWait (s : State) : Out :=
  packet 3 (fun b => zeros b 24 40 && zeros b 10 6) (fun q b s =>
    let h : Word := BitVec.ofNat 64 (numAt b 8 8)
    let v : Word := BitVec.ofNat 64 (numAt b 16 8)
    match handleQueue s q.ctx h with
    | none => some (failQueue s q q.rd (packetTag b) 2)
    | some t =>
      if meets t.timeline v then some (oncePacket s q b)
      else some (s.mapQueue q.num (fun q => { q with st := .parked, slot := none, waits := some (t.num, v) }))) s

/-- SIGNAL (R206, R236): once every earlier packet has completed. -/
def execSignal (s : State) : Out :=
  packet 4 (fun b => zeros b 24 40 && zeros b 10 6) (fun q b s =>
    let u : Word := BitVec.ofNat 64 (numAt b 16 8)
    if !q.started.isEmpty then none
    else
      match handleQueue s q.ctx (BitVec.ofNat 64 (numAt b 8 8)) with
      | none => some (failQueue s q q.rd (packetTag b) 2)
      | some t =>
        if 2 ^ 63 ≤ u.toNat then some (failQueue s q q.rd (packetTag b) 2)
        else some (oncePacket (addTimeline s t.num u) q b)) s

/-- BARRIER (R236). -/
def execBarrier (s : State) : Out :=
  packet 6 (fun b => zeros b 8 56) (fun q b s => if q.started.isEmpty then some (oncePacket s q b) else none) s

/-! ### COPY (R234) -/

/-- The slots that serve COPY packets: slot 3 of core 5 of the first tile of each quire. -/
def commandSlots : List SlotKey := (List.range 96).map (fun i => ⟨16 * i, 5, 3⟩)

/-- A command slot that serves a packet: a copy, or a collective sum. -/
def commandBusy (s : State) (k : SlotKey) : Bool :=
  s.copies.any (fun c => c.key == k) || s.queues.any (fun q => q.started.any (fun p => p.sum.map Collective.slot == some k))

/-- A command slot that is free. -/
def freeCommandSlot (s : State) : Option SlotKey := commandSlots.find? (fun k => !commandBusy s k)

/-- The control dword is valid. The fields of mode 2 are taken as reserved in the other modes, which the spec does not say
(log entry 47). -/
def copyCtlOk (w : Word) : Bool :=
  let mode := fld w 1 0
  fld w 63 32 == 0 && fld w 15 10 == 0 && fld w 7 6 == 0 && mode != 3
    && (mode == 2 || (fld w 31 16 == 0 && fld w 9 8 == 0 && fld w 5 4 == 0))

/-- The formats of a collective, and the bytes of an element (R234). -/
def sumFmt (n : Nat) : Fmt := if n = 0 then fp32 else if n = 1 then bf16 else if n = 2 then e4m3 else e5m2
def sumSize (n : Nat) : Nat := if n = 0 then 4 else if n = 1 then 2 else 1

/-- A sum of a set is over: what has arrived for it is needed no more. -/
def State.sumOver (s : State) (x : CollSet) (n : Nat) : State :=
  { s with contribs := s.contribs.filter (fun c => ¬(c.ctx = x.ctx ∧ c.set = x.num ∧ c.num = n)) }

/-- COPY started (R234). The ranks' COPYs on a set match in the order in which each device starts them (log entry 3). -/
def execCopy (s : State) : Out :=
  packet 5 (fun b => zeros b 40 24 && copyCtlOk (dwordAt b 32)) (fun q b s =>
    let src := dwordAt b 8
    let dst := dwordAt b 16
    let len := numAt b 24 8
    let ctl := dwordAt b 32
    let mode := fld ctl 1 0
    let set := fld ctl 31 16
    if mode = 2 then
      match s.sets.find? (fun x => x.ctx = q.ctx ∧ x.num = set) with
      | none => some (failQueue s q q.rd (packetTag b) 1)
      | some x =>
        let counted := { s with sets := s.sets.map (fun y => if y = x then { y with sums := y.sums + 1 } else y) }
        if len % sumSize (fld ctl 5 4) ≠ 0 then some (failQueue (counted.sumOver x x.sums) q q.rd (packetTag b) 7)
        else
          match freeCommandSlot s with
          | none => none
          | some key =>
            some (launchPacket counted q b (fun p =>
              { p with sum := some ⟨key, set, fld ctl 9 8, fld ctl 5 4, src, dst, len, x.sums⟩ }))
    else if mode = 1 ∧ len % 4 ≠ 0 then some (failQueue s q q.rd (packetTag b) 7)
    else if mode = 1 ∧ (fld src 1 0 ≠ 0 ∨ fld dst 1 0 ≠ 0) then some (failQueue s q q.rd (packetTag b) 6)
    else
      match freeCommandSlot s with
      | none => none
      | some key =>
        let (due, s) := s.after 1
        let c : Copy :=
          { key, ctx := q.ctx, pc := 0, trig := 0, kind := mode, src, dst, shape := 0, pitch := 0, ctl := 0, due
            cmd := some (q.num, q.rd), len }
        some (launchPacket { s with copies := s.copies ++ [c] } q b id)) s

/-! ### The collective sum (R77, R234) -/

/-- The largest power of two below a number above 1. -/
def powBelow (n : Nat) : Nat := 2 ^ Nat.log2 (n - 1)

/-- Element by element, FP32 under RNE, with the flags. -/
def addLists : List W32 → List W32 → List W32 × Flags
  | x :: xs, y :: ys =>
    let r := fp32.add Rm.rne 0 (fp32.value x.toNat) (fp32.value y.toNat)
    let (zs, f) := addLists xs ys
    (r.code :: zs, f ||| r.flags)
  | _, _ => ([], 0)

/-- The canonical tree over the ranks' contributions, with fuel above their number. -/
def treeSum : Nat → List (List W32) → List W32 × Flags
  | 0, _ => ([], 0)
  | n + 1, l =>
    match l with
    | [] => ([], 0)
    | [c] => (c, 0)
    | _ =>
      let h := powBelow l.length
      let (a, f) := treeSum n (l.take h)
      let (b, g) := treeSum n (l.drop h)
      let (c, e) := addLists a b
      (c, f ||| g ||| e)

/-- A contribution as FP32, with the flags of the conversions: a narrower one is widened, and an FP32 one is left as it
is. -/
def widenList (fmt : Nat) : Nat → List Byte → List W32 × Flags
  | 0, _ => ([], 0)
  | n + 1, bs =>
    let x := leNat (bs.take (sumSize fmt))
    let (rest, f) := widenList fmt n (bs.drop (sumSize fmt))
    if fmt = 0 then (BitVec.ofNat 32 x :: rest, f)
    else
      let r := widen (sumFmt fmt) x
      (r.code :: rest, f ||| r.flags)

/-- The root narrowed to the destination's format, E4M3 saturating, with the flags. -/
def narrowList (fmt : Nat) : List W32 → List Byte × Flags
  | [] => ([], 0)
  | x :: xs =>
    let (bs, f) := narrowList fmt xs
    if fmt = 0 then (leBytes 4 x.toNat ++ bs, f)
    else
      let r := (sumFmt fmt).convert ⟨0, fmt = 2⟩ 0 (fp32.value x.toNat)
      (leBytes (sumSize fmt) r.code.toNat ++ bs, f ||| r.flags)

/-- The contributions to a sum of a set's ranks in order, this device's own given; none while one has not arrived. -/
def gathered (s : State) (x : CollSet) (n : Nat) (own : List Byte) : Option (List (List Byte)) :=
  (List.range x.ranks.length).mapM fun i =>
    if i = x.rank then some own
    else (s.contribs.find? (fun c => c.ctx = x.ctx ∧ c.set = x.num ∧ c.num = n ∧ c.rank = i)).map Contribution.bytes

/-- A collective sum performed once every contribution is there: complete, or the queue error it ends with. -/
def finishSum (s : State) (q : SwQueue) (p : Started) (c : Collective) : Option State := do
  let ag : Agent := ⟨q.ctx, false, none, false⟩
  let x ← s.sets.find? (fun x => x.ctx = q.ctx ∧ x.num = c.set)
  match readLines s ag (c.len / 64 + 2) c.src c.len with
  | .error _ => pure (failQueue (s.sumOver x c.ord) q p.idx p.tag 6)
  | .ok own =>
    let all ← gathered s x c.ord own
    let s := s.sumOver x c.ord
    if all.any (fun b => b.length != c.len) then pure (failQueue s q p.idx p.tag 7)
    else
      let n := c.len / sumSize c.sfmt
      let wide := all.map (widenList c.sfmt n)
      let (root, f) := treeSum (all.length + 1) (wide.map Prod.fst)
      let (bs, g) := narrowList c.dfmt root
      match writeLines ag (bs.length / 64 + 2) s c.dst bs with
      | .error _ => pure (failQueue s q p.idx p.tag 6)
      | .ok s =>
        let at_ := hostCell (q.recAddr + 0x20)
        pure (completePacket (s.poke at_ (leBytes 8 (Mem.num s.mem at_ 8 ||| ((wide.map Prod.snd).foldl (fun x y => x ||| y) (f ||| g)).toNat))) q.num p.cinc)

/-! ### Errors, completion and freeing -/

/-- RESERVED_OP_PACKET (R235). -/
def execReservedOpPacket (s : State) : Out := orNone do
  let q ← s.queue? s.ev.n
  let b := headPacket s q
  if mayStart s q ∧ 8 ≤ packetOp b ∧ ¬ckptStops s then pure (failQueue s q q.rd (packetTag b) 1) else none

/-- A started packet whose work is over completes, or ends its queue in error (R233, R235, R236). -/
def finishPacket (s : State) (q : SwQueue) (p : Started) : Option State :=
  let drop (s : State) : State :=
    s.mapQueue q.num (fun x => { x with started := x.started.filter (fun y => y.idx ≠ p.idx) })
  match p.fail, p.sum with
  | some c, _ => some (drop (failQueue s q p.idx p.tag c))
  | none, some c => (finishSum s q p c).map drop
  | none, none =>
    if !p.finished then none
    else
      let s := if p.op = 1 then s.dropChans (fun c => c.pipe == (q.num, p.idx)) else s
      some (drop (completePacket s q.num p.cinc))

/-- QUEUE_FREED (R238): a draining queue without started packets. Waits on its timeline end under R207; a queue parked on
it, its threshold not met, ends in error; the driver is told. -/
def execQueueFreed (s : State) : Out := orNone do
  let q ← s.queue? s.ev.n
  if q.st ≠ .draining ∨ !q.started.isEmpty then none
  else
    let s := s.mapQueue q.num (fun q => { q with st := .freed, slot := none, ready := none })
    let stuck := s.queues.filter (fun x => x.st = .parked ∧ x.ready.isNone ∧ (x.waits.map Prod.fst) = some q.num)
    let s := stuck.foldl (fun s x => failQueue s x x.rd (packetTag (headPacket s x)) 5) s
    pure (completeRequest (report s { ctx := q.ctx, kind := 8, d1 := BitVec.ofNat 64 q.num }))

end Sys2Proof.Machine
end

