-- ==== Sys2Proof/Machine/Pipeline.lean ====
section
/-! DEFINITION. Pipelines: the image and its checks (R322, R323, R390 to R392), the binder (R239, R240), and the balancers
and merges of replicated stages (R241, R242). -/

namespace Sys2Proof.Machine

/-! ### The image -/

/-- A stage entry (R391). -/
structure StageEnt where
  code : Word
  frame : Word
  tile : Nat
  core : Nat
  slot : Nat
  prio : Nat
  rnd : Nat
  groups : List Nat
  deriving DecidableEq, Repr

/-- A channel entry (R391). -/
structure ChanEnt where
  prod : Nat
  pcount : Nat
  pport : Nat
  mode : Nat
  level : Nat
  ccount : Nat
  allow : Nat
  pair : Nat
  stages : List Nat
  ports : List Nat
  deriving DecidableEq, Repr

/-- A patch entry (R392). -/
structure PatchEnt where
  stage : Nat
  index : Nat
  d0 : Word
  d1 : Word
  y : BitVec 32
  q : BitVec 32
  deriving DecidableEq, Repr

/-- The six sections of an image. -/
structure Image where
  stages : List StageEnt
  chans : List ChanEnt
  groups : List Nat
  patches : List PatchEnt
  replicas : List (Nat × Word)
  regions : List (Word × Nat × Nat)
  deriving DecidableEq, Repr

/-- The entries of a section: section `i` of the header, of `size`-byte entries. -/
def section_ (b : List Byte) (i size : Nat) : List (List Byte) :=
  let off := numAt b (0x30 + 8 * i) 4
  (List.range (numAt b (0x18 + 4 * i) 4)).map (fun k => (b.drop (off + size * k)).take size)

/-- A section's length fits its count, and it lies between the header and the signature. -/
def sectionOk (b : List Byte) (i size : Nat) : Bool :=
  let off := numAt b (0x30 + 8 * i) 4
  let len := numAt b (0x34 + 8 * i) 4
  len == size * numAt b (0x18 + 4 * i) 4 && (len == 0 || decide (0x80 ≤ off ∧ off + len + 96 ≤ b.length))

/-- The entry sizes of the six sections. -/
def sectionSizes : List Nat := [32, 48, 8, 32, 16, 24]

/-- The header is well formed (R322). -/
def headOk (b : List Byte) : Bool :=
  decide (0x80 + 96 ≤ b.length) && numAt b 0 4 == 0x3949434B && numAt b 4 2 == 1 && zeros b 6 2
    && numAt b 8 8 == b.length && zeros b 0x60 32
    && (List.range 6).all (fun i => sectionOk b i (sectionSizes.getD i 1))

/-- The signature covers every byte before it, under the context's key, which the header names (R321, R322). -/
def signedBy (key b : List Byte) : Bool :=
  key != [] && (b.drop 0x10).take 8 == keyIdent key
    && ecdsaVerify key (sha384 (b.take (b.length - 96))) (b.drop (b.length - 96))

def stageOf (e : List Byte) : StageEnt :=
  { code := dwordAt e 0, frame := dwordAt e 8, tile := numAt e 0x10 2, core := numAt e 0x12 1, slot := numAt e 0x13 1
    prio := numAt e 0x14 1, rnd := numAt e 0x15 1, groups := (List.range 4).map (fun i => numAt e (0x16 + i) 1) }

def chanOf (e : List Byte) : ChanEnt :=
  { prod := numAt e 0 2, pcount := numAt e 2 2, pport := numAt e 4 1, mode := numAt e 5 1, level := numAt e 6 1
    ccount := numAt e 7 1, allow := numAt e 8 4, pair := numAt e 0xC 2
    stages := (List.range 8).map (fun i => numAt e (0x10 + 2 * i) 2)
    ports := (List.range 8).map (fun i => numAt e (0x20 + i) 1) }

def patchOf (e : List Byte) : PatchEnt :=
  { stage := numAt e 0 2, index := numAt e 2 2, d0 := dwordAt e 8, d1 := dwordAt e 16
    y := BitVec.ofNat 32 (numAt e 24 4), q := BitVec.ofNat 32 (numAt e 28 4) }

/-- The image's sections. -/
def imageOf (b : List Byte) : Image :=
  { stages := (section_ b 0 32).map stageOf
    chans := (section_ b 1 48).map chanOf
    groups := (section_ b 2 8).map (fun e => numAt e 0 1)
    patches := (section_ b 3 32).map patchOf
    replicas := (section_ b 4 16).map (fun e => (numAt e 0 2, dwordAt e 8))
    regions := (section_ b 5 24).map (fun e => (dwordAt e 0, numAt e 8 8, numAt e 16 1)) }

/-- Reserved bytes of the entries are zero. -/
def entriesOk (b : List Byte) : Bool :=
  (section_ b 0 32).all (fun e => zeros e 0x1A 6) && (section_ b 1 48).all (fun e => zeros e 0xE 2 && zeros e 0x28 8)
    && (section_ b 2 8).all (fun e => zeros e 1 7) && (section_ b 3 32).all (fun e => zeros e 4 4)
    && (section_ b 4 16).all (fun e => zeros e 2 6) && (section_ b 5 24).all (fun e => zeros e 17 7)

/-! ### Endpoints -/

/-- A channel's producers and consumers: stage and port. -/
def ChanEnt.prods (c : ChanEnt) : List (Nat × Nat) := (List.range c.pcount).map (fun i => (c.prod + i, c.pport))
def ChanEnt.conss (c : ChanEnt) : List (Nat × Nat) :=
  if c.mode = 2 then (List.range c.ccount).map (fun i => (c.stages.getD 0 0 + i, c.ports.getD 0 0))
  else (c.stages.zip c.ports).take c.ccount

/-- The channels an entry makes: the stages at the ends of each. -/
def ChanEnt.links (c : ChanEnt) : List (List Nat) :=
  let ps := c.prods.map Prod.fst
  let cs := c.conss.map Prod.fst
  if c.mode = 2 then cs.map (fun x => ps ++ [x]) else if 3 ≤ c.mode then ps.map (fun x => x :: cs) else [ps ++ cs]

/-- A channel entry's own form (R391). -/
def ChanEnt.ok (c : ChanEnt) (im : Image) : Bool :=
  let n := im.stages.length
  let single := c.mode < 2
  let replicas (r : Nat) : Bool := decide (2 ≤ r ∧ r ≤ 64)
  decide (c.mode ≤ 4) && (decide (c.level ≤ 7) || c.level == 0xFF)
    && (if c.mode = 0 then c.pcount == 1 && c.ccount == 1
      else if c.mode = 1 then c.pcount == 1 && decide (2 ≤ c.ccount ∧ c.ccount ≤ 8)
      else if c.mode = 2 then c.pcount == 1 && replicas c.ccount else replicas c.pcount && c.ccount == 1)
    && (if c.mode = 4 then (match im.chans[c.pair]? with
        | some b => b.mode == 2 && b.ccount == c.pcount
        | none => false) else c.pair == 0)
    && (c.prods ++ c.conss).all (fun x => decide (x.1 < n ∧ x.2 < 8))
    && (c.stages.drop (if single then c.ccount else 1)).all (fun x => x == 0)
    && (c.ports.drop (if single then c.ccount else 1)).all (fun x => x == 0)

/-! ### The loader's checks (R323) -/

/-- The slot of a stage, where its tile is granted. -/
def StageEnt.key? (c : Ctx) (e : StageEnt) : Option SlotKey := (c.tile? e.tile).map (fun t => ⟨t, e.core, e.slot⟩)

/-- Bytes translate with rights. -/
def spanOk (s : State) (ctx : Nat) (need : Need) (a : Word) (len : Nat) : Bool :=
  let first := a.toNat / 4096
  (List.range ((a.toNat + len + 4095) / 4096 - first)).all fun i =>
    match translate s ⟨ctx, false, none, false⟩ (BitVec.ofNat 64 (max a.toNat ((first + i) * 4096))) need with
    | .ok _ => true
    | .error _ => false

/-- An address names the local alias, which is no place for the loader (R24, R323). -/
def inAlias (a : Word) : Bool := decide (0x7F4000000000 ≤ a.toNat ∧ a.toNat < 0x7F4000080000)

/-- A stage's placement, code and frame. A slot that a task occupies counts as bound (log entry 47). -/
def stageOk (s : State) (c : Ctx) (e : StageEnt) : Bool :=
  (match e.key? c with
    | some k => decide (e.core < 7 ∧ e.slot < (if e.core < 4 then 8 else 4)) && slotIdle s k && !commandSlots.contains k
        && s.ctxs.all (fun d => d.saved.all (fun x => !x.stage || x.key != k))
    | none => false)
    && decide (e.prio < 8 ∧ e.rnd < 16) && fld e.code 1 0 == 0 && fld e.frame 5 0 == 0
    && !inAlias e.code && !inAlias e.frame && spanOk s c.num .code e.code 4 && spanOk s c.num .amo e.frame 4096
    && e.groups.all (fun g => g == 0 || assoc s.groupOwner g == some c.num)

/-- The greatest allowance of a channel by where its ends lie (R240), and whether it lies in one core. -/
def placeMax (ks : List SlotKey) : Nat × Bool :=
  match ks with
  | [] => (0, false)
  | k :: _ =>
    if ks.all (fun x => x.coreKey == k.coreKey) then (64, true)
    else if ks.all (fun x => dieOf x.tile == dieOf k.tile) then (65536, false) else (2 ^ 20, false)

/-- The slots of stages by number. -/
def keysOf (c : Ctx) (im : Image) (ns : List Nat) : List SlotKey :=
  ns.filterMap (fun n => (im.stages[n]?).bind (StageEnt.key? c))

/-- The allowances of the channels in the core of a channel's ends. -/
def coreSum (l : List (List SlotKey × Nat)) (ks : List SlotKey) : Nat :=
  l.foldl (fun n x => if (x.1.head?.map SlotKey.coreKey) == (ks.head?.map SlotKey.coreKey) then n + x.2 else n) 0

/-- The entries of a core's queue register file that the channels placed there take up. -/
def coreHeld (s : State) (k : CoreKey) : Nat :=
  ((s.chans.filter (fun c => c.core? = some k)).map Chan.allowance).sum

/-- Every channel's allowance fits its place, and a core's channels fit its 64 entries with those placed before. -/
def allowancesOk (s : State) (c : Ctx) (im : Image) : Bool :=
  let links : List (List SlotKey × Nat) := im.chans.flatMap (fun e => e.links.map (fun l => (keysOf c im l, e.allow)))
  let inCore := links.filter (fun l => (placeMax l.1).2)
  links.all (fun l => decide (1 ≤ l.2 ∧ l.2 ≤ (placeMax l.1).1))
    && inCore.all (fun l => decide (coreSum inCore l.1 + ((l.1.head?.map (fun k => coreHeld s k.coreKey)).getD 0) ≤ 64))

/-- A list without repeats. -/
def noRepeat {α : Type} [DecidableEq α] : List α → Bool
  | [] => true
  | x :: xs => !xs.contains x && noRepeat xs

/-- A patch entry is valid: a stage on a stage core, and an entry that dpatch would take (R323). -/
def patchOk (im : Image) (p : PatchEnt) : Bool :=
  (match im.stages[p.stage]? with
    | some e => decide (e.core < 4)
    | none => false) && decide (p.index ≤ 0x101) && entryOk p.index p.d0 p.d1

/-- Rights of a region as an access. -/
def regionNeed (r : Nat) : Need := ⟨r.testBit 0, r.testBit 1, r.testBit 2⟩

/-- The loader accepts an image for a context (R323). -/
def imageAllowed (s : State) (c : Ctx) (b : List Byte) : Bool :=
  headOk b && signedBy c.imageKey b && entriesOk b &&
    let im := imageOf b
    im.stages.all (stageOk s c) && noRepeat (im.stages.map (StageEnt.key? c))
      && im.chans.all (fun e => e.ok im) && noRepeat (im.chans.flatMap (fun e => e.prods ++ e.conss))
      && allowancesOk s c im
      && im.groups.all (fun g => g != 0 && assoc s.groupOwner g == some c.num)
      && im.patches.all (patchOk im)
      && im.replicas.all (fun r => s.expertOwner.any (fun x => x.2.2 == c.num && decide (x.1 ≤ r.1 ∧ r.1 < x.1 + x.2.1))
        && fld r.2 63 48 == 0 && fld r.2 44 44 == 0)
      && im.regions.all (fun r => decide (r.2.2 < 8) && !inAlias r.1 && spanOk s c.num (regionNeed r.2.2) r.1 r.2.1)

/-- The image copied under the context's translation: HBM only, at most 16 MiB (R322, R323). -/
def loadImage (s : State) (ctx : Nat) (handle : Word) : Option (List Byte) :=
  let ag : Agent := ⟨ctx, false, none, false⟩
  if fld handle 11 0 ≠ 0 then none
  else
    match readVA s ag handle 64 with
    | .error _ => none
    | .ok h =>
      let len := numAt h 8 8
      let inHbm := (List.range ((len + 4095) / 4096)).all fun i =>
        match translate s ag (handle + BitVec.ofNat 64 (4096 * i)) .load with
        | .ok l => (match l.space with
          | .hbm => true
          | _ => false)
        | .error _ => false
      if 2 ^ 24 < len ∨ !inHbm then none
      else
        match readLines s ag (len / 64 + 1) handle len with
        | .ok b => some b
        | .error _ => none

/-! ### Heights (R239) -/

/-- The stages a channel leads to from each stage. -/
def edgesOf (im : Image) : List (Nat × Nat) :=
  im.chans.flatMap (fun c => c.prods.flatMap (fun p => c.conss.map (fun x => (p.1, x.1))))

/-- Stages reached from a list within `n` channels. -/
def reachFrom (edges : List (Nat × Nat)) : Nat → List Nat → List Nat
  | 0, l => l
  | n + 1, l => reachFrom edges n (l ++ ((edges.filter (fun e => l.contains e.1)).map Prod.snd).filter (fun x => !l.contains x) |>.eraseDups)

/-- The height of every stage: one above the components its component leads to, cycles of channels taken together. -/
def heights (im : Image) : List Nat :=
  let n := im.stages.length
  let edges := edgesOf im
  let reach := (List.range n).map (fun i => reachFrom edges n [i])
  let same (i j : Nat) : Bool := (reach.getD i []).contains j && (reach.getD j []).contains i
  let step (h : List Nat) : List Nat := (List.range n).map fun i =>
    edges.foldl (fun m e => if same i e.1 ∧ ¬same i e.2 then max m (h.getD e.2 0 + 1) else m) 0
  (List.range n).foldl (fun h _ => step h) (List.replicate n 0)

/-! ### The binder (R239) -/

/-- The address of a context's stage record (R239). -/
def stageRecord (n : Nat) : Word := BitVec.ofNat 64 (0x7F8000000000 + 64 * n)

/-- The record of stage `i` (R216 to R218, R239). -/
def stageRecordBytes (ctx i : Nat) (e : StageEnt) (arg0 arg1 : Word) : List Byte :=
  let grps := (List.range 4).foldl (fun w k => w + e.groups.getD k 0 * 2 ^ (16 + 8 * k)) 0
  dwords [e.code, e.frame, BitVec.ofNat 64 (ctx * 2 ^ 48 + 2 ^ 43 + e.prio * 2 ^ 40), 0, BitVec.ofNat 64 grps, arg0, arg1,
    BitVec.ofNat 64 (i * 2 ^ 48 + e.rnd * 2 ^ 8 + 2)]

/-- The port of a balancer or merge on its own channel: no thread's. It stands on the tile of its first replica. -/
def unitPort (ks : List SlotKey) : Port := ⟨⟨(ks.head?.map SlotKey.tile).getD 0, 7, 7⟩, 0⟩

/-- Its port on a replica's channel, which has its place as if the stage at the unit's other side were the end (R240). -/
def sidePort (ks : List SlotKey) : Port :=
  let k := ks.headD ⟨0, 0, 0⟩
  ⟨⟨k.tile, 7, k.core⟩, 0⟩

/-- What an entry places: its channels, its balancer or merge, and the bindings of its endpoints. Entry `e` numbers its
channels from `id` on. -/
structure Placed where
  chans : List Chan := []
  bals : List Balancer := []
  merges : List Merge := []
  binds : List (Nat × Nat × Binding) := []

/-- The port of a stage. -/
def stagePort (c : Ctx) (im : Image) (x : Nat × Nat) : Port := ⟨(keysOf c im [x.1]).getD 0 ⟨0, 0, 0⟩, x.2⟩

def placeChan (c : Ctx) (im : Image) (pipe : Nat × Nat) (base e : Nat) (ent : ChanEnt) : Placed :=
  let id := base + 128 * e
  let level := if ent.level = 0xFF then none else some ent.level
  let ends (ps cs : List Port) (n : Nat) : Chan :=
    { id := n, ctx := c.num, allowance := ent.allow, prod := ps.head?, cons := cs.map (fun p => (p, 0)), pipe }
  let ps := ent.prods
  let cs := ent.conss
  let port := stagePort c im
  let bind (n : Nat) (prod : Bool) (x : Nat × Nat) : Nat × Nat × Binding := (x.1, x.2, ⟨true, prod, n⟩)
  if ent.mode < 2 then
    { chans := [ends (ps.map port) (cs.map port) id], binds := ps.map (bind id true) ++ cs.map (bind id false) }
  else if ent.mode = 2 then
    let me := unitPort (keysOf c im (cs.map Prod.fst))
    let side := sidePort (keysOf c im (ps.map Prod.fst))
    let outs := (List.range cs.length).map (fun i => id + 1 + i)
    { chans := ends (ps.map port) [me] id :: (outs.zip cs).map (fun x => ends [side] [port x.2] x.1)
      bals := [{ src := id, outs, level, pipe }]
      binds := ps.map (bind id true) ++ (outs.zip cs).map (fun x => bind x.1 false x.2) }
  else
    let me := unitPort (keysOf c im (ps.map Prod.fst))
    let side := sidePort (keysOf c im (cs.map Prod.fst))
    let ins := (List.range ps.length).map (fun i => id + 1 + i)
    { chans := ends [me] (cs.map port) id :: (ins.zip ps).map (fun x => ends [port x.2] [side] x.1)
      merges := [{ ins, out := id, level, pair := if ent.mode = 4 then some (base + 128 * ent.pair) else none, pipe }]
      binds := cs.map (bind id false) ++ (ins.zip ps).map (fun x => bind x.1 true x.2) }

/-- The runs of a logical tile's scratchpad that an image names: its regions and frames. -/
def namedOn (im : Image) (k : Nat) : List (Nat × Nat) :=
  let lo := 0x7F0000000000 + k * 2 ^ 19
  let named : List (Nat × Nat) := im.regions.map (fun r => (r.1.toNat, r.2.1)) ++ im.stages.map (fun e => (e.frame.toNat, 4096))
  named.filterMap fun r =>
    if runsMeet r.1 r.2 lo (2 ^ 19) then some (max r.1 lo - lo, min (r.1 + r.2) (lo + 2 ^ 19) - max r.1 lo) else none

/-- A channel placed (R240, R253): in a queue register file, in its consumer's scratchpad, or in HBM on its consumer's die;
none where it does not fit. The place there is the binder's choice (log entry 20). -/
def placeHome (im : Image) (n : Nat) (s : State) (c : Chan) : Option State :=
  let put (h : Option ChanHome) (s : State) : State := { s with chans := s.chans ++ [{ c with home := h }] }
  match c.core?, c.cons.head?, s.ctx? n with
  | some _, _, _ => some (put none s)
  | none, some x, some ctx =>
    let t := x.1.key.tile
    if c.prod.toList.all (fun p => dieOf p.key.tile = dieOf t) ∧ c.cons.all (fun y => dieOf y.1.key.tile = dieOf t) then
      (highestGap (homesOn s.chans t ++ namedOn im (ctx.logical t)) (homeSize c.allowance)).map fun off =>
        put (some (homeAt (scrCell t off) (BitVec.ofNat 64 (0x7F0000000000 + ctx.logical t * 2 ^ 19 + off)) c.allowance)) s
    else
      let pages := (homeSize c.allowance + 2 ^ 21 - 1) / 2 ^ 21
      if s.hbmTop / 2 ^ 21 < pages then none
      else
        let pa := (s.hbmTop / 2 ^ 21 - pages) * 2 ^ 21
        let va := 0x7D0000000000 + pa
        let s := { s with hbmTop := pa }.mapCtx n (fun d => { d with poolLow := min d.poolLow pa })
        (putLeaves ctx.root (pa + 2 ^ 11 + dieOf t * 2 ^ 8 + 0x43) 2 va pages s).map
          (put (some (homeAt pa (BitVec.ofNat 64 va) c.allowance)))
  | _, _, _ => none

/-- The queue bindings of a stage. -/
def stageBinds (binds : List (Nat × Nat × Binding)) (i : Nat) : Vector Binding 8 :=
  Vector.ofFn (fun q => ((binds.find? (fun b => b.1 = i ∧ b.2.1 = q.val)).map (fun b => b.2.2)).getD {})

/-- A patch written as dpatch writes it (R150), with the cell's Y and Q, and its stage made the owner of its core's array (R148,
R392). No rule says what becomes of an array that a live thread owns, or whose domains run: the stage becomes its owner all
the same, and the domains run on (log entry 50). -/
def bindPatch (c : Ctx) (im : Image) (s : State) (p : PatchEnt) : State :=
  match keysOf c im [p.stage] with
  | k :: _ =>
    let a := { s.array k.coreKey with owner := some k }
    s.setArray k.coreKey (
      if p.index = 0x100 then { a with sink := p.d0 }
      else if p.index = 0x101 then { a with src := p.d0 }
      else
        let b := a.patchCell p.index p.d0 p.d1
        b.setCell p.index { b.cell p.index with y := p.y, q := p.q })
  | [] => s

/-- One stage thread bound: its record, and its slot; released with the stages of its height. It acquires at .dv before
its first transport (R213, R236, R239). -/
def bindStage (c : Ctx) (pipe : Nat × Nat) (arg0 arg1 : Word) (binds : List (Nat × Nat × Binding)) (hs : List Nat)
    (s : State) (x : Nat × StageEnt) : State :=
  match x.2.key? c with
  | none => s
  | some k =>
    let rec_ := stageRecord (c.stageRecs + x.1)
    let s := match writeVA s (devAgent c.num) rec_ (stageRecordBytes c.num x.1 x.2 arg0 arg1) with
      | .ok s => s
      | .error _ => s
    let t := startThread s k c.num rec_ (stageBinds binds x.1)
    { s with others := s.others ++ [{ t with pipe := some pipe, readyAt := s.cyc + 1 + hs.getD x.1 0 }] }.acquireAt k.coreKey 2

/-- What an image's channel entries place. -/
def placedOf (s : State) (c : Ctx) (im : Image) (pipe : Nat × Nat) : List Placed :=
  let base := s.chans.foldl (fun n ch => max n (ch.id / 128 * 128 + 128)) 128
  (im.chans.zipIdx).map (fun x => placeChan c im pipe base x.2 x.1)

/-- The channels of an image placed; none where one does not fit. -/
def placeChans (s : State) (c : Ctx) (im : Image) (pipe : Nat × Nat) : Option State :=
  ((placedOf s c im pipe).flatMap Placed.chans).foldlM (placeHome im c.num) s

/-- The binder (R239): records and slots, channels, which `s1` has placed, groups, replicas and patches. -/
def bindImage (s s1 : State) (c : Ctx) (im : Image) (pipe : Nat × Nat) (arg0 arg1 : Word) : State :=
  let placed := placedOf s c im pipe
  let binds := placed.flatMap Placed.binds
  let s := { s1 with
    balancers := s.balancers ++ placed.flatMap Placed.bals
    merges := s.merges ++ placed.flatMap Placed.merges
    replicas := (im.replicas.map (fun r => (r.1, r.2 ||| BitVec.ofNat 64 (c.num * 2 ^ 48)))) ++
      s.replicas.filter (fun r => im.replicas.all (fun x => x.1 != r.1)) }
  let s := im.groups.foldl (fun s g =>
    setGroup s g { ctx := c.num, members := im.stages.countP (fun e => e.groups.contains g) }) s
  let s := im.patches.foldl (bindPatch c im) s
  let hs := heights im
  let s := (im.stages.zipIdx).foldl (fun s x => bindStage c pipe arg0 arg1 binds hs s (x.2, x.1)) s
  s.mapCtx c.num (fun c => { c with stageRecs := c.stageRecs + im.stages.length })

/-- LAUNCH_PIPELINE (R239, R323): the image copied, checked and bound, or rejected without a trace. -/
def execLaunchPipeline (s : State) : Out :=
  packet 1 (fun b => zeros b 32 32) (fun q b s => do
    let c ← s.ctx? q.ctx
    match loadImage s c.num (dwordAt b 8) with
    | none => pure (failQueue s q q.rd (packetTag b) 3)
    | some img =>
      if !imageAllowed s c img then pure (failQueue s q q.rd (packetTag b) 3)
      else
        let im := imageOf img
        match placeChans s c im (q.num, q.rd) with
        | none => pure (failQueue s q q.rd (packetTag b) 3)
        | some s1 =>
          pure (launchPacket (bindImage s s1 c im (q.num, q.rd) (dwordAt b 16) (dwordAt b 24)) q b (fun p =>
            { p with stages := keysOf c im (List.range im.stages.length), finished := im.stages.isEmpty }))) s

/-! ### Balancers (R241) -/

/-- An element that goes to every replica: a token above the group level, or any token where there is none. -/
def isBroadcast (level : Option Nat) (e : Elem) : Bool :=
  e.tag && (match level with
    | some g => decide (g < fld e.word 2 0)
    | none => true)

/-- An element that ends its group and goes with it. -/
def endsGroup (level : Option Nat) (e : Elem) : Bool :=
  match level with
  | some g => e.tag && fld e.word 2 0 == g
  | none => true

/-- The element a unit finds ready at the head of a channel, with its port there. -/
def unitHead (s : State) (id : Nat) : Option (Port × Elem) := do
  let c ← s.chan? id
  let (p, _) ← c.cons.head?
  let e ← c.head? p
  if e.ready ≤ s.cyc then some (p, e) else none

/-- A channel has room for one element. -/
def roomIn (s : State) (id : Nat) : Bool :=
  match s.chan? id with
  | some c => c.hasRoom 1 s.cyc
  | none => false

/-- The elements a channel holds. -/
def heldIn (s : State) (id : Nat) : Nat :=
  match s.chan? id with
  | some c => c.elems.length
  | none => 0

/-- The replica whose input channel holds the fewest elements, the lowest index on a tie. -/
def fewest (s : State) (outs : List Nat) : Nat :=
  (List.range outs.length).foldl (fun b i =>
    if heldIn s (outs.getD i 0) < heldIn s (outs.getD b 0) then i else b) 0

/-- A balancer changed. -/
def State.putBalancer (s : State) (n : Nat) (b : Balancer) : State := { s with balancers := setNth s.balancers n b }

/-- The merge emits the groups of a balancer in its order (R242). -/
def Merge.behind (m : Merge) (b : Balancer) : Bool := m.pair == some b.src && m.pipe == b.pipe

/-- A group distributed to a replica, or a broadcast token sent: the ordered merges behind the balancer emit it in its
turn. -/
def State.distributed (s : State) (b : Balancer) (x : Option Nat) : State :=
  { s with merges := s.merges.map (fun m => if m.behind b then { m with order := m.order ++ [x] } else m) }

/-- A reorder stage behind the balancer holds its 256 groups (R242). -/
def reorderFull (s : State) (b : Balancer) : Bool :=
  s.merges.any (fun m => m.behind b && decide (256 ≤ m.order.countP Option.isSome))

/-- What a balancer does with the element at its head; none where it has to wait. -/
def balanceNow (s : State) (n : Nat) (b : Balancer) : Option State := do
  let (p, e) ← unitHead s b.src
  if isBroadcast b.level e then
    if b.outs.all (roomIn s) then
      let s := b.outs.foldl (fun s o => s.enqueueAt o e.word e.tag e.sync) (s.dequeueAt p b.src)
      some ((s.putBalancer n { b with cur := none }).distributed b none)
    else none
  else
    match b.cur with
    | some i =>
      let o := b.outs.getD i 0
      if roomIn s o then
        let s := (s.dequeueAt p b.src).enqueueAt o e.word e.tag e.sync
        some (s.putBalancer n { b with cur := if endsGroup b.level e then none else some i })
      else none
    | none =>
      if reorderFull s b then none
      else
        let i := fewest s b.outs
        some ((s.putBalancer n { b with cur := some i }).distributed b (some i))

/-- BALANCER_DISTRIBUTE (R241): balancer `n` chooses a replica for a new group, or sends its next element. -/
def execBalancerDistribute (s : State) : Out := orNone do
  let b ← s.balancers[s.ev.n]?
  balanceNow s s.ev.n b

/-! ### Merges (R242) -/

def State.putMerge (s : State) (n : Nat) (m : Merge) : State := { s with merges := setNth s.merges n m }

/-- The first of an ordered merge's groups is over. -/
def Merge.emitted (m : Merge) : Merge := { m with order := m.order.drop 1 }

/-- The group of replica `i` goes on: its next element emitted, or the group found ended by a broadcast token. -/
def mergeFrom (s : State) (n : Nat) (m : Merge) (i : Nat) : Option State := do
  let id := m.ins.getD i 0
  let (p, e) ← unitHead s id
  if isBroadcast m.level e then some (s.putMerge n { m.emitted with cur := none })
  else if roomIn s m.out then
    let s := (s.dequeueAt p id).enqueueAt m.out e.word e.tag e.sync
    if endsGroup m.level e then some (s.putMerge n { m.emitted with cur := none })
    else some (s.putMerge n { m with cur := some i })
  else none

/-- A broadcast token at the head of every replica is emitted once, with the payload of replica 0. -/
def mergeBroadcast (s : State) (n : Nat) (m : Merge) : Option State := do
  let heads ← m.ins.mapM (unitHead s)
  let (_, e) ← heads.head?
  if heads.all (fun h => isBroadcast m.level h.2) ∧ roomIn s m.out then
    let s := (m.ins.zip heads).foldl (fun s x => s.dequeueAt x.2.1 x.1) s
    some ((s.enqueueAt m.out e.word e.tag e.sync).putMerge n m.emitted)
  else none

/-- The replica whose group's first element arrived first. -/
def firstArrived (s : State) (m : Merge) : Option Nat :=
  let heads := (List.range m.ins.length).filterMap fun i =>
    match unitHead s (m.ins.getD i 0) with
    | some (_, e) => if isBroadcast m.level e then none else some (i, e.ready)
    | none => none
  (heads.find? (fun x => heads.all (fun y => decide (x.2 ≤ y.2)))).map Prod.fst

/-- What a merge does next; none where it has to wait. -/
def mergeNow (s : State) (n : Nat) (m : Merge) : Option State :=
  match m.cur with
  | some i => mergeFrom s n m i
  | none =>
    if m.pair.isNone then
      match firstArrived s m with
      | some i => mergeFrom s n m i
      | none => mergeBroadcast s n m
    else
      match m.order with
      | [] => none
      | some i :: _ => mergeFrom s n m i
      | none :: _ => mergeBroadcast s n m

/-- MERGE_EMIT (R242): merge `n`. -/
def execMergeEmit (s : State) : Out := orNone do
  let m ← s.merges[s.ev.n]?
  mergeNow s s.ev.n m

end Sys2Proof.Machine
end

