-- ==== Sys2Proof/Machine/Press.lean ====
section
/-! DEFINITION. P: the press (R30, R103 to R133). -/

namespace Sys2Proof.Machine

/-! ### The press of a tile -/

/-- A tile's press: one that has done nothing yet stands in the limiter's window of now. -/
def State.press (s : State) (tile : Nat) : Press := (assoc s.presses tile).getD { win := s.cyc / 1400 }
def State.setPress (s : State) (tile : Nat) (p : Press) : State :=
  { s with presses := (tile, p) :: s.presses.filter (fun x => x.1 ≠ tile) }

/-- A context of a press; a core number of a stage core is 0 to 3. -/
def Press.at_ (p : Press) (core : Nat) : PressCtx := p.ctx.toList.getD core {}
def Press.put (p : Press) (core : Nat) (c : PressCtx) : Press :=
  { p with ctx := Vector.ofFn (fun i => if i.val = core then c else p.ctx[i]) }

/-- The format context of the thread in focus. -/
def State.myPress (s : State) : PressCtx := (s.press s.th.key.tile).at_ s.th.key.core
def State.setMyPress (s : State) (c : PressCtx) : State :=
  s.setPress s.th.key.tile ((s.press s.th.key.tile).put s.th.key.core c)

/-- A context of a press changed. -/
def State.mapPress (s : State) (tile core : Nat) (f : PressCtx → PressCtx) : State :=
  let p := s.press tile
  s.setPress tile (p.put core (f (p.at_ core)))

/-! ### Descriptors (R109, R110) -/

/-- The reserved bits of a descriptor (R109). -/
def descOk (w0 w1 : Word) : Bool :=
  fld w0 63 54 == 0 && fld w0 38 35 == 0 && fld w0 22 19 == 0 && fld w0 3 0 == 0
    && fld w1 63 4 == 0 && (fld w1 3 0 == 0 || (8 ≤ fld w1 3 0 && fld w1 3 0 ≤ 12))

/-- The bank rotation of a chunk address in row `i` (R110). -/
def rotate (rot i raw : Nat) : Nat :=
  if rot = 0 then raw
  else raw - raw / 16 % 32 * 16 + ((raw / 16 % 32) ^^^ (i * 2 ^ (rot % 8) % 32)) * 16

/-- The raw offset of chunk `q` of row `i` of tile `n` (R110). -/
def chunkRaw (w0 : Word) (n i q : Nat) : Nat := fld w0 18 0 + n * fld w0 53 35 + i * fld w0 34 19 + 16 * q

/-- The offset of a chunk in the tile's scratchpad (R110). -/
def chunkAt (w0 w1 : Word) (n i q : Nat) : Nat := rotate (fld w1 3 0) i (chunkRaw w0 n i q)

/-- Every chunk of `rows` rows of `tiles` tiles lies in the scratchpad (R110). -/
def descFits (w0 : Word) (tiles rows rowBytes : Nat) : Bool :=
  decide (chunkRaw w0 (tiles - 1) (rows - 1) (rowBytes / 16 - 1) < 2 ^ 19)
    && decide (chunkRaw w0 0 (rows - 1) (rowBytes / 16 - 1) < 2 ^ 19)

/-- The chunks an operand reads, row by row. -/
def descChunks (w0 w1 : Word) (n rows rowBytes : Nat) : List Nat :=
  (List.range rows).flatMap (fun i => (List.range (rowBytes / 16)).map (fun q => chunkAt w0 w1 n i q))

/-- Bytes of a tile's scratchpad as memory shows them (R111, R253). -/
def tileBytes (s : State) (tile off n : Nat) : List Byte := s.readAs 0 (scrCell tile off) n

/-- The data error that a read of `n` bytes of a tile's scratchpad meets; 0 for none (R338, R370). -/
def tileDenied (s : State) (tile off n : Nat) : Nat := s.denied (scrCell tile off) 0 n

/-- The address at which a fault names an offset of the own tile's scratchpad: in the local alias (R24, log entry 52). -/
def aliasVa (off : Nat) : Word := BitVec.ofNat 64 (0x7F4000000000 + off)

/-- The bytes of an operand read through a descriptor from a tile, rows packed. The B fields of an operation that a
formed group triggered unchecked and that its group's dissolution left on its own wrap at the scratchpad's end (log
entry 44: the spec leaves open what they read). -/
def descRead (s : State) (tile : Nat) (w0 w1 : Word) (n rows rowBytes : Nat) : List Byte :=
  (descChunks w0 w1 n rows rowBytes).flatMap (fun e => tileBytes s tile (e % 2 ^ 19) 16)

/-! ### Triggers that act on the context at once (R119 to R121) -/

/-- A legal format word (R112). -/
def fmtOk (t : Word) : Bool :=
  let a := fld t 1 0
  let b := fld t 3 2
  let sp := fld t 5 4
  fld t 63 7 == 0 && sp != 3 && ((a < 2 && b < 2) || (a == 2 && b == 2 && sp == 0))

def actPctx (t : Word) (s : State) : Act :=
  if fmtOk t then .done (s.setMyPress { s.myPress with fmt := t }) else .illegal

/-- PSCALE_A at its trigger. It acts at issue, outside the queue: a pdrain still queued has not written yet, whichever thread
of the core triggered it, and the spec does not say that pscale.a waits for it (log entry 52). -/
def actPscaleA (t : Word) (s : State) : Act :=
  if fld t 63 19 ≠ 0 ∨ fld t 3 0 ≠ 0 ∨ 2 ^ 19 < fld t 18 0 + 256 then .illegal
  else if s.th.acquiring s.cyc ∨ s.lineBusy (scrCell s.th.key.tile (fld t 18 0)) 256 none then .wait (s.cyc + 1)
  else if tileDenied s s.th.key.tile (fld t 18 0) 256 ≠ 0 then
    .fault (tileDenied s s.th.key.tile (fld t 18 0) 256) (aliasVa (fld t 18 0))
  else
    let sa := (List.range 64).map (fun i => BitVec.ofNat 32 (leNat (tileBytes s s.th.key.tile (fld t 18 0 + 4 * i) 4)))
    .done ((s.setMyPress { s.myPress with sa := sa }).holdFor 4)

def actPscaleB (t : Word) (s : State) : Act :=
  if fld t 63 32 ≠ 0 then .illegal else .done (s.setMyPress { s.myPress with sb := t.setWidth 32 })

/-- Rows and row bytes of a pld shape (R121). -/
def pldShape (t : Word) : Nat × Nat :=
  match fld t 4 3 with
  | 0 => (64, 32)
  | 1 => (32, 64)
  | _ => (16, 128)

/-- A tile's folio starts at this tile. -/
def folioBase (tile : Nat) : Nat := tile / 4 * 4

/-- A formed broadcast group: every tile of the mask has a context with the same registration and context number
(R129). -/
def formed (s : State) (reg : BitVec 8) (ctx tile : Nat) : Bool :=
  reg.getLsbD 6 && (List.range 4).all (fun n =>
    !reg.getLsbD n || (s.press (folioBase tile + n)).ctx.toList.any (fun c => c.reg == reg && c.regCtx == ctx))

/-- A context of a press takes B from its own fields for an operation of control word `t`: it is no broadcast, its
context is in no formed group, or it leads the group (R123, R130). -/
def ownB (s : State) (tile : Nat) (c : PressCtx) (t : Word) : Bool :=
  fld t 17 17 == 0 || !formed s c.reg c.regCtx tile || (c.reg.extractLsb' 4 2).toNat == tile % 4

/-- The operand registers a queued operation reads, its B among them where it is its own: 0-3 pa, 4-7 pb (R121, R122,
R130). -/
def opRegs (own : Bool) : PressOp → List Nat
  | .mma sparse t _ _ _ _ _ _ _ _ =>
    (if fld t 8 8 = 0 then (if sparse then [fld t 10 9, fld t 10 9 + 1] else [fld t 10 9]) else [])
      ++ (if own ∧ fld t 11 11 = 0 then [4 + fld t 13 12] else [])
      ++ (if sparse ∧ fld t 14 14 = 0 then [4 + fld t 16 15] else [])
  | _ => []

/-- An entry of the context of the thread in focus reads operand register `r`. -/
def readsReg (s : State) (r : Nat) (e : PressEntry) : Bool :=
  let own := match e.op with
    | .mma _ t .. => ownB s s.th.key.tile s.myPress t
    | _ => false
  (opRegs own e.op).contains r

/-- PLD at its trigger. R121 says that pld ignores tpitch, R109 that tpitch bits [38:35] must be zero: a pld whose p.a0 has one of
them set traps (log entry 52). -/
def actPld (t : Word) (s : State) : Act :=
  let w0 := s.th.get .pa0
  let w1 := s.th.get .pa1
  let (rows, rb) := pldShape t
  if fld t 63 5 ≠ 0 ∨ fld t 4 3 = 3 ∨ !descOk w0 w1 ∨ !descFits w0 1 rows rb then .illegal
  else if s.th.acquiring s.cyc ∨ s.myPress.queue.any (readsReg s (fld t 2 0))
      ∨ (s.press s.th.key.tile).run.any (fun r => r.core = s.th.key.core ∧ readsReg s (fld t 2 0) r.entry)
      ∨ (descChunks w0 w1 0 rows rb).any (fun e => s.lineBusy (scrCell s.th.key.tile e) 16 none) then
    .wait (s.cyc + 1)
  else
    match (descChunks w0 w1 0 rows rb).find? (fun e => tileDenied s s.th.key.tile e 16 ≠ 0) with
    | some e => .fault (tileDenied s s.th.key.tile e 16) (aliasVa e)
    | none =>
    let bs := descRead s s.th.key.tile w0 w1 0 rows rb
    let c := s.myPress
    let s := { s with lost := s.lost.erase (.press s.th.key.tile s.th.key.core (fld t 2 0)) }
    .done ((s.setMyPress { c with regs := Vector.ofFn (fun i => if i.val = fld t 2 0 then bs else c.regs[i]) }).holdFor 8)

/-! ### Queued operations (R105, R122 to R128) -/

/-- The place that a withdrawn operation of a slot keeps in its queue. -/
def PressEntry.placeOf (k : SlotKey) (e : PressEntry) : Bool := e.gone && e.key == k

/-- An operation enters its context's queue: at the end, or at the place it was withdrawn from (R132). A holding one takes
its thread out of rotation. -/
def enqueuePress (s : State) (op : PressOp) (hold : Bool) : State :=
  let c := s.myPress
  let e : PressEntry := { op := op, key := s.th.key, ctx := s.th.ctx, since := s.cyc }
  let q :=
    if hold ∧ c.queue.any (PressEntry.placeOf s.th.key) then
      c.queue.map (fun x => if x.placeOf s.th.key then e else x)
    else
      match op, c.queue.getLast? with
      | .clr a, some { op := .clr b, key := k, ctx := x, held := h, since := n, .. } =>
        c.queue.dropLast ++ [{ op := .clr (a ||| b), key := k, ctx := x, held := h, since := n }]
      | _, _ => c.queue ++ [e]
  let s := s.setMyPress { c with queue := q }
  if hold then s.map (fun t => { t with hold := .press }) else s

/-- Metadata bytes of a sparse operation (R116). -/
def metaBytes (sp : Nat) : Nat := if sp = 1 then 1024 else 512

/-- Rows and row bytes of B (R108). -/
def bShape (fmt : Word) (sparse : Bool) : Nat × Nat :=
  if sparse then (if fld fmt 5 4 = 1 then (32, 64) else (16, 64))
  else if fld fmt 1 0 = 2 then (16, 128) else (32, 64)

/-- The checks of pmma and pmmas at the trigger (R123); in a formed group only the leader's B fields are checked (R130). -/
def mmaOk (sparse : Bool) (t : Word) (s : State) : Bool :=
  let f := s.myPress.fmt
  let th := s.th
  let sp := fld f 5 4
  let rows := fld t 7 2 + 1
  let (br, bb) := bShape f sparse
  fld t 63 18 == 0
    && (if sparse then sp != 0 && !(fld t 8 8 == 0 && fld t 9 9 == 1)
          && (fld t 14 14 == 0 || (fld (th.get .pc) 63 19 == 0 && fld (th.get .pc) 3 0 == 0
              && decide (fld (th.get .pc) 18 0 + metaBytes sp ≤ 2 ^ 19)))
        else sp == 0 && fld t 16 14 == 0)
    && (fld t 8 8 == 0 || (descOk (th.get .pa0) (th.get .pa1) && descFits (th.get .pa0) (if sparse then 2 else 1) rows 32))
    && (fld t 11 11 == 0 || !ownB s th.key.tile s.myPress t
        || (descOk (th.get .pb0) (th.get .pb1) && descFits (th.get .pb0) 1 br bb))

def mmaAct (sparse : Bool) (t : Word) (s : State) : Act :=
  if !mmaOk sparse t s then .illegal
  else if s.th.acquiring s.cyc then .wait (s.cyc + 1)
  else
    let c := s.myPress
    let th := s.th
    .done (enqueuePress s (.mma sparse t c.fmt c.sa c.sb (th.get .pa0) (th.get .pa1) (th.get .pb0) (th.get .pb1)
      (th.get .pc)) true)

def actPmma : Word → State → Act := mmaAct false
def actPmmas : Word → State → Act := mmaAct true

/-- The output format of a drain (R124); none is FP32, delivered exactly. -/
def drainFmt (t : Word) : Option Fmt :=
  match fld t 2 1 with
  | 0 => none
  | 1 => some bf16
  | 2 => some e4m3
  | _ => some e5m2

/-- The draws a drain takes (R125). -/
def drainDraws (t : Word) : Nat := if (drainFmt t).isSome then (fld t 8 3 + 1) * 64 else 0

/-- A drain holds its thread, and is performed when it has been served: a fault found there is precise for it (R125). Its
draws are taken at the trigger. -/
def actPdrain (t : Word) (s : State) : Act :=
  let p1 := s.th.get .pa1
  if fld t 63 10 ≠ 0 ∨ fld (s.th.get .pa0) 3 0 ≠ 0 ∨ fld p1 63 36 ≠ 0 ∨ fld p1 3 0 ≠ 0
      ∨ ¬(fld p1 35 32 = 0 ∨ (8 ≤ fld p1 35 32 ∧ fld p1 35 32 ≤ 12)) then .illegal
  else if s.th.acquiring s.cyc then .wait (s.cyc + 1)
  else
    let x := s.th.get .xrnd
    .hold .press fun s =>
      (enqueuePress s (.drain t (s.th.get .pa0) p1 x) true).map (fun th => th.set .xrnd (skipDraws (drainDraws t) x))

def actPclr (t : Word) (s : State) : Act :=
  if fld t 63 1 ≠ 0 then .illegal else .done (enqueuePress s (.clr (if fld t 0 0 = 0 then 1 else 2)) false)

def actPflags (t : Word) (s : State) : Act :=
  if t ≠ 0 then .illegal else .done (enqueuePress s .flags true)

/-! ### pjoin (R129) -/

/-- Threads waiting in a pjoin of a registration value return with p.r = 1. -/
def wakeJoined (s : State) (reg : BitVec 8) (ctx tile : Nat) : State :=
  s.mapAll fun t =>
    match t.hold with
    | .pjoin v _ =>
      if t.key.tile / 4 = tile / 4 ∧ v = reg ∧ t.ctx = ctx then { (t.set .pr 1) with hold := .none, readyAt := s.cyc + 1 }
      else t
    | _ => t

/-- A group dissolved for all its members. -/
def dissolve (s : State) (reg : BitVec 8) (ctx tile : Nat) : State :=
  { s with presses := s.presses.map fun (n, p) =>
    if n / 4 = tile / 4 ∧ reg.getLsbD (n % 4) then
      (n, { p with ctx := Vector.ofFn (fun i =>
          if p.ctx[i].reg = reg ∧ p.ctx[i].regCtx = ctx then { p.ctx[i] with reg := 0 } else p.ctx[i]) })
    else (n, p) }

def actPjoin (t : Word) (s : State) : Act :=
  let key := s.th.key
  let reg : BitVec 8 := t.setWidth 8
  if fld t 63 7 ≠ 0 then .illegal
  else if fld t 6 6 = 0 then
    if !s.myPress.queue.isEmpty ∨ (s.press key.tile).run.any (fun r => r.core = key.core) then .wait (s.cyc + 1)
    else
      let c := s.myPress
      let s := if formed s c.reg c.regCtx key.tile then dissolve s c.reg c.regCtx key.tile else s.setMyPress { c with reg := 0 }
    .done (s.map (fun th => th.set .pr 1))
  else if !t.getLsbD (key.tile % 4) ∨ !t.getLsbD (fld t 5 4) then .illegal
  else if (List.range 4).any (fun n => n ≠ key.core ∧ ((s.press key.tile).at_ n).reg ≠ 0) then
    .done (s.map (fun th => th.set .pr 0))
  else
    let s := s.setMyPress { s.myPress with reg := reg, regCtx := s.th.ctx }
    let s := s.map (fun th => { th with hold := .pjoin reg (s.cyc + 65536) })
    .done (if formed s reg s.th.ctx key.tile then wakeJoined s reg s.th.ctx key.tile else s)

/-! ### Summation (R113, R114, R116, R117) -/

/-- An operand element: a NaN, an infinity, or an integer multiple of the format's scale. -/
structure Elt where
  nan : Bool
  inf : Bool
  neg : Bool
  v : Int

/-- An element of a format scaled by 2^`sc`. -/
def eltOf (f : Fmt) (sc : Int) (c : Nat) : Elt :=
  match f.value c with
  | .nan _ => ⟨true, false, false, 0⟩
  | .inf n => ⟨false, true, n, 0⟩
  | .num n m e => ⟨false, false, n, signed n m * 2 ^ (e + sc).toNat⟩

/-- What the products of an element have come to. -/
structure Sum where
  nan : Bool := false
  pinf : Bool := false
  ninf : Bool := false
  /-- every product so far is −0 -/
  negZero : Bool := true
  v : Int := 0

/-- One product added. -/
def Sum.add (a : Sum) (x y : Elt) : Sum :=
  let neg := x.neg != y.neg
  let zx := !x.inf && x.v == 0
  let zy := !y.inf && y.v == 0
  if x.nan ∨ y.nan ∨ (x.inf ∧ zy) ∨ (y.inf ∧ zx) then { a with nan := true, negZero := false }
  else if x.inf ∨ y.inf then { a with pinf := a.pinf || !neg, ninf := a.ninf || neg, negZero := false }
  else { a with v := a.v + x.v * y.v, negZero := a.negZero && (zx || zy) && neg }

/-- P (R114) with the scale of a product, and whether it is invalid. -/
def Sum.value (a : Sum) (sc : Int) : FVal × Bool :=
  if a.nan ∨ (a.pinf ∧ a.ninf) then (.nan false, true)
  else if a.pinf then (.inf false, false)
  else if a.ninf then (.inf true, false)
  else (ofInt a.negZero a.v (-sc), false)

/-- The scale and format of an operand format code (R112). -/
def opFmt (c : Nat) : Fmt × Int :=
  match c with
  | 0 => (e4m3, 9)
  | 1 => (e5m2, 16)
  | _ => (bf16, 133)

/-- The elements of a row of bytes. -/
def rowElts (c : Nat) : List Byte → List Elt
  | [] => []
  | b :: bs =>
    let (f, sc) := opFmt c
    if c = 2 then
      match bs with
      | b2 :: rest => eltOf f sc (b.toNat + 256 * b2.toNat) :: rowElts c rest
      | [] => []
    else eltOf f sc b.toNat :: rowElts c bs

/-- A list of bytes cut into rows. -/
def rowsOf (n : Nat) : Nat → List Byte → List (List Byte)
  | 0, _ => []
  | k + 1, bs => bs.take n :: rowsOf n k (bs.drop n)

/-- The columns of a list of 64-element rows. -/
def columns (rows : List (List Elt)) : List (List Elt) :=
  rows.foldr (fun r cols => r.zipWith (fun x c => x :: c) cols) (List.replicate 64 [])

def dot (a b : List Elt) : Sum := (a.zip b).foldl (fun s p => s.add p.1 p.2) {}

/-- The index nibble of slot `q` of group `g` and column `j` (R116). -/
def metaIndex (sp : Nat) (md : List Byte) (g j q : Nat) : Nat :=
  let w := if sp = 1 then leNat ((md.drop (4 * (64 * g + j))).take 4) else leNat ((md.drop (2 * (64 * g + j))).take 2)
  w / 2 ^ (4 * q) % 16

/-- The pairing of a sparse column: for each slot, the K index its value multiplies. -/
def sparseCol (sp : Nat) (md : List Byte) (j : Nat) : List Nat :=
  let n := if sp = 1 then 8 else 4
  (List.range 4).flatMap (fun g => (List.range n).map (fun q => 16 * g + metaIndex sp md g j q))

/-- P of every element: 64 rows of 64. Rows at or beyond the row count are +0 (R117). -/
def products (fmt : Word) (sparse : Bool) (rows : Nat) (a0 a1 b md : List Byte) : List (List (FVal × Bool)) :=
  let fa := fld fmt 1 0
  let fb := fld fmt 3 2
  let sc := (opFmt fa).2 + (opFmt fb).2
  let ar0 := (rowsOf 32 64 a0).map (rowElts fa)
  let ar1 := (rowsOf 32 64 a1).map (rowElts fa)
  let (br, bb) := bShape fmt sparse
  let cols := columns ((rowsOf bb br b).map (rowElts fb))
  (List.range 64).map fun i =>
    if rows ≤ i then List.replicate 64 (.num false 0 0, false)
    else if sparse then
      let a := (ar0.getD i [] ++ ar1.getD i []).toArray
      ((List.range 64).zip cols).map (fun (j, c) =>
        (((sparseCol (fld fmt 5 4) md j).zip c).foldl (fun s p =>
          s.add (a.getD p.1 ⟨false, false, false, 0⟩) p.2) ({} : Sum)).value sc)
    else cols.map (fun c => (dot (ar0.getD i []) c).value sc)

/-- One element updated (R113): part, acc and the flags inv and ovf it raises. -/
def pressElement (prom : Bool) (scale : Option FRes) (scaleBad : Bool) (part acc : W32) (p : FVal × Bool) :
    W32 × W32 × Bool × Bool :=
  let r := fp32.add Rm.rne 0 (fp32.value part.toNat) p.1
  let inv := p.2 || r.flags.getLsbD 4
  let ovf := r.flags.getLsbD 2
  if !prom then (r.code, acc, inv, ovf)
  else
    let sv := match scale with
      | some x => fp32.value x.code.toNat
      | none => .num false 1 0
    let x := fp32.fma Rm.rne 0 (fp32.value r.code.toNat) sv (fp32.value acc.toNat)
    (0, x.code, inv || scaleBad || x.flags.getLsbD 4, ovf || x.flags.getLsbD 2)

/-- A matrix as a full list. -/
def fullMatrix (l : List W32) : List W32 := l ++ List.replicate (4096 - l.length) 0

/-- The context after an operation whose products are given (R113). -/
def accumulate (c : PressCtx) (t fmt : Word) (sa : List W32) (sb : W32) (ps : List (List (FVal × Bool))) : PressCtx :=
  let sel := fld t 0 0 = 1
  let part := fullMatrix (if sel then c.part1 else c.part0)
  let acc := fullMatrix (if sel then c.acc1 else c.acc0)
  let prom := t.getLsbD 1
  let sen := fmt.getLsbD 6
  let res := ((List.range 64).zip ps).flatMap fun (i, row) =>
    let scale := if sen then some (fp32.mul Rm.rne 0 (fp32.value (sa.getD i 0).toNat) (fp32.value sb.toNat)) else none
    let bad := match scale with
      | some x => (fp32.value x.code.toNat).isNaN
      | none => false
    let ovfS := match scale with
      | some x => x.flags.getLsbD 2 && prom
      | none => false
    (((part.drop (64 * i)).take 64).zip (((acc.drop (64 * i)).take 64).zip row)).map fun (p, a, x) =>
      let (p', a', inv, ovf) := pressElement prom scale bad p a x
      (p', a', inv, ovf || ovfS)
  let np := res.map (fun x => x.1)
  let na := res.map (fun x => x.2.1)
  let fl : BitVec 3 := (if res.any (fun x => x.2.2.1) then 4 else 0) ||| (if res.any (fun x => x.2.2.2) then 1 else 0)
  let c := if sel then { c with part1 := np, acc1 := na } else { c with part0 := np, acc0 := na }
  { c with flags := c.flags ||| fl }

/-! ### Grants (R30, R106, R107, R130) -/

/-- The nominal busy cycles of an operation (R107). -/
def nominal (fmt : Word) : Nat := if fld fmt 1 0 = 2 then 64 else 32

/-- The scratchpad chunks an operation reads, those of B where it is its own. -/
def mmaChunks (own sparse : Bool) (t fmt a0 a1 b0 b1 c : Word) : List Nat :=
  let rows := fld t 7 2 + 1
  let (br, bb) := bShape fmt sparse
  (if fld t 8 8 = 1 then descChunks a0 a1 0 rows 32 ++ (if sparse then descChunks a0 a1 1 rows 32 else []) else [])
    ++ (if own ∧ fld t 11 11 = 1 then descChunks b0 b1 0 br bb else [])
    ++ (if sparse ∧ fld t 14 14 = 1 then
          (List.range (metaBytes (fld fmt 5 4) / 16)).map (fun q => fld c 18 0 + 16 * q) else [])

/-- The busy cycles of an operation (R107). `x` is a free value: how often its busiest bank serves another port, at most
once after eight cycles in which it serves the press (R23). -/
def busyCycles (fmt : Word) (chunks : List Nat) (x : Nat) : Nat :=
  let worst := (List.range 32).foldl (fun n b => max n (chunks.countP (fun e => e / 16 % 32 = b))) 0
  max (nominal fmt) (worst + x % (worst / 8 + 1) + 4)

/-- The operand bytes of an operation: A tile 0, A tile 1 and metadata from its own context and tile. -/
def mmaOwn (s : State) (tile core : Nat) (sparse : Bool) (t fmt a0 a1 c : Word) : List Byte × List Byte × List Byte :=
  let pc := (s.press tile).at_ core
  let reg (n : Nat) : List Byte := (pc.regs.toList.getD n []) ++ List.replicate 2048 0 |>.take 2048
  let rows := fld t 7 2 + 1
  let a (n : Nat) : List Byte :=
    if fld t 8 8 = 1 then descRead s tile a0 a1 n rows 32 else reg (fld t 10 9 + n)
  let mb := metaBytes (fld fmt 5 4)
  let md := if !sparse then [] else if fld t 14 14 = 1 then tileBytes s tile (fld c 18 0) mb
    else (reg (4 + fld t 16 15)).take mb
  (a 0, if sparse then a 1 else [], md)

/-- The B bytes of an operation of a context. -/
def mmaB (s : State) (tile core : Nat) (sparse : Bool) (t fmt b0 b1 : Word) : List Byte :=
  let pc := (s.press tile).at_ core
  let (br, bb) := bShape fmt sparse
  if fld t 11 11 = 1 then descRead s tile b0 b1 0 br bb
  else ((pc.regs.toList.getD (4 + fld t 13 12) []) ++ List.replicate 2048 0).take 2048

/-- The entry at the head of a context's queue; none where it is withdrawn (R132) or its fault is held. -/
def headEntry (c : PressCtx) : Option PressEntry :=
  match c.queue with
  | e :: _ => if e.gone ∨ e.held then none else some e
  | [] => none

/-- That entry, when it is an arithmetic operation. -/
def headMma (c : PressCtx) : Option PressEntry :=
  match headEntry c with
  | some e =>
    match e.op with
    | .mma .. => some e
    | _ => none
  | none => none

/-- The core whose head the press takes next: round robin, from the core after the one it served last (R106). -/
def nextCore (p : Press) : Option Nat :=
  (List.range 4).map (fun i => (p.last + 1 + i) % 4) |>.find? (fun c => (headEntry (p.at_ c)).isSome)

/-- The limiter's window brought up to a cycle (R30): a window without arithmetic falls by 175 through filler. -/
def Press.roll (p : Press) : Press :=
  { p with win := p.win + 1, prev := max p.count (p.prev - 175), count := p.carry, carry := 0 }

/-- The limiter allows an operation of `n` arithmetic cycles to start in a cycle (R30). -/
def rampOk (p : Press) (n now : Nat) : Bool := decide (p.count + min n (1400 - now % 1400) ≤ min 1400 (p.prev + 175))

/-- The press is free to grant in a cycle (R107). -/
def pressFree (p : Press) (now : Nat) : Bool := p.run.all (fun r => decide (r.busy < now))

/-- The broadcast members that an operation at a context's head starts with: itself alone where it takes its own B
(R123, R130). -/
def membersOf (s : State) (tile core : Nat) : List (Nat × Nat) :=
  let c := (s.press tile).at_ core
  match headMma c with
  | some { op := .mma _ t .., .. } =>
    if t.getLsbD 17 ∧ formed s c.reg c.regCtx tile then
      ((List.range 4).filter (fun n => c.reg.getLsbD n)).flatMap (fun n =>
        let q := folioBase tile + n
        ((List.range 4).find? (fun k => ((s.press q).at_ k).reg = c.reg ∧ ((s.press q).at_ k).regCtx = c.regCtx)).toList.map
          (fun k => (q, k)))
    else [(tile, core)]
  | _ => []

/-- A member can grant its step: its press is free, counts in the window of now, has reached that context, and its head
is a bcast operation that the limiter lets start (R30, R130). -/
def memberReady (s : State) (group : Bool) (m : Nat × Nat) : Bool :=
  let p := s.press m.1
  pressFree p s.cyc && p.win == s.cyc / 1400 && nextCore p == some m.2 &&
    match headMma (p.at_ m.2) with
    | some { op := .mma _ t f .., since := n, .. } =>
      decide (n < s.cyc) && (!group || t.getLsbD 17) && rampOk p (nominal f) s.cyc
    | _ => false

/-- The grant that a tile's press can make now: the members that start. -/
def grantable (s : State) (tile : Nat) : Option (List (Nat × Nat)) :=
  match nextCore (s.press tile) with
  | none => none
  | some core =>
    let ms := membersOf s tile core
    if !ms.isEmpty ∧ ms.all (memberReady s (decide (1 < ms.length))) then some ms else none

/-- The busy cycles of a member's operation. -/
def memberBusy (s : State) (m : Nat × Nat) (x : Nat) : Nat :=
  let pc := (s.press m.1).at_ m.2
  match headMma pc with
  | some { op := .mma sp t f _ _ a0 a1 b0 b1 c, .. } =>
    busyCycles f (mmaChunks (ownB s m.1 pc t) sp t f a0 a1 b0 b1 c) x
  | _ => 0

/-- The longest of the members' busy periods: each step lasts as long as its slowest member (R107, R130). -/
def groupBusy : List (Nat × Nat) → Nat → State → Nat × State
  | [], n, s => (n, s)
  | m :: ms, n, s =>
    let (x, s) := s.draw
    groupBusy ms (max n (memberBusy s m x)) s

/-- The arithmetic cycles, of `n` in a busy period, that fall into the `left` cycles of the limiter's window: where the
stall cycles fall between them is a free value `x` (R30). -/
def cyclesHere (n busy left x : Nat) : Nat :=
  let least := if busy ≤ left then n else left - (busy - n)
  least + x % (min n left - least + 1)

/-- A member's operation performed with the B bytes given, or its own: its press busy for `busy` cycles. -/
def startMember (s : State) (m : Nat × Nat) (b? : Option (List Byte)) (busy : Nat) : State :=
  let (x, s) := s.draw
  let p := s.press m.1
  let pc := p.at_ m.2
  match headMma pc with
  | some { op := .mma sp t f sa sb a0 a1 b0 b1 c, .. } =>
    let (x0, x1, md) := mmaOwn s m.1 m.2 sp t f a0 a1 c
    let b := b?.getD (mmaB s m.1 m.2 sp t f b0 b1)
    let pc := accumulate pc t f sa sb (products f sp (fld t 7 2 + 1) x0 x1 b md)
    let n := nominal f
    let here := cyclesHere n busy (1400 - s.cyc % 1400) x
    s.setPress m.1 { (p.put m.2 { pc with queue := pc.queue.drop 1 }) with
      run := p.run ++ (pc.queue.take 1).map (fun e => ⟨m.2, e, s.cyc + busy - 1, s.cyc + busy + 3⟩)
      last := m.2
      count := p.count + here
      carry := p.carry + (n - here) }
  | _ => s

/-- `n` free bytes. -/
def freeBytes : Nat → State → List Byte × State
  | 0, s => ([], s)
  | n + 1, s =>
    let (x, s) := s.draw
    let (bs, s) := freeBytes n s
    (BitVec.ofNat 8 x :: bs, s)

/-- The bytes a member's B takes under its own format word (R130). -/
def memberB (s : State) (m : Nat × Nat) : Nat :=
  match headMma ((s.press m.1).at_ m.2) with
  | some { op := .mma sp _ f .., .. } => (bShape f sp).1 * (bShape f sp).2
  | _ => 0

/-- The bytes of B that the leader of a group reads for every member. Where a member's format takes more bytes than the
leader's has, the spec does not say what it receives behind them: free bytes (log entry 44). -/
def leaderB (s : State) (ms : List (Nat × Nat)) : Option (List Byte) × State :=
  let reg := ((s.press (ms.headD (0, 0)).1).at_ (ms.headD (0, 0)).2).reg
  let lead := (ms.find? (fun m => m.1 % 4 = (reg.extractLsb' 4 2).toNat)).getD (0, 0)
  match headMma ((s.press lead.1).at_ lead.2) with
  | some { op := .mma sp t f _ _ _ _ b0 b1 _, .. } =>
    let bs := (mmaB s lead.1 lead.2 sp t f b0 b1).take (memberB s lead)
    let (more, s) := freeBytes (ms.foldl (fun n m => max n (memberB s m)) 0 - bs.length) s
    (some (bs ++ more), s)
  | _ => (none, s)

/-- The B of an operation of a context holds a lost or refused word. -/
def lostB (s : State) (m : Nat × Nat) (sp : Bool) (t fmt b0 b1 : Word) : Bool :=
  let (br, bb) := bShape fmt sp
  if fld t 11 11 = 1 then (descChunks b0 b1 0 br bb).any (fun e => tileDenied s m.1 (e % 2 ^ 19) 16 ≠ 0)
  else s.lost.contains (.press m.1 m.2 (4 + fld t 13 12))

/-- An operation that a member starts with consumes a word that holds no value, of its own or in its leader's B. -/
def consumesLost (s : State) (ms : List (Nat × Nat)) (m : Nat × Nat) : Bool :=
  let b (m : Nat × Nat) : Bool := match headMma ((s.press m.1).at_ m.2) with
    | some { op := .mma sp t f _ _ _ _ b0 b1 _, .. } => lostB s m sp t f b0 b1
    | _ => false
  let reg := ((s.press m.1).at_ m.2).reg
  match headMma ((s.press m.1).at_ m.2) with
  | some { op := .mma sp t f sa sb a0 a1 b0 b1 c, .. } =>
    (opRegs false (.mma sp t f sa sb a0 a1 b0 b1 c)).any (fun r => s.lost.contains (.press m.1 m.2 r))
      || (mmaChunks false sp t f a0 a1 b0 b1 c).any (fun e => tileDenied s m.1 (e % 2 ^ 19) 16 ≠ 0)
      || b (if ms.length < 2 then m else (ms.find? (fun x => x.1 % 4 = (reg.extractLsb' 4 2).toNat)).getD m)
  | _ => false

/-- What an operation makes of a lost word is lost with it: the accumulator it updates (R370, log entry 14). -/
def loseAcc (s : State) (m : Nat × Nat) : State :=
  match headMma ((s.press m.1).at_ m.2) with
  | some { op := .mma _ t .., .. } => { s with lost := .press m.1 m.2 (8 + fld t 0 0) :: s.lost }
  | _ => s

/-- The grant performed: every member reads its operands and starts in the same cycle (R111, R130). -/
def grant (s : State) (ms : List (Nat × Nat)) : State :=
  let s := (ms.filter (consumesLost s ms)).foldl loseAcc s
  let (busy, s) := groupBusy ms 0 s
  let (b?, s) := match ms with
    | _ :: _ :: _ => leaderB s ms
    | _ => (none, s)
  ms.foldl (fun s m => startMember s m b? busy) s

/-! ### Entries without busy cycles (R125 to R128) -/

/-- The output bytes of a drain, row-major, with the flags ovf and sat its conversions raise. -/
def drainBytes (f : Option Fmt) : List W32 → Word → List Byte × Bool × Bool
  | [], _ => ([], false, false)
  | v :: vs, x =>
    match f with
    | none =>
      let (bs, o, t) := drainBytes f vs x
      (leBytes 4 v.toNat ++ bs, o, t)
    | some f' =>
      let (r, x') := takeDraw x
      let y := f'.convert (rmOf x) r (fp32.value v.toNat)
      let (bs, o, t) := drainBytes f vs x'
      (leBytes ((f'.sign + 1) / 8) y.code.toNat ++ bs, o || y.flags.getLsbD 2, t || y.flags.getLsbD 6)

/-- The destinations of a drain's 16-byte chunks (R124, R125). -/
def drainChunks (dst pitch : Word) (rows rowBytes : Nat) : List Word :=
  (List.range rows).flatMap fun i =>
    (List.range (rowBytes / 16)).map fun q =>
      let raw := dst + BitVec.ofNat 64 (i * fld pitch 31 0 + 16 * q)
      BitVec.ofNat 64 (rotate (fld pitch 35 32) i raw.toNat)

/-- The first destination that fails its check: scratchpad and HBM alone may be drained to (R125). The fault names the
first failing 16-byte chunk in row-major order, after rotation: the spec does not say which address it reports (log
entry 44). -/
def drainFault (s : State) : List Word → Option (Nat × Word)
  | [] => none
  | a :: rest =>
    match translate s s.self a .store with
    | .error k => some (k, a)
    | .ok l =>
      match l.space with
      | .scr _ | .hbm => if s.denied l.cell 1 16 ≠ 0 then some (s.denied l.cell 1 16, a) else drainFault s rest
      | _ => some (kPermission, a)

/-- A drain holds while the thread's earlier access to one of its lines is still to be performed (R163). -/
def drainBehind (s : State) (chunks : List Word) : Bool :=
  chunks.any (fun a => match translate s s.self a .store with
    | .ok l => s.lineBusy l.cell 16 none
    | .error _ => false)

/-- The bytes of an element of a drain's output format. -/
def drainElement (t : Word) : Nat :=
  match drainFmt t with
  | none => 4
  | some f => (f.sign + 1) / 8

/-- The destinations of a drain (R124). -/
def drainTargets (t dst pitch : Word) : List Word := drainChunks dst pitch (fld t 8 3 + 1) (64 * drainElement t)

/-- The chunks written in order. -/
def drainWrite : List Word → List Byte → State → State
  | [], _, s => s
  | a :: rest, bs, s =>
    let s := match writeVA s s.self a (bs.take 16) with
      | .ok s => s
      | .error _ => s
    drainWrite rest (bs.drop 16) s

/-- A pdrain at the head of its queue, its thread in focus (R125, R126): a fault writes nothing and is held. Its chunks are
written in order, as many in one step as the event says (R177): `ev.p`, 0 for all that are left. -/
def serveDrain (s : State) (t dst pitch x : Word) : State :=
  let c := s.myPress
  let rows := fld t 8 3 + 1
  let f := drainFmt t
  let acc := (fullMatrix (if fld t 0 0 = 1 then c.acc1 else c.acc0)).take (64 * rows)
  let chunks := drainTargets t dst pitch
  let me : Lost := .press s.th.key.tile s.th.key.core (8 + fld t 0 0)
  let done := (c.queue.head?.map PressEntry.part).getD 0
  let fault := if s.lost.contains me then some (kData, chunks.headD dst) else if done = 0 then drainFault s chunks else none
  match fault with
  | some (k, a) =>
    -- the entry waits at the head for the policy core's answer
    let s := s.setMyPress { c with queue := c.queue.map (fun e => if e = c.queue.headD e then { e with held := true } else e) }
    raiseFault s false 0x1EB 0 k a
  | none =>
    let (bs, ovf, sat) := drainBytes f acc x
    let fl := c.flags ||| (if ovf then 1 else 0) ||| (if sat then 2 else 0)
    let n := if s.ev.p = 0 then chunks.length - done else min s.ev.p (chunks.length - done)
    let s := drainWrite ((chunks.drop done).take n) (bs.drop (16 * done)) s
    if done + n < chunks.length then
      s.setMyPress { c with queue := (c.queue.head?.map (fun e => { e with part := done + n })).toList ++ c.queue.drop 1 }
    else
    let c := { c with flags := fl, queue := c.queue.drop 1 }
    let c := if !t.getLsbD 9 then c
      else if fld t 0 0 = 1 then { c with acc1 := [], part1 := [] } else { c with acc0 := [], part0 := [] }
    let xf : Flags := (if fl.getLsbD 0 then flagOF else 0) ||| (if fl.getLsbD 1 then flagSAT else 0)
      ||| (if fl.getLsbD 2 then flagNV else 0)
    ((s.setMyPress c).map (fun th => (th.merge xf).note s.cyc xf)).performHeld.rejoin

/-- The head of a context's queue when the press takes it next, without a busy cycle: every earlier operation of the
context has completed (R105, R106). -/
def headPlain (p : Press) (core : Nat) : Option PressEntry :=
  match headEntry (p.at_ core) with
  | some e =>
    match e.op with
    | .mma .. => none
    | _ => if nextCore p ≠ some core ∨ p.run.any (fun r => r.core = core) then none else some e
  | none => none

/-- A pclr served (R127). -/
def clearAcc (c : PressCtx) (accs : BitVec 2) : PressCtx :=
  let c := if accs.getLsbD 0 then { c with acc0 := [], part0 := [] } else c
  let c := if accs.getLsbD 1 then { c with acc1 := [], part1 := [] } else c
  { c with queue := c.queue.drop 1 }

/-- Cleared accumulators hold a value again. -/
def clearLost (s : State) (tile core : Nat) (accs : BitVec 2) : State :=
  { s with lost := s.lost.filter (fun x =>
      ¬((accs.getLsbD 0 ∧ x = .press tile core 8) ∨ (accs.getLsbD 1 ∧ x = .press tile core 9))) }

/-! ### Events -/

/-- PRESS_GRANT (R106, R130): the press of tile `n` grants its next operation. -/
def execPressGrant (s : State) : Out := orNone ((grantable s s.ev.n).map (grant s))

/-- The thread of a served entry goes on. -/
def releasePress (s : State) (k : SlotKey) : State :=
  s.mapSlot k fun t => if t.hold = .press then { t with hold := .none, readyAt := s.cyc + 1 } else t

/-- The granted operation of a press that has completed. -/
def pressDone (p : Press) (now : Nat) : Option PressRun := p.run.find? (fun r => decide (r.done ≤ now))

/-- PRESS_OPERATION_COMPLETE (R107): an operation of tile `n` completes. -/
def execPressOperationComplete (s : State) : Out := orNone do
  let p := s.press s.ev.n
  let r ← pressDone p s.cyc
  pure (releasePress (s.setPress s.ev.n { p with run := p.run.erase r }) r.entry.key)

/-- An entry served at the head of a context's queue (R125 to R128). -/
def serveEntry (s : State) (tile core : Nat) (e : PressEntry) : Option State :=
  match e.op with
  | .mma .. => none
  | .clr accs => some ((clearLost s tile core accs).mapPress tile core (fun c => clearAcc c accs))
  | .flags =>
    let c := (s.press tile).at_ core
    let s := s.mapPress tile core (fun c => { c with flags := 0, queue := c.queue.drop 1 })
    some (releasePress (s.mapSlot e.key (fun t => t.set .pr (c.flags.setWidth 64))) e.key)
  | .drain t dst pitch x =>
    match s.focus e.key with
    | some s => if drainBehind s (drainTargets t dst pitch) then none else some (serveDrain s t dst pitch x)
    | none => none

/-- PRESS_QUEUE_ENTRY_SERVED (R105): the head of the queue of core `m` of tile `n`. -/
def execPressQueueEntryServed (s : State) : Out := orNone do
  let e ← headPlain (s.press s.ev.n) s.ev.m
  let s' ← serveEntry s s.ev.n s.ev.m e
  pure (s'.setPress s.ev.n { s'.press s.ev.n with last := s.ev.m })

/-- RAMP_LIMITER_WINDOW (R30): a window of 1,400 cycles of tile `n`'s press ends. -/
def execRampLimiterWindow (s : State) : Out :=
  let p := s.press s.ev.n
  if p.win < s.cyc / 1400 then .next (s.setPress s.ev.n p.roll) else .fault .noSubject

/-- PJOIN_TIMEOUT (R129): the registration is cleared. -/
def execPjoinTimeout : State → Out :=
  onSlot fun s =>
    match s.th.hold with
    | .pjoin _ d =>
      if d ≤ s.cyc then
        some ((s.setMyPress { s.myPress with reg := 0 }).map (fun t => t.set .pr 0)).rejoin
      else none
    | _ => none

/-! ### The instructions -/

/-- PCTX (R119). -/
def execPctx (g : Guard) (src : Src) (s : State) : Out := trigger .pctx 0 g src actPctx s
/-- PSCALE_A (R120). -/
def execPscaleA (g : Guard) (src : Src) (s : State) : Out := trigger .pscaleA 0 g src actPscaleA s
/-- PSCALE_B (R120). -/
def execPscaleB (g : Guard) (src : Src) (s : State) : Out := trigger .pscaleB 0 g src actPscaleB s
/-- PLD (R121). -/
def execPld (g : Guard) (src : Src) (s : State) : Out := trigger .pld 0 g src actPld s
/-- PMMA (R123). -/
def execPmma (g : Guard) (src : Src) (s : State) : Out := trigger .pmma 0 g src actPmma s
/-- PMMAS (R123). -/
def execPmmas (g : Guard) (src : Src) (s : State) : Out := trigger .pmmas 0 g src actPmmas s
/-- PDRAIN (R125). -/
def execPdrain (g : Guard) (src : Src) (s : State) : Out := trigger .pdrain 0 g src actPdrain s
/-- PCLR (R127). -/
def execPclr (g : Guard) (src : Src) (s : State) : Out := trigger .pclr 0 g src actPclr s
/-- PFLAGS (R128). -/
def execPflags (g : Guard) (src : Src) (s : State) : Out := trigger .pflags 0 g src actPflags s
/-- PJOIN (R129). -/
def execPjoin (g : Guard) (src : Src) (s : State) : Out := trigger .pjoin 0 g src actPjoin s

end Sys2Proof.Machine
end

