-- ==== Sys2Proof/Machine/Recovery.lean ====
section
/-! DEFINITION. The policy core's answers (R340), pre-emption, forced saves, the tile image and resumption (R309, R351,
R358 to R364), and the power policy (R365). -/

namespace Sys2Proof.Machine

/-! ### Fault records (R340) -/

/-- The thread that a fault record's identifier still holds. -/
def heldThread (s : State) (r : Report) : Option Thread :=
  s.threads.find? (fun t => t.key == r.key && (match t.latch with
    | some l => l.ring.isNone && l.id == r.id
    | none => false))

/-- An entry that holds slot `k`'s thread. -/
def PressEntry.holds (k : SlotKey) (e : PressEntry) : Bool :=
  e.key == k && !(match e.op with
    | .clr _ => true
    | _ => false)

/-- The queued operation of a thread in its press context, with its place. -/
def pressEntry (s : State) (k : SlotKey) : Option PressEntry :=
  ((s.press k.tile).at_ k.core).queue.find? (PressEntry.holds k)

/-- The operation of a thread leaves its queue. -/
def dropPressEntry (s : State) (k : SlotKey) : State :=
  s.mapPress k.tile k.core (fun c => { c with queue := c.queue.filter (fun e => !e.holds k) })

/-- The operation of a thread is withdrawn and keeps its place: what is queued behind it waits (R132). -/
def withdrawPress (s : State) (k : SlotKey) : State :=
  s.mapPress k.tile k.core (fun c => { c with queue := c.queue.map (fun e =>
    if e.holds k then { e with gone := true, held := false, part := 0 } else e) })

/-- Replay: the held transport, or the word of the thread's sequence, is performed again, as at its trigger (R339). The
thread is in focus. -/
def replayLatch (s : State) (l : Retry) : State :=
  let k := s.th.key
  if l.seq then s.map (fun t => { t with latch := none, rep := { t.rep with next := s.cyc + 1 } })
  else if l.late then replayLate s l
  else if l.trig = 0x1EB then
    (s.mapPress k.tile k.core (fun c => { c with queue := c.queue.map (fun e =>
      if e.key = k then { e with held := false } else e) })).map (fun t => { t with hold := .press, latch := none })
  else s.map (fun t => { t with hold := .none, latch := none, readyAt := s.cyc + 1, again := true })

/-- A pdrain given up: its entry goes, and so does the capture of its draws (R125). -/
def dropDrain (s : State) : State :=
  match (pressEntry s s.th.key).map PressEntry.op with
  | some (.drain _ _ _ x) => (dropPressEntry s s.th.key).map (fun t => { t.set .xrnd x with unperformed := none })
  | _ => s

/-- Raise: the memory-fault trap (R339, R344). The thread is in focus. One of its sequence's faults is taken at the
instruction boundary it stands at; where its own transport holds it, at the next (R102). -/
def raiseLatch (s : State) (l : Retry) : State :=
  let s := s.map (fun t => { t with latch := none })
  let ti : TrapInfo := { cause := 11, detail := l.kind, maddr := l.addr, mtpc := l.pc }
  if l.seq then
    if mayHold s.th.hold ∧ s.th.trapWait.isNone then
      takeTrap (s.map (fun t => { t with hold := .none })) { ti with mtpc := s.th.pc }
    else s.map (fun t => { t with owed := t.owed ++ [{ ti with here := true }] })
  else
    let s := if l.trig = 0x1EB then dropDrain s else s
    takeTrap (s.map (fun t => { t with hold := .none })) ti

/-- An answer given to the thread or stream that a record holds; none is held any longer where nothing matches. -/
def applyAnswer (s : State) (r : Report) (replay : Bool) : State :=
  let s := { s with policyQ := s.policyQ.filter (fun x => x.id ≠ r.id) }
  match r.tale with
  | .fault _ _ _ _ (some n) =>
    match s.stream? r.key.coreKey n with
    | some st =>
      -- a record whose thread has since been saved is answered with no effect
      if (st.fetches.head?.map (fun f => f.fault.isSome && !f.ring && f.id == r.id)).getD false
          ∧ s.threads.any (fun t => t.key = st.owner ∧ t.ctx = r.ctx) then answerStream s st replay
      else s
    | none => s
  | _ =>
    match heldThread s r with
    | none => s
    | some t =>
      let me := s.th.key
      match s.focus t.key, t.latch with
      | some s1, some l =>
        let s2 := if replay then replayLatch s1 l else raiseLatch s1 l
        (s2.focus me).getD s2
      | _, _ => s

/-- The event a report becomes (R332). -/
def taleEvent (s : State) (r : Report) : HostEvent :=
  match r.tale with
  | .fault kind addr trig tid _ =>
    { id := r.id, ctx := r.ctx, kind := 1, d1 := addr, d2 := tid &&& 0x1FFFF, d3 := BitVec.ofNat 64 (trig % 2 ^ 11 * 2 ^ 8 + kind) }
  | .badRecord rec_ => { ctx := r.ctx, kind := 2, d1 := rec_ }
  | .stopped rec_ =>
    let t := s.thread? r.key
    { ctx := r.ctx, kind := 3, d1 := rec_, d2 := (t.map Thread.mcause).getD 0, d3 := (t.map Thread.mtpc).getD 0 }
  | .negativeJoin rec_ => { ctx := r.ctx, kind := 7, d1 := rec_ }

/-- The policy core has come to a record: it takes those of a die in the order of their arrival (R394). One posted to the
driver waits for the driver alone. -/
def mayAnswer (s : State) (r : Report) : Bool :=
  r.posted || (s.policyQ.takeWhile (fun x => x.id != r.id)).all (fun x =>
    x.posted || dieOf x.key.tile != dieOf r.key.tile)

/-- POLICY_CORE_ANSWER (R340): of the record with identifier `n`. Alignment, data and link faults are raised at once; a
translation or permission fault goes to the driver and waits for its answer; the other reports go to the driver. -/
def execPolicyCoreAnswer (s : State) : Out := orNone do
  let r ← s.policyQ.find? (fun r => r.id = s.ev.n)
  let e := taleEvent s r
  if !mayAnswer s r then none else
  match r.tale with
  | .fault kind _ _ _ _ =>
    match r.answer with
    | some replay => pure (applyAnswer s r replay)
    | none =>
      if kind ≠ 1 ∧ kind ≠ 2 then pure (applyAnswer s r false)
      else if r.posted then none
      else if s.events.held.isEmpty ∧ s.events.room ∨ s.events.held.length < 4096 then
        pure (report { s with policyQ := s.policyQ.map (fun x => if x.id = r.id then { x with posted := true } else x) } e)
      else none
  | _ => pure (report { s with policyQ := s.policyQ.filter (fun x => x.id ≠ r.id) } e)

/-! ### Beginning a pre-emption (R358) -/

/-- preq set for every thread of the context; its queued records stop waiting. -/
def beginPreempt (s : State) (n d : Nat) : State :=
  let s := { s with runq := s.runq.map (fun q : Queued =>
    if q.ctx = n then { q with waited := waitedNow s q, since := s.cyc } else q) }
  (s.mapCtx n (fun c => { c with preq := true, limit := s.cyc + d, quiet := false })).mapAll
    (fun t => if t.ctx = n then { t with preq := true } else t)

/-- PREEMPT_CONTEXT (R358). -/
def preemptRequest (r : Request) (s : State) : Answer :=
  match s.ctx? r.ctx.toNat with
  | none => .no 2
  | some c => if c.preq then .no 4 else .later (beginPreempt s c.num c.deadline) (.preempted c.num)

/-! ### The forced save (R132, R278, R351, R360) -/

/-- The withdrawn-operation record of a queued press operation (kind 9). -/
def pressWords (op : PressOp) : List Word :=
  let pad (l : List W32) : List W32 := (l ++ List.replicate 64 0).take 64
  let rec pairs : List W32 → List Word
    | x :: y :: rest => (y ++ x) :: pairs rest
    | _ => []
  match op with
  | .mma sparse t fmt sa sb a0 a1 b0 b1 c =>
    [BitVec.ofNat 64 (9 + (if sparse then Trig.num .pmmas else Trig.num .pmma) * 256), t, fmt, a0, a1, b0, b1, c, sb.setWidth 64, 0]
      ++ List.replicate 6 0 ++ pairs (pad sa)
  | .drain t dst pitch x => [BitVec.ofNat 64 (9 + 0x1EB * 256), t, 0, dst, pitch, 0, 0, 0, 0, x]
  | .flags => [BitVec.ofNat 64 (9 + Trig.num .pflags * 256)]
  | .clr _ => [0]

/-- The operation of such a record. -/
def pressOfWords (bs : List Byte) : Option PressOp :=
  let d (i : Nat) : Word := dwordAt bs (8 * i)
  let trig := fld (d 0) 18 8
  let sa : List W32 := (List.range 64).map (fun i => BitVec.ofNat 32 (numAt bs (8 * 16 + 4 * i) 4))
  if trig = Trig.num .pmma ∨ trig = Trig.num .pmmas then
    some (.mma (trig = Trig.num .pmmas) (d 1) (d 2) sa ((d 8).setWidth 32) (d 3) (d 4) (d 5) (d 6) (d 7))
  else if trig = 0x1EB then some (.drain (d 1) (d 3) (d 4) (d 9))
  else if trig = Trig.num .pflags then some .flags
  else none

/-- The withdrawn-operation record of a copy not yet claimed (kind 10). One that a ydesc issued is recorded under the
trigger of its kind, as its captured operands are those of that trigger. -/
def copyWords (c : Copy) : List Word :=
  [BitVec.ofNat 64 (10 + (Trig.num (if c.kind = 1 then .ycopyAdd else if c.kind = 2 then .ymcast else .ycopy)) * 256),
    c.src, c.dst, c.shape, c.pitch, c.ctl]

/-- The thread in focus has operations under way that a save waits for, its copy apart. -/
def saveWaits (s : State) (t : Thread) : Bool :=
  !t.posted.isEmpty || t.unacked != 0 || s.homeQ.any (fun a => a.key == t.key) || s.offers.any (fun o => o.key == t.key)
    || (s.press t.key.tile).run.any (fun r => r.entry.key == t.key) || !t.drained s.cyc

/-- What a thread's hold leaves in its frame: the resume PC and the withdrawn-operation record; none while it cannot
be saved from it. The PC is behind a transport whose operation is withdrawn; one still to be performed then counts, and
its source's dequeue takes effect, when the operation issued again ends (log entry 17). -/
def holdSave (s : State) (t : Thread) : Option (Word × List Word) :=
  let resume := if t.unperformed.isSome then t.pc + 4 else t.pc
  match t.hold with
  | .trap | .idle _ => none
  | .yawait _ => some (t.pc + 4, withdrawn t s.cyc)
  | .press =>
    match pressEntry s t.key with
    | some e => some (resume, pressWords e.op)
    | none => none
  | .pjoin v _ => some (t.pc, [BitVec.ofNat 64 (8 + Trig.num .pjoin * 256), v.setWidth 64])
  | .latch | .none | .line _ _ | .walk _ | .queue _ _ | .drain => some (t.pc, [])
  | _ => some (resume, withdrawn t s.cyc)

/-- The engines forget a withdrawn operation; a pdrain held in the latch gives back the draws it captured and keeps its
place in the queue. -/
def forget (s : State) : State :=
  let t := s.th
  match t.hold with
  | .park _ _ => { s with parks := s.parks.filter (fun p => ¬(p.ctx = t.ctx ∧ p.record = t.record)) }
  | .press => withdrawPress s t.key
  | .pjoin _ _ => s.mapPress t.key.tile t.key.core (fun c => { c with reg := 0 })
  | .latch =>
    match (t.latch.map Retry.trig), (pressEntry s t.key).map PressEntry.op with
    | some 0x1EB, some (.drain _ _ _ x) =>
      (withdrawPress s t.key).map (fun t => { t.set .xrnd x with unperformed := none })
    | _, _ => s
  | _ => s

/-- The thread in focus saved from its hold, with a copy withdrawn from it, if any (R278, R360). Where its hold takes the
withdrawn-operation record too, the copy's stands beside the saved thread (log entry 17). -/
def saveNow (s : State) (c : Option Copy) : Option State :=
  if saveWaits s s.th then none
  else
    (holdSave s s.th).map fun (pc, wd) =>
      match c with
      | none => savePreempted (forget s).quiet pc wd
      | some c =>
        if wd.isEmpty then savePreempted (forget s).quiet pc (copyWords c) (c.pc, [])
        else savePreempted (forget s).quiet pc wd (c.pc, copyWords c)

/-- The thread in focus saved by force, where that can be done now (R360). -/
def forceSave (s : State) : Option State :=
  let t := s.th
  if t.mode = .monitor ∨ t.life = .stopped ∨ t.trapWait.isSome then none
  else
    match s.copy? t.key with
    | none => saveNow s none
    | some c =>
      -- a copy that has done nothing yet is withdrawn
      if c.slot.isSome ∨ c.off ≠ 0 then none
      else saveNow ({ s with copies := s.copies.filter (fun x => x.key ≠ t.key) }.map (fun t =>
        t.setWin .y { left := (t.win .y).left })) (some c)

/-- The slots of a context in the order a forced save takes them: queued press operations in queue order first. -/
def saveOrder (s : State) (n : Nat) : List SlotKey :=
  let mine := (s.threads.filter (fun t => t.ctx = n)).map Thread.key
  let queued := s.presses.flatMap (fun p => p.2.ctx.toList.flatMap (fun c => c.queue.map PressEntry.key))
  queued.filter (fun k => mine.contains k) ++ mine.filter (fun k => !queued.contains k)

/-- PREEMPTION_DEADLINE (R360): at c0 + D the threads of context `n` that can be saved are saved. -/
def execPreemptionDeadline (s : State) : Out := orNone do
  let c ← s.ctx? s.ev.n
  if !c.preq ∨ c.quiet ∨ s.cyc < c.limit then none
  else
    let me := s.th.key
    let (s', any) := (saveOrder s c.num).foldl (fun (x : State × Bool) k =>
      match x.1.focus k with
      | none => x
      | some s1 =>
        match forceSave s1 with
        | some s2 => (s2, true)
        | none => x) (s, false)
    if any then pure ((s'.focus me).getD s') else none

/-! ### The tile image (R361, R362) -/

/-- The save area of a logical tile of a context, in HBM (R361): where its grant allocated it (log entry 22). -/
def saveArea (s : State) (n k : Nat) : Nat := ((s.ctx? n).bind (fun c => assoc c.areas k)).getD 0

/-- Words of 32 bits as bytes. -/
def wordBytes (l : List W32) : List Byte := l.flatMap (fun w => leBytes 4 w.toNat)

/-- A list of bytes made `n` long with zeros. -/
def padTo (n : Nat) (l : List Byte) : List Byte := (l ++ List.replicate (n - l.length) 0).take n

/-- The image of a press context. -/
def pressImage (c : PressCtx) : List Byte :=
  [c.acc0, c.acc1, c.part0, c.part1].flatMap (fun m => wordBytes (fullMatrix m))
    ++ c.regs.toList.flatMap (padTo 2048) ++ padTo 256 (wordBytes c.sa)
    ++ dwords [c.sb.setWidth 64, c.fmt, c.flags.setWidth 64, c.reg.setWidth 64] ++ List.replicate 0xE0 0

/-- The words of an image. -/
def wordsAt (bs : List Byte) (off n : Nat) : List W32 :=
  let rec go : Nat → List Byte → List W32
    | k + 1, a :: b :: c :: d :: rest => (d ++ c ++ b ++ a) :: go k rest
    | _, _ => []
  go n (bs.drop off)

/-- A press context restored from its image, for a context number. -/
def pressOfImage (n : Nat) (bs : List Byte) : PressCtx :=
  { acc0 := wordsAt bs 0 4096, acc1 := wordsAt bs 0x4000 4096, part0 := wordsAt bs 0x8000 4096, part1 := wordsAt bs 0xC000 4096
    regs := Vector.ofFn (fun i => (bs.drop (0x10000 + 0x800 * i.val)).take 0x800)
    sa := wordsAt bs 0x14000 64, sb := BitVec.ofNat 32 (numAt bs 0x14100 4), fmt := dwordAt bs 0x14108
    flags := BitVec.ofNat 3 (numAt bs 0x14110 1), reg := BitVec.ofNat 8 (numAt bs 0x14118 1), regCtx := n }

/-- The image of a heap unit (log entry 23 says how its first two dwords are packed). -/
def heapImage (h : Heap) : List Byte :=
  dwords [BitVec.ofNat 64 (h.cap + h.key.toNat * 2 ^ 16 + h.expert.toNat * 2 ^ 32 + h.ctx * 2 ^ 48),
    BitVec.ofNat 64 (h.pairs.length + h.drops * 2 ^ 32), h.ovf, h.spill]
    ++ leBytes 32 ((h.pairs.zipIdx).foldl (fun m x => if x.1.2 then m + 2 ^ x.2 else m) 0)
    ++ padTo 0x800 (dwords (h.pairs.map Prod.fst))

/-- A heap unit restored from its image. -/
def heapOfImage (bs : List Byte) : Heap :=
  let w := dwordAt bs 0
  let fins := numAt bs 32 32
  { cap := fld w 15 0, key := w.extractLsb' 16 16, expert := w.extractLsb' 32 12, ctx := fld w 63 48
    pairs := (List.range (numAt bs 8 4)).map (fun i => (dwordAt bs (0x40 + 8 * i), fins.testBit i))
    ovf := dwordAt bs 16, spill := dwordAt bs 24, drops := numAt bs 12 4 }

/-- The elements in a core's queue register file: those of the channels placed in the core. -/
def registerFile (s : State) (k : CoreKey) : List Elem :=
  (s.chans.filter (fun c => c.core? = some k)).flatMap Chan.elems

/-- The image of a core's queue register file: data, tag map, sync map, and the channel state `st`. -/
def registerImage (s : State) (k : CoreKey) (st : List Byte) : List Byte :=
  let es := (registerFile s k).take 64
  let bits (f : Elem → Bool) : Nat := (es.zipIdx).foldl (fun m x => if f x.1 then m + 2 ^ x.2 else m) 0
  padTo 0x240 (padTo 512 (dwords (es.map Elem.word)) ++ leBytes 8 (bits Elem.tag) ++ leBytes 8 (bits Elem.sync) ++ st)

/-- The channel state of a core's file, whose layout in 48 bytes the spec does not give: free bytes, none where the core holds
no channel (log entry 23). -/
def channelState (s : State) (k : CoreKey) : List Byte × State :=
  if s.chans.any (fun c => c.core? = some k) then freeBytes 48 s else ([], s)

/-- The image of a stream context. -/
def streamImage (s : State) (k : CoreKey) (n : Nat) : List Byte :=
  padTo 64 (match s.stream? k n with
    | some st => dwords [st.cfg, st.base, st.limit, BitVec.ofNat 64 st.count, 1]
    | none => [])

/-- The mask of the running domains of an array. -/
def runMask (a : DArray) : Nat := (List.range 8).foldl (fun m d => if (a.dom d).run then m + 2 ^ d else m) 0

/-- One part of an image written at its place; a part all zero leaves zeros. -/
def putPart (s : State) (a : Nat) (bs : List Byte) : State := { s with mem := Mem.write s.mem a bs }

/-- The image of tile `t`, logical tile `k` of context `n`, written to the save area, its domains halted (R361, R362). -/
def saveTile (n k t : Nat) (s : State) : State :=
  let at_ := saveArea s n k
  let s := { s with mem := Mem.copy (Mem.clear s.mem at_ (at_ + 0xDB000)) (scrCell t 0) 0x80000 at_ }
  let p := s.press t
  let s := (List.range 4).foldl (fun s i => putPart s (at_ + 0x80000 + 0x14200 * i) (pressImage (p.at_ i))) s
  let cores := (List.range 4).map (fun i => (⟨t, i⟩ : CoreKey))
  let masks := cores.map (fun k => BitVec.ofNat 8 (runMask (s.array k)))
  let s := (cores.zipIdx).foldl (fun s x =>
    let a := s.array x.1
    let s := putPart s (at_ + 0xD0800 + 0x2080 * x.2) (arrayImage a s.cyc)
    if a = {} then s else s.setArray x.1 (haltDomains a 255 s.cyc)) s
  let s := putPart s (at_ + 0xD8A00) masks
  let s := putPart s (at_ + 0xD8A40) (heapImage (s.heap t))
  let s := (List.range 7).foldl (fun s i =>
    let (st, s) := channelState s ⟨t, i⟩
    putPart s (at_ + 0xD9280 + 0x240 * i) (registerImage s ⟨t, i⟩ st)) s
  (List.range 16).foldl (fun s i => putPart s (at_ + 0xDA240 + 64 * i) (streamImage s ⟨t, i / 4⟩ (i % 4))) s

/-- Every thread of the context is saved or stopped, its accesses are over, and its presses have nothing left to take. -/
def readyToQuiesce (s : State) (c : Ctx) : Bool :=
  s.threads.all (fun t => t.ctx != c.num || (t.life == .stopped && !t.dying)) && accessesDone s c.num
    && c.tiles.all (fun p => (s.press p.2).run.isEmpty
      && (s.press p.2).ctx.toList.all (fun x => (x.queue.head?.map PressEntry.gone).getD true))

/-! ### Resumption (R309, R363) -/

/-- What the queue of core `i` of logical tile `k` held when its context was quiesced. -/
def pressLeft (k i : Nat) (c : Ctx) : List PressEntry :=
  ((c.pressQ.find? (fun x => x.1 = k ∧ x.2.1 = i)).map (fun x => x.2.2)).getD []

/-- Tile `t` with the contents of logical tile `k`'s image; the recorded domains start. Its rotations start again as at
reset (R393). -/
def restoreTile (n k t : Nat) (s : State) : State :=
  let at_ := saveArea s n k
  let bytes (off len : Nat) : List Byte := Mem.bytes s.mem (at_ + off) len
  let s := { s with mem := Mem.copy s.mem at_ 0x80000 (scrCell t 0) }
  let s := s.setPress t { s.press t with
    ctx := Vector.ofFn (fun i => { pressOfImage n (bytes (0x80000 + 0x14200 * i.val) 0x14200) with
      queue := ((s.ctx? n).map (pressLeft k i.val)).getD [] })
    run := [], last := 3 }
  let s := { s with
    rr := s.rr.filter (fun x => x.1.tile ≠ t), rrRep := s.rrRep.filter (fun x => x.1.tile ≠ t)
    rrX := s.rrX.filter (fun x => x.1.tile ≠ t) }
  let s := (List.range 4).foldl (fun s i =>
    let mask := Mem.num s.mem (at_ + 0xD8A00 + i) 1
    let a := arrayOfImage (s.array ⟨t, i⟩) (bytes (0xD0800 + 0x2080 * i) 0x2080)
    let a := a.mapDoms (fun d x => if mask.testBit d then
      { x with run := true, tick := s.cyc + (if x.next = 0 then x.period else x.next) } else x)
    if a = {} then s else s.setArray ⟨t, i⟩ a) s
  s.setHeap t (heapOfImage (bytes 0xD8A40 0x840))

/-- The tile whose scratchpad holds a cell. -/
def scrTile? (n : Nat) : Option Nat :=
  if 2 ^ 56 ≤ n ∧ n < 2 ^ 57 then some ((n - 2 ^ 56) / 2 ^ 19) else none

/-- Slots, ports, streams, what is lost, pending pushes and the words tasks are parked on follow a context's tiles to new ones
(R261, R277, R309). -/
def retile (n : Nat) (f : Nat → Nat) (s : State) : State :=
  let key (k : SlotKey) : SlotKey := ⟨f k.tile, k.core, k.slot⟩
  let core (k : CoreKey) : CoreKey := ⟨f k.tile, k.core⟩
  let port (p : Port) : Port := ⟨key p.key, p.q⟩
  let cell (n : Nat) : Nat :=
    match scrTile? n with
    | some t => scrCell (f t) (n % 2 ^ 19)
    | none => n
  let mine (k : CoreKey) : Bool := (tilesOf s n).contains k.tile
  { s with
    chans := s.chans.map (fun c => if c.ctx = n then
      { c with prod := c.prod.map port, cons := c.cons.map (fun x => (port x.1, x.2))
               home := c.home.map (fun h => { h with hdr := cell h.hdr, data := cell h.data, tags := cell h.tags }) } else c)
    streams := s.streams.map (fun st => if st.ctx = n then { st with core := core st.core, owner := key st.owner } else st)
    pushBinds := s.pushBinds.map (fun b => if b.ctx = n then
      { b with port := port b.port, cell := cell b.cell } else b)
    pushes := s.pushes.map (fun p => if s.chans.any (fun c => c.id = p.chan ∧ c.ctx = n) then
      { p with port := port p.port, ring := cell p.ring } else p)
    parks := s.parks.map (fun p => if p.ctx = n then
      { p with cell := cell p.cell
               die := match scrTile? p.cell with
                 | some t => dieOf (f t)
                 | none => p.die } else p)
    arrays := s.arrays.map (fun a => if mine a.1 then (core a.1, { a.2 with owner := a.2.owner.map key }) else a)
    lost := s.lost.map (fun x => match x with
      | .cell c => if (scrTile? c).any (tilesOf s n).contains then .cell (cell c) else x
      | .press t c p => if (tilesOf s n).contains t then .press (f t) c p else x
      | .array k => if mine k then .array (core k) else x
      | .heap t => if (tilesOf s n).contains t then .heap (f t) else x)
    queues := s.queues.map (fun q => if q.ctx = n then
      { q with started := q.started.map (fun p => { p with stages := p.stages.map key }) } else q)
    ctxs := s.ctxs.map (fun c => if c.num = n then
      { c with
        saved := c.saved.map (fun x => { x with key := key x.key }), tiles := c.tiles.map (fun p => (p.1, f p.2))
        pressQ := c.pressQ.map (fun x => (x.1, x.2.1, x.2.2.map (fun e => { e with key := key e.key }))) } else c) }

/-- The new physical tiles the bindery maps a context onto (R309): `new` in logical order, where they are free or its
own; else the same tiles. -/
def moveTiles (s : State) (c : Ctx) (new : List Nat) : State :=
  let old := c.tiles.map Prod.snd
  let ok := new.length = old.length ∧ noRepeat new ∧ new.all (fun t => decide (t < 1536) && !s.badTiles.contains t && !tilePending s t &&
    s.ctxs.all (fun d => d.num == c.num || d.tiles.all (fun p => p.2 != t)))
  if ok then
    let s := retile c.num (fun t => (assoc (old.zip new) t).getD t) s
    (old.filter (fun t => !new.contains t)).foldl zeroTile s
  else s

/-- A pdrain whose fault its thread's saved latch held is performed again at its place in the queue (R132, R351). -/
def replayDrain (s : State) : State :=
  match pressEntry s s.th.key with
  | some { op := .drain t .., gone := true, .. } =>
    conclude false 0x1EB 0 s ((heldDequeue s s.th.pc).bind fun q => match s.queueRead q with
      | .head c e => some (q, c, e)
      | _ => none) (actPdrain t s.advance)
  | _ => s

/-- A latch that waits on a ring slot whose entry is done takes its result (R351). -/
def takeFilled (s : State) : State :=
  match s.th.latch.bind Retry.ring, s.th.latch, (s.ctx? s.th.ctx).bind Ctx.retryRing with
  | some slot, some r, some va =>
    match translate s (devAgent s.th.ctx) va .load with
    | .error _ => s
    | .ok l =>
      let e := ringHandle (ringAt s l) (BitVec.ofNat 32 slot)
      if (dwordAt (entryBytes s s.th.ctx e 0x30 8) 0).getLsbD 1 then
        fillThread s r (dwordAt (entryBytes s s.th.ctx e 0x38 8) 0) (entryBytes s s.th.ctx e 0x40 64)
      else s
  | _, _, _ => s

/-- A withdrawn copy issued again, with the window and the transport of its trigger (R278, R337). -/
def reissueCopy (s : State) (x : Saved) (d : Nat → Word) : State :=
  let trig := fld (d 0) 18 8
  let kind := if trig = Trig.num .ycopyAdd then 1 else if trig = Trig.num .ymcast then 2 else 0
  let s := conclude false trig 0 s none (startCopy trig kind (BitVec.ofNat 4 x.yleft) ⟨d 1, d 2, d 3, d 4, d 5⟩ s)
  { s with copies := s.copies.map (fun c => if c.key = s.th.key then { c with pc := x.ypc } else c) }

/-- A withdrawn operation of kinds 3, 8, 9 and 10 is issued again with its captured values. The thread is in focus, `bs`
its withdrawn-operation record. -/
def reissue (s : State) (x : Saved) (bs : List Byte) : State :=
  let t := s.th
  let d (i : Nat) : Word := dwordAt bs (8 * i)
  let trig := fld (d 0) 18 8
  match fld (d 0) 7 0 with
  | 3 => conclude false trig 0 (s.map (fun t => { t with pc := t.pc - 4 })) none
      (actPark (d 1) (s.map (fun t => t.set .so (d 2)))) |>.map (fun u => u.set .so (t.get .so))
  | 8 => conclude false trig 0 (s.map (fun t => { t with pc := t.pc - 4 })) none (actPjoin (d 1) s)
  | 9 =>
    match pressOfWords bs with
    | some (.drain t dst pitch x) => (enqueuePress s (.drain t dst pitch x) true).asHeld
    | some op => enqueuePress s op true
    | none => s
  | 10 => reissueCopy s x d
  | _ => s

/-- A saved thread resumed on its slot (R363). -/
def resumeSaved (n : Nat) (s : State) (x : Saved) : State :=
  let wd := match readLines s (devAgent n) 8 (recWord s n x.record 8 + 0x940) 384 with
    | .ok bs => bs
    | .error _ => []
  let s := if x.stage then s else recSetStatus s n x.record 2
  let s := (resumeThread s x.key n x.record x.pipe x.look).map (fun t => { t with owed := x.owed ++ t.owed })
  if s.th.life = .stopped then s
  else
    let s := takeFilled (reissue s x wd)
    replayDrain (if x.copy.isEmpty then s else reissueCopy s x (fun i => x.copy.getD i 0))

/-- None of a context's tiles is retired. -/
def tilesSound (s : State) (c : Ctx) : Bool := c.tiles.all (fun p => !s.badTiles.contains p.2)

/-- A stream of a resumed context that a fault held, whose record has been answered with no effect or whose answer is still
to come, makes its fetch again; a fetch that faults again sends a new record (R340, R363). One on a retry-ring slot waits
on. -/
def restartStreams (n : Nat) (s : State) : State :=
  { s with streams := s.streams.map (fun st =>
      if st.ctx = n then
        { st with fetches := st.fetches.map (fun f =>
            if f.fault.isSome ∧ !f.ring then { f with fault := none, due := s.cyc + 1, retr := 0 } else f) }
      else st) }

/-- A pre-empted context resumed (R363): tiles, images, domains, then its threads, run queues and software queues. One
with a retired tile stays pre-empted (R369), and one resumed while a checkpoint is under way is pre-empted again (R372). The power
policy has nothing to resume there any more (R365). -/
def resumeCtx (s : State) (c : Ctx) (new : List Nat) : State :=
  let me := s.th.key
  let s := moveTiles s c new
  match s.ctx? c.num with
  | none => s
  | some c =>
    if !tilesSound s c then s
    else
    let s := c.tiles.foldl (fun s p => restoreTile c.num p.1 p.2 s) s
    let s := s.mapCtx c.num (fun c => { c with preq := false, quiet := false, saved := [], pressQ := [] })
    let s := { s with power := { s.power with order := s.power.order.filter (fun m => m ≠ c.num) } }
    let s := s.mapAll (fun t => if t.ctx = c.num then { t with preq := false } else t)
    let s := { s with runq := s.runq.map (fun q => if q.ctx = c.num then { q with since := s.cyc } else q) }
    let s := c.saved.foldl (resumeSaved c.num) (restartStreams c.num s)
    let s := if s.ckpt.isSome then beginPreempt s c.num 0 else s
    (s.focus me).getD s

/-! ### Retired tiles (R309, R369) -/

/-- The logical tile on physical tile `t` of a quiet context is mapped onto a free tile; none where there is none. Which
tile is the bindery's choice, a free value. -/
def replaceTile (s : State) (n t : Nat) : Option State := do
  let c ← s.ctx? n
  let free := freeTiles s 255
  let (x, s) := s.draw
  let new ← free[x % max 1 free.length]?
  pure (moveTiles s c (c.tiles.map (fun p => if p.2 = t then new else p.2)))

/-- The context of a retired tile is quiet: the tile is replaced, or the context stays pre-empted; the host is told. -/
def finishRetire (s : State) (r : Retiring) : State :=
  let s := { s with retiring := s.retiring.filter (fun x => x ≠ r) }
  let e (stays : Word) : HostEvent := { ctx := r.ctx, kind := 5, d1 := BitVec.ofNat 64 r.tile, d2 := stays }
  match replaceTile s r.ctx r.tile with
  | none => report s (e 1)
  | some s =>
    let s := report s (e 0)
    match s.ctx? r.ctx with
    | some c => if r.resume then resumeCtx s c [] else s
    | none => s

/-- Every retirement that waits for a context, in order; the first that pre-empted it resumes it last. -/
def finishRetires (s : State) (n : Nat) : State :=
  let mine := s.retiring.filter (fun r => r.ctx = n)
  (mine.filter (fun r => !r.resume) ++ mine.filter Retiring.resume).foldl finishRetire s

/-- A whole tile is retired: a granted one's context is pre-empted, and moved once it is quiet. -/
def retireTile (s : State) (t : Nat) : State :=
  if s.badTiles.contains t then s
  else
    let s := { s with badTiles := t :: s.badTiles }
    match s.ctxs.find? (fun c => c.tiles.any (fun p => p.2 = t)) with
    | none => report s { kind := 5, d1 := BitVec.ofNat 64 t }
    | some c =>
      let s := { s with retiring := s.retiring ++ [⟨t, c.num, !c.preq⟩] }
      if c.quiet then finishRetires s c.num else if c.preq then s else beginPreempt s c.num c.deadline

/-- What the press queues of a context's tiles hold: withdrawn operations, and the clears behind them (R132). -/
def pressQueues (s : State) (c : Ctx) : List (Nat × Nat × List PressEntry) :=
  (c.tiles.flatMap fun p => (List.range 4).map fun i => (p.1, i, ((s.press p.2).at_ i).queue)).filter (fun x => !x.2.2.isEmpty)

/-- CONTEXT_QUIESCE (R361): of context `n`; a PREEMPT_CONTEXT that waits for it completes, and its retired tiles are
replaced. -/
def execContextQuiesce (s : State) : Out := orNone do
  let c ← s.ctx? s.ev.n
  if !c.preq ∨ c.quiet ∨ !readyToQuiesce s c then none
  else
    let s := c.tiles.foldl (fun s p => saveTile c.num p.1 p.2 s) s
    let left := pressQueues s c
    pure (finishRetires (completeRequest (s.mapCtx c.num (fun c => { c with quiet := true, pressQ := left }))) c.num)

/-- RESUME_CONTEXT (R363). `bytes` of the event may name new physical tiles, two bytes each in logical order: the
bindery's choice of R309. -/
def resumeRequest (r : Request) (s : State) : Answer :=
  match s.ctx? r.ctx.toNat with
  | none => .no 2
  | some c =>
    if !c.quiet then .no 4
    else
      let new := (List.range (s.ev.bytes.length / 2)).map (fun i => numAt s.ev.bytes (2 * i) 2)
      let s := moveTiles s c new
      let s := (c.tiles.map Prod.snd).foldl (fun s t => if s.badTiles.contains t then (replaceTile s c.num t).getD s else s) s
      match s.ctx? c.num with
      | none => .no 2
      | some c => if tilesSound s c then .yes (resumeCtx s c []) [] else .no 3

/-! ### The power policy (R365) -/

/-- The resident context that power pre-empts next: of those not pre-empted, the lowest rank. -/
def powerVictim (s : State) : Option Ctx :=
  let live := s.ctxs.filter (fun c => !c.preq)
  live.find? (fun c => live.all (fun d => decide (c.rank ≤ d.rank)))

/-- POWER_POLICY_CHECK (R365): the average over 10 ms is `n` watts, an input. Above 2,400 W contexts are pre-empted one
by one, until it falls below 2,300 W; after 100 ms below 2,200 W they are resumed in the reverse order. -/
def execPowerPolicyCheck (s : State) : Out :=
  let w := s.ev.n
  let p := s.power
  let active := decide (2400 < w) || (p.active && decide (2300 ≤ w))
  let low := if w < 2200 then some (p.low.getD s.cyc) else none
  let s := { s with power := { p with active, low } }
  .next (
    if active then
      match powerVictim s with
      | some c => { beginPreempt s c.num c.deadline with power := { s.power with order := c.num :: p.order } }
      | none => s
    else if (low.map (fun t => decide (t + 140000000 ≤ s.cyc))).getD false then
      match p.order with
      | [] => s
      | n :: rest =>
        match s.ctx? n with
        | some c => if c.quiet then resumeCtx { s with power := { s.power with order := rest } } c [] else s
        | none => { s with power := { s.power with order := rest } }
    else s)

/-! ### The instructions -/

/-- PREEMPT_CONTEXT (R358). -/
def execPreemptContext (s : State) : Out := serve 0x1C true (fun r => r.rest0 0) preemptRequest s
/-- RESUME_CONTEXT (R363). -/
def execResumeContext (s : State) : Out := serve 0x1D true (fun r => r.rest0 0) resumeRequest s

end Sys2Proof.Machine
end

