-- ==== Sys2Proof/Machine/Checkpoint.lean ====
section
/-! DEFINITION. CHECKPOINT and LOAD_CHECKPOINT (R372 to R374), and the completion of packets. -/

namespace Sys2Proof.Machine

/-- The length of an image. -/
def imageLen : Nat := 0x9001001000

/-- The bindery state an image holds: no AES key and no image key (R373). -/
def storedOf (s : State) : Stored :=
  { ctxs := s.ctxs.map (fun c => { c with imageKey := [] }), imports := s.imports, exports := s.exports
    queues := s.queues, groups := s.groups, replicas := s.replicas, runq := s.runq, suspended := s.suspended
    migrations := s.migrations, seqRnds := s.seqRnds, edges := s.edges, lost := s.lost
    parks := s.parks, chans := s.chans, balancers := s.balancers, merges := s.merges, streams := s.streams
    pushBinds := s.pushBinds, pushes := s.pushes, groupOwner := s.groupOwner, expertOwner := s.expertOwner
    sets := s.sets, owners := s.arrays.filterMap (fun a => a.2.owner.map (fun k => (a.1, k)))
    tables := s.tables, hbmTop := s.hbmTop
    cells := s.mem.filter (fun c => decide (binderyCell 0 ≤ c.1 ∧ c.1 < buddyCell 0 0)) }

/-- Every queue has stopped starting packets, and no started COPY is left. -/
def copiesOver (s : State) : Bool := s.queues.all (fun q => q.started.all (fun p => p.op != 5))

/-- The cell where the image a packet names begins; none where the body breaks R372. -/
def ckptCell (s : State) (b : List Byte) : Option Nat :=
  let a := numAt b 16 8
  if numAt b 8 8 = 0 then
    if a % 4096 = 0 ∧ s.safeTier.any (fun r => r.1 = a ∧ imageLen ≤ r.2) then some (hostCell a) else none
  else if numAt b 8 8 = 1 ∧ a < 2 ^ 13 then some (buddyCell a 0) else none

/-- CHECKPOINT begins (R372): on a marked queue, once started COPY packets have completed, every context is pre-empted at
once. -/
def execCheckpoint (s : State) : Out :=
  packet 7 (fun b => zeros b 24 40) (fun q b s =>
    if !q.ckpt then some (failQueue s q q.rd (packetTag b) 1)
    else if s.ckpt.isSome ∨ !copiesOver s then none
    else
      match ckptCell s b with
      | none => some (failQueue s q q.rd (packetTag b) 1)
      | some cell =>
        let s := launchPacket s q b id
        let s := s.ctxs.foldl (fun s c => if c.quiet then s else beginPreempt s c.num 0) s
        some { s with ckpt := some ⟨q.num, q.rd, cell⟩ }) s

/-- The image written at a cell: header, HBM as stored, and last the status (R373). -/
def writeImage (s : State) (at_ : Nat) : State :=
  let head : List Byte :=
    leBytes 4 0x504B434B ++ leBytes 2 1 ++ leBytes 2 0 ++ leBytes 16 Config.serial.toNat ++ leBytes 8 s.cyc
      ++ leBytes 8 imageLen ++ leBytes 8 0
  let body := at_ + 0x1001000
  let s1 := { s with mem := Mem.copy (Mem.clear s.mem at_ (at_ + imageLen)) 0 hbmEnd body }
  let s1 := s.lineKeys.foldl (fun s1 p => putPart s1 (body + p.1 * 64) (s.sealedLine p.1)) s1
  let s1 := putPart s1 at_ head
  let s1 := putPart s1 (at_ + 0x28) (leBytes 8 1)
  { s1 with checkpoints := (at_, storedOf s) :: s.checkpoints.filter (fun x => x.1 ≠ at_) }

/-- Every context resumed on the same tiles. -/
def resumeAll (s : State) : State := s.ctxs.foldl (fun s c => if c.quiet then resumeCtx s c [] else s) s

/-- A CHECKPOINT completes: once every context is quiesced the image is written and the contexts resumed, or the write
fails (R372, R374). -/
def finishCheckpoint (s : State) (q : SwQueue) (p : Started) : Option State := do
  let run ← s.ckpt
  if !s.ctxs.all Ctx.quiet then none
  else
    let s := { s.mapQueue q.num (fun x => { x with started := x.started.filter (fun y => y.idx ≠ p.idx) }) with ckpt := none }
    if s.denied run.cell 1 imageLen ≠ 0 then
      pure (failQueue (resumeAll s) q p.idx p.tag 6)
    else pure (completePacket (resumeAll (writeImage s run.cell)) q.num p.cinc)

/-- PACKET_COMPLETE (R236, R372): packet `m` of queue `n`. -/
def execPacketComplete (s : State) : Out := orNone do
  let q ← s.queue? s.ev.n
  let p ← q.started.find? (fun p => p.idx = s.ev.m)
  if p.op = 7 then finishCheckpoint s q p else finishPacket s q p

/-- An image read back (R373): HBM as it was stored, keyed lines as ciphertext, and the bindery's state. -/
def readImage (s : State) (at_ : Nat) (x : Stored) : State :=
  let body := at_ + 0x1001000
  let m := Mem.copy s.mem body hbmEnd 0
  let m := m.filter (fun c => decide (c.1 < binderyCell 0)) ++ x.cells ++ m.filter (fun c => decide (buddyCell 0 0 ≤ c.1))
  { s with
    mem := m
    ctxs := x.ctxs, imports := x.imports, exports := x.exports, queues := x.queues, groups := x.groups
    replicas := x.replicas, runq := x.runq, suspended := x.suspended, parks := x.parks, chans := x.chans
    migrations := x.migrations, seqRnds := x.seqRnds, edges := x.edges, lost := x.lost
    balancers := x.balancers, merges := x.merges, streams := x.streams, pushBinds := x.pushBinds, pushes := x.pushes
    groupOwner := x.groupOwner, expertOwner := x.expertOwner, sets := x.sets, lineKeys := [], hist := []
    arrays := x.owners.map (fun p => (p.1, { owner := some p.2 }))
    tables := x.tables, hbmTop := x.hbmTop }

/-- LOAD_CHECKPOINT (R373): into a device that holds no context. Its contexts are then pre-empted, as they were saved. -/
def loadRequest (r : Request) (s : State) : Answer :=
  let at_ := if r.d 1 = 0 then hostCell (r.d 2).toNat else buddyCell (r.d 2).toNat 0
  if !s.ctxs.isEmpty then .no 4
  else if s.denied at_ 0 ≠ 0 then .no 5
  else
    let m := s.mem
    if Mem.num m at_ 4 ≠ 0x504B434B ∨ Mem.num m (at_ + 4) 2 ≠ 1 ∨ Mem.num m (at_ + 0x20) 8 ≠ imageLen
        ∨ Mem.num m (at_ + 0x28) 8 ≠ 1 then .no 6
    else
      match assoc s.checkpoints at_ with
      | none => .no 6
      | some x => .yes (readImage s at_ x) []

/-- LOAD_CHECKPOINT (R373). -/
def execLoadCheckpoint (s : State) : Out :=
  serve 0x1E false (fun r => bit (r.d 1) && (if r.d 1 = 0 then aligned (r.d 2) 64 else below (r.d 2) 13) && r.rest0 2)
    loadRequest s

end Sys2Proof.Machine
end

