-- ==== Sys2Proof/Machine/Attach.lean ====
section
/-! DEFINITION. The links and the host beside the bindery: requests of peers against export entries (R318 to R320), link
retrains and packets (R247, R371), host memory accesses and registers (R325, R328, R333, R334), reset and boot (R335), and
attestation (R336). -/

namespace Sys2Proof.Machine

/-! ### Requests of peers (R320) -/

/-- Steps 1 to 3 of the target's check: the entry is valid, and device and cookie match. -/
def exportEntry (s : State) (q : RemoteReq) : Option Win256 := do
  let w ← assoc s.exports q.exp
  if fld w.d0 63 63 = 1 ∧ (fld w.d0 62 62 = 1 ∨ fld w.d0 55 43 = q.dev) ∧ fld w.d0 31 0 = q.cookie.toNat then some w
  else none

/-- What an operation needs: the right of the entry (step 5), and the rights of the leaf (step 6). -/
def remoteRight (w : Win256) (op : Nat) : Bool :=
  fld w.d0 61 61 == 1 && op == 0 || fld w.d0 60 60 == 1 && op == 1 || fld w.d0 59 59 == 1 && op ≥ 2
def remoteNeed (op : Nat) : Need := if op = 0 then .load else if op = 1 then .store else .amo

/-- The target's check of a load, store or atomic: the place, or the kind of the refusal. -/
def checkRemote (s : State) (q : RemoteReq) : Except Nat Loc :=
  match exportEntry s q with
  | none => .error kPermission
  | some w =>
    if fld w.d2 29 0 * 4096 ≤ q.off ∨ !remoteRight w q.op then .error kPermission
    else
      let va : Word := BitVec.ofNat 64 (fld w.d1 47 12 * 4096 + q.off)
      match translate s ⟨fld w.d1 63 48, false, none, false⟩ va (remoteNeed q.op) with
      | .error k => .error k
      | .ok l =>
        match l.space with
        | .hbm => .ok l
        | _ => .error kPermission

/-- An offer of a peer: steps 1 to 3 and the amo right, then the heap of the exporting context (R287). It is answered at
once, or, where its record's ring has still to advance over its slot, once it has (R285, R302): no answer yet. -/
def remoteOffer (s : State) (q : RemoteReq) (packet : Option (Nat × Nat × Nat × Nat)) : State × Option RemoteReply :=
  match exportEntry s q with
  | none => (s, some { kind := kOffer })
  | some w =>
    if fld w.d0 59 59 = 0 then (s, some { kind := kOffer })
    else
      let (s, k, ring) := offerAtHeap s (fld w.d1 63 48) q.off (q.data2.setWidth 16) (q.data, q.data2.getLsbD 16)
      match ring with
      | some (aes, cell, slot) =>
        if ringPassed s aes cell slot then (s, some { kind := k })
        else ({ s with peerOffers := s.peerOffers ++ [{ aes, cell, slot, packet }] }, none)
      | none => (s, some { kind := k })

/-- An atomic of a peer at its home (R173). -/
def remoteAmo (s : State) (q : RemoteReq) (l : Loc) : State × RemoteReply :=
  let n := amoBytes q.amo
  let m := leNat (s.readAs l.aes l.cell n)
  let top (w : Word) : Nat := w.toNat % 2 ^ (8 * n)
  let (w?, _) := amoResult q.amo n m (top q.data) (top q.data2)
  let s := match w? with
    | some w => s.writeAs l.aes l.cell (leBytes n w)
    | none => s
  (s, { kind := 0, bytes := leBytes n m })

/-- A request of a peer, `data` the bytes of a store: performed, or refused with nothing performed (R320). -/
def serveRemote (s : State) (q : RemoteReq) (data : List Byte) (packet : Option (Nat × Nat × Nat × Nat) := none) :
    State × Option RemoteReply :=
  if q.op = 3 then remoteOffer s q packet
  else
    match checkRemote s q with
    | .error k => (s, some { kind := k })
    | .ok l =>
      let n := if q.op = 0 then q.bytes else if q.op = 1 then data.length else amoBytes q.amo
      if s.denied l.cell q.op n ≠ 0 then (s, some { kind := s.denied l.cell q.op n })
      else if q.op = 0 then (s, some { kind := 0, bytes := s.readAs l.aes l.cell q.bytes })
      else if q.op = 1 then (s.writeAs l.aes l.cell data, some { kind := 0 })
      else if q.op = 2 ∧ q.amo ≠ .amoCasQ then let x := remoteAmo s q l; (x.1, some x.2)
      else (s, some { kind := kPermission })

/-- REMOTE_REQUEST_ARRIVAL (R320). -/
def execRemoteRequestArrival (s : State) : Out :=
  let (s, r) := serveRemote s s.ev.remote s.ev.bytes
  .next { s with reply := r.orElse (fun _ => s.reply) }

/-- The first accepted offer of a peer whose ring has advanced over its record's slot is acknowledged (R285, R302). -/
def peerReplyDue (s : State) : Option State :=
  (s.peerOffers.find? (fun o => ringPassed s o.aes o.cell o.slot)).map fun o =>
    let r : RemoteReply := { kind := 0 }
    { s with
      peerOffers := s.peerOffers.erase o, reply := some r
      kept := match o.packet with
        | some x => (x, r) :: s.kept
        | none => s.kept }

/-! ### Links (R247, R371) -/

/-- FLIT_CRC_ERROR (R247): the flit is replayed from the sender's buffer, and the packet is delivered whole. -/
def execFlitCrcError (s : State) : Out := .next s

def State.link (s : State) (n : Nat) : Link := (s.links.find? (fun l => l.port = n)).getD { port := n }
def State.setLink (s : State) (l : Link) : State :=
  { s with links := l :: s.links.filter (fun x => x.port ≠ l.port) }

/-- Posted stores of the slots before slot `k`: the first place of its own stores in the mask of a retrain. -/
def postedBefore (s : State) (k : SlotKey) : Nat :=
  ((s.threads.takeWhile (fun t => t.key != k)).map (fun t => t.posted.length)).sum

/-- A posted store's packet meets a retrain that ends at `d`; at its third it is reported with kind 5. -/
def Posted.retrained (p : Posted) (now d : Nat) : Posted :=
  if 2 ≤ p.retr then { p with retr := p.retr + 1, refuse := kLink, due := now } else { p with retr := p.retr + 1, due := max p.due d }

/-- An atomic's packet meets a retrain; after its third, ATOMIC_AT_HOME reports it. -/
def Amo.retrained (a : Amo) (now d : Nat) : Amo :=
  if 2 ≤ a.retr then { a with retr := a.retr + 1, due := now } else { a with retr := a.retr + 1, due := max a.due d }

/-- An offer's packet meets a retrain; at its third the offer is reported with kind 5. -/
def Offer.retrained (o : Offer) (now d : Nat) : Offer :=
  if 2 ≤ o.retr then { o with retr := o.retr + 1, decided := some kLink, due := now }
  else { o with retr := o.retr + 1, due := max o.due d }

/-- A load's or store's packet meets a retrain; after its third, its thread is held with a link fault (R192). -/
def Access.retrained (a : Access) (now d : Nat) : Access :=
  if 2 ≤ a.retr then { a with retr := a.retr + 1, due := now } else { a with retr := a.retr + 1, due := max a.due d, done := max a.done d }

/-- The read of a wait on a word meets a retrain. -/
def Thread.retrained (t : Thread) : Thread := { t with retr := t.retr + 1 }

/-- A reference fetch's packet meets a retrain; a prefetch that meets its third is dropped, a demand fetch faults (R267). -/
def Fetch.retrained (f : Fetch) (now d : Nat) : Fetch :=
  if 2 ≤ f.retr then { f with retr := f.retr + 1, due := now } else { f with retr := f.retr + 1, due := max f.due d }

/-- A copy's piece meets a retrain; after its third, the piece fails (R271). -/
def Copy.retrained (c : Copy) (now d : Nat) : Copy :=
  if 2 ≤ c.retr then { c with retr := c.retr + 1, due := now } else { c with retr := c.retr + 1, due := max c.due d }

/-- The elements of a list that a mask names and a test admits, changed. -/
def mapMask {α : Type} (mask first : Nat) (ok : α → Bool) (f : α → α) (l : List α) : List α :=
  (l.zipIdx first).map (fun x => if mask.testBit x.2 ∧ ok x.1 then f x.1 else x.1)

/-- An element of a list that a mask names, that a test admits, and whose packet has met two retrains. -/
def thirdTime {α : Type} (mask first : Nat) (ok : α → Bool) (retr : α → Nat) (l : List α) : Bool :=
  (l.zipIdx first).any (fun x => mask.testBit x.2 && ok x.1 && decide (2 ≤ retr x.1))

/-- A posted store has left the write-combining buffer; an offer has not been decided. -/
def Posted.sent (p : Posted) : Bool := !p.wcb && p.refuse == 0
def Offer.sent (o : Offer) : Bool := o.decided.isNone
/-- A remote load or store has not begun to be performed; a wait reads a peer word; a fetch has not returned; a copy has a
piece to perform. -/
def Access.sent (a : Access) : Bool := a.viewed && a.off == 0 && decide (a.retr < 3)
def waitsRemote (s : State) (t : Thread) : Bool :=
  match t.hold with
  | .waddr a _ _ _ _ _ _ =>
    (match translate s ⟨t.ctx, t.mode = .monitor, some t.key.tile, false⟩ a .load with
    | .ok l => l.viewed
    | .error _ => false) && decide (t.retr < 3)
  | _ => false
def Fetch.sent (f : Fetch) : Bool := f.va.isSome && f.elems.isNone && f.fault.isNone && decide (f.retr < 3)
def Copy.sent (c : Copy) : Bool := (c.ring == 0 || c.slot.isSome) && decide (c.off < c.total) && decide (c.retr < 3)

/-- A port of the device: the host link, the eighteen scale-up ports, and the links between its dies (R1, R2, R332). -/
def isPort (n : Nat) : Bool := decide (n ≤ 18 ∨ 32 ≤ n)

/-- Loads and stores of the slots before slot `k`, and the fetches of the streams before stream `n`: where their own begin
in the mask of a retrain. -/
def loadsBefore (s : State) (k : SlotKey) : Nat :=
  ((s.threads.takeWhile (fun t => t.key != k)).map (fun t => t.mem.length)).sum
def fetchesBefore (s : State) (n : Nat) : Nat := ((s.streams.take n).map (fun st => st.fetches.length)).sum
/-- The place of slot `k` among the bound slots. -/
def slotPlace (s : State) (k : SlotKey) : Nat := (s.threads.takeWhile (fun t => t.key != k)).length

/-- A packet that the masks of a retrain name meets its third: reads and writes of threads, fetches and copies. -/
def thirdRead (s : State) : Bool :=
  let e := s.ev
  s.threads.any (fun t => thirdTime e.loads (loadsBefore s t.key) Access.sent Access.retr t.mem
      || (e.waits.testBit (slotPlace s t.key) && waitsRemote s t && decide (2 ≤ t.retr)))
    || (s.streams.zipIdx).any (fun x => thirdTime e.fetches (fetchesBefore s x.2) Fetch.sent Fetch.retr x.1.fetches)
    || thirdTime e.pieces 0 Copy.sent Copy.retr s.copies

/-- The packets of reads and writes of threads, of fetches and of copies that the masks name meet a retrain that ends at
`d`. -/
def retrainReads (s : State) (d : Nat) : State :=
  let e := s.ev
  let one (t : Thread) : Thread :=
    let t' := if e.waits.testBit (slotPlace s t.key) ∧ waitsRemote s t then t.retrained else t
    { t' with mem := mapMask e.loads (loadsBefore s t.key) Access.sent (fun a => a.retrained s.cyc d) t.mem }
  { s.mapAll one with
    streams := (s.streams.zipIdx).map (fun x =>
      { x.1 with fetches := mapMask e.fetches (fetchesBefore s x.2) Fetch.sent (fun f => f.retrained s.cyc d) x.1.fetches })
    copies := mapMask e.pieces 0 Copy.sent (fun c => c.retrained s.cyc d) s.copies }

/-- LINK_RETRAIN (R247, R371): of port `n`; which packets it carries is an input (log entry 3). -/
def execLinkRetrain (s : State) : Out :=
  let e := s.ev
  let link := s.link e.n
  if !isPort e.n ∨ link.out ∨ link.retrain.isSome then .fault .noSubject
  else
    let (x, s1) := s.draw
    let d := s.cyc + 1 + x % 11200
    let third := s.threads.any (fun t => thirdTime e.p (postedBefore s t.key) Posted.sent Posted.retr t.posted)
      || thirdTime e.m 0 (fun _ => true) Amo.retr s.homeQ || thirdTime e.w.toNat 0 Offer.sent Offer.retr s.offers || thirdRead s
    let s1 := retrainReads s1 d
    let s1 := { s1.mapAll (fun t => { t with
        posted := mapMask e.p (postedBefore s t.key) Posted.sent (fun p => p.retrained s.cyc d) t.posted }) with
      homeQ := mapMask e.m 0 (fun _ => true) (fun a => a.retrained s.cyc d) s.homeQ
      offers := mapMask e.w.toNat 0 Offer.sent (fun o => o.retrained s.cyc d) s.offers }
    .next (
      if third then report (s1.setLink { link with out := true }) { kind := 6, d1 := BitVec.ofNat 64 e.n }
      else s1.setLink { link with retrain := some d })

/-- RETRAIN_COMPLETE (R371): port `n` is in service again. -/
def execRetrainComplete (s : State) : Out :=
  match (s.link s.ev.n).retrain with
  | some d => if d ≤ s.cyc then .next (s.setLink { s.link s.ev.n with retrain := none }) else .fault .noSubject
  | none => .fault .noSubject


/-- A bulk write of a peer's checkpoint image, at an offset of the region reserved for that device: taken as it comes into
HBM, or refused where it lies outside (R372, R374). -/
def buddyWrite (s : State) (dev off : Nat) (bs : List Byte) : State × RemoteReply :=
  match s.buddies.find? (fun b => b.1 = dev ∧ off + bs.length ≤ b.2.2) with
  | some b => (writeRun s 0 (bs.length / 64 + 2) (b.2.1 + off) bs, { kind := 0 })
  | none => (s, { kind := kPermission })

/-- A packet delivered: what it carries takes effect, and an urgent request's response is kept. -/
def deliverPacket (s : State) (x : Nat × Nat × Nat × Nat) (urgent : Bool) : State :=
  let e := s.ev
  let s := { s with delivered := x :: s.delivered }
  if e.n = 1 then
    let (s, r) := serveRemote s e.remote e.bytes (if urgent then some x else none)
    match r with
    | some r => { s with reply := some r, kept := if urgent then (x, r) :: s.kept else s.kept }
    | none => s
  else if e.n = 2 then
    { s with contribs := s.contribs ++ [⟨e.w.toNat, e.m, e.p, e.sum, e.bytes⟩] }
  else if e.n = 4 then
    let (s, r) := buddyWrite s e.m e.w.toNat e.bytes
    { s with reply := some r }
  else if e.n = 3 then
    { s with kept := s.kept.filter (fun k => k.1 ≠ (x.1, x.2.1, x.2.2.1, e.m)) }
  else s

/-- LINK_PACKET_RECEIVED (R371): delivered once; a duplicate is dropped, and an urgent request answered with the kept
response. -/
def execLinkPacketReceived (s : State) : Out :=
  let p := s.ev.packet
  let x := (p.src, p.cls, p.lane, p.seq)
  .next (
    if s.delivered.contains x then
      match s.kept.find? (fun k => k.1 = x) with
      | some k => if p.urgentRequest then { s with reply := some k.2 } else s
      | none => s
    else deliverPacket s x p.urgentRequest)

/-! ### The host's registers and memory accesses (R325, R328, R333, R334) -/

/-- EVENT_TAIL_WRITE (R333): held events are written as room appears. -/
def execEventTailWrite (s : State) : Out :=
  .next (
    if s.ev.n ≠ 8 ∨ !s.mail.opened then s
    else flushEvents 4096 { s with events := { s.events with tail := s.ev.w.setWidth 32 } })

/-- A dword of the mailbox as the host reads it (R328). -/
def mailDword (s : State) (off : Nat) : Word :=
  if off < 0x40 then s.mail.req.toList.getD (off / 8) 0
  else if off < 0x80 then s.mail.resp.toList.getD (off / 8 - 8) 0
  else if off = 0x80 then BitVec.ofNat 64 (s.mail.go.toNat + 2 * s.mail.busy.toNat)
  else if off = 0x88 then s.events.head.setWidth 64
  else if off = 0x90 then s.events.tail.setWidth 64
  else if off = 0x98 then BitVec.ofNat 64 s.events.lost
  else 0

/-- What a host read of `n` bytes of BAR0 returns (R325, R328). The identity and status page, and the bytes that no row of
R325 names, are free values. -/
def barRead (s : State) (off n : Nat) : List Byte :=
  if 0x3000 ≤ off then List.replicate n 0
  else if 0x2000 ≤ off then
    if n = 8 ∧ off % 8 = 0 then leBytes 8 (mailDword s (off - 0x2000)).toNat else List.replicate n 0
  else (List.range n).map (fun i => Config.barByte s.draws (off + i))

/-- A host write of `n` bytes, `w`, to BAR0 beside the doorbell and the event tail (R325, R328): a dword of the request, or
go. Any other is discarded or ignored. -/
def barWrite (s : State) (off n : Nat) (w : Word) : State :=
  if !s.mail.opened ∨ s.mail.busy ∨ n ≠ 8 ∨ off % 8 ≠ 0 ∨ off < 0x2000 then s
  else if off < 0x2040 then
    { s with mail := { s.mail with req := Vector.ofFn (fun i => if i.val = (off - 0x2000) / 8 then w else s.mail.req[i]) } }
  else if off = 0x2080 ∧ w.getLsbD 0 then { s with mail := { s.mail with go := true, busy := true } }
  else s

/-- BAR_REGISTER_WRITE (R325, R328): a host write of `m` bytes, `w`, at offset `n` of BAR0, or a host read there, for which
the table has no row (log entry 48). -/
def execBarRegisterWrite (s : State) : Out :=
  .next (if s.ev.wr then barWrite s s.ev.n s.ev.m s.ev.w
    else { s with hostRead := some (barRead s s.ev.n s.ev.m), draws := s.draws + 1 })

/-- A run of HBM lies in a host-visible range. -/
def hostVisible (s : State) (a n : Nat) : Bool := s.visible.any (fun r => decide (r.1 ≤ a ∧ a + n ≤ r.1 + r.2))

/-- HOST_MEMORY_ACCESS (R334): a read outside the host-visible ranges ends with poison, a write there is dropped. -/
def execHostMemoryAccess (s : State) : Out :=
  let e := s.ev
  let n := if e.wr then e.bytes.length else e.m
  .next (
    if !hostVisible s e.n n then (if e.wr then s else { s with hostRead := none })
    else if e.wr then writeRun s 0 (n / 64 + 2) e.n e.bytes
    else { s with hostRead := some (readRun s 0 (n / 64 + 2) e.n n) })

/-! ### Reset and boot (R335) -/

/-- A component measured into a register. -/
def extendMeas (m : BitVec 384) (component : List Byte) : BitVec 384 :=
  sha384 (digestBytes m ++ digestBytes (sha384 component))

/-- The registers after boot: ROM, patch, fuses, link and domain configuration; four zero. -/
def bootMeas : Vector (BitVec 384) 8 :=
  #v[extendMeas 0 Config.rom, extendMeas 0 Config.patch, extendMeas 0 Config.fuses, extendMeas 0 Config.linkConfig, 0, 0, 0, 0]

/-- The patch verifies under the key whose digest is fused, and its version is no older than the fused counter. -/
def patchAccepted : Bool :=
  sha384 Config.firmwareKey == Config.firmwareDigest
    && ecdsaVerify Config.firmwareKey (sha384 Config.patch) Config.patchSignature
    && decide (Config.rollback.toNat ≤ Config.patchVersion.toNat)

/-- A cell of host memory, of a peer, or of a region that a buddy keeps: it does not belong to the device. -/
def foreign (a : Nat) : Bool := decide (hostCell 0 ≤ a ∧ a < binderyCell 0 ∨ buddyCell 0 0 ≤ a)

/-- MODULE_RESET (R335): the reset state, booted. What belongs to other parties stays. -/
def execModuleReset (s : State) : Out :=
  .next { State.reset with
    mem := s.mem.filter (fun c => foreign c.1)
    draws := s.draws, agenda := s.agenda, deny := s.deny, checkpoints := s.checkpoints
    badBanks := s.badBanks, badLanes := s.badLanes, badTiles := s.badTiles
    booted := true, patched := patchAccepted, meas := bootMeas
    mail := { opened := true } }

/-! ### Attestation (R336) -/

/-- The report up to its signature. -/
def reportBody (s : State) (nonce : List Byte) : List Byte :=
  leBytes 4 0x5441434B ++ leBytes 2 1 ++ leBytes 2 0 ++ leBytes 16 Config.serial.toNat
    ++ leBytes 2 Config.deviceNumber.toNat ++ leBytes 6 0 ++ padTo 32 nonce
    ++ s.meas.toList.flatMap digestBytes ++ leBytes 4 (if s.patched then Config.patchVersion.toNat else 0)
    ++ List.replicate 60 0

/-- The signed report. -/
def attestReport (s : State) (nonce : List Byte) : List Byte :=
  let body := reportBody s nonce
  body ++ padTo 96 (Config.identitySign (sha384 body))

/-- A response: its code, and what follows the first four bytes. The framing is SPDM's own (PRESUMED, log entry 24). -/
def spdmResponse (version code : Nat) (rest : List Byte) : List Byte :=
  leBytes 1 version ++ leBytes 1 code ++ leBytes 2 0 ++ rest

/-- A vendor-defined response with its payload. -/
def vendorResponse (payload : List Byte) : List Byte :=
  spdmResponse 0x12 0x7E (Config.spdmVendor ++ leBytes 2 payload.length ++ payload)

/-- GET_VERSION (R336): SPDM 1.2. -/
def execGetVersion (s : State) : Out := .next { s with spdm := spdmResponse 0x10 0x04 [0, 1, 0, 0x12] }

/-- GET_CAPABILITIES (R336). -/
def execGetCapabilities (s : State) : Out := .next { s with spdm := spdmResponse 0x12 0x61 Config.spdmCapabilities }

/-- VENDOR_DEFINED_REQUEST (R336): the report over the requester's nonce, or the identity certificate. -/
def execVendorDefinedRequest (s : State) : Out :=
  .next { s with spdm := vendorResponse (if s.ev.bytes.isEmpty then Config.certificate else attestReport s s.ev.bytes) }

end Sys2Proof.Machine
end

