-- ==== Sys2Proof/Machine/Moves.lean ====
section
/-! DEFINITION. Transports to destinations that trigger nothing, long immediates, and class 01 transports into scalar
ports (R32, R33, R35, R44, R49, R53). -/

namespace Sys2Proof.Machine

/-- What the trigger of a number does, for the words that name any trigger as their destination: class 10 (R44) and
class 01 with a scalar destination (R33). -/
def trigAct (t : Trig) (l : BitVec 4) : Word → State → Act :=
  match t with
  | .add => actAdd
  | .sub => actSub
  | .addw => actAddw
  | .subw => actSubw
  | .and => actAnd
  | .or => actOr
  | .xor => actXor
  | .andn => actAndn
  | .shl => actShl
  | .shr => actShr
  | .sra => actSra
  | .shlw => actShlw
  | .shrw => actShrw
  | .sraw => actSraw
  | .rotl => actRotl
  | .min => actMin
  | .max => actMax
  | .minu => actMinu
  | .maxu => actMaxu
  | .mov => actMov
  | .sext => actSext
  | .zext => actZext
  | .bfx => actBfx
  | .clz => actClz
  | .ctz => actCtz
  | .popc => actPopc
  | .ceq => actCeq
  | .cne => actCne
  | .clt => actClt
  | .cltu => actCltu
  | .cle => actCle
  | .cleu => actCleu
  | .shl16or => actShl16or
  | .mul => actMul
  | .mulw => actMulw
  | .mulh => actMulh
  | .mulhu => actMulhu
  | .div => actDiv l
  | .divu => actDivu l
  | .rem => actRem l
  | .remu => actRemu l
  | .fadd => actFadd
  | .fsub => actFsub
  | .fmul => actFmul
  | .fma => actFma
  | .fmin => actFmin
  | .fmax => actFmax
  | .fneg => actFneg
  | .fceq => actFceq
  | .fclt => actFclt
  | .fcle => actFcle
  | .fsqrt => actFsqrt l
  | .fdiv => actFdiv l
  | .fcvtI => actFcvtI
  | .fcvtF => actFcvtF
  | .fcvtBf => actFcvtBf
  | .fcvtE4 => actFcvtE4
  | .fcvtE5 => actFcvtE5
  | .fexpBf => actFexpBf
  | .fexpE4 => actFexpE4
  | .fexpE5 => actFexpE5
  | .fclass => actFclass
  | .ld8 => actLd8 l
  | .ld8u => actLd8u l
  | .ld16 => actLd16 l
  | .ld16u => actLd16u l
  | .ld32 => actLd32 l
  | .ld32u => actLd32u l
  | .ld64 => actLd64 l
  | .ld128 => actLd128 l
  | .st8 => actSt8 l
  | .st16 => actSt16 l
  | .st32 => actSt32 l
  | .st64 => actSt64 l
  | .st128 => actSt128 l
  | .amoAddW => actAmoAddW l
  | .amoAddD => actAmoAddD l
  | .amoAndW => actAmoAndW l
  | .amoAndD => actAmoAndD l
  | .amoOrW => actAmoOrW l
  | .amoOrD => actAmoOrD l
  | .amoXorW => actAmoXorW l
  | .amoXorD => actAmoXorD l
  | .amoMinW => actAmoMinW l
  | .amoMinD => actAmoMinD l
  | .amoMaxW => actAmoMaxW l
  | .amoMaxD => actAmoMaxD l
  | .amoMinuW => actAmoMinuW l
  | .amoMinuD => actAmoMinuD l
  | .amoMaxuW => actAmoMaxuW l
  | .amoMaxuD => actAmoMaxuD l
  | .amoSwapW => actAmoSwapW l
  | .amoSwapD => actAmoSwapD l
  | .amoCasW => actAmoCasW l
  | .amoCasD => actAmoCasD l
  | .amoCasQ => actAmoCasQ l
  | .amoFadd => actAmoFadd l
  | .waddrW => actWaddrW
  | .waddrD => actWaddrD
  | .waddrGeW => actWaddrGeW
  | .waddrGeD => actWaddrGeD
  | .fence => actFence
  | .ddisc => actDdisc l
  | .dclean => actDclean l
  | .dinval => actDinval l
  | .sigAdd => actSigAdd l
  | .sigWait => actSigWait
  | .jr => actJr
  | .jrl => actJrl
  | .spawn => actSpawn
  | .spawna => actSpawna
  | .done => actDone
  | .yield => actYield
  | .park => actPark
  | .join => actJoin
  | .gbar => actGbar
  | .garrive => actGarrive
  | .pyield => actPyield
  | .sleep => actSleep
  | .xgo => actXgo l
  | .xstop => actXstop l
  | .xwait => actXwait l
  | .ycopy => actYcopy l
  | .ycopyAdd => actYcopyAdd l
  | .ymcast => actYmcast l
  | .yring => actYring l
  | .yawait => actYawait
  | .yrel => actYrel l
  | .ypush => actYpush l
  | .ydesc => actYdesc l
  | .pctx => actPctx
  | .pscaleA => actPscaleA
  | .pscaleB => actPscaleB
  | .pld => actPld
  | .pmma => actPmma
  | .pmmas => actPmmas
  | .pdrain => actPdrain
  | .pclr => actPclr
  | .pflags => actPflags
  | .pjoin => actPjoin
  | .dpatch => actDpatch
  | .dsety => actDsety
  | .dsetr => actDsetr
  | .dgety => actDgety l
  | .dgetr => actDgetr l
  | .dclk => actDclk
  | .drun => actDrun
  | .dhalt => actDhalt
  | .dsave => actDsave
  | .drest => actDrest
  | .dstat => actDstat
  | .hinit => actHinit
  | .hoffer => actHoffer
  | .hdrain => actHdrain
  | .hroute => actHroute l
  | .trap => actTrap
  | .tret => actTret
  | .tfence => actTfence
  | .idle => actIdle

/-! ### Writing a destination -/

/-- An element enqueued by the thread in focus: ahead of what its array's sink enqueued in this cycle (R143). -/
def enqueueMine (s : State) (q : BitVec 3) (id : Nat) (w : Word) (tag sync : Bool) : State :=
  let a := s.array s.th.key.coreKey
  if a.owner = some s.th.key ∧ bridgeQ a.sink = q.toNat ∧ a.sunk = some s.cyc then
    let s := s.enqueueAt id w tag sync
    s.mapChan id (fun c =>
      match c.elems.reverse with
      | x :: y :: rest => { c with elems := (y :: { x with ready := y.ready } :: rest).reverse }
      | _ => c)
  else s.enqueueAt id w tag sync

/-- An enqueue (R49, R248, R249): it blocks while the channel is full. -/
def enqueueAct (q : BitVec 3) (w : Word) (tag sync : Bool) (s : State) : Act :=
  match s.queueWrite q with
  | .error => .queueError q.toNat
  | .full => .stall (.queue q.toNat false)
  | .room id => .done (enqueueMine s q id w tag sync)

/-- A token's word: the level and the payload (R49). -/
def tokenWord (w : Word) : Word := w &&& 0xFFFFFFFF00000007

/-- A token enqueue releases at .dv (R252). -/
def tokenAct (q : BitVec 3) (w : Word) (s : State) : Act :=
  match s.queueWrite q with
  | .error => .queueError q.toNat
  | _ =>
    match s.releaseWait 2 with
    | some a => a
    | none => enqueueAct q (tokenWord w) true true s

/-- xrnd, xflags and xten reject reserved bits (R69, R71). R69's example writes xrnd by four partial words, whose first would
deliver a value with bits above 3 set, which R69 forbids: the rule's sentence is followed, and such a word traps (log entry
49). A write of xflags keeps the flags that merge in its cycle (R73). -/
def xrndAct (w : Word) (s : State) : Act := if xrndOk w then .done (s.map (fun t => t.set .xrnd w)) else .illegal
def xflagsAct (w : Word) (s : State) : Act :=
  if flagsOk w then
    .done (s.map (fun t => t.set .xflags (w ||| if t.fresh.1 = s.cyc then t.fresh.2.setWidth 64 else 0)))
  else .illegal
def xtenAct (w : Word) (s : State) : Act := if flagsOk w then .done (s.map (fun t => t.set .xten w)) else .illegal

/-- preq written by the monitor (R53): 0 clears it, 1 takes the bindery's request. -/
def preqAct (w : Word) (s : State) : Act :=
  if fld w 63 1 ≠ 0 then .illegal
  else .done (s.map (fun t => { t with preq := w.getLsbD 0 && ((s.myCtx.map Ctx.preq).getD false) }))

/-- rfq written: the address and kind of the first report are cleared (R348). -/
def rfqAct (w : Word) (s : State) : Act :=
  .done (s.map (fun t => { t with rfq := w.setWidth 16, repAddr := 0, repKind := 0 }))

/-- mvec written (R357). -/
def mvecAct (w : Word) (s : State) : Act :=
  if fld w 1 0 ≠ 0 then .double else .done (s.map (fun t => { t with mvec := w }))

/-- A special port written (R53). -/
def specialAct (p : Special) (w : Word) (s : State) : Act :=
  match p with
  | .xrnd => xrndAct w s
  | .xflags => xflagsAct w s
  | .xten => xtenAct w s
  | .preq => preqAct w s
  | .rfq => rfqAct w s
  | .mvec => mvecAct w s
  | .mcause => .done (s.map (fun t => { t with mcause := w }))
  | .maddr => .done (s.map (fun t => { t with maddr := w }))
  | .mtpc => .done (s.map (fun t => { t with mtpc := w }))
  | .mctx => .illegal
  | .mfill => mfillAct w s

/-- A guard written (R35). -/
def guardAct (n : BitVec 3) (w : Word) (s : State) : Act := .done (s.map (fun t => t.setK n (w != 0)))

/-- A destination written (R49). -/
def writeDst (d : SDst) (look : BitVec 4) (w : Word) (s : State) : Act :=
  match d with
  | .g r => .done (s.map (fun t => t.setG r w))
  | .k n => guardAct n w s
  | .enq n => enqueueAct n w false false s
  | .tok n => tokenAct n w s
  | .special p => specialAct p w s
  | .opnd l => .done (s.map (fun t => t.set l w))
  | .trig t => trigAct t look w s

/-- A destination's trigger number, and the windows it ends. -/
def dstNum : SDst → Nat
  | .trig t => t.num
  | _ => 0
def dstWins : SDst → List Win
  | .trig t => trigWins t
  | _ => []

def dstRegs : SDst → List RegRef
  | .trig t => operandRegs t
  | _ => []

/-- A value that needs no source written to a destination; `rs`: the registers it was computed from. -/
def writeWord (d : SDst) (look : BitVec 4) (w : Word) (rs : List RegRef) : State → State :=
  endWindow (dstWins d) (checked (rs ++ dstRegs d)
    (fun s => conclude false (dstNum d) look.toNat s none (writeDst d look w s.advance)))

/-! ### The instructions -/

/-- MOVE (R32). -/
def execMove (g : Guard) (d : SDst) (src : Src) (s : State) : Out :=
  moveTo (fun k m => dstFate k m d) g src (writeDst d 0) s

/-- DEQUEUE (R12). -/
def execDequeue (g : Guard) (d : SDst) (n : BitVec 3) (s : State) : Out :=
  moveTo (fun k m => dstFate k m d) g (.port (.deq n)) (writeDst d 0) s

/-- PEEK (R250). -/
def execPeek (g : Guard) (d : SDst) (n : BitVec 3) (s : State) : Out :=
  moveTo (fun k m => dstFate k m d) g (.port (.peek n)) (writeDst d 0) s

/-- ENQUEUE (R49). -/
def execEnqueue (g : Guard) (n : BitVec 3) (src : Src) (s : State) : Out :=
  moveTo (fun _ _ => .ok) g src (fun w s => enqueueAct n w false false s) s

/-- TOKEN_ENQUEUE (R49). -/
def execTokenEnqueue (g : Guard) (n : BitVec 3) (src : Src) (s : State) : Out :=
  moveTo (fun _ _ => .ok) g src (tokenAct n) s

/-- GUARD_WRITE (R35). -/
def execGuardWrite (g : Guard) (k : BitVec 3) (src : Src) (s : State) : Out :=
  moveTo (fun _ _ => .ok) g src (guardAct k) s

/-- XRND_WRITE (R69). -/
def execXrndWrite (g : Guard) (src : Src) (s : State) : Out :=
  moveTo (fun _ m => specialWriteFate m .xrnd) g src xrndAct s

/-- XFLAGS_WRITE (R71). -/
def execXflagsWrite (g : Guard) (src : Src) (s : State) : Out :=
  moveTo (fun _ m => specialWriteFate m .xflags) g src xflagsAct s

/-- XTEN_WRITE (R71). -/
def execXtenWrite (g : Guard) (src : Src) (s : State) : Out :=
  moveTo (fun _ m => specialWriteFate m .xten) g src xtenAct s

/-- PREQ_WRITE (R53). -/
def execPreqWrite (g : Guard) (src : Src) (s : State) : Out :=
  moveTo (fun _ m => specialWriteFate m .preq) g src preqAct s

/-- RFQ_WRITE (R348). -/
def execRfqWrite (g : Guard) (src : Src) (s : State) : Out :=
  moveTo (fun _ m => specialWriteFate m .rfq) g src rfqAct s

/-- MVEC_WRITE (R357). -/
def execMvecWrite (g : Guard) (src : Src) (s : State) : Out :=
  moveTo (fun _ m => specialWriteFate m .mvec) g src mvecAct s

/-- MFILL_WRITE (R343). -/
def execMfillWrite (g : Guard) (src : Src) (s : State) : Out :=
  moveTo (fun _ m => specialWriteFate m .mfill) g src mfillAct s

/-- LI (R44): the immediate sign-extended. -/
def execLi (g : Guard) (d : SDst) (i : BitVec 16) (s : State) : Out :=
  issue (fun k m => dstFate k m d) g (writeWord d 0 (i.signExtend 64) []) s

/-- What a destination holds, as the thread would read it (R44). -/
def oldValue (s : State) : SDst → Word
  | .g r => s.th.getG r
  | .opnd l => s.th.get l
  | .special p => s.readSpecial p
  | _ => 0

/-- The register it stands in. -/
def oldRegs : SDst → List RegRef
  | .g r => [.g r]
  | .opnd l => [.latch l]
  | _ => []

/-- LI_SHIFT_INSERT (R44). -/
def execLiShiftInsert (g : Guard) (d : SDst) (i : BitVec 16) (s : State) : Out :=
  issue (fun k m => dstFate k m d) g (fun s => writeWord d 0 ((oldValue s d <<< 16) ||| i.setWidth 64) (oldRegs d) s) s

/-- A vector destination written (R54). -/
def writeVDst (d : VDst) (v : Vec) (s : State) : Act :=
  .done (match d with
    | .v r => s.map (fun t => t.setV r v)
    | .vo => s.map (fun t => t.setVo v)
    | .vo2 => s.map (fun t => t.setVo2 v))

/-- The window a class 01 word without a vector trigger ends: a repetition's (R47). -/
def repWins (s : State) : List Win := if (s.th.win .v).rep then [.v] else []

/-- VECTOR_TRANSPORT (R33): a vector destination, or lanes 1:0 into a scalar one. -/
def execVectorTransport (g : Guard) (m : VMove) (s : State) : Out :=
  match m with
  | .toVec d src =>
    issue (fun k md => vsourceFate k md src) g
      (fun s => endWindow (repWins s) (withVSrc 0 0 [] src (writeVDst d)) s) s.takeV
  | .toScalar l d p =>
    issue (fun k md => (vsourceFate k md (.vec p)).and (dstFate k md d)) g
      (fun s => endWindow (repWins s ++ dstWins d) (fun s =>
        match s.readVPort p with
        | .val v q => checked (vportReg p :: dstRegs d)
            (fun s => conclude false (dstNum d) l.toNat s q (writeDst d l (v.setWidth 64) s.advance)) s
        | .due c => conclude false 0 0 s none (.wait c)
        | .empty q => conclude false 0 0 s none (.stall (.queue q.toNat true))
        | .qerror q => conclude false 0 0 s none (.queueError q.toNat)) s) s.takeV

/-- ENCODING_NOT_AN_INSTRUCTION (R55): the illegal-transport trap, whatever the guard. -/
def execEncodingNotAnInstruction (_ : BitVec 32) (s : State) : Out :=
  .next (trapIllegal (s.map (fun t => t.settle s.cyc)))

end Sys2Proof.Machine
end

