-- ==== Sys2Proof/Machine/Dispatch.lean ====
section
/-! DEFINITION. One arm per instruction: a direct call of its meaning. -/

namespace Sys2Proof.Machine

/-- The outcome of an instruction in a state (R11): for a word, of the thread in focus; for an event, of the subject
that `ev` names. -/
def exec (i : Instr) (s : State) : Host.Outcome State Fault Refusal :=
  match i with
  | .move g d src => Sys2Proof.Machine.execMove g d src s
  | .vectorTransport g m => Sys2Proof.Machine.execVectorTransport g m s
  | .enqueue g n src => Sys2Proof.Machine.execEnqueue g n src s
  | .tokenEnqueue g n src => Sys2Proof.Machine.execTokenEnqueue g n src s
  | .dequeue g d n => Sys2Proof.Machine.execDequeue g d n s
  | .peek g d n => Sys2Proof.Machine.execPeek g d n s
  | .guardWrite g k src => Sys2Proof.Machine.execGuardWrite g k src s
  | .xrndWrite g src => Sys2Proof.Machine.execXrndWrite g src s
  | .xflagsWrite g src => Sys2Proof.Machine.execXflagsWrite g src s
  | .xtenWrite g src => Sys2Proof.Machine.execXtenWrite g src s
  | .preqWrite g src => Sys2Proof.Machine.execPreqWrite g src s
  | .rfqWrite g src => Sys2Proof.Machine.execRfqWrite g src s
  | .mvecWrite g src => Sys2Proof.Machine.execMvecWrite g src s
  | .mfillWrite g src => Sys2Proof.Machine.execMfillWrite g src s
  | .li g d imm => Sys2Proof.Machine.execLi g d imm s
  | .liShiftInsert g d imm => Sys2Proof.Machine.execLiShiftInsert g d imm s
  | .br g off => Sys2Proof.Machine.execBr g off s
  | .brl g off => Sys2Proof.Machine.execBrl g off s
  | .rep g cm1 stride bm1 la => Sys2Proof.Machine.execRep g cm1 stride bm1 la s
  | .nop g => Sys2Proof.Machine.execNop g s
  | .add g src => Sys2Proof.Machine.execAdd g src s
  | .sub g src => Sys2Proof.Machine.execSub g src s
  | .addw g src => Sys2Proof.Machine.execAddw g src s
  | .subw g src => Sys2Proof.Machine.execSubw g src s
  | .and g src => Sys2Proof.Machine.execAnd g src s
  | .or g src => Sys2Proof.Machine.execOr g src s
  | .xor g src => Sys2Proof.Machine.execXor g src s
  | .andn g src => Sys2Proof.Machine.execAndn g src s
  | .shl g src => Sys2Proof.Machine.execShl g src s
  | .shr g src => Sys2Proof.Machine.execShr g src s
  | .sra g src => Sys2Proof.Machine.execSra g src s
  | .shlw g src => Sys2Proof.Machine.execShlw g src s
  | .shrw g src => Sys2Proof.Machine.execShrw g src s
  | .sraw g src => Sys2Proof.Machine.execSraw g src s
  | .rotl g src => Sys2Proof.Machine.execRotl g src s
  | .min g src => Sys2Proof.Machine.execMin g src s
  | .max g src => Sys2Proof.Machine.execMax g src s
  | .minu g src => Sys2Proof.Machine.execMinu g src s
  | .maxu g src => Sys2Proof.Machine.execMaxu g src s
  | .mov g src => Sys2Proof.Machine.execMov g src s
  | .sext g src => Sys2Proof.Machine.execSext g src s
  | .zext g src => Sys2Proof.Machine.execZext g src s
  | .bfx g src => Sys2Proof.Machine.execBfx g src s
  | .clz g src => Sys2Proof.Machine.execClz g src s
  | .ctz g src => Sys2Proof.Machine.execCtz g src s
  | .popc g src => Sys2Proof.Machine.execPopc g src s
  | .ceq g src => Sys2Proof.Machine.execCeq g src s
  | .cne g src => Sys2Proof.Machine.execCne g src s
  | .clt g src => Sys2Proof.Machine.execClt g src s
  | .cltu g src => Sys2Proof.Machine.execCltu g src s
  | .cle g src => Sys2Proof.Machine.execCle g src s
  | .cleu g src => Sys2Proof.Machine.execCleu g src s
  | .shl16or g src => Sys2Proof.Machine.execShl16or g src s
  | .mul g src => Sys2Proof.Machine.execMul g src s
  | .mulw g src => Sys2Proof.Machine.execMulw g src s
  | .mulh g src => Sys2Proof.Machine.execMulh g src s
  | .mulhu g src => Sys2Proof.Machine.execMulhu g src s
  | .div g l src => Sys2Proof.Machine.execDiv g l src s
  | .divu g l src => Sys2Proof.Machine.execDivu g l src s
  | .rem g l src => Sys2Proof.Machine.execRem g l src s
  | .remu g l src => Sys2Proof.Machine.execRemu g l src s
  | .fadd g src => Sys2Proof.Machine.execFadd g src s
  | .fsub g src => Sys2Proof.Machine.execFsub g src s
  | .fmul g src => Sys2Proof.Machine.execFmul g src s
  | .fma g src => Sys2Proof.Machine.execFma g src s
  | .fmin g src => Sys2Proof.Machine.execFmin g src s
  | .fmax g src => Sys2Proof.Machine.execFmax g src s
  | .fneg g src => Sys2Proof.Machine.execFneg g src s
  | .fceq g src => Sys2Proof.Machine.execFceq g src s
  | .fclt g src => Sys2Proof.Machine.execFclt g src s
  | .fcle g src => Sys2Proof.Machine.execFcle g src s
  | .fsqrt g l src => Sys2Proof.Machine.execFsqrt g l src s
  | .fdiv g l src => Sys2Proof.Machine.execFdiv g l src s
  | .fcvtI g src => Sys2Proof.Machine.execFcvtI g src s
  | .fcvtF g src => Sys2Proof.Machine.execFcvtF g src s
  | .fcvtBf g src => Sys2Proof.Machine.execFcvtBf g src s
  | .fcvtE4 g src => Sys2Proof.Machine.execFcvtE4 g src s
  | .fcvtE5 g src => Sys2Proof.Machine.execFcvtE5 g src s
  | .fexpBf g src => Sys2Proof.Machine.execFexpBf g src s
  | .fexpE4 g src => Sys2Proof.Machine.execFexpE4 g src s
  | .fexpE5 g src => Sys2Proof.Machine.execFexpE5 g src s
  | .fclass g src => Sys2Proof.Machine.execFclass g src s
  | .ld8 g l src => Sys2Proof.Machine.execLd8 g l src s
  | .ld8u g l src => Sys2Proof.Machine.execLd8u g l src s
  | .ld16 g l src => Sys2Proof.Machine.execLd16 g l src s
  | .ld16u g l src => Sys2Proof.Machine.execLd16u g l src s
  | .ld32 g l src => Sys2Proof.Machine.execLd32 g l src s
  | .ld32u g l src => Sys2Proof.Machine.execLd32u g l src s
  | .ld64 g l src => Sys2Proof.Machine.execLd64 g l src s
  | .ld128 g l src => Sys2Proof.Machine.execLd128 g l src s
  | .st8 g l src => Sys2Proof.Machine.execSt8 g l src s
  | .st16 g l src => Sys2Proof.Machine.execSt16 g l src s
  | .st32 g l src => Sys2Proof.Machine.execSt32 g l src s
  | .st64 g l src => Sys2Proof.Machine.execSt64 g l src s
  | .st128 g l src => Sys2Proof.Machine.execSt128 g l src s
  | .amoAddW g l src => Sys2Proof.Machine.execAmoAddW g l src s
  | .amoAddD g l src => Sys2Proof.Machine.execAmoAddD g l src s
  | .amoAndW g l src => Sys2Proof.Machine.execAmoAndW g l src s
  | .amoAndD g l src => Sys2Proof.Machine.execAmoAndD g l src s
  | .amoOrW g l src => Sys2Proof.Machine.execAmoOrW g l src s
  | .amoOrD g l src => Sys2Proof.Machine.execAmoOrD g l src s
  | .amoXorW g l src => Sys2Proof.Machine.execAmoXorW g l src s
  | .amoXorD g l src => Sys2Proof.Machine.execAmoXorD g l src s
  | .amoMinW g l src => Sys2Proof.Machine.execAmoMinW g l src s
  | .amoMinD g l src => Sys2Proof.Machine.execAmoMinD g l src s
  | .amoMaxW g l src => Sys2Proof.Machine.execAmoMaxW g l src s
  | .amoMaxD g l src => Sys2Proof.Machine.execAmoMaxD g l src s
  | .amoMinuW g l src => Sys2Proof.Machine.execAmoMinuW g l src s
  | .amoMinuD g l src => Sys2Proof.Machine.execAmoMinuD g l src s
  | .amoMaxuW g l src => Sys2Proof.Machine.execAmoMaxuW g l src s
  | .amoMaxuD g l src => Sys2Proof.Machine.execAmoMaxuD g l src s
  | .amoSwapW g l src => Sys2Proof.Machine.execAmoSwapW g l src s
  | .amoSwapD g l src => Sys2Proof.Machine.execAmoSwapD g l src s
  | .amoCasW g l src => Sys2Proof.Machine.execAmoCasW g l src s
  | .amoCasD g l src => Sys2Proof.Machine.execAmoCasD g l src s
  | .amoCasQ g l src => Sys2Proof.Machine.execAmoCasQ g l src s
  | .amoFadd g l src => Sys2Proof.Machine.execAmoFadd g l src s
  | .waddrW g src => Sys2Proof.Machine.execWaddrW g src s
  | .waddrD g src => Sys2Proof.Machine.execWaddrD g src s
  | .waddrGeW g src => Sys2Proof.Machine.execWaddrGeW g src s
  | .waddrGeD g src => Sys2Proof.Machine.execWaddrGeD g src s
  | .fence g src => Sys2Proof.Machine.execFence g src s
  | .ddisc g l src => Sys2Proof.Machine.execDdisc g l src s
  | .dclean g l src => Sys2Proof.Machine.execDclean g l src s
  | .dinval g l src => Sys2Proof.Machine.execDinval g l src s
  | .sigAdd g l src => Sys2Proof.Machine.execSigAdd g l src s
  | .sigWait g src => Sys2Proof.Machine.execSigWait g src s
  | .jr g src => Sys2Proof.Machine.execJr g src s
  | .jrl g src => Sys2Proof.Machine.execJrl g src s
  | .spawn g src => Sys2Proof.Machine.execSpawn g src s
  | .spawna g src => Sys2Proof.Machine.execSpawna g src s
  | .done g src => Sys2Proof.Machine.execDone g src s
  | .yield g src => Sys2Proof.Machine.execYield g src s
  | .park g src => Sys2Proof.Machine.execPark g src s
  | .join g src => Sys2Proof.Machine.execJoin g src s
  | .gbar g src => Sys2Proof.Machine.execGbar g src s
  | .garrive g src => Sys2Proof.Machine.execGarrive g src s
  | .pyield g src => Sys2Proof.Machine.execPyield g src s
  | .sleep g src => Sys2Proof.Machine.execSleep g src s
  | .xgo g l src => Sys2Proof.Machine.execXgo g l src s
  | .xstop g l src => Sys2Proof.Machine.execXstop g l src s
  | .xwait g l src => Sys2Proof.Machine.execXwait g l src s
  | .ycopy g l src => Sys2Proof.Machine.execYcopy g l src s
  | .ycopyAdd g l src => Sys2Proof.Machine.execYcopyAdd g l src s
  | .ymcast g l src => Sys2Proof.Machine.execYmcast g l src s
  | .yring g l src => Sys2Proof.Machine.execYring g l src s
  | .yawait g src => Sys2Proof.Machine.execYawait g src s
  | .yrel g l src => Sys2Proof.Machine.execYrel g l src s
  | .ypush g l src => Sys2Proof.Machine.execYpush g l src s
  | .ydesc g l src => Sys2Proof.Machine.execYdesc g l src s
  | .pctx g src => Sys2Proof.Machine.execPctx g src s
  | .pscaleA g src => Sys2Proof.Machine.execPscaleA g src s
  | .pscaleB g src => Sys2Proof.Machine.execPscaleB g src s
  | .pld g src => Sys2Proof.Machine.execPld g src s
  | .pmma g src => Sys2Proof.Machine.execPmma g src s
  | .pmmas g src => Sys2Proof.Machine.execPmmas g src s
  | .pdrain g src => Sys2Proof.Machine.execPdrain g src s
  | .pclr g src => Sys2Proof.Machine.execPclr g src s
  | .pflags g src => Sys2Proof.Machine.execPflags g src s
  | .pjoin g src => Sys2Proof.Machine.execPjoin g src s
  | .dpatch g src => Sys2Proof.Machine.execDpatch g src s
  | .dsety g src => Sys2Proof.Machine.execDsety g src s
  | .dsetr g src => Sys2Proof.Machine.execDsetr g src s
  | .dgety g l src => Sys2Proof.Machine.execDgety g l src s
  | .dgetr g l src => Sys2Proof.Machine.execDgetr g l src s
  | .dclk g src => Sys2Proof.Machine.execDclk g src s
  | .drun g src => Sys2Proof.Machine.execDrun g src s
  | .dhalt g src => Sys2Proof.Machine.execDhalt g src s
  | .dsave g src => Sys2Proof.Machine.execDsave g src s
  | .drest g src => Sys2Proof.Machine.execDrest g src s
  | .dstat g src => Sys2Proof.Machine.execDstat g src s
  | .hinit g src => Sys2Proof.Machine.execHinit g src s
  | .hoffer g src => Sys2Proof.Machine.execHoffer g src s
  | .hdrain g src => Sys2Proof.Machine.execHdrain g src s
  | .hroute g l src => Sys2Proof.Machine.execHroute g l src s
  | .trap g src => Sys2Proof.Machine.execTrap g src s
  | .tret g src => Sys2Proof.Machine.execTret g src s
  | .tfence g src => Sys2Proof.Machine.execTfence g src s
  | .idle g src => Sys2Proof.Machine.execIdle g src s
  | .vaddF g src => Sys2Proof.Machine.execVaddF g src s
  | .vsubF g src => Sys2Proof.Machine.execVsubF g src s
  | .vmulF g src => Sys2Proof.Machine.execVmulF g src s
  | .vfmaF g src => Sys2Proof.Machine.execVfmaF g src s
  | .vmaxF g src => Sys2Proof.Machine.execVmaxF g src s
  | .vminF g src => Sys2Proof.Machine.execVminF g src s
  | .vexp2F g src => Sys2Proof.Machine.execVexp2F g src s
  | .vrcpF g src => Sys2Proof.Machine.execVrcpF g src s
  | .vrsqF g src => Sys2Proof.Machine.execVrsqF g src s
  | .vcvtBf g src => Sys2Proof.Machine.execVcvtBf g src s
  | .vcvtE4 g src => Sys2Proof.Machine.execVcvtE4 g src s
  | .vcvtE5 g src => Sys2Proof.Machine.execVcvtE5 g src s
  | .vunpBf g src => Sys2Proof.Machine.execVunpBf g src s
  | .vunpE4 g src => Sys2Proof.Machine.execVunpE4 g src s
  | .vunpE5 g src => Sys2Proof.Machine.execVunpE5 g src s
  | .vaddI g src => Sys2Proof.Machine.execVaddI g src s
  | .vsubI g src => Sys2Proof.Machine.execVsubI g src s
  | .vmulI g src => Sys2Proof.Machine.execVmulI g src s
  | .vand g src => Sys2Proof.Machine.execVand g src s
  | .vor g src => Sys2Proof.Machine.execVor g src s
  | .vxor g src => Sys2Proof.Machine.execVxor g src s
  | .vshl g src => Sys2Proof.Machine.execVshl g src s
  | .vshr g src => Sys2Proof.Machine.execVshr g src s
  | .vsra g src => Sys2Proof.Machine.execVsra g src s
  | .vceqF g src => Sys2Proof.Machine.execVceqF g src s
  | .vcltF g src => Sys2Proof.Machine.execVcltF g src s
  | .vsel g src => Sys2Proof.Machine.execVsel g src s
  | .vbc g src => Sys2Proof.Machine.execVbc g src s
  | .vrot g src => Sys2Proof.Machine.execVrot g src s
  | .vperm g src => Sys2Proof.Machine.execVperm g src s
  | .vsumF g src => Sys2Proof.Machine.execVsumF g src s
  | .vmaxR g src => Sys2Proof.Machine.execVmaxR g src s
  | .vld g l src => Sys2Proof.Machine.execVld g l src s
  | .vst g l src => Sys2Proof.Machine.execVst g l src s
  | .encodingNotAnInstruction w => Sys2Proof.Machine.execEncodingNotAnInstruction w s
  | .repetitionSequenceIssue => Sys2Proof.Machine.execRepetitionSequenceIssue s
  | .resultVisible => Sys2Proof.Machine.execResultVisible s
  | .instructionLineArrival => Sys2Proof.Machine.execInstructionLineArrival s
  | .queueBlockResume => Sys2Proof.Machine.execQueueBlockResume s
  | .postedStoreAcknowledgement => Sys2Proof.Machine.execPostedStoreAcknowledgement s
  | .offerAcknowledgement => Sys2Proof.Machine.execOfferAcknowledgement s
  | .remoteFaultReport => Sys2Proof.Machine.execRemoteFaultReport s
  | .writeCombiningTimeout => Sys2Proof.Machine.execWriteCombiningTimeout s
  | .remoteRequestArrival => Sys2Proof.Machine.execRemoteRequestArrival s
  | .atomicAtHome => Sys2Proof.Machine.execAtomicAtHome s
  | .l2LineArrival => Sys2Proof.Machine.execL2LineArrival s
  | .l2Prefetch => Sys2Proof.Machine.execL2Prefetch s
  | .waitWake => Sys2Proof.Machine.execWaitWake s
  | .watchUnitRead => Sys2Proof.Machine.execWatchUnitRead s
  | .waitTimeout => Sys2Proof.Machine.execWaitTimeout s
  | .signalUnitAdd => Sys2Proof.Machine.execSignalUnitAdd s
  | .sigWaitWake => Sys2Proof.Machine.execSigWaitWake s
  | .sigWaitTimeout => Sys2Proof.Machine.execSigWaitTimeout s
  | .pressGrant => Sys2Proof.Machine.execPressGrant s
  | .pressOperationComplete => Sys2Proof.Machine.execPressOperationComplete s
  | .pressQueueEntryServed => Sys2Proof.Machine.execPressQueueEntryServed s
  | .rampLimiterWindow => Sys2Proof.Machine.execRampLimiterWindow s
  | .pjoinTimeout => Sys2Proof.Machine.execPjoinTimeout s
  | .domainTick => Sys2Proof.Machine.execDomainTick s
  | .integratorFaultTrap => Sys2Proof.Machine.execIntegratorFaultTrap s
  | .runQueuePop => Sys2Proof.Machine.execRunQueuePop s
  | .priorityRise => Sys2Proof.Machine.execPriorityRise s
  | .migrationAdvertisement => Sys2Proof.Machine.execMigrationAdvertisement s
  | .migrationMessage => Sys2Proof.Machine.execMigrationMessage s
  | .migrationAnswer => Sys2Proof.Machine.execMigrationAnswer s
  | .parkWake => Sys2Proof.Machine.execParkWake s
  | .sleepExpiry => Sys2Proof.Machine.execSleepExpiry s
  | .idleWake => Sys2Proof.Machine.execIdleWake s
  | .referenceStreamDequeue => Sys2Proof.Machine.execReferenceStreamDequeue s
  | .referenceFetchReturn => Sys2Proof.Machine.execReferenceFetchReturn s
  | .referenceDemandFetch => Sys2Proof.Machine.execReferenceDemandFetch s
  | .ringClaim => Sys2Proof.Machine.execRingClaim s
  | .copyPiece => Sys2Proof.Machine.execCopyPiece s
  | .copyComplete => Sys2Proof.Machine.execCopyComplete s
  | .ringPush => Sys2Proof.Machine.execRingPush s
  | .heapOfferArrival => Sys2Proof.Machine.execHeapOfferArrival s
  | .heapCountPublish => Sys2Proof.Machine.execHeapCountPublish s
  | .balancerDistribute => Sys2Proof.Machine.execBalancerDistribute s
  | .mergeEmit => Sys2Proof.Machine.execMergeEmit s
  | .trapEntry => Sys2Proof.Machine.execTrapEntry s
  | .policyCoreAnswer => Sys2Proof.Machine.execPolicyCoreAnswer s
  | .preemptionDeadline => Sys2Proof.Machine.execPreemptionDeadline s
  | .contextQuiesce => Sys2Proof.Machine.execContextQuiesce s
  | .powerPolicyCheck => Sys2Proof.Machine.execPowerPolicyCheck s
  | .flitCrcError => Sys2Proof.Machine.execFlitCrcError s
  | .linkRetrain => Sys2Proof.Machine.execLinkRetrain s
  | .linkPacketReceived => Sys2Proof.Machine.execLinkPacketReceived s
  | .pageWalkComplete => Sys2Proof.Machine.execPageWalkComplete s
  | .doorbell => Sys2Proof.Machine.execDoorbell s
  | .queueMap => Sys2Proof.Machine.execQueueMap s
  | .queueQuantumExpiry => Sys2Proof.Machine.execQueueQuantumExpiry s
  | .nopCommand => Sys2Proof.Machine.execNopCommand s
  | .launchPipeline => Sys2Proof.Machine.execLaunchPipeline s
  | .launchTask => Sys2Proof.Machine.execLaunchTask s
  | .wait => Sys2Proof.Machine.execWait s
  | .signal => Sys2Proof.Machine.execSignal s
  | .copy => Sys2Proof.Machine.execCopy s
  | .barrier => Sys2Proof.Machine.execBarrier s
  | .checkpoint => Sys2Proof.Machine.execCheckpoint s
  | .packetComplete => Sys2Proof.Machine.execPacketComplete s
  | .queueFreed => Sys2Proof.Machine.execQueueFreed s
  | .createContext => Sys2Proof.Machine.execCreateContext s
  | .destroyContext => Sys2Proof.Machine.execDestroyContext s
  | .grantTiles => Sys2Proof.Machine.execGrantTiles s
  | .revokeTiles => Sys2Proof.Machine.execRevokeTiles s
  | .mapPages => Sys2Proof.Machine.execMapPages s
  | .unmapPages => Sys2Proof.Machine.execUnmapPages s
  | .loadKey => Sys2Proof.Machine.execLoadKey s
  | .freeKey => Sys2Proof.Machine.execFreeKey s
  | .writeWindow => Sys2Proof.Machine.execWriteWindow s
  | .clearWindow => Sys2Proof.Machine.execClearWindow s
  | .allocateQueue => Sys2Proof.Machine.execAllocateQueue s
  | .destroyQueue => Sys2Proof.Machine.execDestroyQueue s
  | .restartQueue => Sys2Proof.Machine.execRestartQueue s
  | .markCheckpointQueue => Sys2Proof.Machine.execMarkCheckpointQueue s
  | .allotGroups => Sys2Proof.Machine.execAllotGroups s
  | .allotExperts => Sys2Proof.Machine.execAllotExperts s
  | .registerImageKey => Sys2Proof.Machine.execRegisterImageKey s
  | .setFaultMode => Sys2Proof.Machine.execSetFaultMode s
  | .setMonitorVector => Sys2Proof.Machine.execSetMonitorVector s
  | .setDeadline => Sys2Proof.Machine.execSetDeadline s
  | .setPowerRank => Sys2Proof.Machine.execSetPowerRank s
  | .registerSafeTier => Sys2Proof.Machine.execRegisterSafeTier s
  | .reserveBuddyRegion => Sys2Proof.Machine.execReserveBuddyRegion s
  | .setHostVisible => Sys2Proof.Machine.execSetHostVisible s
  | .registerCollectiveSet => Sys2Proof.Machine.execRegisterCollectiveSet s
  | .setEventRing => Sys2Proof.Machine.execSetEventRing s
  | .faultAnswer => Sys2Proof.Machine.execFaultAnswer s
  | .preemptContext => Sys2Proof.Machine.execPreemptContext s
  | .resumeContext => Sys2Proof.Machine.execResumeContext s
  | .loadCheckpoint => Sys2Proof.Machine.execLoadCheckpoint s
  | .pauseQueue => Sys2Proof.Machine.execPauseQueue s
  | .eventTailWrite => Sys2Proof.Machine.execEventTailWrite s
  | .barRegisterWrite => Sys2Proof.Machine.execBarRegisterWrite s
  | .hostMemoryAccess => Sys2Proof.Machine.execHostMemoryAccess s
  | .moduleReset => Sys2Proof.Machine.execModuleReset s
  | .getVersion => Sys2Proof.Machine.execGetVersion s
  | .getCapabilities => Sys2Proof.Machine.execGetCapabilities s
  | .vendorDefinedRequest => Sys2Proof.Machine.execVendorDefinedRequest s
  | .reservedOpPacket => Sys2Proof.Machine.execReservedOpPacket s
  | .reservedOpRequest => Sys2Proof.Machine.execReservedOpRequest s
  | .snoopOrBackInvalidate => Sys2Proof.Machine.execSnoopOrBackInvalidate s
  | .retrainComplete => Sys2Proof.Machine.execRetrainComplete s

end Sys2Proof.Machine
end

