-- ==== Sys2Proof/Machine/SoftErrors.lean ====
section
/-! DEFINITION. Soft errors (R366 to R370). What R367 classes as transient is logged, and a register's error that a duplicate repairs changes
nothing. A soft error found is an input (log entry 14): the agenda puts it at its place. -/

namespace Sys2Proof.Machine

/-- The context of a tile, 0 for none. -/
def tileCtx (s : State) (t : Nat) : Nat :=
  match s.ctxs.find? (fun c => c.tiles.any (fun p => p.2 = t)) with
  | some c => c.num
  | none => 0

/-- An error's class logged (R367). -/
def logError (s : State) (row loc : Nat) (lasts : Bool) : State := { s with errLog := (row, loc, lasts) :: s.errLog }

/-- A lasting error logged and reported (R332, R367): its structure, in the row order of R366, and its location. -/
def lasting (s : State) (ctx row loc : Nat) : State :=
  report (logError s row loc true) { ctx, kind := 4, d1 := BitVec.ofNat 64 row, d2 := BitVec.ofNat 64 loc }

/-- What an uncorrectable error leaves without a value: what consumes it ends with a data error (R339, R370). -/
def lose (s : State) (x : Lost) (lost : Bool) : State := if lost then { s with lost := x :: s.lost } else s

/-- The dword of a cell is lost. -/
def loseDword (s : State) (cell : Nat) (lost : Bool) : State := lose s (.cell (cell / 8 * 8)) lost

/-- A channel in its error state. -/
def failChan (s : State) (id : Nat) : State :=
  { s with chans := s.chans.map (fun c => if c.id = id then { c with st := 1 } else c) }

/-- A scratchpad bank retired: its bytes, the lost one among them, are rebuilt from the parity bank of its eight; a second of
the eight retires the tile, and what was lost there stays so (R23, R369). -/
def retireBank (s : State) (t off : Nat) (lost : Bool) : State :=
  let bank := off / 16 % 32
  if s.badBanks.contains (t, bank) then s
  else if s.badBanks.any (fun b => b.1 = t ∧ b.2 / 8 = bank / 8) then retireTile (loseDword s (scrCell t off) lost) t
  else { s with badBanks := (t, bank) :: s.badBanks }

/-- An array without a value stops: its domains halt (log entry 14). -/
def loseArray (s : State) (k : CoreKey) (lost : Bool) : State :=
  if lost then (lose s (.array k) true).setArray k (haltDomains (s.array k) 0xFF s.cyc) else s

/-- The place of a soft error exists: one of 1,536 tiles of seven cores, four with an array, of 512 KiB of scratchpad, of
576 GiB of HBM, of 16 lanes (R2, R17). -/
def strikeOk : Strike → Bool
  | .reg k _ => decide (k.tile < 1536)
  | .bank t off _ => decide (t < 1536 ∧ off < 2 ^ 19)
  | .cache _ _ => true
  | .press t c p _ => decide (t < 1536 ∧ c < 4 ∧ p < 10)
  | .heap t _ _ => decide (t < 1536)
  | .array k _ _ => decide (k.tile < 1536 ∧ k.core < 4)
  | .transient row _ => decide (row < 7)
  | .queueFile k _ _ => decide (k.tile < 1536 ∧ k.core < 7)
  | .hbm cell _ => decide (cell < hbmEnd)
  | .lane k n => decide (k.tile < 1536 ∧ k.core < 7 ∧ n < 16)

/-- A soft error found at its place, and what it retires. -/
def strikeAt (s : State) : Strike → State
  | .reg k r => if r = .g 0 then s else s.mapSlot k (fun t => { t with bad := r :: t.mend r })
  | .bank t off lost => retireBank (lasting s (tileCtx s t) 0 (scrCell t off)) t off lost
  | .cache cell lost => loseDword (lasting s 0 1 cell) cell lost
  | .press t c p lost => retireTile (lose (lasting s (tileCtx s t) 2 (16 * c + p)) (.press t c p) lost) t
  | .array k loc lost => retireTile (loseArray (lasting s (tileCtx s k.tile) 3 loc) k lost) k.tile
  | .queueFile k chan lost =>
    let s := lasting s (tileCtx s k.tile) 3 chan
    if lost then failChan s chan else s
  | .heap t loc lost => retireTile (lose (lasting s (tileCtx s t) 3 loc) (.heap t) lost) t
  | .hbm cell lost => loseDword (lasting s 0 4 cell) cell lost
  | .lane k n =>
    let s := lasting s (tileCtx s k.tile) 5 n
    if s.badLanes.contains k then retireTile s k.tile else { s with badLanes := k :: s.badLanes }
  | .transient row loc => logError s row loc false

/-- A soft error found; what names no place of the device is none. -/
def strikeNow (s : State) (x : Strike) : State := if strikeOk x then strikeAt s x else s

end Sys2Proof.Machine
end

