-- ==== Sys2Proof/Machine/Fetch.lean ====
section
/-! DEFINITION. What happens next: the events that are due, the slot that issues and the fetch of its word (R20, R45,
R101, R244, R316), the cycle, and where a program is placed. -/

namespace Sys2Proof.Machine

/-! ### Due events -/

/-- The events that can end a hold. -/
def holdEvents : Hold → List Instr
  | .line _ _ => [.instructionLineArrival]
  | .queue _ _ => [.queueBlockResume]
  | .waddr _ _ _ _ _ _ _ => [.waitWake, .watchUnitRead, .waitTimeout]
  | .sigWait _ _ _ _ => [.sigWaitWake, .sigWaitTimeout]
  | .sleep _ => [.sleepExpiry]
  | .pjoin _ _ => [.pjoinTimeout]
  | .idle _ => [.idleWake]
  | .trap => [.trapEntry]
  | _ => []

/-- The events of a slot's own. -/
def slotEvents (t : Thread) : List Event :=
  let key := t.key
  (allWins.filter (fun u => (t.win u).isOpen)).map (fun win => (.resultVisible, { key := key, win := win }))
    ++ (List.range t.posted.length).flatMap (fun n =>
      match t.posted[n]? with
      | some p =>
        if p.refuse = 0 then [(.postedStoreAcknowledgement, { key := key, n := n })]
        else [(.remoteFaultReport, { key := key, n := p.refuse, w := p.va })]
      | none => [])
    ++ (if t.posted.any Posted.wcb then [(.writeCombiningTimeout, { key := key })] else [])
    ++ [(.integratorFaultTrap, { key := key })]
    ++ (holdEvents t.hold).map (fun i => (i, { key := key }))

/-- The events of memory and of the engines. -/
def unitEvents (s : State) : List Event :=
  (List.range s.homeQ.length).map (fun n => (.atomicAtHome, { n := n }))
    ++ (List.range s.sigQ.length).map (fun n => (.signalUnitAdd, { n := n }))
    ++ (List.range s.walks.length).map (fun n => (.pageWalkComplete, { n := n }))
    ++ s.parks.map (fun p => (.parkWake, { n := p.ctx, w := p.record }))
    ++ s.copies.flatMap (fun c => [(.ringClaim, { key := c.key }), (.copyPiece, { key := c.key }),
      (.copyComplete, { key := c.key })])
    ++ (List.range s.pushes.length).map (fun n => (.ringPush, { n := n }))
    ++ s.streams.flatMap (fun st =>
      let key : SlotKey := ⟨st.core.tile, st.core.core, 0⟩
      [(.referenceFetchReturn, { key := key, n := st.strm }), (.referenceDemandFetch, { key := key, n := st.strm }),
        (.referenceStreamDequeue, { key := key, n := st.strm })])
    ++ s.arrays.map (fun a => (.domainTick, { key := ⟨a.1.tile, a.1.core, 0⟩ }))
    ++ s.presses.flatMap (fun p =>
      [(.rampLimiterWindow, { n := p.1 }), (.pressOperationComplete, { n := p.1 }), (.pressGrant, { n := p.1 })]
        ++ (List.range 4).map (fun m => (.pressQueueEntryServed, { n := p.1, m := m })))
    ++ (List.range s.offers.length).map (fun n => (.heapOfferArrival, { n := n }))
    ++ s.offers.flatMap (fun o =>
      match o.decided with
      | none => []
      | some 0 => [(.offerAcknowledgement, { key := o.key })]
      | some n => [(.remoteFaultReport, { key := o.key, n := n, w := o.target })])
    ++ (if s.heaps.isEmpty then [] else [(.heapCountPublish, { n := 0 })])

/-- The events of the dispatch units. -/
def dispatchEvents (s : State) : List Event :=
  (s.runq.filter (riseDue s)).map (fun q => (.priorityRise, { n := q.die, m := q.prio }))
    ++ (match popChoice s with
      | some (n, key) => [(.runQueuePop, { n := n, key := key })]
      | none => [])
    ++ s.migrations.map (fun m => (.migrationMessage, { n := m.1 }))
    ++ s.adverts.map (fun a => (.migrationAnswer, { n := a.2.1 }))
    ++ (if s.runq.isEmpty then [] else
      ((List.range 8).filter (migrationUseful s)).map (fun n => (.migrationAdvertisement, { n := n })))

/-- The packet a queue starts next, by its op (R232). -/
def packetEvent (s : State) (q : SwQueue) : Instr :=
  match packetOp (headPacket s q) with
  | 0 => .nopCommand
  | 1 => .launchPipeline
  | 2 => .launchTask
  | 3 => .wait
  | 4 => .signal
  | 5 => .copy
  | 6 => .barrier
  | 7 => .checkpoint
  | _ => .reservedOpPacket

/-- The requests of the mailbox, from op 0x01 on (R330). -/
def mailInstrs : List Instr :=
  [.createContext, .destroyContext, .grantTiles, .revokeTiles, .mapPages, .unmapPages, .loadKey, .freeKey, .writeWindow,
    .clearWindow, .allocateQueue, .destroyQueue, .restartQueue, .markCheckpointQueue, .allotGroups, .allotExperts,
    .registerImageKey, .setFaultMode, .setMonitorVector, .setDeadline, .setPowerRank, .registerSafeTier,
    .reserveBuddyRegion, .setHostVisible, .registerCollectiveSet, .setEventRing, .faultAnswer, .preemptContext,
    .resumeContext, .loadCheckpoint, .pauseQueue]

/-- The request that the host has started (R328). -/
def mailEvents (s : State) : List Event :=
  if s.mail.started then
    [(if s.mail.op = 0 then .reservedOpRequest else (mailInstrs[s.mail.op - 1]?).getD .reservedOpRequest,
      { n := s.mail.op, req := s.mail.request })]
  else []

/-- The events of the policy core, the bindery, the host queues, the balancers and the links. -/
def binderyEvents (s : State) : List Event :=
  mailEvents s ++ s.policyQ.map (fun r => (.policyCoreAnswer, { n := r.id }))
    ++ (s.ctxs.filter (fun c => c.preq && !c.quiet)).flatMap (fun c =>
      [(.contextQuiesce, { n := c.num }), (.preemptionDeadline, { n := c.num })])
    ++ s.queues.flatMap (fun q =>
      q.started.map (fun p => (.packetComplete, { n := q.num, m := p.idx }))
        ++ [(packetEvent s q, { n := q.num }), (.queueMap, { n := q.num }), (.queueQuantumExpiry, { n := q.num }),
          (.queueFreed, { n := q.num })])
    ++ (List.range s.balancers.length).map (fun n => (.balancerDistribute, { n := n }))
    ++ (List.range s.merges.length).map (fun n => (.mergeEmit, { n := n }))
    ++ s.links.map (fun l => (.retrainComplete, { n := l.port }))

/-- The sequences that can take V, the round robin of their core first (R101, R393). -/
def sequenceEvents (s : State) : List Event :=
  let due := s.threads.filter (sequenceDue s)
  let last (k : SlotKey) : Nat := ((s.rrRep.find? (fun x => x.1 = k.coreKey)).map Prod.snd).getD 7
  (due.filter (fun t => due.all (fun u => u.key.coreKey != t.key.coreKey ||
    decide ((t.key.slot + 7 - last t.key) % 8 ≤ (u.key.slot + 7 - last t.key) % 8)))).map
      (fun t => (.repetitionSequenceIssue, { key := t.key }))

/-! ### What the memory system does by itself -/

/-- The next piece of an access whose time has come (R162 to R166). -/
def performDue (s : State) : Option State :=
  s.threads.findSome? fun t => (List.range t.mem.length).findSome? fun n =>
    if (t.mem[n]?.map (fun a => decide (a.due ≤ s.cyc))).getD false then (s.focus t.key).bind (fun s => performNow s n) else none

/-- A release that no longer waits (R176). -/
def releaseDue (s : State) : Option State :=
  s.threads.findSome? fun t => if t.rels.isEmpty then none else (s.focus t.key).bind releaseNow

/-- A stopped thread whose accesses are over is reported (R352). -/
def stopDue (s : State) : Option State :=
  s.threads.findSome? fun t => if t.dying ∧ s.settled t then (s.focus t.key).map State.reportStop else none


/-- An event takes place with its subject in `ev`. -/
def runEvent (e : Event) (s : State) : Out := exec e.1 { s with ev := e.2 }

/-- An event that can take place now. -/
def isDue (s : State) (e : Event) : Bool :=
  match runEvent e s with
  | .next _ => true
  | _ => false

/-- The event that takes place before any slot issues: the boot first (R335). -/
def pickEvent (s : State) : Option Event :=
  if !s.booted then some (.moduleReset, {})
  else (s.threads.flatMap slotEvents ++ unitEvents s ++ dispatchEvents s ++ binderyEvents s).find? (isDue s)

/-- The event that takes place once no slot issues in the cycle. -/
def lateEvent (s : State) : Option Event := (sequenceEvents s).find? (isDue s)

/-! ### Issue (R20, R244) -/

/-- A blocked yawait can be issued again: its ring has a filled slot or has failed, or no longer translates (R276). -/
def yawaitReady (s : State) (ag : Agent) (ring : Word) : Bool :=
  match translate s ag ring .load with
  | .error _ => true
  | .ok l => let r := ringAt s l; r.wp != r.rp || ringErr r

/-- The slot is ready. A tick of its core's array in this cycle comes first (R155), and so does the trap for its
array's fault (R146). -/
def slotReady (s : State) (t : Thread) : Bool :=
  t.life == .running && !overdue s t && t.trapWait.isNone && decide (t.readyAt ≤ s.cyc) && !s.issued.contains t.key.coreKey
    && allWins.all (fun u => !(t.win u).isOpen || (t.win u).left != 0)
    && !tickDue s (s.array t.key.coreKey) && (faultDue s t).isNone && !(t.latch.map Retry.seq).getD false
    && (match t.hold with
      | .none => true
      | .yawait r => yawaitReady s ⟨t.ctx, t.mode = .monitor, some t.key.tile, false⟩ r
      | _ => false)

/-- The slot a core served last. -/
def servedLast (s : State) (c : CoreKey) : Nat := ((s.rr.find? (fun x => x.1 = c)).map Prod.snd).getD 7

/-- The slots that can issue: of each core, the first ready slot after the slot it served last (R20, R244). -/
def nextSlots (s : State) : List SlotKey :=
  let ready := s.threads.filter (slotReady s)
  (ready.filter (fun t => ready.all (fun u => u.key.coreKey != t.key.coreKey ||
    decide ((t.key.slot + 7 - servedLast s t.key.coreKey) % 8 ≤ (u.key.slot + 7 - servedLast s t.key.coreKey) % 8)))).map
      Thread.key

/-! ### Fetch (R45, R316) -/

/-- The thread in focus cannot issue its word in this cycle. -/
def State.holdFetch (s : State) (h : Hold) : State := (s.map (fun t => { t with hold := h })).unissue

/-- The least latency of the level that supplies a line (R22, R45). -/
def lineLatency (s : State) (l : Loc) : Nat :=
  match l.space with
  | .hbm => if s.l2.any (fun y => y.2.2 = l.cell / 64) then 60 else 300
  | _ => 1000

/-- A TLB miss joins the walk of its page, starts one, or waits in arrival order while its die runs 64 (R316). -/
def missTlb (s : State) (page : Nat) : State :=
  let die := dieOf s.th.key.tile
  if s.walks.any (fun w => w.die = die ∧ w.ctx = s.th.ctx ∧ w.page = page) ∨ s.walkQ.contains (die, s.th.ctx, page) then
    s.holdFetch (.walk page)
  else if 64 ≤ s.walks.countP (fun w => w.die = die) then
    { s with walkQ := s.walkQ ++ [(die, s.th.ctx, page)] }.holdFetch (.walk page)
  else
    let (due, s) := s.after 1
    let w : Walk := ⟨die, s.th.ctx, page, due⟩
    ({ s with walks := s.walks ++ [w] }).holdFetch (.walk page)

/-- The word at the PC of the thread in focus is fetched and run, or its page or line is fetched, or its fault held. -/
def fetchAndRun (s : State) : Out :=
  let pc := s.th.pc
  let page := pc.toNat / 4096
  if !s.tlb.contains (s.th.key.coreKey, s.th.ctx, page) then .next (missTlb s page)
  else
    match translate s s.self pc .code with
    | .error k => .next (raiseFault s false 0 0 k pc)
    | .ok l =>
      if !s.ilines.contains (s.th.key.coreKey, s.th.ctx, pc.toNat / 64) then
        let (due, s) := s.after (lineLatency s l)
        .next (s.holdFetch (.line pc due))
      else
        match fetchWord s pc with
        | .error k => .next (raiseFault s false 0 0 k pc)
        | .ok w =>
          if codeBusy s l.cell then .next (s.map (fun t => { t with readyAt := s.cyc + 1 })).unissue
          else exec (decode w) (if l.viewed then s.evict s.th.key.coreKey l.cell else s)

/-- The core has served slot `k`, where its thread has issued: one found not ready after all gives the turn back. -/
def State.served (s : State) (k : SlotKey) : State :=
  if s.issued.contains k.coreKey then { s with rr := (k.coreKey, k.slot) :: s.rr.filter (fun x => x.1 ≠ k.coreKey) } else s

/-- The thread in focus takes the first trap it owes, at the boundary before its next transport (R39). -/
def takeOwed (s : State) : Option State :=
  match s.th.owed with
  | ti :: rest =>
    if s.th.mode = .user then
      some (takeTrap (s.map (fun t => { t with owed := rest, hold := .none })) (if ti.here then { ti with mtpc := s.th.pc } else ti))
    else none
  | [] => none

/-- A thread that stands at an instruction boundary in user mode, also while it holds for a result, takes the trap it owes
(R39, R102). -/
def owedDue (s : State) : Option State :=
  s.threads.findSome? fun t =>
    if t.life == .running && mayHold t.hold && t.trapWait.isNone && decide (t.readyAt ≤ s.cyc) && !overdue s t then
      (s.focus t.key).bind fun s1 => (takeOwed s1).map fun s2 => (s2.focus s.th.key).getD s2
    else none

/-- What is done before any event. -/
def ownMove (s : State) : Option State :=
  (performDue s).or ((releaseDue s).or ((ringOpDue s).or ((peerReplyDue s).or ((stopDue s).or (owedDue s)))))

/-- The slot `k` issues. -/
def issueSlot (k : SlotKey) (s : State) : Out :=
  match s.focus k with
  | none => .fault .noSubject
  | some s =>
    match takeOwed s with
    | some s => .next s
    | none =>
    match fetchAndRun { s.map (fun t => { t with hold := .none }) with issued := k.coreKey :: s.issued } with
    | .next s => .next (s.served k)
    | o => o

/-! ### The cycle -/

/-- The next cycle (R52); a mailbox request whose wait is over completes (R327). -/
def nextCycle (s : State) : State := completeRequest { s with cyc := s.cyc + 1, issued := [], vUsed := [] }

/-- What happens where the agenda says nothing. -/
def ordinary (s : State) : Out :=
  match ownMove s with
  | some s => .next s
  | none =>
  match pickEvent s with
  | some e => runEvent e s
  | none =>
    match nextSlots s with
    | k :: _ => issueSlot k s
    | [] =>
      match lateEvent s with
      | some e => runEvent e s
      | none => .next (nextCycle s)

/-- The agenda may put the event next: it is an event of the table, not a transport, and a sequence's word only where its
core's slots have issued and the rotation has come to it (R20, R101). -/
def mayTurn (s : State) (i : Instr) (e : EvArg) : Bool :=
  (encode i).isNone && (i != .repetitionSequenceIssue ||
    ((sequenceEvents s).any (fun x => x.2.key == e.key) && !(nextSlots s).any (fun k => k.coreKey == e.key.coreKey)))

/-- One step: the head of the agenda, or else the machine's own order. A turn that cannot be taken is dropped. -/
def nextStep (s : State) : Out :=
  match s.agenda with
  | [] => ordinary s
  | .event i e :: rest =>
    if !mayTurn s i e then .next { s with agenda := rest }
    else
    match runEvent (i, e) { s with agenda := rest } with
    | .fault _ => .next { s with agenda := rest }
    | o => o
  | .issue k :: rest =>
    if (nextSlots s).contains k then issueSlot k { s with agenda := rest } else .next { s with agenda := rest }
  | .perform k n :: rest =>
    .next ((((s.focus k).bind (fun s => performNow s n)).map (fun s => { s with agenda := rest })).getD { s with agenda := rest })
  | .strike x :: rest => .next (strikeNow { s with agenda := rest } x)

/-! ### Placing a program (log entry 13) -/

/-- The thread in focus can issue the word at its PC. -/
def canFetch (s : State) : Bool :=
  s.th.life == .running && s.th.owed.isEmpty && slotReady { s with issued := [] } s.th
    && (match fetchWord s s.th.pc with
      | .ok _ => true
      | .error _ => false)

/-- A context with one page of code at 0x10000, one for a record and its frame at 0x20000, and tile 0; its tables
stand in bindery memory, its pages in HBM. -/
def hostedCtx (n : Nat) : Ctx :=
  { num := n, root := 2 ^ 50 + n * 2 ^ 16, tiles := [(0, 0)], vector := 0x10800, areas := [(0, 2 ^ 33 + n * 2 ^ 20)] }

/-- The page tables of that context: a chain of three tables, and two leaf entries. -/
def hostedTables (n : Nat) (m : List Host.Cell) : List Host.Cell :=
  let root := 2 ^ 50 + n * 2 ^ 16
  let pa := 2 ^ 32 + n * 2 ^ 16
  let put (m : List Host.Cell) (a e : Nat) : List Host.Cell := Mem.write m (binderyCell a) (leBytes 8 e)
  let m := put m root (root + 0x1000 + 1)
  let m := put m (root + 0x1000) (root + 0x2000 + 1)
  let m := put m (root + 0x2000) (root + 0x3000 + 1)
  let m := put m (root + 0x3000 + 8 * 0x10) (pa + 0x4F)
  put m (root + 0x3000 + 8 * 0x20) (pa + 0x1000 + 0x47)

/-- After the boot, a thread of a hosted context on slot 0 of core 0 of tile 0, at the start of its record. -/
def hostThread (s : State) : State :=
  let n := s.ctxs.foldl (fun n c => max n (c.num + 1)) 1
  let s := { s with ctxs := s.ctxs ++ [hostedCtx n], mem := hostedTables n s.mem, booted := true }
  let rec_ : Word := 0x20000
  let s := recPut s n rec_ 0 8 0x10000
  let s := recPut s n rec_ 8 8 0x20040
  let s := recPut s n rec_ 0x10 8 (n * 2 ^ 48)
  let s := recPut s n rec_ 0x38 8 2
  s.place (startThread s ⟨0, 0, 0⟩ n rec_ (Vector.replicate 8 {}))

/-- A word placed at the PC of the thread in focus, present in its core's TLB and instruction cache. -/
def placeWord (s : State) (w : Nat) : State :=
  let s := if canFetch s then s else hostThread s
  let k := s.th.key
  let pc := s.th.pc
  match translate s s.self pc .code with
  | .error _ => s
  | .ok l =>
    let s := s.writeAs l.aes l.cell (leBytes 4 w)
    let page := (k.coreKey, s.th.ctx, pc.toNat / 4096)
    let line := (k.coreKey, s.th.ctx, pc.toNat / 64)
    { s with
      agenda := [.issue k]
      issued := s.issued.filter (fun c => c ≠ k.coreKey)
      rr := (k.coreKey, (k.slot + 7) % 8) :: s.rr.filter (fun x => x.1 ≠ k.coreKey)
      tlb := if s.tlb.contains page then s.tlb else page :: s.tlb
      ilines := if s.ilines.contains line then s.ilines else line :: s.ilines }

end Sys2Proof.Machine
end

