-- ==== Sys2Proof/Machine/Step.lean ====
section
/-! DEFINITION. The step. -/

namespace Sys2Proof.Machine

/-- One step of the module: the next turn of the agenda, or the machine's own next event, issue or cycle. -/
def step (s : State) : Host.Outcome State Fault Refusal := nextStep s

/-- The state with a word placed where the next step fetches, and a thread to fetch it where none can. -/
def State.withFetchWord (s : State) (nbits w : Nat) : State := placeWord s (w % 2 ^ min nbits 32)

end Sys2Proof.Machine
end

