-- ==== Sys2Proof/Safety.lean ====
section
/-! DEFINITION. What a safe run is, and the terms claims are stated in: the state a transport finds, what it is given,
and when an access reaches its place, an event its subject, or a request its service. -/

namespace Sys2Proof.Machine

/-! ### Safe states -/

/-- The bindery memory a checkpoint image keeps is canonical and lies in bindery memory (R311, R373). -/
def Stored.wf (x : Stored) : Bool :=
  Mem.wf x.cells && x.cells.all (fun c => decide (binderyCell 0 ≤ c.1 ∧ c.1 < buddyCell 0 0))

/-- The invariant of every run: memory is in its canonical form, in the machine and in the images it has written. -/
def State.safe (s : State) : Bool := Mem.wf s.mem && s.checkpoints.all (fun x => x.2.wf)

/-- A step that is safe: the machine goes on. `Fault.noSubject` and `Refusal.notModelled` are the only other outcomes. -/
def goesOn (o : Out) : Bool :=
  match o with
  | .next _ => true
  | _ => false

/-! ### Transports -/

/-- The state as a transport of the thread in focus finds it: every result due by now is visible (R42). -/
def State.seen (s : State) : State := s.map (fun t => t.settle s.cyc)

/-- That state once the transport has issued: its PC moved on, one transport counted in every open window (R39). -/
def State.passed (s : State) : State := s.seen.advance

/-- A source's dequeue performed, where it has one (R12). -/
def State.taken (s : State) (d : Option (BitVec 3 × Nat × Elem)) : State :=
  match d with
  | none => s
  | some (q, c, e) => s.queueTake q c e

/-- No unit of a list has its window open. -/
def State.closed (s : State) (us : List Win) : Bool := us.all (fun u => !(s.th.win u).isOpen)

/-- A class 00 word to trigger `t` performs its operation with value `w`: its ports are assigned and allowed here, its
guard holds, the windows it would end are not open, its source can be read, and no register it reads has a parity error
(R32 to R40, R55, R368). -/
abbrev Fires (t : Trig) (g : Guard) (src : Src) (s : State) (w : Word) (d : Option (BitVec 3 × Nat × Elem)) : Prop :=
  (srcFate s.th.key s.th.mode src).and (trigFate s.th.key s.th.mode t) = .ok ∧ s.seen.th.holds g = true
    ∧ s.seen.closed (trigWins t) = true ∧ s.seen.readSrc src = .val w d
    ∧ s.seen.th.sound (srcRegs src ++ operandRegs t) = true

/-- A class 00 word to a destination that is no trigger is performed with value `w`. -/
abbrev Moves (dst : Fate) (g : Guard) (src : Src) (s : State) (w : Word) (d : Option (BitVec 3 × Nat × Elem)) : Prop :=
  (srcFate s.th.key s.th.mode src).and dst = .ok ∧ s.seen.th.holds g = true ∧ s.seen.readSrc src = .val w d
    ∧ s.seen.th.sound (srcRegs src) = true

/-- The state as a class 01 word finds it: the word has taken V in its cycle (R101). -/
def State.vseen (s : State) : State := s.takeV.seen

/-- A class 01 word that reads the latches `ops` performs its operation with value `v` (R33, R40, R55). -/
abbrev VFires (ops : List RegRef) (g : Guard) (src : VSource) (s : State) (v : Vec) (d : Option (BitVec 3 × Nat × Elem)) : Prop :=
  vsourceFate s.th.key s.th.mode src = .ok ∧ s.seen.th.holds g = true ∧ s.seen.closed [.v] = true
    ∧ s.vseen.readVSource src = .val v d ∧ s.vseen.th.sound (vsrcRegs src ++ ops) = true

/-! ### What an operation leaves behind -/

/-- The state after a fixed-latency result `r` of port `p` with flags, visible `lat` cycles after the trigger and no
earlier than an earlier result of its port (R42, R78, R79). -/
def State.pending (s : State) (p : Option Latch) (lat : Nat) (r : Word) (v : Vec) (fl : Flags) : State :=
  s.map (fun t => { t with flight := t.flight ++ [
    { port := p, due := (t.flight.filter (fun f => f.port = p)).foldl (fun n f => max n f.due) (s.cyc + lat), r, v, flags := fl }] })

/-- The state after a long-latency operation of unit `u` has opened its window of `l` transports (R39). -/
def State.opened (s : State) (u : Win) (l : BitVec 4) (p : Pend) : State :=
  s.map (fun t => t.setWin u { p with isOpen := true, left := l.toNat, doneAt := max p.doneAt (s.cyc + 1) })

/-- The state with one free value drawn (log entry 2). -/
def State.drawn (s : State) : State := { s with draws := s.draws + 1 }

/-- The completion cycle of an access with a least latency (R22): its excess is a free value. -/
def State.landing (s : State) (least : Nat) : Nat := s.cyc + least + Config.free s.draws

/-- The cycle by which an access that completes in cycle `at1` is performed: a free value up to its completion (log
entry 6). -/
def State.byCycle (s : State) (at1 : Nat) : Nat := min at1 (s.cyc + Config.free (s.draws + 1))

/-- The state with an access of the thread in focus on its way, which has drawn its two cycles. -/
def State.sent (s : State) (a : Access) : State := s.drawn.drawn.map (fun t => { t with mem := t.mem ++ [a] })

/-- A load of `n` bytes at a place, with its attribute word, answering unit `u`. -/
def State.loadOf (s : State) (u : Win) (n : Nat) (sext : Bool) (va : Word) (loc : Loc) (at1 : Nat) : Access :=
  let lo := s.th.get .lo
  { u, load := true, cell := loc.cell, aes := loc.aes, viewed := loc.viewed, n, grain := loc.grain n, sext
    cls := if fld lo 6 5 = 0 then 1 else fld lo 6 5, acq := if fld lo 4 3 % 2 = 1 then some (fld lo 2 0) else none
    due := s.byCycle at1, done := at1, since := s.cyc, va, lo, pc := s.at_ }

/-- A store of bytes that is not posted, with its attribute word, answering unit `u`. -/
def State.storeOf (s : State) (u : Win) (b : List Byte) (va : Word) (loc : Loc) (at1 : Nat) : Access :=
  { u, load := false, cell := loc.cell, aes := loc.aes, viewed := loc.viewed, n := b.length, grain := loc.grain b.length
    bytes := b, cls := fld (s.th.get .lo) 6 5, due := s.byCycle at1, done := at1, since := s.cyc, va
    lo := s.th.get .lo, pc := s.at_ }

/-- The acquire of an access, where its attribute word orders one (R171, R185). -/
def State.acquired (s : State) (lo : Word) : State :=
  if (fld lo 4 3) % 2 = 1 then s.acquire (fld lo 2 0) else s

/-! ### Accesses -/

/-- An access of `n` bytes at `a` by the thread in focus passes every check and reaches the place `loc`: `op` is 0 for a
load, 1 for a store, 2 for an atomic (R163, R171, R186, R191). `same` is the unit and class of a store, which may follow
its own posted stores to the line. -/
abbrev Reaches (orders : List Nat) (n : Nat) (need : Need) (op : Nat) (same : Option (Win × Nat)) (a : Word) (s : State)
    (loc : Loc) : Prop :=
  attrOk (s.th.get .lo) orders = true ∧ a.toNat % n = 0 ∧ s.th.acquiring s.cyc = false
    ∧ translate s s.self a need = .ok loc ∧ (s.denied loc.cell op n = 0 ∨ (op = 1 ∧ isPosted s loc = true))
    ∧ s.lineBusy loc.cell n (if op = 1 ∧ isPosted s loc then same else none) = false

/-- Nothing that a release at a scope waits for is outstanding (R170): no posted store without its acknowledgement, no
sibling's store that the thread has read and that is still on its way, no load on its way, no store to be performed, no drain
queued. -/
abbrev Released (s : State) (scope : Nat) : Prop :=
  (scope = 0 ∨ (s.th.unacked = 0 ∧ s.sawPending = false)) ∧ s.loadsOut = false ∧ s.storesOut = false ∧ s.drainQueued = false

/-- Nothing that a fence waits for is outstanding (R172): the counter in every form, earlier loads where it acquires, and
what a release waits for where it releases. -/
abbrev FenceMay (s : State) (a : Attr) : Prop :=
  s.th.unacked = 0 ∧ (a.acq = true → s.loadsOut = false ∧ s.sawPending = false) ∧ (a.rel = true → Released s a.scope)

/-- What a release waits for is over, where the attribute word orders one (R170, R185). -/
abbrev MayRelease (s : State) : Prop := 2 ≤ fld (s.th.get .lo) 4 3 → Released s (fld (s.th.get .lo) 2 0)

/-- The frame extension of the thread in focus can be written whole (R347): what saving it in its slot takes. -/
def FrameOpen (s : State) : Prop :=
  ∃ f z, s.frameOf = .ok f ∧ writeLines s.dev 44 s f (s.th.fullImage s.th.pc []) = .ok z

/-- The ring at `va` can be reached by a Y trigger of the thread in focus (R254). -/
abbrev RingAt (s : State) (va : Word) (loc : Loc) : Prop :=
  s.th.acquiring s.cyc = false ∧ ringLoc s va = .ok loc ∧ s.lineBusy loc.cell 64 none = false

/-- The record at `rec` of a context lies in plain HBM at `l`: the device reads and writes its line there, under the key it
was stored with, and nothing refuses it (R216, R253, R370). -/
abbrev RecordAt (s : State) (ctx : Nat) (rec : Word) (l : Loc) : Prop :=
  rec.toNat % 64 = 0 ∧ translate s (devAgent ctx) rec .load = .ok l ∧ translate s (devAgent ctx) rec .store = .ok l
    ∧ l.space = .hbm ∧ l.cell % 64 = 0 ∧ l.cell + 64 ≤ hbmEnd ∧ s.lineKey (l.cell / 64) = l.aes
    ∧ s.denied l.cell 0 64 = 0 ∧ s.denied l.cell 1 64 = 0

/-- The integrator array may be used by the thread in focus (R148, R149). -/
abbrev MayUseArray (s : State) : Prop :=
  dWith.recIsStageOf s = true
    ∧ ((s.array s.th.key.coreKey).owner = none ∨ (s.array s.th.key.coreKey).owner = some s.th.key)

/-! ### Requests and packets -/

/-- A mailbox request of op `op` is taken up (R328): the mailbox is open, and no request is started; or the host has started
this one in the request area. -/
abbrev TakenUp (op : Nat) (s : State) : Prop :=
  s.mail.opened = true
    ∧ (s.mail.busy = false ∨ (s.mail.started = true ∧ s.mail.op = op ∧ s.mail.request = s.ev.req))

/-- It is taken up and passes the checks of R329: reserved fields are zero, and a request that names a context names a
resident one. -/
abbrev Asked (op : Nat) (named : Bool) (fmt : Bool) (s : State) : Prop :=
  TakenUp op s ∧ s.ev.req.rsv = 0 ∧ fmt = true
    ∧ (if named then (s.ctx? s.ev.req.ctx.toNat).isSome = true else s.ev.req.ctx = 0)

/-- The state with a request in the request area (R328). -/
def State.asked (s : State) (op : Nat) : State :=
  let r := s.ev.req
  let head := BitVec.ofNat 64 (r.tag.toNat * 2 ^ 32 + r.ctx.toNat * 2 ^ 16 + r.rsv.toNat * 2 ^ 8 + op)
  { s with mail := { s.mail with req := Vector.ofFn (fun i => (head :: r.body.toList).getD i.val 0) } }

/-- The queue that the event names starts packet `b` of op `op`, whose header and body are valid (R232, R236, R237). -/
abbrev Starts (op : Nat) (s : State) (q : SwQueue) (b : List Byte) (fmt : Bool) : Prop :=
  headOf s op = some (q, b) ∧ headerOk b = true ∧ fmt = true

end Sys2Proof.Machine
end

