-- ==== Sys2Proof/WellFormed.lean ====
section
/-! DEFINITION. Well-formed instructions: the terms of `Instr` that a word encodes (R32 to R55), each in the one
constructor that its words decode to. An event has no word; every event term is well formed. -/

namespace Sys2Proof

/-- Guard 1000 is no guard (R55). -/
def Guard.wf (g : Guard) : Bool := !(g.inv && g.k == 0)

/-- A latch that is an operand port (R49). -/
def Latch.isOpnd (l : Latch) : Bool := (Latch.opndOf l.opndNum).isSome

/-- A latch that is a result port (R51). -/
def Latch.isRes (l : Latch) : Bool := (Latch.resOf l.resNum).isSome

/-- A scalar source port that R51 and R53 list. -/
def SPort.wf : SPort → Bool
  | .special p => p.readable
  | .res l => l.isRes
  | _ => true

def Src.wf : Src → Bool
  | .imm _ => true
  | .port p => p.wf

/-- A scalar destination that R49, R50 and R53 list. -/
def SDst.wf : SDst → Bool
  | .k n => n != 0
  | .special p => p.writable
  | .opnd l => l.isOpnd
  | _ => true

def VSource.wf : VSource → Bool
  | .vec _ => true
  | .bc p => p.wf

/-- The destinations of a class 00 word that have no row of their own: g registers, operand ports and the special
ports mcause, maddr and mtpc. -/
def SDst.plain : SDst → Bool
  | .g _ => true
  | .opnd l => l.isOpnd
  | .special .mcause | .special .maddr | .special .mtpc => true
  | _ => false

/-- A source that removes or peeks no channel element. -/
def Src.noQueue : Src → Bool
  | .port (.deq _) | .port (.peek _) => false
  | _ => true

/-- A destination number that fits the nine bits of a class 10 word (R44). -/
def SDst.short (d : SDst) : Bool := decide (d.num < 0x200)

/-- The two words R55 takes out of the encoding. -/
def notExcluded (i : Instr) : Bool := encode i != some 0 && encode i != some 0xFFFFFFFF

/-- The fields of an instruction are those of a word. -/
def Instr.fieldsWf : Instr → Bool
  | .add g s => g.wf && s.wf
  | .sub g s => g.wf && s.wf
  | .addw g s => g.wf && s.wf
  | .subw g s => g.wf && s.wf
  | .and g s => g.wf && s.wf
  | .or g s => g.wf && s.wf
  | .xor g s => g.wf && s.wf
  | .andn g s => g.wf && s.wf
  | .shl g s => g.wf && s.wf
  | .shr g s => g.wf && s.wf
  | .sra g s => g.wf && s.wf
  | .shlw g s => g.wf && s.wf
  | .shrw g s => g.wf && s.wf
  | .sraw g s => g.wf && s.wf
  | .rotl g s => g.wf && s.wf
  | .min g s => g.wf && s.wf
  | .max g s => g.wf && s.wf
  | .minu g s => g.wf && s.wf
  | .maxu g s => g.wf && s.wf
  | .mov g s => g.wf && s.wf
  | .sext g s => g.wf && s.wf
  | .zext g s => g.wf && s.wf
  | .bfx g s => g.wf && s.wf
  | .clz g s => g.wf && s.wf
  | .ctz g s => g.wf && s.wf
  | .popc g s => g.wf && s.wf
  | .ceq g s => g.wf && s.wf
  | .cne g s => g.wf && s.wf
  | .clt g s => g.wf && s.wf
  | .cltu g s => g.wf && s.wf
  | .cle g s => g.wf && s.wf
  | .cleu g s => g.wf && s.wf
  | .shl16or g s => g.wf && s.wf
  | .mul g s => g.wf && s.wf
  | .mulw g s => g.wf && s.wf
  | .mulh g s => g.wf && s.wf
  | .mulhu g s => g.wf && s.wf
  | .div g _ s => g.wf && s.wf
  | .divu g _ s => g.wf && s.wf
  | .rem g _ s => g.wf && s.wf
  | .remu g _ s => g.wf && s.wf
  | .fadd g s => g.wf && s.wf
  | .fsub g s => g.wf && s.wf
  | .fmul g s => g.wf && s.wf
  | .fma g s => g.wf && s.wf
  | .fmin g s => g.wf && s.wf
  | .fmax g s => g.wf && s.wf
  | .fneg g s => g.wf && s.wf
  | .fceq g s => g.wf && s.wf
  | .fclt g s => g.wf && s.wf
  | .fcle g s => g.wf && s.wf
  | .fsqrt g _ s => g.wf && s.wf
  | .fdiv g _ s => g.wf && s.wf
  | .fcvtI g s => g.wf && s.wf
  | .fcvtF g s => g.wf && s.wf
  | .fcvtBf g s => g.wf && s.wf
  | .fcvtE4 g s => g.wf && s.wf
  | .fcvtE5 g s => g.wf && s.wf
  | .fexpBf g s => g.wf && s.wf
  | .fexpE4 g s => g.wf && s.wf
  | .fexpE5 g s => g.wf && s.wf
  | .fclass g s => g.wf && s.wf
  | .ld8 g _ s => g.wf && s.wf
  | .ld8u g _ s => g.wf && s.wf
  | .ld16 g _ s => g.wf && s.wf
  | .ld16u g _ s => g.wf && s.wf
  | .ld32 g _ s => g.wf && s.wf
  | .ld32u g _ s => g.wf && s.wf
  | .ld64 g _ s => g.wf && s.wf
  | .ld128 g _ s => g.wf && s.wf
  | .st8 g _ s => g.wf && s.wf
  | .st16 g _ s => g.wf && s.wf
  | .st32 g _ s => g.wf && s.wf
  | .st64 g _ s => g.wf && s.wf
  | .st128 g _ s => g.wf && s.wf
  | .amoAddW g _ s => g.wf && s.wf
  | .amoAddD g _ s => g.wf && s.wf
  | .amoAndW g _ s => g.wf && s.wf
  | .amoAndD g _ s => g.wf && s.wf
  | .amoOrW g _ s => g.wf && s.wf
  | .amoOrD g _ s => g.wf && s.wf
  | .amoXorW g _ s => g.wf && s.wf
  | .amoXorD g _ s => g.wf && s.wf
  | .amoMinW g _ s => g.wf && s.wf
  | .amoMinD g _ s => g.wf && s.wf
  | .amoMaxW g _ s => g.wf && s.wf
  | .amoMaxD g _ s => g.wf && s.wf
  | .amoMinuW g _ s => g.wf && s.wf
  | .amoMinuD g _ s => g.wf && s.wf
  | .amoMaxuW g _ s => g.wf && s.wf
  | .amoMaxuD g _ s => g.wf && s.wf
  | .amoSwapW g _ s => g.wf && s.wf
  | .amoSwapD g _ s => g.wf && s.wf
  | .amoCasW g _ s => g.wf && s.wf
  | .amoCasD g _ s => g.wf && s.wf
  | .amoCasQ g _ s => g.wf && s.wf
  | .amoFadd g _ s => g.wf && s.wf
  | .waddrW g s => g.wf && s.wf
  | .waddrD g s => g.wf && s.wf
  | .waddrGeW g s => g.wf && s.wf
  | .waddrGeD g s => g.wf && s.wf
  | .fence g s => g.wf && s.wf
  | .ddisc g _ s => g.wf && s.wf
  | .dclean g _ s => g.wf && s.wf
  | .dinval g _ s => g.wf && s.wf
  | .sigAdd g _ s => g.wf && s.wf
  | .sigWait g s => g.wf && s.wf
  | .jr g s => g.wf && s.wf
  | .jrl g s => g.wf && s.wf
  | .spawn g s => g.wf && s.wf
  | .spawna g s => g.wf && s.wf
  | .done g s => g.wf && s.wf
  | .yield g s => g.wf && s.wf
  | .park g s => g.wf && s.wf
  | .join g s => g.wf && s.wf
  | .gbar g s => g.wf && s.wf
  | .garrive g s => g.wf && s.wf
  | .pyield g s => g.wf && s.wf
  | .sleep g s => g.wf && s.wf
  | .xgo g _ s => g.wf && s.wf
  | .xstop g _ s => g.wf && s.wf
  | .xwait g _ s => g.wf && s.wf
  | .ycopy g _ s => g.wf && s.wf
  | .ycopyAdd g _ s => g.wf && s.wf
  | .ymcast g _ s => g.wf && s.wf
  | .yring g _ s => g.wf && s.wf
  | .yawait g s => g.wf && s.wf
  | .yrel g _ s => g.wf && s.wf
  | .ypush g _ s => g.wf && s.wf
  | .ydesc g _ s => g.wf && s.wf
  | .pctx g s => g.wf && s.wf
  | .pscaleA g s => g.wf && s.wf
  | .pscaleB g s => g.wf && s.wf
  | .pld g s => g.wf && s.wf
  | .pmma g s => g.wf && s.wf
  | .pmmas g s => g.wf && s.wf
  | .pdrain g s => g.wf && s.wf
  | .pclr g s => g.wf && s.wf
  | .pflags g s => g.wf && s.wf
  | .pjoin g s => g.wf && s.wf
  | .dpatch g s => g.wf && s.wf
  | .dsety g s => g.wf && s.wf
  | .dsetr g s => g.wf && s.wf
  | .dgety g _ s => g.wf && s.wf
  | .dgetr g _ s => g.wf && s.wf
  | .dclk g s => g.wf && s.wf
  | .drun g s => g.wf && s.wf
  | .dhalt g s => g.wf && s.wf
  | .dsave g s => g.wf && s.wf
  | .drest g s => g.wf && s.wf
  | .dstat g s => g.wf && s.wf
  | .hinit g s => g.wf && s.wf
  | .hoffer g s => g.wf && s.wf
  | .hdrain g s => g.wf && s.wf
  | .hroute g _ s => g.wf && s.wf
  | .trap g s => g.wf && s.wf
  | .tret g s => g.wf && s.wf
  | .tfence g s => g.wf && s.wf
  | .idle g s => g.wf && s.wf
  | .vaddF g s => g.wf && s.wf
  | .vsubF g s => g.wf && s.wf
  | .vmulF g s => g.wf && s.wf
  | .vfmaF g s => g.wf && s.wf
  | .vmaxF g s => g.wf && s.wf
  | .vminF g s => g.wf && s.wf
  | .vexp2F g s => g.wf && s.wf
  | .vrcpF g s => g.wf && s.wf
  | .vrsqF g s => g.wf && s.wf
  | .vcvtBf g s => g.wf && s.wf
  | .vcvtE4 g s => g.wf && s.wf
  | .vcvtE5 g s => g.wf && s.wf
  | .vunpBf g s => g.wf && s.wf
  | .vunpE4 g s => g.wf && s.wf
  | .vunpE5 g s => g.wf && s.wf
  | .vaddI g s => g.wf && s.wf
  | .vsubI g s => g.wf && s.wf
  | .vmulI g s => g.wf && s.wf
  | .vand g s => g.wf && s.wf
  | .vor g s => g.wf && s.wf
  | .vxor g s => g.wf && s.wf
  | .vshl g s => g.wf && s.wf
  | .vshr g s => g.wf && s.wf
  | .vsra g s => g.wf && s.wf
  | .vceqF g s => g.wf && s.wf
  | .vcltF g s => g.wf && s.wf
  | .vsel g s => g.wf && s.wf
  | .vbc g s => g.wf && s.wf
  | .vrot g s => g.wf && s.wf
  | .vperm g s => g.wf && s.wf
  | .vsumF g s => g.wf && s.wf
  | .vmaxR g s => g.wf && s.wf
  | .vld g _ s => g.wf && s.wf
  | .vst g _ s => g.wf && s.wf
  | .move g d s => g.wf && d.plain && s.wf && s.noQueue
  | .vectorTransport g (.toVec _ s) => g.wf && s.wf
  | .vectorTransport g (.toScalar l d _) => g.wf && d.wf && (l == 0 || d.long)
  | .enqueue g _ s | .tokenEnqueue g _ s => g.wf && s.wf
  | .dequeue g d _ | .peek g d _ => g.wf && d.plain
  | .guardWrite g k s => g.wf && k != 0 && s.wf
  | .xrndWrite g s | .xflagsWrite g s | .xtenWrite g s | .preqWrite g s | .rfqWrite g s | .mvecWrite g s
  | .mfillWrite g s => g.wf && s.wf
  | .li g d _ => g.wf && d.wf && d.short
  | .liShiftInsert g d _ => g.wf && d.wf && d.shiftable && d.short
  | .br g _ | .brl g _ | .nop g => g.wf
  | .rep g _ _ _ _ => g.wf
  | .encodingNotAnInstruction w =>
    match decodeWord w with
    | .ok _ => false
    | .error _ => true
  | .repetitionSequenceIssue | .resultVisible | .instructionLineArrival | .queueBlockResume
  | .postedStoreAcknowledgement | .offerAcknowledgement | .remoteFaultReport | .writeCombiningTimeout
  | .remoteRequestArrival | .atomicAtHome | .l2LineArrival | .l2Prefetch | .waitWake | .watchUnitRead
  | .waitTimeout | .signalUnitAdd | .sigWaitWake | .sigWaitTimeout | .pressGrant | .pressOperationComplete
  | .pressQueueEntryServed | .rampLimiterWindow | .pjoinTimeout | .domainTick | .integratorFaultTrap
  | .runQueuePop | .priorityRise | .migrationAdvertisement | .migrationMessage | .migrationAnswer
  | .parkWake | .sleepExpiry | .idleWake | .referenceStreamDequeue | .referenceFetchReturn
  | .referenceDemandFetch | .ringClaim | .copyPiece | .copyComplete | .ringPush | .heapOfferArrival
  | .heapCountPublish | .balancerDistribute | .mergeEmit | .trapEntry | .policyCoreAnswer
  | .preemptionDeadline | .contextQuiesce | .powerPolicyCheck | .flitCrcError | .linkRetrain
  | .linkPacketReceived | .pageWalkComplete | .doorbell | .queueMap | .queueQuantumExpiry | .nopCommand
  | .launchPipeline | .launchTask | .wait | .signal | .copy | .barrier | .checkpoint | .packetComplete
  | .queueFreed | .createContext | .destroyContext | .grantTiles | .revokeTiles | .mapPages | .unmapPages
  | .loadKey | .freeKey | .writeWindow | .clearWindow | .allocateQueue | .destroyQueue | .restartQueue
  | .markCheckpointQueue | .allotGroups | .allotExperts | .registerImageKey | .setFaultMode
  | .setMonitorVector | .setDeadline | .setPowerRank | .registerSafeTier | .reserveBuddyRegion
  | .setHostVisible | .registerCollectiveSet | .setEventRing | .faultAnswer | .preemptContext
  | .resumeContext | .loadCheckpoint | .pauseQueue | .eventTailWrite | .barRegisterWrite
  | .hostMemoryAccess | .moduleReset | .getVersion | .getCapabilities | .vendorDefinedRequest
  | .reservedOpPacket | .reservedOpRequest | .snoopOrBackInvalidate | .retrainComplete => true

/-- Well formed: the fields are those of a word, and the word is not one of the two R55 excludes. -/
def Instr.wf (i : Instr) : Bool :=
  match i with
  | .encodingNotAnInstruction _ => i.fieldsWf
  | i => i.fieldsWf && notExcluded i

end Sys2Proof
end

