-- ==== Sys2Proof/Certificates/Slice0/Obligations.lean ====
section
/-! DEFINITION. The statements for the provers. A statement about a word has the form: in every state in which the word
fires (`Fires`, `Moves`, `VFires` of Safety), `exec` answers the next state written out, from the state the transport has
passed (`State.passed`: results due are visible, the PC has moved on, one transport is counted in every window). -/

namespace Sys2Proof.Machine

/-! ### Tables of the rules -/

/-- R80: what each A trigger but bfx writes to a.r, from a.o and the trigger value, in the rule's own arithmetic. -/
def aluRows : List (Trig × (Word → Word → Word)) :=
  [ (.add, fun a t => a + t), (.sub, fun a t => a - t)
  , (.addw, fun a t => ((a + t).setWidth 32).signExtend 64), (.subw, fun a t => ((a - t).setWidth 32).signExtend 64)
  , (.and, fun a t => a &&& t), (.or, fun a t => a ||| t), (.xor, fun a t => a ^^^ t), (.andn, fun a t => a &&& ~~~t)
  , (.shl, fun a t => a <<< (t.toNat % 64)), (.shr, fun a t => a >>> (t.toNat % 64))
  , (.sra, fun a t => BitVec.ofInt 64 (a.toInt / 2 ^ (t.toNat % 64)))
  , (.shlw, fun a t => (a.setWidth 32 <<< (t.toNat % 32)).signExtend 64)
  , (.shrw, fun a t => (a.setWidth 32 >>> (t.toNat % 32)).signExtend 64)
  , (.sraw, fun a t => BitVec.ofInt 64 ((a.setWidth 32).toInt / 2 ^ (t.toNat % 32)))
  , (.rotl, fun a t => (a <<< (t.toNat % 64)) ||| (a >>> (64 - t.toNat % 64)))
  , (.min, fun a t => if a.toInt < t.toInt then a else t), (.max, fun a t => if a.toInt < t.toInt then t else a)
  , (.minu, fun a t => if a.toNat < t.toNat then a else t), (.maxu, fun a t => if a.toNat < t.toNat then t else a)
  , (.mov, fun _ t => t)
  , (.sext, fun a t => BitVec.ofInt 64 (Int.bmod a.toNat (2 ^ (t.toNat % 64 + 1))))
  , (.zext, fun a t => BitVec.ofNat 64 (a.toNat % 2 ^ (t.toNat % 64 + 1)))
  , (.clz, fun _ t => BitVec.ofNat 64 ((List.range 64).findIdx (fun i => t.getLsbD (63 - i))))
  , (.ctz, fun _ t => BitVec.ofNat 64 ((List.range 64).findIdx (fun i => t.getLsbD i)))
  , (.popc, fun _ t => BitVec.ofNat 64 ((List.range 64).countP (fun i => t.getLsbD i)))
  , (.ceq, fun a t => if a = t then 1 else 0), (.cne, fun a t => if a = t then 0 else 1)
  , (.clt, fun a t => if a.toInt < t.toInt then 1 else 0), (.cltu, fun a t => if a.toNat < t.toNat then 1 else 0)
  , (.cle, fun a t => if a.toInt ≤ t.toInt then 1 else 0), (.cleu, fun a t => if a.toNat ≤ t.toNat then 1 else 0)
  , (.shl16or, fun a t => (a <<< 16) ||| (t &&& 0xFFFF)) ]

/-- R82: what each multiply writes to m.r, from m.o and the trigger value. -/
def mulRows : List (Trig × (Word → Word → Word)) :=
  [ (.mul, fun a t => BitVec.ofNat 64 (a.toNat * t.toNat))
  , (.mulw, fun a t => BitVec.ofInt 64 (Int.bmod ((a.setWidth 32).toNat * (t.setWidth 32).toNat) (2 ^ 32)))
  , (.mulh, fun a t => BitVec.ofInt 64 (a.toInt * t.toInt / 2 ^ 64))
  , (.mulhu, fun a t => BitVec.ofNat 64 (a.toNat * t.toNat / 2 ^ 64)) ]

/-- R83: what each division writes to m.r where the divisor is not zero, and where it is. -/
def divRows : List (Trig × (Word → Word → Word) × (Word → Word)) :=
  [ (.div, fun a t => BitVec.ofInt 64 (a.toInt.tdiv t.toInt), fun _ => -1)
  , (.divu, fun a t => BitVec.ofNat 64 (a.toNat / t.toNat), fun _ => -1)
  , (.rem, fun a t => a - t * BitVec.ofInt 64 (a.toInt.tdiv t.toInt), fun a => a)
  , (.remu, fun a t => a - t * BitVec.ofNat 64 (a.toNat / t.toNat), fun a => a) ]

/-- R85, R89, R90: the F operations that call Round once, from the mode, the draw, f.o, f.o2 and the trigger value. -/
def roundRows : List (Trig × (Rm → Nat → Word → Word → Word → FRes)) :=
  [ (.fadd, fun rm r a _ t => fp32.add rm r (f32 a) (f32 t)), (.fsub, fun rm r a _ t => fp32.add rm r (f32 a) (f32 t).neg)
  , (.fmul, fun rm r a _ t => fp32.mul rm r (f32 a) (f32 t)), (.fma, fun rm r a c t => fp32.fma rm r (f32 a) (f32 t) (f32 c))
  , (.fcvtF, fun rm r _ _ t => fp32.round rm r (decide (t.toInt < 0)) t.toInt.natAbs 0)
  , (.fcvtBf, fun rm r _ _ t => bf16.convert rm r (f32 t)), (.fcvtE4, fun rm r _ _ t => e4m3.convert rm r (f32 t))
  , (.fcvtE5, fun rm r _ _ t => e5m2.convert rm r (f32 t)) ]

/-- R86 to R91: the F operations that take no draw: their 64-bit result and their flags. -/
def plainRows : List (Trig × (Word → Word → Word × Flags)) :=
  [ (.fmin, fun a t => let x := minMax false (a.setWidth 32) (t.setWidth 32); (x.code.setWidth 64, x.flags))
  , (.fmax, fun a t => let x := minMax true (a.setWidth 32) (t.setWidth 32); (x.code.setWidth 64, x.flags))
  , (.fneg, fun _ t => ((~~~t &&& 0x80000000) ||| (t &&& 0x7FFFFFFF), 0))
  , (.fceq, fun a t => (if (f32 a).eq (f32 t) then 1 else 0, (f32 a).nv ||| (f32 t).nv))
  , (.fclt, fun a t => (if (f32 a).lt (f32 t) then 1 else 0, if (f32 a).isNaN ∨ (f32 t).isNaN then flagNV else 0))
  , (.fcle, fun a t => (if (f32 a).lt (f32 t) ∨ (f32 a).eq (f32 t) then 1 else 0,
      if (f32 a).isNaN ∨ (f32 t).isNaN then flagNV else 0))
  , (.fexpBf, fun _ t => let x := widen bf16 (t.toNat % 2 ^ 16); (x.code.setWidth 64, x.flags))
  , (.fexpE4, fun _ t => let x := widen e4m3 (t.toNat % 2 ^ 8); (x.code.setWidth 64, x.flags))
  , (.fexpE5, fun _ t => let x := widen e5m2 (t.toNat % 2 ^ 8); (x.code.setWidth 64, x.flags))
  , (.fclass, fun _ t => (fclassOf (t.setWidth 32), 0)) ]

/-- R93, R97: the integer and selection operations of V lane by lane, from v.o, v.o2, the trigger value and the lane. -/
def laneRows : List (VTrig × (Vec → Vec → Vec → Nat → W32)) :=
  [ (.vaddI, fun o _ t i => lane o i + lane t i), (.vsubI, fun o _ t i => lane o i - lane t i)
  , (.vmulI, fun o _ t i => lane o i * lane t i), (.vand, fun o _ t i => lane o i &&& lane t i)
  , (.vor, fun o _ t i => lane o i ||| lane t i), (.vxor, fun o _ t i => lane o i ^^^ lane t i)
  , (.vshl, fun o _ t i => lane o i <<< ((lane t i).toNat % 32)), (.vshr, fun o _ t i => lane o i >>> ((lane t i).toNat % 32))
  , (.vsra, fun o _ t i => BitVec.ofInt 32 ((lane o i).toInt / 2 ^ ((lane t i).toNat % 32)))
  , (.vsel, fun o o2 t i => if lane o2 i = 0 then lane t i else lane o i), (.vbc, fun o _ t _ => lane o ((lane t 0).toNat % 16))
  , (.vrot, fun o _ t i => lane o ((i + (lane t 0).toNat) % 16)), (.vperm, fun o _ t i => lane o ((lane t i).toNat % 16)) ]

/-- R88, R93: the FP lane operations that take no draw, with the flags of a lane. -/
def vplainRows : List (VTrig × (Vec → Vec → Nat → FRes)) :=
  [ (.vmaxF, fun o t i => minMax true (lane o i) (lane t i)), (.vminF, fun o t i => minMax false (lane o i) (lane t i))
  , (.vceqF, fun o t i => ⟨if (fl32 o i).eq (fl32 t i) then -1 else 0, (fl32 o i).nv ||| (fl32 t i).nv⟩)
  , (.vcltF, fun o t i => ⟨if (fl32 o i).lt (fl32 t i) then -1 else 0,
      if (fl32 o i).isNaN ∨ (fl32 t i).isNaN then flagNV else 0⟩)
  , (.vunpBf, fun o t i => widen bf16 (o.extractLsb' ((16 * ((lane t 0).toNat % 2) + i) * 16) 16).toNat)
  , (.vunpE4, fun o t i => widen e4m3 (o.extractLsb' ((16 * ((lane t 0).toNat % 4) + i) * 8) 8).toNat)
  , (.vunpE5, fun o t i => widen e5m2 (o.extractLsb' ((16 * ((lane t 0).toNat % 4) + i) * 8) 8).toNat) ]

/-- R93, R94: the lane operations that call Round once a lane, lane 0 first. -/
def vroundRows : List (VTrig × (Vec → Vec → Vec → Nat → Rm → Nat → FRes)) :=
  [ (.vaddF, fun o _ t i rm r => fp32.add rm r (fl32 o i) (fl32 t i))
  , (.vsubF, fun o _ t i rm r => fp32.add rm r (fl32 o i) (fl32 t i).neg)
  , (.vmulF, fun o _ t i rm r => fp32.mul rm r (fl32 o i) (fl32 t i))
  , (.vfmaF, fun o o2 t i rm r => fp32.fma rm r (fl32 o i) (fl32 t i) (fl32 o2 i))
  , (.vexp2F, fun _ _ t i rm r => fp32.exp2 rm r (fl32 t i)), (.vrcpF, fun _ _ t i rm r => fp32.rcp rm r (fl32 t i))
  , (.vrsqF, fun _ _ t i rm r => fp32.rsqrt rm r (fl32 t i)) ]

/-- R95: the shift-in conversions, with the format and the width of an element. -/
def vconvertRows : List (VTrig × Fmt × Nat) := [(.vcvtBf, bf16, 16), (.vcvtE4, e4m3, 8), (.vcvtE5, e5m2, 8)]

/-- R76, R98: node `k` of the reduction tree, in the order of its draws: nodes 0 to 7 take two neighbouring lanes, node
`k` from 8 on the nodes 2(k − 8) and 2(k − 8) + 1; node 14 is the root. The first number bounds the depth. -/
def treeNode (f : Nat → W32 → W32 → FRes) (v : Vec) : Nat → Nat → FRes
  | 0, k => f k (lane v (2 * k)) (lane v (2 * k + 1))
  | n + 1, k =>
    if k < 8 then f k (lane v (2 * k)) (lane v (2 * k + 1))
    else f k (treeNode f v n (2 * (k - 8))).code (treeNode f v n (2 * (k - 8) + 1)).code

/-- 2 to an integer power. -/
def pow2 (n : Int) : Rat := if 0 ≤ n then (2 : Rat) ^ n.toNat else 1 / (2 : Rat) ^ (-n).toNat

/-- The number that a finite value is; 0 for others. -/
def FVal.rat : FVal → Rat
  | .num neg m e => (if neg then -1 else 1) * m * pow2 e
  | _ => 0

/-- The value is a number. -/
def FVal.finite : FVal → Bool
  | .num _ _ _ => true
  | _ => false

/-- The magnitude of a number. -/
def mag (v : Rat) : Rat := if v < 0 then -v else v

/-- R64 to R66, in numbers: a result is the one rounding of a number of sign `neg` whose magnitude is above (`lt`) and at
(`eq`) the numbers given: the neighbours on the format's grid are k and k + 1 quanta of 2^q, the mode chooses `c` of them, and
the result is that number with its flags, or the overflow of R65 and R66 where it is above the largest finite value. -/
def Rounds (f : Fmt) (rm : Rm) (r : Nat) (neg : Bool) (lt eq : Rat → Prop) (res : FRes) : Prop :=
  ∃ (k c : Nat) (q : Int),
    let u := pow2 q
    let lo := (k : Rat) * u
    let mid := lo + u / 2
    f.qmin ≤ q ∧ k < 2 ^ (f.frac + 1) ∧ (q = f.qmin ∨ 2 ^ f.frac ≤ k)
      ∧ (lt lo ∨ eq lo) ∧ ¬lt (lo + u) ∧ ¬eq (lo + u)
      ∧ (eq lo → c = k)
      ∧ (lt lo →
        (rm.mode = 0 → (lt mid → c = k + 1) ∧ (eq mid → c = k + k % 2) ∧ (¬lt mid → ¬eq mid → c = k))
        ∧ (rm.mode = 1 → c = k)
        ∧ (rm.mode = 2 → c = if neg then k else k + 1)
        ∧ (rm.mode = 3 → c = if neg then k + 1 else k)
        ∧ (rm.mode = 4 → (lt mid ∨ eq mid → c = k + 1) ∧ (¬lt mid → ¬eq mid → c = k))
        ∧ (rm.mode = 5 → (lt (lo + (r : Rat) * u / 65536) → c = k + 1) ∧ (¬lt (lo + (r : Rat) * u / 65536) → c = k)))
      ∧ (let tiny : Prop := ¬lt (pow2 f.emin) ∧ ¬eq (pow2 f.emin)
        let w := (c : Rat) * u
        let most := (f.value f.maxCode).rat
        (w ≤ most → (∃ m e, f.value res.code.toNat = .num neg m e ∧ (m : Rat) * pow2 e = w)
          ∧ (eq lo → res.flags = 0) ∧ (lt lo → tiny → res.flags = flagNX ||| flagUF) ∧ (lt lo → ¬tiny → res.flags = flagNX))
        ∧ (most < w → f.hasInf = true → res = ⟨f.code neg (if rm.mode = 1 ∨ (rm.mode = 2 ∧ neg = true) ∨ (rm.mode = 3 ∧ neg = false)
            then f.maxCode else f.infCode), flagOF ||| flagNX⟩)
        ∧ (most < w → f.hasInf = false → rm.sat = true → res = ⟨f.code neg f.maxCode, flagOF ||| flagNX ||| flagSAT⟩)
        ∧ (most < w → f.hasInf = false → rm.sat = false → res = ⟨BitVec.ofNat 32 f.nanCode, flagOF ||| flagNX⟩))

/-- A result is the one rounding of a number that is not 0. -/
def RoundsTo (f : Fmt) (rm : Rm) (r : Nat) (v : Rat) (res : FRes) : Prop :=
  Rounds f rm r (decide (v < 0)) (fun q => q < mag v) (fun q => q = mag v) res

end Sys2Proof.Machine

open Sys2Proof Sys2Proof.Machine

/-! ## A, M, F and V -/

/-- R56, R60, R64 to R66, R85, R90, R94: what the operations on numbers deliver, said in numbers: the exact result of an
addition, multiplication, fused multiply-add, division, reciprocal, square root, reciprocal square root or conversion,
where it is not 0, is rounded once. -/
def Rules.RoundedValues : Prop :=
  ∀ (rm : Rm) (r : Nat), rm.mode < 6 → r < 65536 → ∀ ca cb cc : W32,
    let a := fp32.value ca.toNat
    let b := fp32.value cb.toNat
    let c := fp32.value cc.toNat
    a.finite = true → b.finite = true → c.finite = true →
      (a.rat + b.rat ≠ 0 → RoundsTo fp32 rm r (a.rat + b.rat) (fp32.add rm r a b))
      ∧ (a.rat * b.rat ≠ 0 → RoundsTo fp32 rm r (a.rat * b.rat) (fp32.mul rm r a b))
      ∧ (a.rat * b.rat + c.rat ≠ 0 → RoundsTo fp32 rm r (a.rat * b.rat + c.rat) (fp32.fma rm r a b c))
      ∧ (b.rat ≠ 0 → a.rat ≠ 0 → RoundsTo fp32 rm r (a.rat / b.rat) (fp32.div rm r a b))
      ∧ (b.rat ≠ 0 → RoundsTo fp32 rm r (1 / b.rat) (fp32.rcp rm r b))
      ∧ (0 < a.rat → Rounds fp32 rm r false (fun q => q * q < a.rat) (fun q => q * q = a.rat) (fp32.sqrt rm r a))
      ∧ (0 < a.rat → Rounds fp32 rm r false (fun q => q * q * a.rat < 1) (fun q => q * q * a.rat = 1) (fp32.rsqrt rm r a))
      ∧ (a.rat ≠ 0 → ∀ f ∈ [bf16, e4m3, e5m2], RoundsTo f rm r a.rat (f.convert rm r a))
      ∧ ∀ (neg : Bool) (m : Nat) (e : Int), m ≠ 0 →
          RoundsTo fp32 rm r (FVal.num neg m e).rat (fp32.round rm r neg m e)

/-- R80: every A trigger but bfx writes a.r, and nothing else; no flag. -/
def Rules.AluResults : Prop :=
  ∀ r ∈ aluRows, ∀ (g : Guard) (src : Src) (s : State) (w : Word) (d : Option (BitVec 3 × Nat × Elem)),
    Fires r.1 g src s w d →
      exec (r.1.instr g 0 src) s = .next ((s.passed.map (fun t => t.set .ar (r.2 (t.get .ao) w))).taken d)

/-- R81: bfx writes the field that its control word selects; a control word with a reserved bit traps. -/
def Rules.BitFieldExtract : Prop :=
  ∀ (g : Guard) (src : Src) (s : State) (w : Word) (d : Option (BitVec 3 × Nat × Elem)), Fires .bfx g src s w d →
    (w.toNat < 2 ^ 13 →
      exec (.bfx g src) s = .next ((s.passed.map (fun t =>
        let f := (t.get .ao).toNat / 2 ^ (w.toNat % 64) % 2 ^ (w.toNat / 64 % 64 + 1)
        t.set .ar (if w.getLsbD 12 then BitVec.ofInt 64 (Int.bmod f (2 ^ (w.toNat / 64 % 64 + 1))) else BitVec.ofNat 64 f))).taken d))
    ∧ (2 ^ 13 ≤ w.toNat → exec (.bfx g src) s = .next (trapIllegal s.seen))

/-- R82, R83: a multiply launches m.r for 3 cycles later; a division opens a window for 36, with IDZ for a zero divisor. -/
def Obligations.MultiplyDivideResults : Prop :=
  (∀ r ∈ mulRows, ∀ (g : Guard) (src : Src) (s : State) (w : Word) (d : Option (BitVec 3 × Nat × Elem)),
    Fires r.1 g src s w d →
      exec (r.1.instr g 0 src) s = .next ((s.passed.pending (some .mr) 3 (r.2 (s.passed.th.get .mo) w) 0 0).taken d))
  ∧ ∀ r ∈ divRows, ∀ (g : Guard) (l : BitVec 4) (src : Src) (s : State) (w : Word) (d : Option (BitVec 3 × Nat × Elem)),
    Fires r.1 g src s w d →
      exec (r.1.instr g l src) s = .next ((s.passed.opened .m l
        { doneAt := s.cyc + 36, hasRes := true
          r := if w = 0 then r.2.2 (s.passed.th.get .mo) else r.2.1 (s.passed.th.get .mo) w
          flags := if w = 0 then flagIDZ else 0 }).taken d)

/-- R70, R84 to R91: every F operation: its value, its flags, the one draw of an operation that rounds, and when its
result is visible: 4 cycles later, and 24 for fdiv and fsqrt. -/
def Obligations.ScalarFloatResults : Prop :=
  (∀ r ∈ roundRows, ∀ (g : Guard) (src : Src) (s : State) (w : Word) (d : Option (BitVec 3 × Nat × Elem)),
    Fires r.1 g src s w d →
      let (n, x') := takeDraw (s.passed.th.get .xrnd)
      let y := r.2 (rmOf (s.passed.th.get .xrnd)) n (s.passed.th.get .fo) (s.passed.th.get .fo2) w
      exec (r.1.instr g 0 src) s = .next (((s.passed.map (fun t => t.set .xrnd x')).pending (some .fr) 4
        (y.code.setWidth 64) 0 y.flags).taken d))
  ∧ (∀ r ∈ plainRows, ∀ (g : Guard) (src : Src) (s : State) (w : Word) (d : Option (BitVec 3 × Nat × Elem)),
    Fires r.1 g src s w d →
      let y := r.2 (s.passed.th.get .fo) w
      exec (r.1.instr g 0 src) s = .next ((s.passed.pending (some .fr) 4 y.1 0 y.2).taken d))
  ∧ (∀ (g : Guard) (src : Src) (s : State) (w : Word) (d : Option (BitVec 3 × Nat × Elem)), Fires .fcvtI g src s w d →
      let (n, x') := takeDraw (s.passed.th.get .xrnd)
      let y := toInt64 (rmOf (s.passed.th.get .xrnd)) n (f32 w)
      exec (.fcvtI g src) s = .next (((s.passed.map (fun t => t.set .xrnd x')).pending (some .fr) 4 y.1 0 y.2).taken d))
  ∧ ∀ op ∈ [Trig.fdiv, Trig.fsqrt], ∀ (g : Guard) (l : BitVec 4) (src : Src) (s : State) (w : Word)
      (d : Option (BitVec 3 × Nat × Elem)), Fires op g src s w d →
      let (n, x') := takeDraw (s.passed.th.get .xrnd)
      let rm := rmOf (s.passed.th.get .xrnd)
      let y := if op = .fdiv then fp32.div rm n (f32 (s.passed.th.get .fo)) (f32 w) else fp32.sqrt rm n (f32 w)
      exec (op.instr g l src) s = .next (((s.passed.map (fun t => t.set .xrnd x')).opened .f l
        { doneAt := s.cyc + 24, hasRes := true, r := y.code.setWidth 64, flags := y.flags }).taken d)

/-- R93, R97: the integer and selection operations of V: every lane of the result, no flag, no draw. -/
def Rules.VectorLaneResults : Prop :=
  ∀ r ∈ laneRows, ∀ (g : Guard) (src : VSource) (s : State) (v : Vec) (d : Option (BitVec 3 × Nat × Elem)),
    VFires (vOperandRegs r.1) g src s v d →
      ∃ x : Vec, (∀ i < 16, lane x i = r.2 s.seen.th.vo s.seen.th.vo2 v i) ∧
        exec (r.1.instr g 0 src) s = .next ((s.vseen.advance.pending none 4 0 x 0).taken d)

/-- R76, R88, R93 to R98: the FP operations of V: every lane of the result, the union of the lanes' flags, the draws, and
when v.r is visible. -/
def Rules.VectorFloatResults : Prop :=
  (∀ r ∈ vplainRows, ∀ (g : Guard) (src : VSource) (s : State) (v : Vec) (d : Option (BitVec 3 × Nat × Elem)),
    VFires (vOperandRegs r.1) g src s v d →
      ∃ (x : Vec) (fl : Flags), (∀ i < 16, lane x i = (r.2 s.seen.th.vo v i).code)
        ∧ (∀ b < 7, fl.getLsbD b = (List.range 16).any (fun i => (r.2 s.seen.th.vo v i).flags.getLsbD b))
        ∧ exec (r.1.instr g 0 src) s = .next ((s.vseen.advance.pending none 4 0 x fl).taken d))
  ∧ (∀ r ∈ vroundRows, ∀ (g : Guard) (src : VSource) (s : State) (v : Vec) (d : Option (BitVec 3 × Nat × Elem)),
    VFires (vOperandRegs r.1) g src s v d →
      let x0 := s.seen.th.get .xrnd
      let res (i : Nat) : FRes :=
        let xi := skipDraws i x0
        r.2 s.seen.th.vo s.seen.th.vo2 v i (rmOf xi) (takeDraw xi).1
      ∃ (x : Vec) (fl : Flags), (∀ i < 16, lane x i = (res i).code)
        ∧ (∀ b < 7, fl.getLsbD b = (List.range 16).any (fun i => (res i).flags.getLsbD b))
        ∧ exec (r.1.instr g 0 src) s = .next (((s.vseen.advance.map (fun t => t.set .xrnd (skipDraws 16 x0))).pending none
            (if r.1 ∈ [VTrig.vexp2F, .vrcpF, .vrsqF] then 8 else 4) 0 x fl).taken d))
  ∧ (∀ r ∈ vconvertRows, ∀ (g : Guard) (src : VSource) (s : State) (v : Vec) (d : Option (BitVec 3 × Nat × Elem)),
    VFires (vOperandRegs r.1) g src s v d →
      let x0 := s.seen.th.get .xrnd
      let res (i : Nat) : FRes := let xi := skipDraws i x0; r.2.1.convert (rmOf xi) (takeDraw xi).1 (fl32 v i)
      ∃ (x : Vec) (fl : Flags),
        (∀ i < 16, x.extractLsb' (512 - 16 * r.2.2 + i * r.2.2) r.2.2 = (res i).code.setWidth r.2.2)
        ∧ (x.setWidth (512 - 16 * r.2.2)) = (s.seen.th.vo >>> (16 * r.2.2)).setWidth (512 - 16 * r.2.2)
        ∧ (∀ b < 7, fl.getLsbD b = (List.range 16).any (fun i => (res i).flags.getLsbD b))
        ∧ exec (r.1.instr g 0 src) s = .next (((s.vseen.advance.map (fun t => t.set .xrnd (skipDraws 16 x0))).pending none
            4 0 x fl).taken d))
  ∧ ∀ op ∈ [VTrig.vsumF, VTrig.vmaxR], ∀ (g : Guard) (src : VSource) (s : State) (v : Vec)
      (d : Option (BitVec 3 × Nat × Elem)), VFires (vOperandRegs op) g src s v d →
      let x0 := s.seen.th.get .xrnd
      let f (k : Nat) (a b : W32) : FRes := if op = .vmaxR then minMax true a b
        else let xk := skipDraws k x0; fp32.add (rmOf xk) (takeDraw xk).1 (fp32.value a.toNat) (fp32.value b.toNat)
      ∃ fl : Flags, (∀ b < 7, fl.getLsbD b = (List.range 15).any (fun k => (treeNode f v 3 k).flags.getLsbD b))
        ∧ exec (op.instr g 0 src) s =
          .next (((s.vseen.advance.map (fun t => t.set .xrnd (skipDraws (if op = .vsumF then 15 else 0) x0))).pending none 6 0
            (broadcast (treeNode f v 3 14).code) fl).taken d)


/-! ## L: loads, stores, atomics, waits, fences -/

namespace Sys2Proof.Machine

/-- R194: the loads: width in bytes, and whether l.r is sign-extended. -/
def loadRows : List (Trig × Nat × Bool) :=
  [ (.ld8, 1, true), (.ld8u, 1, false), (.ld16, 2, true), (.ld16u, 2, false), (.ld32, 4, true), (.ld32u, 4, false)
  , (.ld64, 8, false), (.ld128, 16, false) ]

/-- R189, R194: l.r and l.r2 from a load's bytes. -/
def loadedValue (n : Nat) (sext : Bool) (b : List Byte) : Word × Word :=
  if n = 16 then (BitVec.ofNat 64 (leNat (b.take 8)), BitVec.ofNat 64 (leNat ((b.drop 8).take 8)))
  else if sext then (BitVec.ofInt 64 (Int.bmod (leNat b) (2 ^ (8 * n))), 0) else (BitVec.ofNat 64 (leNat b), 0)

/-- R194: the stores: width, and the bytes from l.o2 and l.o3, the lowest address first. -/
def storeRows : List (Trig × Nat × (Word → Word → List Byte)) :=
  [ (.st8, 1, fun x _ => leBytes 1 x.toNat), (.st16, 2, fun x _ => leBytes 2 x.toNat), (.st32, 4, fun x _ => leBytes 4 x.toNat)
  , (.st64, 8, fun x _ => leBytes 8 x.toNat), (.st128, 16, fun x y => leBytes 8 x.toNat ++ leBytes 8 y.toNat) ]

/-- A number of `n` bytes as a signed number, in two's complement. -/
def signedOf (n x : Nat) : Int := if x < 2 ^ (8 * n) / 2 then x else (x : Int) - 2 ^ (8 * n)

/-- R196: a read-modify-write of `n` bytes: what is written from the old value and the operands; none: nothing. -/
def amoRows : List (Trig × Nat × (Nat → Nat → Nat → Option Nat)) :=
  [ (.amoAddW, 4, fun m v _ => some ((m + v) % 2 ^ 32)), (.amoAddD, 8, fun m v _ => some ((m + v) % 2 ^ 64))
  , (.amoAndW, 4, fun m v _ => some (m &&& v)), (.amoAndD, 8, fun m v _ => some (m &&& v))
  , (.amoOrW, 4, fun m v _ => some (m ||| v)), (.amoOrD, 8, fun m v _ => some (m ||| v))
  , (.amoXorW, 4, fun m v _ => some (m ^^^ v)), (.amoXorD, 8, fun m v _ => some (m ^^^ v))
  , (.amoMinW, 4, fun m v _ => some (if signedOf 4 v < signedOf 4 m then v else m))
  , (.amoMinD, 8, fun m v _ => some (if signedOf 8 v < signedOf 8 m then v else m))
  , (.amoMaxW, 4, fun m v _ => some (if signedOf 4 m < signedOf 4 v then v else m))
  , (.amoMaxD, 8, fun m v _ => some (if signedOf 8 m < signedOf 8 v then v else m))
  , (.amoMinuW, 4, fun m v _ => some (if v < m then v else m)), (.amoMinuD, 8, fun m v _ => some (if v < m then v else m))
  , (.amoMaxuW, 4, fun m v _ => some (if m < v then v else m)), (.amoMaxuD, 8, fun m v _ => some (if m < v then v else m))
  , (.amoSwapW, 4, fun _ v _ => some v), (.amoSwapD, 8, fun _ v _ => some v)
  , (.amoCasW, 4, fun m v w => if m = v then some w else none), (.amoCasD, 8, fun m v w => if m = v then some w else none)
  , (.amoCasQ, 16, fun m v w => if m = v then some w else none)
  , (.amoFadd, 4, fun m v _ => some (fp32.add Rm.rne 0 (fp32.value m) (fp32.value v)).code.toNat) ]

end Sys2Proof.Machine

/-- R166, R171, R194: a load that passes its checks leaves, to be performed by a cycle that is a free value up to its
completion (log entry 6), and opens an L window that waits for its value. -/
def Rules.LoadLaunch : Prop :=
  ∀ r ∈ loadRows, ∀ (g : Guard) (l : BitVec 4) (src : Src) (s : State) (a : Word) (d : Option (BitVec 3 × Nat × Elem))
    (loc : Loc), Fires r.1 g src s a d → Reaches [0, 1] r.2.1 .load 0 none a s.passed loc →
      let t := s.passed
      let at1 := t.landing (leastLatency t loc)
      exec (r.1.instr g l src) s = .next (((t.sent (t.loadOf .l r.2.1 r.2.2 a loc at1)).opened .l l
        { known := false, doneAt := at1, hasRes := true, acq := fld (t.th.get .lo) 4 3 % 2 = 1 }).taken d)

/-- R164, R178, R180: an access under way is performed piece by piece, each piece at once: a load reads memory as it then
stands (of peer and host memory: memory, or its core's view of the line); a store writes exactly its bytes, and no
register. The last piece ends it: a load's bytes go to its window, or as a new v.r to its thread's sequence. -/
def Rules.AccessPerformed : Prop :=
  ∀ (s t : State) (k : SlotKey) (n : Nat) (rest : List Turn) (a : Access), s.agenda = .perform k n :: rest →
    s.focus k = some t → t.th.mem[n]? = some a → a.retr < 3 →
    let cell := a.cell + a.off
    let w := min a.grain (a.n - a.off)
    let stored := (a.bytes.drop a.off).take w
    (a.load = true → a.viewed = false → a.off + w < a.n → step s =
      .next { t.map (fun th => { th with mem := th.mem.set n { a with bytes := a.bytes ++ t.readAs a.aes cell w, off := a.off + w } })
        with agenda := rest })
    ∧ (a.load = true → a.viewed = false → a.seq = false → a.n ≤ a.off + w →
        let b := a.bytes ++ t.readAs a.aes cell w
        let x := loadedValue a.n a.sext b
        let u := t.map (fun th => { th with mem := th.mem.eraseIdx n })
        let u := match a.acq with
          | some scope => u.acquire scope
          | none => u
        step s = .next { u.map (fun th =>
            let p := { th.win a.u with known := true, doneAt := max (th.win a.u).doneAt t.cyc }
            th.setWin a.u (if a.u = .v then { p with v := BitVec.ofNat 512 (leNat b) } else { p with r := x.1, r2 := x.2 }))
          with agenda := rest })
    ∧ (a.load = true → a.viewed = true → t.siblingPosts t.th.key.coreKey t.th.key cell w = false →
        ∃ (b : List Byte) (z : State), step s = .next z ∧ z.mem = t.mem ∧ z.th.g = t.th.g ∧ z.th.port = t.th.port
          ∧ (b = Mem.bytes t.mem cell w
            ∨ ∃ p, t.view? t.th.key.coreKey cell = some p ∧ b = (p.bytes.drop (cell % 64)).take w)
          ∧ (a.off + w < a.n → z.th.mem = t.th.mem.set n { a with bytes := a.bytes ++ b, off := a.off + w })
          ∧ (a.n ≤ a.off + w → a.seq = false → z.th.mem = t.th.mem.eraseIdx n ∧ (z.th.win a.u).known = true
            ∧ (a.u = .v → (z.th.win a.u).v = BitVec.ofNat 512 (leNat (a.bytes ++ b)))
            ∧ (a.u ≠ .v → ((z.th.win a.u).r, (z.th.win a.u).r2) = loadedValue a.n a.sext (a.bytes ++ b))))
    ∧ (a.load = true → a.viewed = false → a.seq = true → a.n ≤ a.off + w →
        ∃ (z : State) (f : Flight), step s = .next z ∧ z.mem = t.mem ∧ z.th.g = t.th.g ∧ z.th.mem = t.th.mem.eraseIdx n
          ∧ f ∈ z.th.flight ∧ f.port = none ∧ a.done ≤ f.due
          ∧ f.v = BitVec.ofNat 512 (leNat (a.bytes ++ t.readAs a.aes cell w)))
    ∧ (a.load = false → a.off + w < a.n → step s =
        .next { (if a.viewed then State.show (t.writeAs a.aes cell stored) t.th.key.coreKey cell stored
            else t.writeAs a.aes cell stored).map (fun th => { th with mem := th.mem.set n { a with off := a.off + w } })
          with agenda := rest })
    ∧ (a.load = false → a.acq = none → a.n ≤ a.off + w → ∃ z : State, step s = .next z
        ∧ z.mem = (t.writeAs a.aes cell stored).mem
        ∧ z.th.mem = t.th.mem.eraseIdx n ∧ z.th.g = t.th.g ∧ z.th.v = t.th.v ∧ z.th.port = t.th.port
        ∧ (a.seq = false → (z.th.win a.u).known = true))

/-- R23, R180: what a read of a cell's run delivers under the key its line was written with, where it meets no bound
channel's memory (R253): each byte of memory; after a write of the run under that key, the bytes written. -/
def Rules.ReadsItsBytes : Prop :=
  ∀ (s : State) (aes cell : Nat), s.lineKey (cell / 64) = aes ∨ hbmEnd ≤ cell →
    (∀ n, (∀ c ∈ s.chans, c.meets cell n = false) → (s.readAs aes cell n).length = n
      ∧ ∀ i < n, (s.readAs aes cell n).getD i 0 = Mem.byte s.mem (cell + i))
    ∧ ∀ b : List Byte, (∀ c ∈ s.chans, c.meets cell b.length = false) → (s.writeAs aes cell b).readAs aes cell b.length = b

/-- R165, R194: a store to the thread's own scratchpad, to HBM or to cacheable host memory leaves to be performed at its
bank or line; it writes no register, flag or port, and memory changes only as it is performed. -/
def Rules.StoreLaunch : Prop :=
  ∀ r ∈ storeRows, ∀ (g : Guard) (l : BitVec 4) (src : Src) (s : State) (a : Word) (d : Option (BitVec 3 × Nat × Elem))
    (loc : Loc), Fires r.1 g src s a d →
      Reaches [0, 2] r.2.1 .store 1 (some (.l, fld (s.passed.th.get .lo) 6 5)) a s.passed loc →
      MayRelease s.passed → s.passed.storeBehind loc (fld (s.passed.th.get .lo) 6 5) = false →
      s.passed.behindSibling s.passed.th loc.cell r.2.1 = false → isPosted s.passed loc = false →
      let t := s.passed
      let at1 := t.landing (storeLeast loc)
      exec (r.1.instr g l src) s = .next (((t.sent (t.storeOf .l (r.2.2 (t.th.get .lo2) (t.th.get .lo3)) a loc at1)).opened .l l
          { known := false, doneAt := at1 }).taken d)

/-- R23, R92: bytes written under the key their line was written with change exactly the cells they go to. -/
def Rules.WritesExactlyItsBytes : Prop :=
  ∀ (s : State) (aes cell : Nat) (b : List Byte), s.lineKey (cell / 64) = aes →
    (∀ i < b.length, Mem.byte (s.writeAs aes cell b).mem (cell + i) = b.getD i 0)
    ∧ ∀ c, c < cell ∨ cell + b.length ≤ c → Mem.byte (s.writeAs aes cell b).mem c = Mem.byte s.mem c

/-- R167: a store to another tile's scratchpad is posted: the unacknowledged-store counter rises, no memory changes, and
it is on its way with its bytes. -/
def Rules.PostedStoreResults : Prop :=
  ∀ r ∈ storeRows, ∀ (g : Guard) (l : BitVec 4) (src : Src) (s : State) (a : Word) (d : Option (BitVec 3 × Nat × Elem))
    (loc : Loc) (n : Nat), Fires r.1 g src s a d →
      Reaches [0, 2] r.2.1 .store 1 (some (.l, fld (s.passed.th.get .lo) 6 5)) a s.passed loc →
      MayRelease s.passed → s.passed.storeBehind loc (fld (s.passed.th.get .lo) 6 5) = false →
      s.passed.behindSibling s.passed.th loc.cell r.2.1 = false → loc.space = .scr n → n ≠ s.th.key.tile → s.th.unacked < 255 →
      let t := s.passed
      let at1 := t.landing (leastLatency t loc)
      exec (r.1.instr g l src) s = .next (((t.drawn.map (fun x => { x with
          unacked := x.unacked + 1
          posted := x.posted ++ [{
            cell := loc.cell, bytes := r.2.2 (t.th.get .lo2) (t.th.get .lo3), due := at1, cls := fld (t.th.get .lo) 6 5, va := a
            key := loc.aes, refuse := t.denied loc.cell 1 r.2.1, scr := true, u := .l, lat := at1 - t.cyc, since := t.cyc
            grain := if r.2.1 = 16 then 16 else 8 }] })).opened .l l { doneAt := s.cyc + 1 }).taken d)

/-- R168: a store through a peer window or to uncached host memory is posted through the write-combining buffer: the
counter rises and no memory changes; its entry carries its bytes. -/
def Rules.CombinedStoreResults : Prop :=
  ∀ r ∈ storeRows, ∀ (g : Guard) (l : BitVec 4) (src : Src) (s : State) (a : Word) (d : Option (BitVec 3 × Nat × Elem))
    (loc : Loc), Fires r.1 g src s a d →
      Reaches [0, 2] r.2.1 .store 1 (some (.l, fld (s.passed.th.get .lo) 6 5)) a s.passed loc →
      MayRelease s.passed → s.passed.storeBehind loc (fld (s.passed.th.get .lo) 6 5) = false →
      s.passed.behindSibling s.passed.th loc.cell r.2.1 = false → loc.space = .peer ∨ loc.space = .hostUncached → s.th.unacked < 255 →
      let t := s.passed
      ∃ u : State, exec (r.1.instr g l src) s = .next ((u.opened .l l { doneAt := s.cyc + 1 }).taken d)
        ∧ u.mem = s.mem ∧ u.th.unacked = s.th.unacked + 1 ∧ u.th.g = s.th.g ∧ u.th.port = t.th.port
        ∧ ∃ p ∈ u.th.posted, p.cell = loc.cell ∧ p.bytes = r.2.2 (t.th.get .lo2) (t.th.get .lo3) ∧ p.va = a

/-- R173, R195, R196: an atomic that passes its checks leaves for its home with its operands as captured at its trigger,
and opens an L window that waits for the answer. -/
def Rules.AtomicLaunch : Prop :=
  ∀ r ∈ amoRows, ∀ (g : Guard) (l : BitVec 4) (src : Src) (s : State) (a : Word) (d : Option (BitVec 3 × Nat × Elem))
    (loc : Loc), Fires r.1 g src s a d → Reaches [0, 1, 2, 3] r.2.1 .amo 2 none a s.passed loc →
      MayRelease s.passed → s.passed.storeBehind loc (amoClass (fld (s.passed.th.get .lo) 6 5)) = false →
      amoAdmits r.1 loc = true →
      (loc.viewed = true → s.passed.siblingPosts s.th.key.coreKey s.th.key loc.cell 16 = false) →
      let t := s.passed
      let at1 := t.landing (amoLeast t loc)
      let low (w : Word) : BitVec 128 := BitVec.ofNat 128 (w.toNat % 2 ^ (8 * r.2.1))
      let q : Amo :=
        { key := s.th.key, amo := r.1, cell := loc.cell, aes := loc.aes, va := a
          v := if r.1 = .amoCasQ then t.th.get .lr2 ++ t.th.get .lr else low (t.th.get .lo2)
          w := if r.1 = .amoCasQ then t.th.get .lo3 ++ t.th.get .lo2 else low (t.th.get .lo3)
          due := at1, pc := s.th.pc, lo := t.th.get .lo, since := s.cyc }
      exec (r.1.instr g l src) s = .next ((State.opened { t.drawn with homeQ := t.homeQ ++ [q] } .l l
        { known := false, doneAt := at1, hasRes := true, acq := fld (t.th.get .lo) 4 3 % 2 = 1 }).taken d)

/-- R163, R171, R173, R195 to R198: at its home an atomic reads its word once, writes the result of its operation, drops
its core's older view of the line, acquires on the value it read, and answers the thread's L window with it. -/
def Rules.AtomicPerformed : Prop :=
  ∀ r ∈ amoRows, ∀ (s : State) (a : Amo), s.homeQ[s.ev.n]? = some a → a.amo = r.1 → amoDue s s.ev.n = true → a.ends = false →
    let m := leNat (s.readAs a.aes a.cell r.2.1)
    let s1 := { s with homeQ := s.homeQ.eraseIdx s.ev.n }
    let s2 := match r.2.2 m a.v.toNat a.w.toNat with
      | some w => s1.writeAs a.aes a.cell (leBytes r.2.1 w)
      | none => s1
    let s3 := s2.evict a.key.coreKey a.cell
    let s4 := if fld a.lo 4 3 % 2 = 1 then s3.acquireAt a.key.coreKey (fld a.lo 2 0) else s3
    exec .atomicAtHome s = .next (s4.answerL a.key (fun p => { p with
      r := BitVec.ofNat 64 m, r2 := BitVec.ofNat 64 (m / 2 ^ 64)
      flags := if r.1 = .amoFadd then (fp32.add Rm.rne 0 (fp32.value m) (fp32.value a.v.toNat)).flags else 0 }))

/-- R199, R201: a wait whose word meets its condition returns the word with status 0; one whose word does not holds with
its deadline, and its thread issues nothing meanwhile: it counts, and takes its source's dequeue, only as it ends, which is
the model's choice (log entry 45). -/
def Rules.WaitOnWord : Prop :=
  ∀ r ∈ [(Trig.waddrW, 4, false), (.waddrD, 8, false), (.waddrGeW, 4, true), (.waddrGeD, 8, true)],
    ∀ (g : Guard) (src : Src) (s : State) (a : Word) (d : Option (BitVec 3 × Nat × Elem)) (loc : Loc),
      Fires r.1 g src s a d → Reaches [0, 1] r.2.1 .load 0 none a s.passed loc → fld (s.passed.th.get .lo3) 63 32 = 0 →
      (loc.viewed = true → s.passed.siblingPosts s.th.key.coreKey s.th.key loc.cell r.2.1 = false) → s.th.unperformed = none →
      let t := s.passed
      let x := leNat (t.readAs loc.aes loc.cell r.2.1)
      let v := (t.th.get .lo2).toNat % 2 ^ (8 * r.2.1)
      let met : Prop := if r.2.2 then (x + 2 ^ (8 * r.2.1) - v) % 2 ^ (8 * r.2.1) < 2 ^ (8 * r.2.1 - 1) else x ≠ v
      let tmo := fld (t.th.get .lo3) 31 0
      let t1 := if loc.viewed then t.drawn.evict s.th.key.coreKey loc.cell else t.drawn
      (met → exec (r.1.instr g 0 src) s = .next ((((t1.map (fun th =>
          { (th.set .lr (BitVec.ofNat 64 x)).set .lr2 0 with hold := .none, readyAt := s.cyc + 1 })).acquired (t.th.get .lo)).map
            (fun th => { th with readyAt := t.landing (leastLatency t loc) })).taken d))
      ∧ (¬met → exec (r.1.instr g 0 src) s = .next (s.seen.map (fun th => { th with
          hold := .waddr a r.2.1 r.2.2 (t.th.get .lo2) (t.th.get .lo) (if tmo = 0 then none else some (s.cyc + tmo)) (s.cyc + 2800)
          unperformed := some (d.map Prod.fst), retr := 0 })))

/-- R172, R202: a fence with nothing outstanding and no report pending goes on; its acquire side drops what its core
holds of peer and host lines as its scope says (R171); at .th scope it only goes on. -/
def Rules.FenceCompletes : Prop :=
  ∀ (g : Guard) (src : Src) (s : State) (w : Word) (d : Option (BitVec 3 × Nat × Elem)), Fires .fence g src s w d →
    let t := s.passed
    let lo := t.th.get .lo
    attrOk lo [0, 1, 2, 3] = true →
    (fld lo 2 0 = 0 → exec (.fence g src) s = .next (t.taken d))
    ∧ (FenceMay t (attrOf lo) → fld lo 2 0 ≠ 0 → (fld lo 2 0 < 3 ∨ t.th.rfq = 0 ∨ t.th.mode = .monitor) →
        exec (.fence g src) s = .next ((t.acquired lo).taken d))

/-- R193: a fence at .dm or wider that finds reports pending takes the remote-store-fault trap. -/
def Rules.FenceReportsStoreFaults : Prop :=
  ∀ (g : Guard) (src : Src) (s : State) (w : Word) (d : Option (BitVec 3 × Nat × Elem)), Fires .fence g src s w d →
    let t := s.passed
    let lo := t.th.get .lo
    attrOk lo [0, 1, 2, 3] = true → FenceMay t (attrOf lo) → 3 ≤ fld lo 2 0 →
    t.th.rfq ≠ 0 → t.th.mode = .user → t.th.repKind ≠ 6 →
      exec (.fence g src) s = .next (takeTrap s.seen
        { cause := 5, detail := t.th.repKind.toNat, info := t.th.rfq.setWidth 32, maddr := t.th.repAddr.setWidth 64
          mtpc := s.th.pc })

/-- R203, R204: cache maintenance over a range of one page of HBM or host memory completes and opens an L window: clean
and invalidate leave memory as it is; discard may leave each line as it was or as it was before a store (R181). -/
def Rules.CacheMaintenance : Prop :=
  ∀ (g : Guard) (l : BitVec 4) (src : Src) (s : State) (a : Word) (d : Option (BitVec 3 × Nat × Elem)) (loc : Loc),
    ∀ op ∈ [Trig.ddisc, .dclean, .dinval], Fires op g src s a d →
      let t := s.passed
      let n := (t.th.get .lo2).toNat
      let need : Need := if op = .dclean then .load else .store
      attrOk (t.th.get .lo) [0, 2] = true → n < 2 ^ 32 → a.toNat % 64 = 0 → n % 64 = 0 → t.th.acquiring t.cyc = false →
      MayRelease t → 0 < n → n ≤ 4096 - a.toNat % 4096 → translate t t.self a need = .ok loc →
      t.lineBusy loc.cell n none = false → t.denied loc.cell (if op = .dclean then 0 else 1) n = 0 →
        ∃ (u : State) (at1 : Nat), exec (op.instr g l src) s = .next ((u.opened .l l { doneAt := at1 }).taken d)
          ∧ t.cyc + 1 ≤ at1 ∧ u.th = t.th
          ∧ (op ≠ .ddisc ∨ (loc.space ≠ .hbm ∧ loc.space ≠ .hostCached) → u.mem = t.mem)
          ∧ ∀ c, c < loc.cell ∨ loc.cell + n ≤ c → loc.cell % 64 = 0 → (∀ h ∈ t.hist, h.2.length = 64) →
              Mem.byte u.mem c = Mem.byte t.mem c

/-- R206: sig.add hands its increment to the signal unit and opens an L window; an increment of 2^63 or more, a timeline
error. -/
def Rules.SignalAdd : Prop :=
  ∀ (g : Guard) (l : BitVec 4) (src : Src) (s : State) (h : Word) (d : Option (BitVec 3 × Nat × Elem)),
    Fires .sigAdd g src s h d →
    let t := s.passed
    let lo := t.th.get .lo
    let u := t.th.get .lo2
    attrOk lo [0, 1, 2, 3] = true → h.toNat < 2 ^ 16 → t.th.acquiring t.cyc = false → MayRelease t →
      (u.toNat < 2 ^ 63 → exec (.sigAdd g l src) s = .next ((State.opened { t.drawn with sigQ := t.sigQ ++ [{
          key := s.th.key, ctx := t.th.ctx, handle := h, u, lo, pc := s.th.pc, due := t.landing 150 }] } .l l
        { known := false, doneAt := t.landing 150, hasRes := true, acq := fld lo 4 3 % 2 = 1 }).taken d))
      ∧ (2 ^ 63 ≤ u.toNat → exec (.sigAdd g l src) s = .next (takeTrap s.seen
          { cause := 8, maddr := h, mtpc := s.th.pc, nx := true }))

/-- R205, R207: sig.wait returns the timeline with status 0 where its threshold is met (the wrapping compare of R207),
holds where it is not, and on a handle that names no queue of its context takes the timeline-error trap once the signal unit's
reply is there. That time is the model's choice (log entry 53), and so is that a wait of this kind takes its source's
element at its trigger (log entry 45). -/
def Rules.SignalWait : Prop :=
  ∀ (g : Guard) (src : Src) (s : State) (h : Word) (d : Option (BitVec 3 × Nat × Elem)), Fires .sigWait g src s h d →
    let t := s.passed
    let lo := t.th.get .lo
    let tmo := fld (t.th.get .lo3) 31 0
    attrOk lo [0, 1] = true → h.toNat < 2 ^ 16 → fld (t.th.get .lo3) 63 32 = 0 → t.th.acquiring t.cyc = false →
    s.th.unperformed = none →
      (∀ q, handleQueue t t.th.ctx h = some q → (q.timeline - t.th.get .lo2).toNat < 2 ^ 63 →
        exec (.sigWait g src) s = .next ((((t.drawn.map (fun th =>
          { (th.set .lr q.timeline).set .lr2 0 with hold := .none, readyAt := s.cyc + 1 })).acquired lo).map (fun th =>
            { th with readyAt := t.landing 150 })).taken d))
      ∧ (∀ q, handleQueue t t.th.ctx h = some q → 2 ^ 63 ≤ (q.timeline - t.th.get .lo2).toNat →
        exec (.sigWait g src) s = .next ((t.map (fun th => { th with
          hold := .sigWait h.toNat (t.th.get .lo2) lo (if tmo = 0 then none else some (t.cyc + tmo)) })).taken d))
      ∧ (handleQueue t t.th.ctx h = none → t.th.mode = .user → exec (.sigWait g src) s = .next ((t.drawn.map (fun th => { th with
          owed := th.owed ++ [{ cause := 8, maddr := h, mtpc := s.th.pc, nx := true }], readyAt := t.landing 150 })).taken d))
      ∧ (handleQueue t t.th.ctx h = none → t.th.mode = .monitor → exec (.sigWait g src) s = .next (takeTrap (t.taken d)
          { cause := 8, maddr := h, mtpc := s.th.pc, nx := true }))

/-- R99, R100: vld and vst leave for 64 bytes at the address that lane 0 of v.o2 and of the trigger value give, in pieces
that are single-copy atomic by themselves; a vld's window waits for v.r, a vst stores v.o; a posted vst is counted. -/
def Obligations.VectorMemory : Prop :=
  (∀ (g : Guard) (l : BitVec 4) (src : VSource) (s : State) (v : Vec) (d : Option (BitVec 3 × Nat × Elem)) (loc : Loc),
    VFires (vOperandRegs .vld) g src s v d →
    let t := s.vseen.advance
    let a : Word := lane t.th.vo2 0 ++ lane v 0
    let at1 := t.landing (leastLatency t loc)
    let done := t.th.flightDue none at1
    Reaches [0, 1] 64 .load 0 none a t loc →
      exec (.vld g l src) s = .next (((t.sent { t.loadOf .v 64 false a loc at1 with done := done }).opened .v l
        { known := false, doneAt := done, hasRes := true, acq := fld (t.th.get .lo) 4 3 % 2 = 1 }).taken d))
  ∧ ∀ (g : Guard) (l : BitVec 4) (src : VSource) (s : State) (v : Vec) (d : Option (BitVec 3 × Nat × Elem)) (loc : Loc),
    VFires (vOperandRegs .vst) g src s v d →
    let t := s.vseen.advance
    let a : Word := lane t.th.vo2 0 ++ lane v 0
    let at1 := t.landing (storeLeast loc)
    Reaches [0, 2] 64 .store 1 (some (.v, fld (t.th.get .lo) 6 5)) a t loc → MayRelease t →
    t.storeBehind loc (fld (t.th.get .lo) 6 5) = false → t.behindSibling t.th loc.cell 64 = false →
      (isPosted t loc = false → exec (.vst g l src) s =
        .next (((t.sent (t.storeOf .v (leBytes 64 t.th.vo.toNat) a loc at1)).opened .v l
          { known := false, doneAt := at1 }).taken d))
      ∧ (isPosted t loc = true → t.th.unacked < 255 →
        ∃ u : State, exec (.vst g l src) s = .next ((u.opened .v l { doneAt := t.cyc + 1 }).taken d)
          ∧ u.mem = s.mem ∧ u.th.unacked = t.th.unacked + 1
          ∧ ∃ p ∈ u.th.posted, p.cell = loc.cell ∧ p.bytes = leBytes 64 t.th.vo.toNat ∧ p.va = a)

/-! ## Control words, moves and queues -/

/-- R45, R46, R48: branches, jumps and nop, and the link register of brl and jrl; a jump to an address that is no multiple of 4
traps; a nop with a field is no instruction. -/
def Rules.ControlWords : Prop :=
  (∀ (g : Guard) (off : BitVec 22) (s : State), s.seen.th.holds g = true →
    exec (.br g off) s = .next (s.passed.map (fun t => { t with pc := s.th.pc + off.signExtend 64 * 4, readyAt := s.cyc + 2 }))
    ∧ exec (.brl g off) s = .next (s.passed.map (fun t =>
        { t.setG 31 (s.th.pc + 4) with pc := s.th.pc + off.signExtend 64 * 4, readyAt := s.cyc + 2 })))
  ∧ (∀ (g : Guard) (s : State), exec (.nop g) s = .next s.passed) ∧ decode 0xC0C00000 = .nop ⟨false, 0⟩
  ∧ (∀ w : BitVec 32, w.extractLsb' 30 2 = 3 → w.extractLsb' 22 4 = 3 → w.extractLsb' 0 22 ≠ 0 →
    decode w = .encodingNotAnInstruction w)
  ∧ (∀ (g : Guard) (src : Src) (s : State) (w : Word) (d : Option (BitVec 3 × Nat × Elem)), Fires .jr g src s w d →
    (w.toNat % 4 = 0 →
      exec (.jr g src) s = .next ((s.passed.map (fun t => { t with pc := w, readyAt := s.cyc + 2 })).taken d))
    ∧ (w.toNat % 4 ≠ 0 → exec (.jr g src) s = .next (trapIllegal s.seen)))
  ∧ ∀ (g : Guard) (src : Src) (s : State) (w : Word) (d : Option (BitVec 3 × Nat × Elem)), Fires .jrl g src s w d →
    (w.toNat % 4 = 0 → exec (.jrl g src) s =
      .next ((s.passed.map (fun t => { t.setG 31 (s.th.pc + 4) with pc := w, readyAt := s.cyc + 2 })).taken d))
    ∧ (w.toNat % 4 ≠ 0 → exec (.jrl g src) s = .next (trapIllegal s.seen))

/-- R47: a rep whose block passes the checks hands the sequence to V and goes on after the block, in one transport; a
false guard skips the block; a block that fails a check traps before anything is captured. -/
def Rules.RepStartsSequence : Prop :=
  ∀ (g : Guard) (cm1 : BitVec 6) (stride : BitVec 4) (bm1 : BitVec 3) (la : BitVec 4) (s : State),
    let after := s.th.pc + BitVec.ofNat 64 (4 * (bm1.toNat + 2))
    let check := checkBlock s.seen s.th.pc bm1.toNat stride.toNat cm1.toNat
    (s.seen.th.holds g = false → exec (.rep g cm1 stride bm1 la) s = .next (s.passed.map (fun t => { t with pc := after })))
    ∧ (s.seen.th.holds g = true → s.seen.closed [.v] = true →
      (∀ c, check = .trap c → exec (.rep g cm1 stride bm1 la) s = .next (trapHere s.seen c))
      ∧ ∀ bs ws s1, check = .ok bs → captureScalars s.seen.th s.seen bs = .ok (ws, s1) →
          s.seen.th.sound (blockRegs s.seen.th bs) = true →
        ∃ z : State, exec (.rep g cm1 stride bm1 la) s = .next z ∧ z.th.pc = after
          ∧ z.th.rep = { act := true, gv := blockGuards s.seen.th bs, word := 0, pass := 0, bm1 := bm1.toNat
                         stride := stride.toNat, cm1 := cm1.toNat, addr := s.th.pc
                         words := blockRaw s.seen s.th.pc (bm1.toNat + 1)
                         scal := Vector.ofFn (fun i => ws.getD i.val 0), xrnd := s.seen.th.get .xrnd, next := s.cyc + 1
                         since := s.cyc }
          ∧ (z.th.win .v).isOpen = true ∧ (z.th.win .v).left = la.toNat ∧ (z.th.win .v).rep = true
          ∧ z.th.g = s.th.g ∧ z.th.v = s.th.v ∧ z.mem = s.mem)

/-- R13, R47, R101, R102: the sequencer's next word, in a pass: a move between v registers names them moved on by the
pass times the stride; an operation writes v.r at its latency, with its flags held for the end and its draws from the
sequence's own xrnd. -/
def Rules.SequenceWordIssues : Prop :=
  ∀ (s t : State) (pass word : Nat) (b : BlockWord), s.focus s.ev.key = some t → sequenceDue t t.th = true →
    t.seen.th.rep.todo = some (pass, word) → (t.seen.th.rep.words[word]?).bind blockWord = some b →
    t.seen.th.sound (passRegs t.seen b pass) = true →
    (∀ x y, b.src = .vec (.v x) → b.dst = .vec (.v y) →
      ∃ z, exec .repetitionSequenceIssue s = .next z ∧ z.mem = s.mem ∧ z.th.g = t.th.g
        ∧ z.th.v = (t.th.setV (y + BitVec.ofNat 4 (pass * t.seen.th.rep.stride))
            (t.th.getV (x + BitVec.ofNat 4 (pass * t.seen.th.rep.stride)))).v)
    ∧ ∀ x op, b.src = .vec (.v x) → b.dst = .trig op → op ≠ .vld → op ≠ .vst →
      let y := vectorOp op t.seen.th.vo t.seen.th.vo2 (t.th.getV (x + BitVec.ofNat 4 (pass * t.seen.th.rep.stride)))
        t.seen.th.rep.xrnd
      ∃ z f, exec .repetitionSequenceIssue s = .next z ∧ z.mem = s.mem ∧ z.th.g = t.th.g ∧ z.th.v = t.th.v
        ∧ f ∈ z.th.flight ∧ f.port = none ∧ f.v = y.v ∧ t.cyc + vectorLatency op ≤ f.due ∧ f.flags = 0
        ∧ (z.th.win .v).flags = (t.th.win .v).flags ||| y.flags

/-- R32, R35, R38, R44, R49: a value moved to a g register, an operand port or a guard; g0 and k0 take no write. The
words that dequeue or peek are the same transport from their queue port; li moves its sign-extended immediate, and
li with shift-insert the old value moved up by 16 bits and the immediate in its place. -/
def Rules.ScalarMoves : Prop :=
  (∀ (i : Instr) (g : Guard) (dst : SDst) (src : Src) (s : State) (w : Word) (d : Option (BitVec 3 × Nat × Elem)),
    (i = .move g dst src ∨ (∃ n, src = .port (.deq n) ∧ i = .dequeue g dst n)
      ∨ (∃ n, src = .port (.peek n) ∧ i = .peek g dst n) ∨ (∃ n, dst = .k n ∧ i = .guardWrite g n src)) →
    Moves (dstFate s.th.key s.th.mode dst) g src s w d →
      (∀ r, dst = .g r → exec i s =
        .next ((s.passed.map (fun t => if r = 0 then t
          else { t with g := t.g.set r.toFin w, bad := t.bad.filter (fun x => x ≠ .g r) })).taken d))
      ∧ (∀ p, dst = .opnd p → exec i s = .next ((s.passed.map (fun t => t.set p w)).taken d))
      ∧ ∀ n, dst = .k n → exec i s = .next ((s.passed.map (fun t => t.setK n (w != 0))).taken d))
  ∧ ∀ (g : Guard) (dst : SDst) (x : BitVec 16) (s : State), dstFate s.th.key s.th.mode dst = .ok →
    s.seen.th.holds g = true →
      (∀ r, dst = .g r → exec (.li g dst x) s = .next (s.passed.map (fun t => t.setG r (x.signExtend 64)))
        ∧ (s.seen.th.sound [.g r] = true → exec (.liShiftInsert g dst x) s =
          .next (s.passed.map (fun t => t.setG r ((t.getG r <<< 16) ||| x.setWidth 64)))))
      ∧ ∀ p, dst = .opnd p → exec (.li g dst x) s = .next (s.passed.map (fun t => t.set p (x.signExtend 64)))
        ∧ (s.seen.th.sound [.latch p] = true → exec (.liShiftInsert g dst x) s =
          .next (s.passed.map (fun t => t.set p ((t.get p <<< 16) ||| x.setWidth 64))))

/-- R34, R35, R38: in every thread g0 reads 0 and k0 reads 1, whatever is written to them. -/
def Rules.HardwiredRegisters : Prop :=
  ∀ (t : Thread) (w : Word) (b : Bool), t.getG 0 = 0 ∧ t.getK 0 = true ∧ t.setG 0 w = t ∧ t.setK 0 b = t
    ∧ (∀ r, r ≠ 0 → (t.setG r w).getG r = w) ∧ ∀ n, n ≠ 0 → (t.setK n b).getK n = b

/-- R44, R48, R50: a long immediate moved to any trigger acts as the trigger's own word: in every state as the one with an
immediate of the same value, where there is one, and for every immediate as the one from a g register that holds the
sign-extended value. -/
def Rules.LongImmediateTriggers : Prop :=
  ∀ (t : Trig) (g : Guard) (s : State),
    (∀ j : BitVec 10, exec (.li g (.trig t) (j.signExtend 16)) s = exec (t.instr g 0 (.imm j)) s)
    ∧ ∀ (x : BitVec 16) (r : BitVec 5), s.seen.th.getG r = BitVec.ofInt 64 x.toInt → s.seen.th.sound [.g r] = true →
        exec (.li g (.trig t) x) s = exec (t.instr g 0 (.port (.g r))) s

/-- R32, R33, R38, R42, R51 to R54, R357: what every source delivers: an immediate its sign-extended value, a register or port
its content (g0 is 0, k0 is 1), cyc the cycle, tid and mctx their fields, a queue port the head of its queue, and a result port
the unit's last visible result, for which the thread waits while a result of the port is on its way; bc() delivers the low 32
bits in every lane. -/
def Rules.SourcesRead : Prop :=
  ∀ s : State,
    (∀ i, s.readSrc (.imm i) = .val (BitVec.ofInt 64 i.toInt) none)
    ∧ (∀ r, s.readSrc (.port (.g r)) = .val (if r = 0 then 0 else s.th.g.toList.getD r.toNat 0) none)
    ∧ (∀ n, s.readSrc (.port (.k n)) = .val (if n = 0 ∨ s.th.k.getLsbD n.toNat = true then 1 else 0) none)
    ∧ s.readSrc (.port .tlev) = .val (s.th.tlev.setWidth 64) none
    ∧ s.readSrc (.port .cyc) = .val (BitVec.ofNat 64 s.cyc) none
    ∧ (∀ c, s.myCtx = some c → s.th.key.slot < 8 → s.th.key.core < 8 → c.logical s.th.key.tile < 2048 →
      ∃ w, s.readSrc (.port .tid) = .val w none ∧ fld w 2 0 = s.th.key.slot ∧ fld w 5 3 = s.th.key.core
        ∧ fld w 16 6 = c.logical s.th.key.tile ∧ fld w 63 17 = 0)
    ∧ (s.th.ctx < 2 ^ 16 → ∃ w, s.readSrc (.port (.special .mctx)) = .val w none ∧ fld w 63 22 = fld s.th.record 47 6
        ∧ fld w 21 16 = 0 ∧ fld w 15 0 = s.th.ctx)
    ∧ (∀ x ∈ [(Special.xrnd, s.th.get .xrnd), (.xflags, s.th.get .xflags), (.xten, s.th.get .xten)
        , (.preq, if s.th.preq then 1 else 0), (.rfq, s.th.rfq.setWidth 64), (.mvec, s.th.mvec), (.mcause, s.th.mcause)
        , (.maddr, s.th.maddr), (.mtpc, s.th.mtpc)], s.readSrc (.port (.special x.1)) = .val x.2 none)
    ∧ (∀ n c e, s.queueRead n = .head c e → s.readSrc (.port (.deq n)) = .val e.word (some (n, c, e))
        ∧ s.readSrc (.port (.peek n)) = .val e.word none)
    ∧ (∀ l : Latch, l ≠ .sr ∨ (∀ r ∈ s.th.rels, r.group = none) →
      ((∀ f ∈ s.th.flight, f.port = some l → f.due ≤ s.cyc) → s.readSrc (.port (.res l)) = .val (s.th.get l) none)
      ∧ ∀ f ∈ s.th.flight, f.port = some l → s.cyc < f.due → ∃ d, s.readSrc (.port (.res l)) = .due d ∧ f.due ≤ d)
    ∧ (∀ r : BitVec 4, s.readVSource (.vec (.v r)) = .val (s.th.v.toList.getD r.toNat 0) none)
    ∧ ((∀ f ∈ s.th.flight, f.port = none → f.due ≤ s.cyc) → s.readVSource (.vec .vr) = .val s.th.vr none)
    ∧ (∀ f ∈ s.th.flight, f.port = none → s.cyc < f.due → ∃ d, s.readVSource (.vec .vr) = .due d ∧ f.due ≤ d)
    ∧ (∀ (p : SPort) (w : Word) (d : Option (BitVec 3 × Nat × Elem)), s.readSrc (.port p) = .val w d →
      ∃ v, s.readVSource (.bc p) = .val v d ∧ ∀ i < 16, v.extractLsb' (32 * i) 32 = w.setWidth 32)

/-- R42: a word whose source is a result on its way is not performed: the thread issues it again in the cycle in which the
result is visible, with nothing of it changed. -/
def Rules.ResultInterlock : Prop :=
  ∀ (g : Guard) (dst : SDst) (src : Src) (s : State) (c : Nat),
    (srcFate s.th.key s.th.mode src).and (dstFate s.th.key s.th.mode dst) = .ok → s.seen.th.holds g = true →
    s.seen.readSrc src = .due c →
      exec (.move g dst src) s = .next ((s.seen.map (fun t => { t with readyAt := c, again := true })).unissue)

/-- R33: a class 01 transport writes a vector destination, or lanes 1 and 0 to a scalar one. -/
def Rules.VectorMoves : Prop :=
  (∀ (g : Guard) (dst : VDst) (src : VSource) (s : State) (v : Vec) (d : Option (BitVec 3 × Nat × Elem)),
    vsourceFate s.th.key s.th.mode src = .ok → s.seen.th.holds g = true → (s.th.win .v).isOpen = false →
    s.vseen.readVSource src = .val v d → s.seen.th.sound (vsrcRegs src) = true →
      exec (.vectorTransport g (.toVec dst src)) s = .next ((s.vseen.advance.map (fun t =>
        match dst with
        | .v r => { t with v := t.v.set r.toFin v, bad := t.bad.filter (fun x => x ≠ .v r) }
        | .vo => { t with vo := v, bad := t.bad.filter (fun x => x ≠ .vo) }
        | .vo2 => { t with vo2 := v, bad := t.bad.filter (fun x => x ≠ .vo2) })).taken d))
  ∧ ∀ (g : Guard) (l : BitVec 4) (p : VPort) (s : State) (v : Vec), isStage s.th.key = true →
    s.seen.th.holds g = true → (s.th.win .v).isOpen = false → s.vseen.readVPort p = .val v none →
    s.seen.th.sound [vportReg p] = true →
      (∀ r, exec (.vectorTransport g (.toScalar l (.g r) p)) s =
        .next (s.vseen.advance.map (fun t => t.setG r (v.extractLsb' 0 64))))
      ∧ ∀ q, latchFate s.th.key q = .ok → exec (.vectorTransport g (.toScalar l (.opnd q) p)) s =
        .next (s.vseen.advance.map (fun t => t.set q (v.extractLsb' 0 64)))

/-- R49, R143, R248, R249: where its channel has room, an enqueue appends its element to the channel behind the port; a
token carries the level and the payload of its word and releases at .dv. Where the array that the thread owns has sunk a
value in the same cycle, the thread's element stands before that value. -/
def Rules.EnqueueAppends : Prop :=
  ∀ (g : Guard) (n : BitVec 3) (src : Src) (s : State) (w : Word) (d : Option (BitVec 3 × Nat × Elem)) (id : Nat) (c : Chan),
    Moves .ok g src s w d → s.passed.queueWrite n = .room id → s.passed.chan? id = some c →
    let t := s.passed
    let token := w &&& 0xFFFFFFFF00000007
    let put (x : Word) (tok : Bool) : State := (t.drawn.chanTouched c (some c.wr)).mapChan id (fun y => { y with
      elems := y.elems ++ [{ word := x, tag := tok, sync := tok
                             ready := max (t.landing c.latency) ((y.elems.getLast?.map Elem.ready).getD 0) }]
      wr := y.wr + 1 })
    exec (.enqueue g n src) s = .next ((enqueueMine t n id w false false).taken d)
    ∧ (Released t 2 → exec (.tokenEnqueue g n src) s = .next ((enqueueMine t n id token true true).taken d))
    ∧ ((s.array s.th.key.coreKey).owner ≠ some s.th.key →
        enqueueMine t n id w false false = put w false ∧ enqueueMine t n id token true true = put token true)

/-- R12, R35, R240, R248 to R250: a dequeue takes the head element after its own writes and sets k7 to its tag, and tlev
to the level of a token: the port's next head is the element behind it, and no other consumer's head changes; the
element leaves a channel of one consumer. A peek takes nothing; an empty queue blocks either, and a full one an enqueue,
with nothing of the thread changed; a queue in error traps with the port's number. -/
def Rules.QueuePorts : Prop :=
  (∀ (g : Guard) (r : BitVec 5) (n : BitVec 3) (s : State) (c : Nat) (e : Elem), s.seen.th.holds g = true →
    s.seen.queueRead n = .head c e →
      (∃ z, exec (.dequeue g (.g r) n) s = .next z ∧ z.th.getK 7 = e.tag
        ∧ z.th.tlev = (if e.tag then e.word.extractLsb' 0 3 else s.seen.th.tlev)
        ∧ z.th.g = (s.th.setG r e.word).g ∧ z.th.pc = s.th.pc + 4 ∧ z.mem = s.mem
        ∧ ∀ ch, s.chan? c = some ch → (ch.cons.map Prod.fst).Nodup → s.myPort n ∈ ch.cons.map Prod.fst →
          ∃ ch', z.chan? c = some ch' ∧ ch'.head? (s.myPort n) = ch.elems[ch.pos (s.myPort n) + 1]?
            ∧ (∀ p ∈ ch.cons.map Prod.fst, p ≠ s.myPort n → ch'.head? p = ch.head? p)
            ∧ (ch.cons = [(s.myPort n, 0)] → ch'.elems = ch.elems.tail))
      ∧ exec (.peek g (.g r) n) s = .next (s.passed.map (fun t => t.setG r e.word)))
  ∧ (∀ (g : Guard) (dst : SDst) (n : BitVec 3) (s : State) (i : Instr), i ∈ [Instr.dequeue g dst n, .peek g dst n] →
    dstFate s.th.key s.th.mode dst = .ok → s.seen.th.holds g = true →
      (s.seen.queueRead n = .empty →
        exec i s = .next ((s.seen.map (fun t => { t with hold := .queue n.toNat true, again := false })).unissue))
      ∧ (s.seen.queueRead n = .error →
        exec i s = .next (takeTrap s.seen { cause := 9, detail := n.toNat, mtpc := s.th.pc })))
  ∧ ∀ (g : Guard) (n : BitVec 3) (src : Src) (s : State) (w : Word) (d : Option (BitVec 3 × Nat × Elem)),
    Moves .ok g src s w d →
      (s.passed.queueWrite n = .full →
        exec (.enqueue g n src) s = .next ((s.seen.map (fun t => { t with hold := .queue n.toNat false, again := false })).unissue))
      ∧ (s.passed.queueWrite n = .error →
        exec (.enqueue g n src) s = .next (takeTrap s.seen { cause := 9, detail := n.toNat, mtpc := s.th.pc })
        ∧ exec (.tokenEnqueue g n src) s = .next (takeTrap s.seen { cause := 9, detail := n.toNat, mtpc := s.th.pc }))

/-- R53, R69, R71, R73, R345, R348, R357: what each write of a special port leaves (xflags keeps the flags that merge in its
cycle), and the trap where a reserved bit or mode is written. A write of rfq keeps the low 16 bits of any value: the
model's choice (log entry 40). -/
def Rules.SpecialPorts : Prop :=
  ∀ (g : Guard) (src : Src) (s : State) (w : Word) (d : Option (BitVec 3 × Nat × Elem)),
    (Moves .ok g src s w d →
      let ok7 : Prop := w.toNat < 2 ^ 7
      let okRnd : Prop := fld w 2 0 < 6 ∧ fld w 31 4 = 0
      (okRnd → exec (.xrndWrite g src) s = .next ((s.passed.map (fun t => t.set .xrnd w)).taken d))
      ∧ (¬okRnd → exec (.xrndWrite g src) s = .next (trapIllegal s.seen))
      ∧ (ok7 → exec (.xflagsWrite g src) s =
          .next ((s.passed.map (fun t => t.set .xflags (w ||| if t.fresh.1 = s.cyc then t.fresh.2.setWidth 64 else 0))).taken d)
        ∧ exec (.xtenWrite g src) s = .next ((s.passed.map (fun t => t.set .xten w)).taken d))
      ∧ (¬ok7 → exec (.xflagsWrite g src) s = .next (trapIllegal s.seen)
        ∧ exec (.xtenWrite g src) s = .next (trapIllegal s.seen)))
    ∧ (Moves (if s.th.mode = .user then .privilege else .ok) g src s w d →
      (w.toNat < 2 → exec (.preqWrite g src) s = .next ((s.passed.map (fun t =>
        { t with preq := w.getLsbD 0 && ((s.myCtx.map Ctx.preq).getD false) })).taken d))
      ∧ (2 ≤ w.toNat → exec (.preqWrite g src) s = .next (trapIllegal s.seen))
      ∧ exec (.rfqWrite g src) s = .next ((s.passed.map (fun t =>
        { t with rfq := w.setWidth 16, repAddr := 0, repKind := 0 })).taken d)
      ∧ exec (.move g (.special .mcause) src) s = .next ((s.passed.map (fun t => { t with mcause := w })).taken d)
      ∧ exec (.move g (.special .maddr) src) s = .next ((s.passed.map (fun t => { t with maddr := w })).taken d)
      ∧ exec (.move g (.special .mtpc) src) s = .next ((s.passed.map (fun t => { t with mtpc := w })).taken d)
      ∧ (w.toNat % 4 = 0 → exec (.mvecWrite g src) s = .next ((s.passed.map (fun t => { t with mvec := w })).taken d))
      ∧ (w.toNat % 4 ≠ 0 → exec (.mvecWrite g src) s = .next s.seen.doubleFault))

/-- R343: a write of mfill with no held entry at the retry ring's slot rp has no effect; with one it writes the value and
the state filled to the entry, moves rp on, and what waits on the slot goes on. -/
def Rules.RetryFill : Prop :=
  ∀ (g : Guard) (src : Src) (s : State) (v : Word) (d : Option (BitVec 3 × Nat × Elem)),
    Moves (if s.th.mode = .user then .privilege else .ok) g src s v d →
    let t := s.passed
    (retryHead t t.th.ctx = none → exec (.mfillWrite g src) s = .next (t.taken d))
    ∧ ∀ l slot e, retryHead t t.th.ctx = some (l, slot, e) →
      (entryHeld t t.th.ctx e = false → exec (.mfillWrite g src) s = .next (t.taken d))
      ∧ (entryHeld t t.th.ctx e = true → Released t 2 → ∀ t1 t2,
        writeVA t (devAgent t.th.ctx) (e + 0x38) (leBytes 8 v.toNat) = .ok t1 →
        writeVA t1 (devAgent t.th.ctx) (e + 0x30) (leBytes 8 2) = .ok t2 →
        exec (.mfillWrite g src) s = .next ((fillSlot
          (ringPut t2 l { ringAt t2 l with rp := (ringAt t2 l).rp + 1 }) t.th.ctx slot v
          (entryBytes t2 t.th.ctx e 0x40 64)).taken d))

/-! ## Events of a slot and of memory -/

/-- R37, R39, R73: the event that makes a window's result visible closes the window, writes the result ports of its unit,
and merges its flags into xflags; where a trap takes the result's place, the trap is taken, or owed behind one that waits
for its entry: that it is owed (Thread.owed) is the model's choice (log entry 16). -/
def Obligations.ResultVisible : Prop :=
  ∀ s t : State, s.focus s.ev.key = some t → resultDue t t.th s.ev.win = true →
    let u := s.ev.win
    let p := t.th.win u
    (p.trap = none → ∃ z, exec .resultVisible s = .next z ∧ (z.th.win u).isOpen = false
      ∧ (p.hasRes = true → (∀ l, winPort u = some l → z.th.get l = p.r) ∧ (u = .l → z.th.get .lr2 = p.r2)
        ∧ (u = .v → z.th.vr = p.v))
      ∧ z.th.get .xflags = t.seen.th.get .xflags ||| p.flags.setWidth 64
      ∧ z.th.g = t.th.g ∧ z.th.v = t.th.v ∧ z.th.k = t.th.k ∧ z.th.pc = t.th.pc ∧ z.mem = s.mem)
    ∧ ∀ ti, p.trap = some ti →
      (t.th.trapWait = none → exec .resultVisible s = .next (takeTrap (t.map (fun x => x.setWin u {})) ti))
      ∧ ∀ tw, t.th.trapWait = some tw →
        exec .resultVisible s = .next (t.map (fun x => { x.setWin u {} with owed := x.owed ++ [ti] }))

/-- R45, R240, R263, R316, R346: what ends a hold: the line's arrival, the queue's element or room, the sleep's end, and
the completion of what a trap waits for; and the completed walk of a page, which enters the core's TLB (here: the thread in
focus alone waits for it), and after which the first miss that waits for a walk of its die starts one. -/
def Rules.FetchAndQueueHolds : Prop :=
  (∀ (s t : State) (va : Word) (due : Nat), s.focus s.ev.key = some t → t.th.hold = .line va due → due ≤ s.cyc →
    ∃ z, exec .instructionLineArrival s = .next z ∧ z.th = { t.th with hold := .none, readyAt := s.cyc } ∧ z.mem = s.mem
      ∧ (t.th.key.coreKey, t.th.ctx, va.toNat / 64) ∈ z.ilines)
  ∧ (∀ (s t : State) (q : BitVec 3) (deq : Bool), s.focus s.ev.key = some t → t.th.hold = .queue q.toNat deq →
    (if deq then t.queueRead q ≠ .empty else t.queueWrite q ≠ .full) →
      exec .queueBlockResume s = .next (t.map (fun x => { x with hold := .none, readyAt := s.cyc + 1 })))
  ∧ (∀ (s t : State) (u : Nat), s.focus s.ev.key = some t → t.th.hold = .sleep u → u ≤ s.cyc →
    exec .sleepExpiry s = .next (t.map (fun x => { x with hold := .none, readyAt := s.cyc })))
  ∧ (∀ (s t : State) (ti : TrapInfo), s.focus s.ev.key = some t → t.th.trapWait = some ti → t.th.drained s.cyc = true →
    exec .trapEntry s = .next (enterTrap t ti))
  ∧ ∀ (s : State) (w : Walk) (loc : Loc), s.walks[s.ev.n]? = some w → w.due ≤ s.cyc → s.th.life ≠ .idle →
    s.th.hold = .walk w.page → s.th.ctx = w.ctx → dieOf s.th.key.tile = w.die → translate s s.self s.th.pc .code = .ok loc →
    (∀ t ∈ s.others, t.hold ≠ .walk w.page ∨ t.ctx ≠ w.ctx ∨ dieOf t.key.tile ≠ w.die) →
      ∃ z, exec .pageWalkComplete s = .next z ∧ z.th = { s.th with hold := .none, readyAt := s.cyc }
        ∧ (s.th.key.coreKey, w.ctx, w.page) ∈ z.tlb ∧ z.mem = s.mem
        ∧ (s.walkQ.find? (fun x => x.1 = w.die) = none → z.walks = s.walks.eraseIdx s.ev.n)
        ∧ ∀ x, s.walkQ.find? (fun x => x.1 = w.die) = some x → z.walkQ = s.walkQ.erase x
            ∧ ∃ due, z.walks = s.walks.eraseIdx s.ev.n ++ [⟨w.die, x.2.1, x.2.2, due⟩]

/-- R15, R22, R26, R182: a prefetch of an address takes a miss register of its line's one home slice, of 32, within a page (which
slice of the line's die is a fixed function of the line, free in Config: log entry 8); one that misses translation is
dropped; the line's arrival frees the register and puts the line into the slice, which holds 16,384 lines. -/
def Rules.SliceLines : Prop :=
  ∀ s : State,
    let x := (s.ev.n, s.ev.m, s.ev.p)
    let here (y : Nat × Nat × Nat) : Bool := y.1 = s.ev.n ∧ y.2.1 = s.ev.m
    let at_ := translate s ⟨s.ev.n, false, none, false⟩ s.ev.w .load
    (∀ l, at_ = .ok l → l.space = .hbm → l.cell < hbmEnd →
      let x := (homeDie l, Config.homeSlice (l.cell / 64) % 48, l.cell / 64)
      s.l2miss.countP (fun y => y.1 = x.1 ∧ y.2.1 = x.2.1) < 32 → l.cell / 64 % 64 ≠ 0 → x ∉ s.l2miss →
        exec .l2Prefetch s = .next { s with l2miss := s.l2miss ++ [x] })
    ∧ (∀ e, at_ = .error e → exec .l2Prefetch s = .next s)
    ∧ (x ∈ s.l2miss → ∃ z, exec .l2LineArrival s = .next z ∧ z = { s with l2miss := s.l2miss.erase x, l2 := z.l2 }
        ∧ x ∈ z.l2 ∧ z.l2.countP here ≤ 16384 ∧ (∀ y ∈ z.l2, y = x ∨ y ∈ s.l2)
        ∧ ∀ y, here y = false → (y ∈ z.l2 ↔ y ∈ s.l2))

/-- R165 to R168, R180, R193: a posted store that is due is performed at its target, piece by piece, and acknowledged with
its last: its bytes change and no others; a refused one is reported instead: the counter falls and rfq rises; a combined
line is sent after 64 cycles. (The thread in focus issued the store.) -/
def Rules.PostedStoreEvents : Prop :=
  (∀ (s t : State) (p : Posted), s.focus s.ev.key = some t → t.th.posted[s.ev.n]? = some p → postedDue t t.th s.ev.n = true →
    p.refuse = 0 →
    let now := p.bytes.take p.grain
    ∃ z, exec .postedStoreAcknowledgement s = .next z ∧ z.th.g = t.th.g ∧ z.th.port = t.th.port
      ∧ (p.bytes.length ≤ p.grain → z.th.posted = t.th.posted.eraseIdx s.ev.n ∧ z.th.unacked = t.th.unacked - 1)
      ∧ (p.grain < p.bytes.length → z.th.unacked = t.th.unacked
          ∧ z.th.posted = t.th.posted.set s.ev.n { p with cell := p.cell + p.grain, bytes := p.bytes.drop p.grain })
      ∧ (t.lineKey (p.cell / 64) = p.key →
        (∀ i < now.length, Mem.byte z.mem (p.cell + i) = now.getD i 0)
        ∧ ∀ c, c < p.cell ∨ p.cell + now.length ≤ c → Mem.byte z.mem c = Mem.byte s.mem c))
  ∧ (∀ (s : State) (p : Posted), s.th.key = s.ev.key → s.th.life ≠ .idle → s.th.posted[0]? = some p →
    postedDue s s.th 0 = true → p.refuse ≠ 0 → p.refuse = s.ev.n → p.va = s.ev.w →
      ∃ z, exec .remoteFaultReport s = .next z ∧ z.mem = s.mem
        ∧ z.th.posted = s.th.posted.eraseIdx 0 ∧ z.th.unacked = s.th.unacked - 1
        ∧ z.th.rfq = (if s.th.rfq = 65535 then 65535 else s.th.rfq + 1)
        ∧ (s.th.rfq = 0 → z.th.repAddr = s.ev.w.setWidth 48 ∧ z.th.repKind = BitVec.ofNat 8 s.ev.n)
        ∧ (s.th.rfq ≠ 0 → z.th.repAddr = s.th.repAddr ∧ z.th.repKind = s.th.repKind))
  ∧ ∀ (s : State) (t : Thread) (p : Posted), t ∈ s.threads → t.key.coreKey = s.ev.key.coreKey → p ∈ t.posted →
    p.wcb = true → p.due ≤ s.cyc → ∃ z, exec .writeCombiningTimeout s = .next z ∧ z.mem = s.mem
      ∧ z.th.posted = (if s.th.key.coreKey = s.ev.key.coreKey then
          s.th.posted.map (fun p => if p.wcb = true ∧ p.due ≤ s.cyc then { p with wcb := false, due := s.cyc + p.lat } else p)
        else s.th.posted)

/-- R12, R199 to R201: the ends of a wait on a word: the condition with status 0; the timeout with status 1, or 0 where the
word read then meets the condition; a watch unit's read, which ends it with 0, 1 or 2; and the host's taking of a line, with
its new contents where it writes it, at which a wait on the line reads once more (here: the one thread of the module). The
wait is performed as it ends: its transport counts, and its source's dequeue takes effect; that, and that a unit's or a
snoop's read is made in the step of its event, is the model's choice (log entry 45). -/
def Rules.WordWaitEnds : Prop :=
  (∀ s : State,
    let s1 := (s.map (fun t => { t with unperformed := none })).advance
    (s.th.unperformed = none → s.performHeld = s) ∧ (s.th.unperformed = some none → s.performHeld = s1)
    ∧ ∀ q c e, s.th.unperformed = some (some q) → s.queueRead q = .head c e → s.performHeld = s1.queueTake q c e)
  ∧ (∀ (s t : State) (a : Word) (n : Nat) (ge : Bool) (v lo : Word) (dl : Option Nat) (w : Nat) (loc : Loc),
    s.focus s.ev.key = some t → t.th.hold = .waddr a n ge v lo dl w → translate t t.self a .load = .ok loc →
    t.denied loc.cell 0 n = 0 →
    let x := leNat (t.readAs loc.aes loc.cell n)
    let m := v.toNat % 2 ^ (8 * n)
    let met : Prop := if ge then (x + 2 ^ (8 * n) - m) % 2 ^ (8 * n) < 2 ^ (8 * n - 1) else x ≠ m
    let ends (status : Nat) : State := ((t.dropView loc).performHeld.map (fun th =>
      { (th.set .lr (BitVec.ofNat 64 x)).set .lr2 (BitVec.ofNat 64 status) with
        hold := .none, readyAt := s.cyc + 1 })).acquired lo
    (loc.space ≠ .peer → met → exec .waitWake s = .next (ends 0))
    ∧ (loc.space ≠ .peer → ¬met → ∀ d, dl = some d → d ≤ s.cyc → exec .waitTimeout s = .next (ends 1))
    ∧ (loc.space = .peer →
      (∀ d, dl = some d → d ≤ s.cyc → (met → exec .waitTimeout s = .next (ends 0))
        ∧ (¬met → exec .waitTimeout s = .next (ends 1)))
      ∧ (w ≤ s.cyc → t.th.retr < 3 → (met → exec .watchUnitRead s = .next (ends 0))
        ∧ (¬met → exec .watchUnitRead s = .next (ends (match dl with
          | some d => if d ≤ s.cyc then 1 else 2
          | none => 2))))))
  ∧ (∀ s : State, ∃ z, exec .snoopOrBackInvalidate s = .next z ∧ (s.ev.bytes.length ≠ 64 → z.mem = s.mem)
    ∧ (s.ev.bytes.length = 64 →
        (∀ i < 64, Mem.byte z.mem (hostCell (s.ev.n * 64) + i) = s.ev.bytes.getD i 0)
        ∧ ∀ c, c < hostCell (s.ev.n * 64) ∨ hostCell (s.ev.n * 64) + 64 ≤ c → Mem.byte z.mem c = Mem.byte s.mem c))
  ∧ ∀ (s : State) (a : Word) (n : Nat) (ge : Bool) (v lo : Word) (dl : Option Nat) (w : Nat) (loc : Loc),
    s.others = [] → s.th.life ≠ .idle → s.ev.bytes.length ≠ 64 → s.th.hold = .waddr a n ge v lo dl w →
    translate s s.self a .load = .ok loc → s.denied loc.cell 0 n = 0 → loc.cell / 64 = hostCell (s.ev.n * 64) / 64 →
    let x := leNat (s.readAs loc.aes loc.cell n)
    let status : Nat := if waitDone ge n x v.toNat then 0 else 2
    exec .snoopOrBackInvalidate s = .next (((s.dropView loc).performHeld.map (fun th =>
      { (th.set .lr (BitVec.ofNat 64 x)).set .lr2 (BitVec.ofNat 64 status) with
        hold := .none, readyAt := s.cyc + 1 })).acquired lo)

/-- R205 to R207: the signal unit adds an increment that has arrived to its timeline and answers with the sum; a waiting
sig.wait returns with status 0 where its threshold is met, 1 where its timeout has passed, and else 3 where its queue was
freed. -/
def Rules.TimelineEvents : Prop :=
  (∀ (s : State) (a : SigAdd), s.sigQ[s.ev.n]? = some a → sigDue s s.ev.n = true →
    (∀ q, handleQueue s a.ctx a.handle = some q →
      ∃ z, exec .signalUnitAdd s = .next z ∧ z.sigQ = s.sigQ.eraseIdx s.ev.n ∧ z.mem = s.mem
        ∧ (∀ x, z.queue? q.num = some x → x.timeline = q.timeline + a.u)
        ∧ (a.key = s.th.key → (s.th.win .l).isOpen = true → (s.th.win .l).known = false →
          (z.th.win .l).r = q.timeline + a.u ∧ (z.th.win .l).r2 = 0 ∧ (z.th.win .l).known = true))
    ∧ (handleQueue s a.ctx a.handle = none → a.key = s.th.key → (s.th.win .l).isOpen = true →
        (s.th.win .l).known = false →
      ∃ z, exec .signalUnitAdd s = .next z ∧ z.sigQ = s.sigQ.eraseIdx s.ev.n ∧ z.queues = s.queues
        ∧ (z.th.win .l).trap = some { cause := 8, maddr := a.handle, mtpc := a.pc, nx := true }))
  ∧ ∀ (s t : State) (q : Nat) (v lo : Word) (dl : Option Nat), s.focus s.ev.key = some t → t.th.hold = .sigWait q v lo dl →
    q < 2 ^ 64 →
    let ends (x : Word) (status : Nat) : State := (t.performHeld.map (fun th =>
      { (th.set .lr x).set .lr2 (BitVec.ofNat 64 status) with hold := .none, readyAt := s.cyc + 1 })).acquired lo
    let last : Word := ((t.queues.find? (fun x => x.num = q)).map SwQueue.timeline).getD 0
    (∀ x, t.queue? q = some x → x.ctx = t.th.ctx →
      ((x.timeline - v).toNat < 2 ^ 63 → exec .sigWaitWake s = .next (ends x.timeline 0))
      ∧ (2 ^ 63 ≤ (x.timeline - v).toNat → ∀ d, dl = some d → d ≤ s.cyc → exec .sigWaitTimeout s = .next (ends x.timeline 1)))
    ∧ (t.queue? q = none →
      ((∀ d, dl = some d → s.cyc < d) → exec .sigWaitWake s = .next (ends last 3))
      ∧ ∀ d, dl = some d → d ≤ s.cyc → exec .sigWaitTimeout s = .next (ends last 1))

/-! ## S and the dispatch units -/

/-- R216 to R218, R224, R225, R258: a spawn goes on at once: with a free slot in its die's pool and room in depth it takes one
slot, whichever is free (log entry 7), writes the child's record there (its code, its frame, the context, priority and depth,
its one successor entry, which names the spawning record, the arguments s.o and s.o2, and the rounding mode), adds one to the
own join counter, queues the child once the thread's earlier accesses are over (R176), and its s.r is the new record 6 cycles
later; with no free slot, or no room in depth, s.r is 0. A spawna of a record that passes the checks writes the record's
context and depth, adds the count to the join counter and counts it against the allowance, and its s.r is the record; past
the allowance, or where a check fails, s.r is 0. (No garrive of the thread has still to give its phase, which comes first.) -/
def Rules.SpawnsGoOn : Prop :=
  (∀ (g : Guard) (src : Src) (s : State) (t : Word) (d : Option (BitVec 3 × Nat × Elem)) (c : Ctx), Fires .spawn g src s t d →
    t.toNat % 4 = 0 → s.passed.myCtx = some c → s.passed.th.awaitsPhase = false →
    let u := s.passed
    let own := u.th.record
    let free := freePoolSlots c (dieOf s.th.key.tile)
    (free = [] ∨ 24 ≤ recDepth u u.th.ctx own → exec (.spawn g src) s = .next ((u.drawn.pending (some .sr) 6 0 0 0).taken d))
    ∧ (free ≠ [] → recDepth u u.th.ctx own < 24 → ∃ slot ∈ free,
        ∀ u1, writeLines (devAgent u.th.ctx) 3 u.drawn slot ([t, slot + 0x40
            , BitVec.ofNat 64 (u.th.ctx * 2 ^ 48 + recPrio u u.th.ctx own * 2 ^ 40 + (recDepth u u.th.ctx own + 1) * 2 ^ 32)
            , slot + 0x1040, 1, u.th.get .so, u.th.get .so2
            , BitVec.ofNat 64 (fld (u.th.get .xrnd) 3 0 * 2 ^ 8)].flatMap (fun x => leBytes 8 x.toNat)) = .ok u1 →
          let u2 := recPut (recPut u1 u.th.ctx slot 0x1040 8 own.toNat) u.th.ctx slot 0x1048 8 0
          let u3 := (recAddJoin u2 u.th.ctx own 1).mapCtx u.th.ctx (fun c => { c with poolUsed := slot :: c.poolUsed })
          exec (.spawn g src) s = .next (((u3.releasing { rec_ := slot, die := dieOf s.th.key.tile, since := s.cyc }).sResult 6
            slot).taken d)))
  ∧ ∀ (g : Guard) (src : Src) (s : State) (t : Word) (d : Option (BitVec 3 × Nat × Elem)) (c : Ctx) (loc : Loc),
    Fires .spawna g src s t d → t.toNat % 64 = 0 → fld (s.passed.th.get .so) 63 16 = 0 → s.passed.myCtx = some c →
    s.passed.th.awaitsPhase = false → translate s.passed s.passed.self t .amo = .ok loc → loc.space = .hbm →
    s.passed.denied loc.cell 0 64 = 0 → s.passed.denied loc.cell 2 64 = 0 → s.passed.lineBusy loc.cell 64 none = false →
    s.passed.th.acquiring s.cyc = false →
    let u := s.passed
    let ctl := recWord u u.th.ctx t 0x10
    let own := recDepth u u.th.ctx u.th.record
    let ctl' := BitVec.ofNat 64 (u.th.ctx * 2 ^ 48 + fld ctl 47 44 * 2 ^ 44 + fld ctl 42 40 * 2 ^ 40 + (own + 1) * 2 ^ 32
      + fld ctl 31 0)
    let checks : Bool := decide (own < 24) && recordOkFields u (recWord u u.th.ctx t 0) (recWord u u.th.ctx t 8) ctl'
      (recWord u u.th.ctx t 0x20) (recWord u u.th.ctx t 0x38) (dieFor u u.th.ctx t (dieOf s.th.key.tile))
    (c.spawnaMax ≤ c.spawnaUsed.length → exec (.spawna g src) s = .next ((u.pending (some .sr) 6 0 0 0).taken d))
    ∧ (c.spawnaUsed.length < c.spawnaMax → checks = false →
      exec (.spawna g src) s = .next (((recSetStatus u u.th.ctx t 5).pending (some .sr) 6 0 0 0).taken d))
    ∧ (c.spawnaUsed.length < c.spawnaMax → checks = true →
      let u1 := recAddJoin (recPut u u.th.ctx t 0x10 8 ctl'.toNat) u.th.ctx u.th.record
        (BitVec.ofNat 32 (fld (u.th.get .so) 15 0))
      let u2 := u1.mapCtx u.th.ctx (fun c => { c with spawnaUsed := t :: c.spawnaUsed })
      exec (.spawna g src) s = .next (((u2.releasing { rec_ := t, die := dieOf s.th.key.tile, since := s.cyc }).sResult 6
        t).taken d))

/-- R216, R219, R229: the words of a record in plain HBM are the bytes of its line; a status write changes the status byte
alone, and a change of the join counter the counter alone. -/
def Rules.RecordFields : Prop :=
  ∀ (s : State) (ctx : Nat) (rec : Word) (l : Loc), RecordAt s ctx rec l →
    (∀ off ∈ [0, 8, 0x10, 0x18, 0x20, 0x28, 0x30, 0x38], ∀ i < 8,
      (recWord s ctx rec off).extractLsb' (8 * i) 8 = Mem.byte s.mem (l.cell + off + i))
    ∧ (∀ n : W32, recJoin (recAddJoin s ctx rec n) ctx rec = recJoin s ctx rec + n
      ∧ ∀ a, a < l.cell + 0x10 ∨ l.cell + 0x14 ≤ a → Mem.byte (recAddJoin s ctx rec n).mem a = Mem.byte s.mem a)
    ∧ ∀ v < 256, fld (recState (recSetStatus s ctx rec v) ctx rec) 7 0 = v
      ∧ ∀ a, a ≠ l.cell + 0x38 → Mem.byte (recSetStatus s ctx rec v).mem a = Mem.byte s.mem a

/-- R14, R223, R229, R259, R260, R263, R359: how a thread leaves its slot: done retires it; yield, join and pyield save a
task whole where they suspend it, and go on where they do not: a yield of a stage, a join whose counter is 0 (which acquires
at .dv), a pyield with preq 0. That a pyield in monitor mode only goes on is the model's choice (log entry 37). -/
def Rules.RetireAndYield : Prop :=
  ∀ (g : Guard) (src : Src) (s : State) (w : Word) (d : Option (BitVec 3 × Nat × Elem)),
    let u := s.passed
    let stage := recIsStage u u.th.ctx u.th.record
    let v := (u.taken d).quiet
    (Fires .done g src s w d → u.th.busy u = false → u.th.owing = none → Released u 2 → (u.th.rfq = 0 ∨ u.th.mode = .monitor) →
      exec (.done g src) s = .next (retire (u.taken d)) ∧ (retire (u.taken d)).th = { key := s.th.key })
    ∧ (Fires .yield g src s w d →
      (stage = true → exec (.yield g src) s = .next (u.taken d))
      ∧ (stage = false → suspendWait u = none → FrameOpen v →
        ∃ y z : State, exec (.yield g src) s = .next z ∧ z.th = { key := s.th.key } ∧ (u.th.ctx, u.th.record) ∈ y.suspended
          ∧ z = appendRecord y (dieFor y u.th.ctx u.th.record (dieOf s.th.key.tile)) u.th.ctx u.th.record))
    ∧ (Fires .join g src s w d →
      (recJoin u u.th.ctx u.th.record = 0 → exec (.join g src) s = .next ((u.acquire 2).taken d))
      ∧ (recJoin u u.th.ctx u.th.record ≠ 0 → stage = true → Released u 2 → exec (.join g src) s =
          .next (((recSetStatus u u.th.ctx u.th.record 3).map (fun t => { t with hold := .join, life := .suspended })).taken d))
      ∧ (recJoin u u.th.ctx u.th.record ≠ 0 → stage = false → suspendWait u = none → FrameOpen v →
          ∃ z, exec (.join g src) s = .next z ∧ z.th = { key := s.th.key } ∧ (u.th.ctx, u.th.record) ∈ z.suspended))
    ∧ (Fires .pyield g src s w d →
      (u.th.preq = false ∨ u.th.mode = .monitor → exec (.pyield g src) s = .next (u.taken d))
      ∧ (u.th.preq = true → u.th.mode = .user → suspendWait u = none → FrameOpen v →
          ∃ z, exec (.pyield g src) s = .next z ∧ z.th = { key := s.th.key }))

/-- R229: the decrement of a successor's join counter: where it reaches 0, a task that waits or is suspended is queued on the
retiring die, or on the lowest die that its mask allows; above 0 nothing is queued; a thread that retires decrements its
successor. -/
def Rules.SuccessorsGo : Prop :=
  (∀ (s : State) (ctx : Nat) (rec : Word) (die : Nat) (l : Loc), RecordAt s ctx rec l →
    recJoin (decrementJoin s ctx rec die) ctx rec = recJoin s ctx rec - 1
    ∧ (recIsStage s ctx rec = false → recJoin s ctx rec = 1 → s.isSaved ctx rec = false →
      recStatus s ctx rec = 0 ∨ recStatus s ctx rec = 3 → recordOk s ctx rec (dieFor s ctx rec die) = true →
        (decrementJoin s ctx rec die).runq = s.runq ++ [{ die := dieFor s ctx rec die, prio := recPrio s ctx rec, ctx := ctx
                                                          record := rec, since := s.cyc, waited := 0 }])
    ∧ (recJoin s ctx rec ≠ 1 → (decrementJoin s ctx rec die).runq = s.runq))
  ∧ ∀ (s : State) (target : Word) (l : Loc), (∀ b ∈ s.pushBinds, b.port.key ≠ s.th.key) →
    fld (recLink s s.th.ctx s.th.record) 15 0 = 1 →
    recWord s s.th.ctx (recWord s s.th.ctx s.th.record 0x18) 0 = target → RecordAt s s.th.ctx target l →
    recIsStage s s.th.ctx target = false → recJoin s s.th.ctx target = 1 → s.isSaved s.th.ctx target = false →
    recStatus s s.th.ctx target = 0 ∨ recStatus s s.th.ctx target = 3 →
    recordOk s s.th.ctx target (dieFor s s.th.ctx target (dieOf s.th.key.tile)) = true →
      ∃ q ∈ (retire s).runq, q.ctx = s.th.ctx ∧ q.record = target
        ∧ q.die = dieFor s s.th.ctx target (dieOf s.th.key.tile)

/-- R261: a park on a word that differs from s.o leaves s.r 0; on one that equals it, a stage thread is suspended in its
slot and a task leaves it, registered at the granule or line of the word; a write there wakes it: it is marked as woken, and
a stage thread's slot goes on with s.r 1. -/
def Rules.ParkSuspends : Prop :=
  (∀ (g : Guard) (src : Src) (s : State) (a : Word) (d : Option (BitVec 3 × Nat × Elem)) (loc : Loc), Fires .park g src s a d →
    a.toNat % 8 = 0 → translate s.passed s.passed.self a .load = .ok loc → (loc.space = .hbm ∨ ∃ t, loc.space = .scr t) →
    s.passed.denied loc.cell 0 8 = 0 → s.passed.lineBusy loc.cell 8 none = false → s.passed.th.awaitsPhase = false →
    s.passed.th.acquiring s.cyc = false →
    let u := s.passed
    let x := BitVec.ofNat 64 (leNat (u.readAs loc.aes loc.cell 8))
    let p : Park := { ctx := u.th.ctx, record := u.th.record, die := homeDie loc
                      cell := (parkUnit loc).1, len := (parkUnit loc).2, woken := false }
    let v := recSetStatus u u.th.ctx u.th.record 3
    (x ≠ u.th.get .so → exec (.park g src) s = .next ((u.pending (some .sr) (leastLatency u loc) 0 0 0).taken d))
    ∧ (x = u.th.get .so → recIsStage u u.th.ctx u.th.record = true → Released u 2 → exec (.park g src) s =
      .next (({ v with parks := v.parks ++ [p] }.map (fun t => { t with hold := .park a (u.th.get .so), life := .suspended })).taken d))
    ∧ (x = u.th.get .so → recIsStage u u.th.ctx u.th.record = false → suspendWait u = none →
      FrameOpen ((u.taken d).quiet.map (fun t => t.set .sr 1)) →
      ∃ z : State, exec (.park g src) s = .next z ∧ p ∈ z.parks ∧ z.th = { key := s.th.key }
        ∧ (u.th.ctx, u.th.record) ∈ z.suspended))
  ∧ (∀ (s : State) (aes cell : Nat) (b : List Byte) (p : Park), p ∈ s.parks → s.lineKey (cell / 64) = aes →
    p.cell < cell + b.length → cell < p.cell + p.len → { p with woken := true } ∈ (s.writeAs aes cell b).parks)
  ∧ ∀ (s : State) (p : Park) (rest : List Park), s.parks = p :: rest → p.ctx = s.ev.n → p.record = s.ev.w → p.woken = true →
    s.th.life ≠ .idle → s.th.ctx = p.ctx → s.th.record = p.record →
      ∃ z, exec .parkWake s = .next z ∧ z.parks = rest ∧ z.mem = s.mem
        ∧ z.th = { s.th.set .sr 1 with hold := .none, life := .running, readyAt := s.cyc + 1 }

/-- R243, R262, R263: sleep, gbar and garrive: a sleep of 0 only goes on; a gbar waits for the phase, or arrives and waits;
the arrival that makes a group's arrivals equal its members turns its phase and ends the wait at once. A garrive goes on:
its arrival is counted at once where the thread's earlier accesses are over, and else when they are. -/
def Obligations.SleepAndBarriers : Prop :=
  (∀ (g : Guard) (src : Src) (s : State) (t : Word) (d : Option (BitVec 3 × Nat × Elem)), Fires .sleep g src s t d →
    (t = 0 → exec (.sleep g src) s = .next (s.passed.taken d))
    ∧ (t ≠ 0 → t.toNat < 2 ^ 32 → exec (.sleep g src) s =
      .next ((s.passed.map (fun th => { th with hold := .sleep (s.cyc + t.toNat) })).taken d))
    ∧ (2 ^ 32 ≤ t.toNat → exec (.sleep g src) s = .next (trapIllegal s.seen)))
  ∧ (∀ (g : Guard) (src : Src) (s : State) (t : Word) (d : Option (BitVec 3 × Nat × Elem)) (x : Group), Fires .gbar g src s t d →
    let u := s.passed
    let grp := fld t 7 0
    groupOf t true u = some x →
    (fld t 8 8 = 1 → (if x.phase then 1 else 0) ≠ fld t 9 9 → exec (.gbar g src) s = .next ((u.acquire 2).taken d))
    ∧ (fld t 8 8 = 1 → (if x.phase then 1 else 0) = fld t 9 9 → exec (.gbar g src) s =
        .next ((u.map (fun th => { th with hold := .gbar grp (fld t 9 9) })).taken d))
    ∧ (fld t 8 8 = 0 → Released u 2 → x.arrivals + 1 ≠ x.members → exec (.gbar g src) s =
        .next ((setGroup (u.map (fun th => { th with hold := .gbar grp (if x.phase then 1 else 0) })) grp
          { x with arrivals := x.arrivals + 1 }).taken d))
    ∧ (fld t 8 8 = 0 → Released u 2 → x.arrivals + 1 = x.members →
        ∃ z : State, exec (.gbar g src) s = .next (z.taken d) ∧ z.th = { u.th with hold := .none, readyAt := u.cyc + 1 }
          ∧ assoc z.groups grp = some { x with arrivals := 0, phase := !x.phase }))
  ∧ ∀ (g : Guard) (src : Src) (s : State) (t : Word) (d : Option (BitVec 3 × Nat × Elem)) (x : Group), Fires .garrive g src s t d →
    let u := s.passed.flushWcb
    let r : Release := { group := some (fld t 7 0), since := s.cyc }
    groupOf t false s.passed = some x → s.passed.th.awaitsPhase = false →
      (u.th.rels = [] → u.earlierDone s.th.key s.cyc 2 = true →
        ∃ z : State, exec (.garrive g src) s = .next (z.taken d)
          ∧ z.th.flight = (u.pending (some .sr) 4 (if x.phase then 1 else 0) 0 0).th.flight ∧ z.th.g = u.th.g ∧ z.th.pc = u.th.pc
          ∧ assoc z.groups (fld t 7 0) = some (if x.arrivals + 1 = x.members then { x with arrivals := 0, phase := !x.phase }
            else { x with arrivals := x.arrivals + 1 }))
      ∧ (u.th.rels ≠ [] ∨ u.earlierDone s.th.key s.cyc 2 = false →
        exec (.garrive g src) s = .next ((u.map (fun th => { th with rels := th.rels ++ [r] })).taken d))

/-- R223, R226 to R230: the dispatch units: a pop takes the record that its slot may run and starts it at its code in user
mode (which record of those that may run comes first where the rules leave it open is log entry 31); a rise moves a record
one priority up; an advertisement, its answer, and a message of records, which enter the run queue of the receiving die
behind the others of their priority with the time they have waited. -/
def Obligations.DispatchEvents : Prop :=
  (∀ (s : State) (c : Ctx) (q : Queued), s.ctxs.find? (fun c => c.tiles.any (fun p => p.2 = s.ev.key.tile)) = some c →
    slotIdle s s.ev.key = true → s.ev.key.core < 4 → s.ev.key.slot < 8 → dieOf s.ev.key.tile = s.ev.n →
    ctxLive s c.num = true → headFor s c s.ev.n = some q →
      (∃ z, exec .runQueuePop s = .next z ∧ z.runq = s.runq.erase q)
      ∧ (s.th.life = .idle → (∀ t ∈ s.others, t.key ≠ s.th.key) → (q.ctx, q.record) ∉ s.suspended →
        recordOk { s with runq := s.runq.erase q } q.ctx q.record q.die = true →
        ∃ z, exec .runQueuePop s = .next z ∧ z.th.key = s.ev.key ∧ z.th.life = .running ∧ z.th.mode = .user
          ∧ z.th.ctx = q.ctx ∧ z.th.record = q.record ∧ z.th.getG 29 = q.record
          ∧ ∀ l, RecordAt s q.ctx q.record l → z.th.pc = recWord s q.ctx q.record 0))
  ∧ (∀ (s : State) (q : Queued), s.runq.find? (fun q => q.die = s.ev.n ∧ q.prio = s.ev.m ∧ riseDue s q) = some q →
    ∃ z, exec .priorityRise s = .next z ∧ z.th = s.th
      ∧ z.runq = s.runq.erase q ++ [{ q with prio := q.prio + 1, since := s.cyc, waited := 0 }])
  ∧ (∀ s : State, advertises s s.ev.n = true → exec .migrationAdvertisement s =
      .next { s with adverts := s.adverts.filter (fun a => a.1 ≠ s.ev.n)
        ++ ((List.range 8).filter (fun d => d ≠ s.ev.n)).map (fun d => (s.ev.n, d, min 4 (dieIdle s s.ev.n))) })
  ∧ (∀ (s : State) (a : Nat × Nat × Nat), s.adverts.find? (fun a => a.2.1 = s.ev.n) = some a →
    ∃ z, exec .migrationAnswer s = .next z ∧ z.adverts = s.adverts.erase a ∧ z.mem = s.mem ∧ z.th = s.th
      ∧ (∀ q ∈ s.runq, q ∈ z.runq ∨ ∃ m ∈ z.migrations, m.1 = a.1 ∧ ∃ r ∈ m.2, r.record = q.record ∧ r.ctx = q.ctx))
  ∧ ∀ (s : State) (m : Nat × List Queued), s.migrations.find? (fun m => m.1 = s.ev.n) = some m →
    ∃ z more, exec .migrationMessage s = .next z ∧ z.migrations = s.migrations.erase m ∧ z.th = s.th
      ∧ z.runq = s.runq ++ more ∧ (∀ x ∈ more, x.die = s.ev.n ∧ x.since = s.cyc
        ∧ ∃ q ∈ m.2, x.ctx = q.ctx ∧ x.record = q.record ∧ x.waited = q.waited)
      ∧ ∀ q l, m.2 = [q] → RecordAt s q.ctx q.record l → recordOk s q.ctx q.record s.ev.n = true →
          more = [{ die := s.ev.n, prio := recPrio s q.ctx q.record, ctx := q.ctx, record := q.record, since := s.cyc
                    waited := q.waited }]

/-! ## X and Y -/

namespace Sys2Proof.Machine

/-- The state in which a copy of kind `k` with operands `a` has started from trigger number `n`, its Y window open (R270);
its completion is what the window waits for. -/
def State.copyStarted (t : State) (n k : Nat) (a : CopyArgs) (l : BitVec 4) : State :=
  let c : Copy :=
    { key := t.th.key, ctx := t.th.ctx, monitor := t.th.mode = .monitor, pc := t.at_, trig := n, kind := k, src := a.src
      dst := a.dst, shape := a.shape, pitch := a.pitch, ctl := a.ctl, due := t.landing 1, since := t.cyc }
  State.opened { t.drawn with copies := t.copies ++ [c] } .y l { known := false, doneAt := t.landing 1 }

/-- A copy's ring, where its control word names one, can be reached, and its rows fit a slot (R269, R270). -/
abbrev RingFits (t : State) (a : CopyArgs) : Prop :=
  (a.ctl &&& 0xFFFFFFFFFFC0 = 0 ∧ t.th.acquiring t.cyc = false)
    ∨ (a.ctl &&& 0xFFFFFFFFFFC0 ≠ 0 ∧ ∃ loc, RingAt t (a.ctl &&& 0xFFFFFFFFFFC0) loc
      ∧ (fld a.shape 47 32 = 0
        ∨ fld a.dst 31 0 + (fld a.shape 47 32 - 1) * fld a.pitch 63 32 + fld a.shape 31 0 ≤ (ringAt t loc).ssize))

/-- The state once a copy has read its ring's fields, where it names one: a first access of another's data (R178). -/
def State.ringRead (t : State) (a : CopyArgs) : State := if a.ctl &&& 0xFFFFFFFFFFC0 = 0 then t else t.acquire 2

/-- A ring operation of the thread in focus on the ring at a place. -/
def State.ringOpOf (t : State) (loc : Loc) (init : Option (List Byte)) : RingOp :=
  { key := t.th.key, ctx := t.th.ctx, cell := loc.cell, aes := loc.aes, init := init, since := t.cyc }

/-- The state in which that operation has left for the ring's home, its window open until it is performed. -/
def State.ringOpSent (t : State) (l : BitVec 4) (loc : Loc) (init : Option (List Byte)) : State :=
  State.opened { t.drawn with ringOps := t.ringOps ++ [t.ringOpOf loc init] } .y l { known := false, doneAt := t.landing 6 }

/-- The ring object that mode 0 of yring writes (R275). -/
def State.ringInit (t : State) : RingObj :=
  let o := t.th.get
  { base := o .yo, ssize := fld (o .yo2) 31 0, count := fld (o .yo2) 63 32, wp := 0, rp := 0, cp := 0
    ctl := BitVec.ofNat 32 (fld (o .yo3) 2 0 + (if (o .yo3).getLsbD 3 then 2 ^ 30 else 0))
    fill := 0, drain := o .yo4, push := 0 }

end Sys2Proof.Machine

/-- R269, R270, R272 to R274: the copies start with their operands as captured at the trigger: ycopy, ycopy.add and ymcast
from the operand ports, ydesc from its 64-byte block, which it reads once. -/
def Rules.CopiesStart : Prop :=
  (∀ r ∈ [(Trig.ycopy, 0x1C4, 0), (.ycopyAdd, 0x1C5, 1), (.ymcast, 0x1C6, 2)], ∀ (g : Guard) (l : BitVec 4) (src : Src)
    (s : State) (w : Word) (d : Option (BitVec 3 × Nat × Elem)), Fires r.1 g src s w d →
    let t := s.passed
    let a : CopyArgs := ⟨t.th.get .yo, t.th.get .yo2, t.th.get .yo3, t.th.get .yo4, w⟩
    copyOk r.2.2 a = true → (r.2.2 = 1 → a.src.toNat % 4 = 0 ∧ a.dst.toNat % 4 = 0) → RingFits t a →
      exec (r.1.instr g l src) s = .next (((t.ringRead a).copyStarted r.2.1 r.2.2 a l).taken d))
  ∧ ∀ (g : Guard) (l : BitVec 4) (src : Src) (s : State) (w : Word) (d : Option (BitVec 3 × Nat × Elem)) (loc : Loc),
    Fires .ydesc g src s w d → w.toNat % 64 = 0 →
    let t := s.passed
    t.th.acquiring t.cyc = false → translate t t.self w .load = .ok loc → (loc.space = .hbm ∨ ∃ n, loc.space = .scr n) →
    t.denied loc.cell 0 64 = 0 → t.lineBusy loc.cell 64 none = false →
    let b := t.readAs loc.aes loc.cell 64
    let k := (dwordAt b 0).toNat
    let a : CopyArgs := ⟨dwordAt b 8, dwordAt b 16, dwordAt b 24, dwordAt b 32, dwordAt b 40⟩
    k ≤ 2 → dwordAt b 48 = 0 → dwordAt b 56 = 0 → (k = 2 → s.th.key.core = 6) → copyOk k a = true →
    (k = 1 → a.src.toNat % 4 = 0 ∧ a.dst.toNat % 4 = 0) → RingFits (t.acquire 2) a →
      exec (.ydesc g l src) s = .next ((((t.acquire 2).ringRead a).copyStarted 0x1CB k a l).taken d)

/-- R254 to R256, R275 to R277: the ring triggers: yring leaves for its ring and, once the ring is quiet and the thread's
earlier accesses are over, writes its object whole and ends its binding, or arms it again; yawait returns the handle of slot
rp and leaves rp; yrel moves rp on; ypush binds a ring to a port, and unbinds it once its pushes are over. -/
def Obligations.RingTriggers : Prop :=
  (∀ (g : Guard) (l : BitVec 4) (src : Src) (s : State) (w : Word) (d : Option (BitVec 3 × Nat × Elem)) (loc : Loc),
    Fires .yring g src s w d → fld w 63 48 = 0 → fld w 5 2 = 0 →
    let t := s.passed
    let u := t.flushWcb
    let r := ringAt t loc
    let b := ringBytes t.ringInit
    RingAt t (w &&& 0xFFFFFFFFFFC0) loc →
      (fld w 1 0 = 0 → ringInitOk t.th = true →
        ((r.cp = r.wp ∨ ringErr r = true) → u.earlierDone s.th.key s.cyc 2 = true →
          ∃ z : State, exec (.yring g l src) s = .next (z.taken d) ∧ z.mem = (u.writeAs loc.aes loc.cell b).mem
            ∧ z.pushBinds = t.pushBinds.filter (fun x => x.cell ≠ loc.cell) ∧ z.th.g = t.th.g ∧ z.th.port = t.th.port
            ∧ (z.th.win .y).isOpen = true ∧ (z.th.win .y).known = true ∧ (z.th.win .y).left = l.toNat
            ∧ t.landing 6 ≤ (z.th.win .y).doneAt)
        ∧ (ringOpReady (u.ringOpSent l loc (some b)) (u.ringOpOf loc (some b)) = false →
          exec (.yring g l src) s = .next ((u.ringOpSent l loc (some b)).taken d)))
      ∧ (fld w 1 0 = 1 → r.drain ≠ 0 →
        let z := ringPut t loc { r with ctl := r.ctl ||| 0x40000000 }
        let z := if r.wp = r.rp then z else ringDrain z t.th.ctx loc
        exec (.yring g l src) s = .next ((z.drawn.opened .y l { doneAt := z.landing 6 }).taken d)))
  ∧ (∀ (g : Guard) (src : Src) (s : State) (w : Word) (d : Option (BitVec 3 × Nat × Elem)) (loc : Loc),
    Fires .yawait g src s w d → fld w 5 0 = 0 → fld w 63 48 = 0 →
    let t := s.passed
    let r := ringAt t loc
    RingAt t w loc →
      (r.wp ≠ r.rp → exec (.yawait g src) s = .next (((t.map (fun th => th.set .yr
          (r.base + BitVec.ofNat 64 (r.ssize * (if r.count = 0 then 0 else r.rp.toNat % r.count))))).acquire (ringScope r)).taken d))
      ∧ (r.wp = r.rp → ringErr r = true →
          exec (.yawait g src) s = .next (takeTrap s.seen { cause := 9, detail := 8, mtpc := s.th.pc }))
      ∧ (r.wp = r.rp → ringErr r = false →
          exec (.yawait g src) s = .next ((s.seen.map (fun th => { th with hold := .yawait w, again := false })).unissue)))
  ∧ (∀ (g : Guard) (l : BitVec 4) (src : Src) (s : State) (w : Word) (d : Option (BitVec 3 × Nat × Elem)) (loc : Loc),
    Fires .yrel g src s w d → fld w 5 0 = 0 → fld w 63 48 = 0 →
    let t := s.passed
    let r := ringAt t loc
    RingAt t w loc → Released t (ringScope r) →
      (r.rp ≠ r.wp → exec (.yrel g l src) s = .next (((ringPut t.drawn loc { r with rp := r.rp + 1 }).opened .y l
        { doneAt := t.landing (leastLatency t loc), hasRes := true, r := (r.rp + 1).setWidth 64 }).taken d))
      ∧ (r.rp = r.wp → exec (.yrel g l src) s = .next ((t.drawn.opened .y l
        { doneAt := t.landing (leastLatency t loc), trap := some { cause := 9, detail := 8, mtpc := s.th.pc } }).taken d)))
  ∧ ∀ (g : Guard) (l : BitVec 4) (src : Src) (s : State) (w : Word) (d : Option (BitVec 3 × Nat × Elem)) (loc : Loc),
    Fires .ypush g src s w d → fld w 63 48 = 0 → fld w 5 1 = 0 → fld (s.passed.th.get .yo) 63 3 = 0 →
    let t := s.passed
    let q := (t.th.get .yo).setWidth 3
    let va := w &&& 0xFFFFFFFFFFC0
    let r := ringAt t loc
    t.queueWrite q ≠ .error → RingAt t va loc →
    (r.push.getLsbD 63 = false ∨ (pushPort t t.th.ctx r.push).map Port.key = some s.th.key) →
      (w.getLsbD 0 = true →
        let z := (ringPut t loc { r with push := pushWord t q.toNat }).mapChan (t.th.bind[q.toFin]).chan
          (fun c => { c with scope := max c.scope (ringScope r) })
        exec (.ypush g l src) s = .next ((State.opened { z.drawn with pushBinds :=
            ⟨t.th.ctx, va, loc.cell, ⟨s.th.key, q.toNat⟩⟩ :: t.pushBinds.filter (fun b => b.cell ≠ loc.cell) } .y l
          { doneAt := t.landing 6 }).taken d))
      ∧ (w.getLsbD 0 = false → (∃ p ∈ t.pushes, p.ring = loc.cell) →
        exec (.ypush g l src) s = .next ((t.ringOpSent l loc none).taken d))
      ∧ (w.getLsbD 0 = false → (∀ p ∈ t.pushes, p.ring ≠ loc.cell) →
        ∃ z : State, exec (.ypush g l src) s = .next (z.taken d)
          ∧ z.mem = (t.writeAs loc.aes (loc.cell + 48) (leBytes 8 0)).mem
          ∧ z.pushBinds = t.pushBinds.filter (fun x => x.cell ≠ loc.cell)
          ∧ (z.th.win .y).isOpen = true ∧ (z.th.win .y).known = true)

/-- R256, R270 to R273, R277: the copy unit's events (of a thread's copy with no fault): a claim of slot cp, a piece whose
bytes, and no others, reach their destination (whole, or the first dwords of a piece in a scratchpad: log entry 6), the
completion with its byte count, which fills the slot it claimed once what the ring's advance releases is performed, and the
push of a filled slot's handle with its sync bit set. -/
def Rules.CopyEvents : Prop :=
  (∀ (s : State) (c : Copy) (loc : Loc), s.copy? s.ev.key = some c → c.claims s.cyc = true →
    translate s c.agent c.ring .amo = .ok loc →
    let r := ringAt s loc
    (r.cp - r.rp).toNat < r.count → (r.cp - r.wp).toNat < 64 →
      exec .ringClaim s = .next ((ringPut s loc { r with cp := r.cp + 1 }).putCopy c.key
        (some { c with slot := some (r.cp, ringHandle r r.cp) })))
  ∧ (∀ (s : State) (c : Copy) (ls ld : Loc) (n : Nat), s.copy? s.ev.key = some c → c.moves s.cyc = true → c.retr < 3 →
    c.cut ≤ c.off →
    let whole := (c.piece s c.off).2.2
    checkPiece s c (c.piece s c.off).1 (c.piece s c.off).2.1 whole = .ok (ls, ld) →
    (s.ev.n = 0 ∧ n = whole) ∨ (s.ev.n ≠ 0 ∧ c.kind ≠ 1 ∧ (∃ t, ld.space = .scr t) ∧ n = min whole (8 * s.ev.n - ld.cell % 8)) →
    pieceBusy s c ls.cell n = false → pieceBusy s c ld.cell n = false →
      ∃ (z : State) (c' : Copy), exec .copyPiece s = .next z ∧ z.copy? s.ev.key = some c' ∧ c'.off = c.off + n
        ∧ s.cyc + 1 ≤ c'.due ∧ z.th = s.th
        ∧ (let b := readRun s ls.aes (n / 64 + 2) ls.cell n
          c.kind ≠ 1 → (∀ i < b.length, s.lineKey ((ld.cell + i) / 64) = ld.aes ∨ hbmEnd ≤ ld.cell) →
          (∀ i < b.length, Mem.byte z.mem (ld.cell + i) = b.getD i 0)
          ∧ ∀ a, a < ld.cell ∨ ld.cell + b.length ≤ a → Mem.byte z.mem a = Mem.byte s.mem a))
  ∧ (∀ (s : State) (c : Copy), s.copy? s.ev.key = some c → c.ends s.cyc = true → c.cmd = none → c.key = s.th.key →
    let done (z : State) : Prop := z.copy? s.ev.key = none
      ∧ (z.th.win .y).known = true ∧ (z.th.win .y).hasRes = true ∧ (z.th.win .y).r = BitVec.ofNat 64 c.total
      ∧ (z.th.win .y).flags = c.flags ∧ (z.th.win .y).trap = none
    (c.slot = none → ∃ z, exec .copyComplete s = .next z ∧ z.mem = s.mem ∧ done z)
    ∧ ∀ n h loc, c.slot = some (n, h) → translate s c.agent c.ring .amo = .ok loc →
      let r := ringAt s loc
      s.earlierDone c.key c.since (max (fld c.ctl 2 0) (max (if r.push.getLsbD 63 then ringScope r else 0)
        (if r.ctl.getLsbD 30 = true then 2 else 0))) = true →
        ∃ z, exec .copyComplete s = .next z ∧ z.mem = (ringFill s c.ctx loc n).mem ∧ done z)
  ∧ ∀ (s : State) (p : Push) (c : Chan), s.pushes[s.ev.n]? = some p → pushReady s s.ev.n = true → s.chan? p.chan = some c →
    ∃ z, exec .ringPush s = .next z ∧ z.pushes = s.pushes.eraseIdx s.ev.n ∧ z.th = s.th
      ∧ ∃ e c', z.chan? p.chan = some c' ∧ c'.elems = c.elems ++ [e] ∧ c'.wr = c.wr + 1 ∧ e.word = p.handle ∧ e.tag = false
        ∧ e.sync = true

/-- R248, R264 to R266: the X triggers: an xgo starts a stream of its core, or waits for the one of its number; an xstop or
xwait of a stream that does not run completes 4 cycles later with 0. -/
def Rules.StreamTriggers : Prop :=
  (∀ (g : Guard) (l : BitVec 4) (src : Src) (s : State) (t : Word) (d : Option (BitVec 3 × Nat × Elem)), Fires .xgo g src s t d →
    let u := s.passed
    fld t 63 24 = 0 → t.getLsbD 19 = false → fld t 14 13 = 0 → fld t 7 4 = 0 → fld t 18 16 ≠ fld t 22 20 →
    portBreaks u (fld t 1 0) (fld t 18 16) false = false → portBreaks u (fld t 1 0) (fld t 22 20) true = false →
    u.th.acquiring u.cyc = false →
    let busy := u.streams.any (fun x => x.core == s.th.key.coreKey && x.strm == fld t 1 0)
    let x : Stream := { core := s.th.key.coreKey, strm := fld t 1 0, owner := s.th.key, ctx := u.th.ctx
                        monitor := u.th.mode = .monitor, cfg := t, base := u.th.get .xo, limit := u.th.get .xo2
                        running := !busy }
    exec (.xgo g l src) s = .next ((State.opened { u with streams := u.streams ++ [x] } .x l
      { known := !busy, doneAt := u.cyc + 4 }).taken d))
  ∧ ∀ op ∈ [Trig.xstop, .xwait], ∀ (g : Guard) (l : BitVec 4) (src : Src) (s : State) (t : Word)
      (d : Option (BitVec 3 × Nat × Elem)), Fires op g src s t d → t.toNat < 4 →
    let u := s.passed
    (u.stream? s.th.key.coreKey t.toNat = none → exec (op.instr g l src) s =
      .next ((u.opened .x l { doneAt := u.cyc + 4, hasRes := true }).taken d))
    ∧ (∀ x, u.stream? s.th.key.coreKey t.toNat = some x →
      let v := (State.opened { u with xwaits := u.xwaits ++ [(s.th.key, t.toNat)] } .x l
        { known := false, doneAt := u.cyc + 4, hasRes := true }).mapStream s.th.key.coreKey t.toNat (fun y =>
          if op = .xstop then { y with ending := true } else y);
      (op = .xwait ∨ x.fetches ≠ [] → exec (op.instr g l src) s = .next (v.taken d))
      ∧ (op = .xstop → x.fetches = [] →
        exec (op.instr g l src) s = .next ((endStream v s.th.key.coreKey t.toNat).taken d)))

/-- R252, R264, R265, R267: the reference unit's events: an index dequeued is a fetch of its element, in order; a value that
returns behind an older fetch stays until its turn; a fetch that cannot be read is made again on demand, and its value enqueued,
or its fault reported. -/
def Rules.StreamEvents : Prop :=
  (∀ (s : State) (x : Stream) (ch : Chan) (e : Elem) (f : Fetch) (rest : List Fetch), s.stream? s.ev.key.coreKey s.ev.n = some x →
    nextStream s s.ev.key.coreKey = some s.ev.n → streamHead s x = some (ch, e) → x.fetches = f :: rest → f.elems = none →
    e.tag = false →
      ∃ z y, exec .referenceStreamDequeue s = .next z ∧ z.mem = s.mem ∧ z.stream? s.ev.key.coreKey s.ev.n = some y
        ∧ y.count = x.count + 1 ∧ ∃ h, y.fetches = x.fetches ++ [h] ∧ h.idx = e.word ∧ h.sync = e.sync
        ∧ (outOfLimit x e.word = false → h.va = some (x.base + (e.word <<< fld x.cfg 12 8)) ∧ h.elems = none)
        ∧ (outOfLimit x e.word = true → h.va = none
          ∧ h.elems = some (fetchElems x e.sync (List.replicate x.size 0))))
  ∧ (∀ (s : State) (x : Stream) (f0 f : Fetch) (rest : List Fetch) (va : Word),
    s.stream? s.ev.key.coreKey s.ev.n = some x → x.fetches = f0 :: f :: rest → f0.elems = none →
    f0.returns s.cyc = false → f.returns s.cyc = true → f.va = some va → f.retr < 3 →
      ∃ z y, exec .referenceFetchReturn s = .next z ∧ z.mem = s.mem ∧ z.stream? s.ev.key.coreKey s.ev.n = some y
        ∧ (∀ b, fetchBytes s x va = .ok b →
          y.fetches = f0 :: { f with elems := some (fetchElems x f.sync b) } :: rest)
        ∧ (∀ k, fetchBytes s x va = .error k →
          y.fetches = f0 :: { f with demand := true, due := s.cyc + 1, retr := 0 } :: rest))
  ∧ ∀ (s : State) (x : Stream) (f : Fetch) (rest : List Fetch) (va : Word), s.stream? s.ev.key.coreKey s.ev.n = some x →
    x.fetches = f :: rest → f.demand = true → f.elems = none → f.fault = none → f.due ≤ s.cyc → f.va = some va → f.retr < 3 →
      (∀ k, fetchBytes s x va = .error k → (s.ctx? x.ctx).bind Ctx.retryRing = none →
        ∃ z y, exec .referenceDemandFetch s = .next z ∧ z.stream? s.ev.key.coreKey s.ev.n = some y
          ∧ y.fetches = { f with fault := some k, id := s.faultSeq, ring := false } :: rest
          ∧ z.policyQ.length = s.policyQ.length + 1)
      ∧ (∀ b h more ch, fetchBytes s x va = .ok b → rest = h :: more → h.elems = none → portChan s x.qout true = some ch →
        ∃ z y c, exec .referenceDemandFetch s = .next z ∧ z.stream? s.ev.key.coreKey s.ev.n = some y ∧ y.fetches = rest
          ∧ z.chan? ch.id = some c
          ∧ c.elems.map (fun e => (e.word, e.tag, e.sync)) = ch.elems.map (fun e => (e.word, e.tag, e.sync))
            ++ (fetchElems x f.sync b).map (fun e => (e.word, e.tag, e.sync)))

/-! ## P: the press -/

/-- R112, R119 to R121: the press triggers that act at once on the thread's format context: pctx, pscale.a and pscale.b set
the format word and the scales, pld an operand register from the scratchpad, row by row. That a pscale.a does not wait for a
queued pdrain, and that a pld's tpitch bits must be 0, is the model's choice (log entry 52). -/
def Rules.PressContextTriggers : Prop :=
  ∀ (g : Guard) (src : Src) (s : State) (t : Word) (d : Option (BitVec 3 × Nat × Elem)),
    let u := s.passed
    let c := u.myPress
    (Fires .pctx g src s t d →
      (fmtOk t = true → exec (.pctx g src) s = .next ((u.setMyPress { c with fmt := t }).taken d))
      ∧ (fmtOk t = false → exec (.pctx g src) s = .next (trapIllegal s.seen)))
    ∧ (Fires .pscaleA g src s t d → t.toNat % 16 = 0 → t.toNat + 256 ≤ 2 ^ 19 → u.th.acquiring u.cyc = false →
      u.lineBusy (scrCell s.th.key.tile t.toNat) 256 none = false → u.denied (scrCell s.th.key.tile t.toNat) 0 256 = 0 →
      exec (.pscaleA g src) s = .next (((u.setMyPress { c with
        sa := (List.range 64).map (fun i => BitVec.ofNat 32 (leNat (u.readAs 0 (scrCell s.th.key.tile (t.toNat + 4 * i)) 4))) }).map
          (fun th => { th with readyAt := s.cyc + 4 })).taken d))
    ∧ (Fires .pscaleB g src s t d →
      (t.toNat < 2 ^ 32 → exec (.pscaleB g src) s = .next ((u.setMyPress { c with sb := t.setWidth 32 }).taken d))
      ∧ (2 ^ 32 ≤ t.toNat → exec (.pscaleB g src) s = .next (trapIllegal s.seen)))
    ∧ (Fires .pld g src s t d → fld t 63 5 = 0 → fld t 4 3 < 3 → u.th.acquiring u.cyc = false →
      let w0 := u.th.get .pa0
      let w1 := u.th.get .pa1
      let rows := 2 ^ (6 - fld t 4 3)
      let rb := 2 ^ (5 + fld t 4 3)
      descOk w0 w1 = true → descFits w0 1 rows rb = true → (∀ e ∈ c.queue, readsReg u (fld t 2 0) e = false) →
      (∀ r ∈ (u.press s.th.key.tile).run, r.core = s.th.key.core → readsReg u (fld t 2 0) r.entry = false) →
      (∀ e ∈ descChunks w0 w1 0 rows rb, u.lineBusy (scrCell s.th.key.tile e) 16 none = false
        ∧ u.denied (scrCell s.th.key.tile e) 0 16 = 0) →
      let u1 : State := { u with lost := u.lost.erase (.press s.th.key.tile s.th.key.core (fld t 2 0)) }
      exec (.pld g src) s = .next (((u1.setMyPress { c with regs := Vector.ofFn (fun i =>
          if i.val = fld t 2 0 then descRead u s.th.key.tile w0 w1 0 rows rb else c.regs[i]) }).map
            (fun th => { th with readyAt := s.cyc + 8 })).taken d))

/-- R105, R122 to R128: the queued press triggers: each enters its context's queue with what it captures at its trigger;
pmma, pmmas, pdrain and pflags take their thread out of rotation, one issued again after a forced save takes the place it was
withdrawn from (R132), and a pclr behind a pclr is one with it. -/
def Rules.PressQueueTriggers : Prop :=
  ∀ (g : Guard) (src : Src) (s : State) (t : Word) (d : Option (BitVec 3 × Nat × Elem)),
    let u := s.passed
    let c := u.myPress
    let entry (op : PressOp) : PressEntry := { op := op, key := s.th.key, ctx := u.th.ctx, since := u.cyc }
    let mine (e : PressEntry) : Bool := e.gone && e.key == s.th.key
    let behind (op : PressOp) : List PressEntry :=
      if c.queue.any mine then c.queue.map (fun e => if mine e then entry op else e) else c.queue ++ [entry op]
    let queued (x : State) (op : PressOp) : State := x.setMyPress { c with queue := behind op }
    let held (x : State) : State := x.map (fun th => { th with hold := .press })
    let mma (sparse : Bool) : PressOp :=
      .mma sparse t c.fmt c.sa c.sb (u.th.get .pa0) (u.th.get .pa1) (u.th.get .pb0) (u.th.get .pb1) (u.th.get .pc)
    (Fires .pmma g src s t d → mmaOk false t u = true → u.th.acquiring u.cyc = false →
      exec (.pmma g src) s = .next ((held (queued u (mma false))).taken d))
    ∧ (Fires .pmmas g src s t d → mmaOk true t u = true → u.th.acquiring u.cyc = false →
      exec (.pmmas g src) s = .next ((held (queued u (mma true))).taken d))
    ∧ (Fires .pdrain g src s t d → fld t 63 10 = 0 → fld (u.th.get .pa0) 3 0 = 0 → fld (u.th.get .pa1) 63 36 = 0 →
      fld (u.th.get .pa1) 3 0 = 0 → (fld (u.th.get .pa1) 35 32 = 0 ∨ (8 ≤ fld (u.th.get .pa1) 35 32 ∧ fld (u.th.get .pa1) 35 32 ≤ 12)) →
      u.th.acquiring u.cyc = false → exec (.pdrain g src) s =
        .next ((queued s.seen (.drain t (u.th.get .pa0) (u.th.get .pa1) (u.th.get .xrnd))).map (fun th => { th.set .xrnd
          (skipDraws (if fld t 2 1 = 0 then 0 else (fld t 8 3 + 1) * 64) (u.th.get .xrnd)) with
            hold := .press, unperformed := some (d.map Prod.fst) })))
    ∧ (Fires .pclr g src s t d → t.toNat < 2 →
      ((∀ e, c.queue.getLast? = some e → ∀ b, e.op ≠ .clr b) →
        exec (.pclr g src) s = .next ((u.setMyPress { c with queue := c.queue ++ [entry (.clr (if t = 0 then 1 else 2))] }).taken d))
      ∧ ∀ e b, c.queue.getLast? = some e → e.op = .clr b → exec (.pclr g src) s = .next ((u.setMyPress { c with
          queue := c.queue.dropLast ++ [{ e with op := .clr ((if t = 0 then 1 else 2) ||| b), gone := false }] }).taken d))
    ∧ (Fires .pflags g src s t d →
      (t = 0 → exec (.pflags g src) s = .next ((held (queued u .flags)).taken d))
      ∧ (t ≠ 0 → exec (.pflags g src) s = .next (trapIllegal s.seen)))

/-- R129: pjoin registers its context in a group and holds until the group is formed; one that another context of the press
has registered gives 0; a leave dissolves its context's group, or withdraws its registration; the timeout clears the
registration and gives 0. That a leave of a group that is not formed withdraws its own core's registration only is the
model's choice (log entry 26). -/
def Rules.PressJoins : Prop :=
  (∀ (g : Guard) (src : Src) (s : State) (t : Word) (d : Option (BitVec 3 × Nat × Elem)), Fires .pjoin g src s t d →
    let u := s.passed
    let key := s.th.key
    (fld t 63 7 = 0 → fld t 6 6 = 0 → u.myPress.queue = [] → (∀ r ∈ (u.press key.tile).run, r.core ≠ key.core) →
      exec (.pjoin g src) s = .next (((if formed u u.myPress.reg u.myPress.regCtx key.tile then
          dissolve u u.myPress.reg u.myPress.regCtx key.tile else u.setMyPress { u.myPress with reg := 0 }).map
        (fun th => th.set .pr 1)).taken d))
    ∧ (fld t 63 7 = 0 → fld t 6 6 = 1 → t.getLsbD (key.tile % 4) = true → t.getLsbD (fld t 5 4) = true →
      (∃ n < 4, n ≠ key.core ∧ ((u.press key.tile).at_ n).reg ≠ 0) →
        exec (.pjoin g src) s = .next ((u.map (fun th => th.set .pr 0)).taken d))
    ∧ (fld t 63 7 = 0 → fld t 6 6 = 1 → t.getLsbD (key.tile % 4) = true → t.getLsbD (fld t 5 4) = true →
      (∀ n < 4, n ≠ key.core → ((u.press key.tile).at_ n).reg = 0) →
      let x := u.setMyPress { u.myPress with reg := t.setWidth 8, regCtx := u.th.ctx }
      (formed x (t.setWidth 8) u.th.ctx key.tile = false → exec (.pjoin g src) s =
        .next ((x.map (fun th => { th with hold := .pjoin (t.setWidth 8) (u.cyc + 65536) })).taken d))
      ∧ (formed x (t.setWidth 8) u.th.ctx key.tile = true → ∃ z : State, exec (.pjoin g src) s = .next (z.taken d)
        ∧ z.presses = x.presses ∧ z.th = { u.th.set .pr 1 with hold := .none, readyAt := u.cyc + 1 })))
  ∧ ∀ (s t : State) (reg : BitVec 8) (due : Nat), s.focus s.ev.key = some t → t.th.hold = .pjoin reg due → due ≤ s.cyc →
    exec .pjoinTimeout s = .next ((t.setMyPress { t.myPress with reg := 0 }).map
      (fun x => { x.set .pr 0 with hold := .none, readyAt := s.cyc + 1 }))

/-- R30, R105 to R107, R113, R125 to R128: the events of a press: a grant performs the operation at the head of the next
context in turn, an operation completes and its thread goes on, an entry without busy cycles is served, and a window of the
ramp limiter ends. -/
def Rules.PressServes : Prop :=
  (∀ (s : State) (core : Nat) (e : PressEntry) (sp : Bool) (t f : Word) (sa : List W32) (sb : W32) (a0 a1 b0 b1 c : Word),
    grantable s s.ev.n = some [(s.ev.n, core)] → headMma ((s.press s.ev.n).at_ core) = some e →
    e.op = .mma sp t f sa sb a0 a1 b0 b1 c → core < 4 →
      let pc := (s.press s.ev.n).at_ core
      let (x0, x1, md) := mmaOwn s s.ev.n core sp t f a0 a1 c
      let ps := products f sp (fld t 7 2 + 1) x0 x1 (mmaB s s.ev.n core sp t f b0 b1) md
      ∃ z, exec .pressGrant s = .next z ∧ z.th = s.th ∧ z.mem = s.mem
        ∧ (consumesLost s [(s.ev.n, core)] (s.ev.n, core) = false → z.lost = s.lost)
        ∧ (z.press s.ev.n).at_ core = { accumulate pc t f sa sb ps with queue := pc.queue.drop 1 }
        ∧ (z.press s.ev.n).last = core)
  ∧ (∀ (s : State) (r : PressRun), pressDone (s.press s.ev.n) s.cyc = some r → r.entry.key = s.th.key → s.th.hold = .press →
    ∃ z, exec .pressOperationComplete s = .next z ∧ (z.press s.ev.n).run = (s.press s.ev.n).run.erase r
      ∧ z.th = { s.th with hold := .none, readyAt := s.cyc + 1 } ∧ z.mem = s.mem)
  ∧ (∀ (s : State) (e : PressEntry), headPlain (s.press s.ev.n) s.ev.m = some e → s.ev.m < 4 →
    (∀ accs, e.op = .clr accs → ∃ z, exec .pressQueueEntryServed s = .next z ∧ z.th = s.th
      ∧ let x := (s.press s.ev.n).at_ s.ev.m
        let y := (z.press s.ev.n).at_ s.ev.m
        y.queue = x.queue.drop 1 ∧ y.flags = x.flags
          ∧ z.lost = s.lost.filter (fun l => ¬((accs.getLsbD 0 ∧ l = .press s.ev.n s.ev.m 8)
            ∨ (accs.getLsbD 1 ∧ l = .press s.ev.n s.ev.m 9)))
          ∧ y.acc0 = (if accs.getLsbD 0 then [] else x.acc0) ∧ y.part0 = (if accs.getLsbD 0 then [] else x.part0)
          ∧ y.acc1 = (if accs.getLsbD 1 then [] else x.acc1) ∧ y.part1 = (if accs.getLsbD 1 then [] else x.part1))
    ∧ (e.op = .flags → e.key = s.th.key → s.th.hold = .press → ∃ z, exec .pressQueueEntryServed s = .next z
      ∧ z.th = { s.th.set .pr (((s.press s.ev.n).at_ s.ev.m).flags.setWidth 64) with hold := .none, readyAt := s.cyc + 1 }
      ∧ ((z.press s.ev.n).at_ s.ev.m).flags = 0 ∧ (z.press s.ev.n).last = s.ev.m)
    ∧ (∀ t dst pitch x y, e.op = .drain t dst pitch x → s.focus e.key = some y →
      drainBehind y (drainTargets t dst pitch) = false →
      let z := serveDrain y t dst pitch x
      exec .pressQueueEntryServed s = .next (z.setPress s.ev.n { z.press s.ev.n with last := s.ev.m })))
  ∧ ∀ s : State, (s.press s.ev.n).win < s.cyc / 1400 →
    let p := s.press s.ev.n
    ∃ z, exec .rampLimiterWindow s = .next z ∧ z.th = s.th
      ∧ z.press s.ev.n = { p with win := p.win + 1, prev := max p.count (p.prev - 175), count := p.carry, carry := 0 }

/-- R113, R125: where the exact sum P of the products, the partial sum and, for a promotion, the scale and the accumulator are
numbers, the partial sum and P are rounded once into the new partial sum, and a promotion rounds its product and sum once
into the accumulator; an operation updates element (i, j) from its own P; a drain converts its elements in order, each with
one rounding and its own draw. -/
def Rules.PressRoundsOnce : Prop :=
  (∀ (part acc : W32) (p : FVal) (inv : Bool) (sc : Option FRes),
    let x := fp32.value part.toNat
    x.finite = true → p.finite = true → x.rat + p.rat ≠ 0 →
      (∃ y, RoundsTo fp32 Rm.rne 0 (x.rat + p.rat) y
        ∧ pressElement false sc false part acc (p, inv) = (y.code, acc, inv, y.flags.getLsbD 2))
      ∧ ∀ y, RoundsTo fp32 Rm.rne 0 (x.rat + p.rat) y →
        let s := (sc.map (fun z => fp32.value z.code.toNat)).getD (.num false 1 0)
        let v := (fp32.value y.code.toNat).rat * s.rat + (fp32.value acc.toNat).rat
        (fp32.value y.code.toNat).finite = true → s.finite = true → (fp32.value acc.toNat).finite = true → v ≠ 0 →
          ∃ z, RoundsTo fp32 Rm.rne 0 v z
            ∧ pressElement true sc false part acc (p, inv) = (0, z.code, inv, y.flags.getLsbD 2 || z.flags.getLsbD 2))
  ∧ (∀ (c : PressCtx) (t f : Word) (sa : List W32) (sb : W32) (ps : List (List (FVal × Bool))), ps.length = 64 →
    (∀ row ∈ ps, row.length = 64) → ∀ i < 64, ∀ j < 64,
      let x := accumulate c t f sa sb ps
      let scale := fp32.mul Rm.rne 0 (fp32.value (sa.getD i 0).toNat) (fp32.value sb.toNat)
      let bad := f.getLsbD 6 && (fp32.value scale.code.toNat).isNaN
      let e (part acc : List W32) := pressElement (t.getLsbD 1) (if f.getLsbD 6 then some scale else none) bad
        ((fullMatrix part).getD (64 * i + j) 0) ((fullMatrix acc).getD (64 * i + j) 0)
        ((ps.getD i []).getD j (.num false 0 0, false))
      (fld t 0 0 = 1 → x.part1.getD (64 * i + j) 0 = (e c.part1 c.acc1).1 ∧ x.acc1.getD (64 * i + j) 0 = (e c.part1 c.acc1).2.1
        ∧ x.part0 = c.part0 ∧ x.acc0 = c.acc0)
      ∧ (fld t 0 0 = 0 → x.part0.getD (64 * i + j) 0 = (e c.part0 c.acc0).1 ∧ x.acc0.getD (64 * i + j) 0 = (e c.part0 c.acc0).2.1
        ∧ x.part1 = c.part1 ∧ x.acc1 = c.acc1))
  ∧ ∀ f ∈ [bf16, e4m3, e5m2], ∀ (vs : List W32) (x : Word), ∀ i < vs.length,
    let xi := skipDraws i x
    let w := (f.sign + 1) / 8
    (((drainBytes (some f) vs x).1.drop (i * w)).take w)
      = leBytes w (f.convert (rmOf xi) (takeDraw xi).1 (fp32.value (vs.getD i 0).toNat)).code.toNat

/-- R114: the sum of the products of a row and a column is exact where no element is a NaN or an
infinity; it is negative zero only where every product is. -/
def Rules.PressDots : Prop :=
  ∀ a b : List Elt, (∀ x ∈ a ++ b, x.nan = false ∧ x.inf = false) →
    (dot a b).v = ((a.zip b).map (fun p => p.1.v * p.2.v)).sum
    ∧ (dot a b).nan = false ∧ (dot a b).pinf = false ∧ (dot a b).ninf = false
    ∧ (dot a b).negZero = (a.zip b).all (fun p => (p.1.v == 0 || p.2.v == 0) && p.1.neg != p.2.neg)

/-! ## D: the integrator array -/

/-- R137, R142, R148 to R155, R159: the D triggers of a thread that may use its core's array, which becomes its owner: patch
entries, integrands and residues while no domain runs; their values read; the clock words, runs, halts and status. -/
def Obligations.IntegratorTriggers : Prop :=
  ∀ (g : Guard) (l : BitVec 4) (src : Src) (s : State) (t : Word) (d : Option (BitVec 3 × Nat × Elem)),
    MayUseArray s.passed →
    let u := s.passed
    let a := u.array s.th.key.coreKey
    let own (b : DArray) : State := u.setArray s.th.key.coreKey { b with owner := some s.th.key }
    let n := t.toNat
    (Fires .dpatch g src s t d → a.still = true → n ≤ 0x101 → entryOk n (u.th.get .dO) (u.th.get .dO2) = true →
      (n = 0x100 → exec (.dpatch g src) s = .next ((own { a with sink := u.th.get .dO }).taken d))
      ∧ (n = 0x101 → exec (.dpatch g src) s = .next ((own { a with src := u.th.get .dO }).taken d))
      ∧ (n < 0x100 → ∃ b : DArray, exec (.dpatch g src) s = .next ((own b).taken d)
          ∧ (b.cell n).d0 = u.th.get .dO ∧ (b.cell n).d1 = u.th.get .dO2 ∧ (b.cell n).y = (a.cell n).y
          ∧ (b.cell n).q = (a.cell n).q ∧ (b.cell n).full.getLsbD (fld (u.th.get .dO) 12 10) = false
          ∧ ∀ m, m ≠ n → b.cell m = a.cell m))
    ∧ (n < 256 → a.still = true →
      (Fires .dsety g src s t d → exec (.dsety g src) s =
        .next ((own (a.setCell n { a.cell n with y := (u.th.get .dO).setWidth 32 })).taken d))
      ∧ (Fires .dsetr g src s t d → exec (.dsetr g src) s =
        .next ((own (a.setCell n { a.cell n with q := (u.th.get .dO).setWidth 32 })).taken d)))
    ∧ (n < 256 → u.arrayLost = false →
      (Fires .dgety g src s t d → exec (.dgety g l src) s = .next (((own a).opened .d l
        { doneAt := u.cyc + 4, hasRes := true, r := (a.cell n).y.signExtend 64 }).taken d))
      ∧ (Fires .dgetr g src s t d → exec (.dgetr g l src) s = .next (((own a).opened .d l
        { doneAt := u.cyc + 4, hasRes := true, r := (a.cell n).q.signExtend 64 }).taken d)))
    ∧ (Fires .dclk g src s t d → fld t 63 19 = 0 → fld t 15 0 ≠ 0 → (a.dom (fld t 18 16)).run = false →
      exec (.dclk g src) s = .next ((own (a.mapDoms (fun i x =>
        if i = fld t 18 16 then { x with period := fld t 15 0, next := 0 } else x))).taken d))
    ∧ (Fires .drun g src s t d → n < 256 → fld a.status 3 0 = 0 → loadOk a n = true → u.arrayLost = false →
      bridgeUnbound u a = none →
      (∀ p ∈ a.cells, p.2.en = true → 0x100 ∈ p.2.codes → p.2.dom = fld a.src 2 0) →
      exec (.drun g src) s = .next ((own (a.mapDoms (fun i x => if n.testBit i = true ∧ x.run = false then
        { x with run := true, tick := u.cyc + (if x.next = 0 then x.period else x.next) } else x))).taken d))
    ∧ (Fires .dhalt g src s t d → n < 256 → exec (.dhalt g src) s = .next ((own (a.mapDoms (fun i x =>
        if x.run = true ∧ n.testBit i = true then { x with run := false, next := x.tick - u.cyc } else x))).taken d))
    ∧ (Fires .dstat g src s t d → n < 8 →
      exec (.dstat g src) s = .next (((own a).pending (some .dr) 2 ((a.dom n).word u.cyc) 0 0).taken d))
    ∧ (Fires .dstat g src s t d → n = 8 →
      exec (.dstat g src) s = .next (((own a).pending (some .dr) 2 a.status 0 0).taken d))
    ∧ (Fires .dstat g src s t d → n = 24 →
      exec (.dstat g src) s = .next (((own { a with status := 0 }).pending (some .dr) 2 a.status 0 0).taken d))

/-- R156 to R158: dsave writes the array's image over its span, each run bit 0, and drest takes an image that passes its
checks back; a thread that may not use the array traps at any D trigger. -/
def Rules.IntegratorImages : Prop :=
  (∀ (g : Guard) (src : Src) (s : State) (t : Word) (d : Option (BitVec 3 × Nat × Elem)) (ls : List (Loc × Nat)),
    MayUseArray s.passed →
    let u := s.passed
    let a := u.array s.th.key.coreKey
    a.still = true → t.toNat % 64 = 0 → u.th.acquiring u.cyc = false → spanBusy u ls = false →
      (Fires .dsave g src s t d → spanLocs u .store 131 t 0x2080 = .ok ls → u.arrayLost = false → storesHeld u ls = false →
        exec (.dsave g src) s = .next (((storeLocs .d (u.landing 1) t ls (arrayImage a u.cyc)
          (u.drawn.setArray s.th.key.coreKey { a with owner := some s.th.key })).map
          (fun th => { th with readyAt := u.landing 1 })).taken d))
      ∧ (Fires .drest g src s t d → spanLocs u .load 131 t 0x2080 = .ok ls → imageOk (readLocs u ls) = true →
        let u1 : State := { u.drawn with lost := u.lost.erase (.array s.th.key.coreKey) }
        exec (.drest g src) s = .next (((u1.setArray s.th.key.coreKey
          { arrayOfImage a (readLocs u ls) with owner := some s.th.key }).map
          (fun th => { th with readyAt := u.landing 1 })).taken d)))
  ∧ ∀ op ∈ [Trig.dpatch, .dsety, .dsetr, .dgety, .dgetr, .dclk, .drun, .dhalt, .dsave, .drest, .dstat],
    ∀ (g : Guard) (l : BitVec 4) (src : Src) (s : State) (t : Word) (d : Option (BitVec 3 × Nat × Elem)), Fires op g src s t d →
      ¬MayUseArray s.passed → exec (op.instr g l src) s = .next (trapIllegal s.seen)

/-- R135, R140, R143 to R146: a tick steps every enabled cell of the domains that tick, at once and from the values before it;
a tick that would break a rule freezes the array and commits nothing; the owner then takes the fault's trap. An active
source gives the increment of its port's head, which leaves its channel with a committed tick, and a token closes the
bridge; an active sink enqueues +1 or −1. -/
def Rules.ArrayTicks : Prop :=
  (∀ s : State,
    let a := s.array s.ev.key.coreKey
    let ticking (d : Nat) : Bool := (a.dom d).run && decide ((a.dom d).tick ≤ s.cyc)
    let steps := (a.cells.filter (fun p => p.2.en && ticking p.2.dom)).map (fun p => stepCell a 0 p.1 p.2)
    tickDue s a = true → bridgeOn a.src = false → bridgeOn a.sink = false →
      (∀ f, tickFault s a steps ticking = some f →
        exec .domainTick s = .next (s.setArray s.ev.key.coreKey (freeze a s.cyc ticking f)))
      ∧ (tickFault s a steps ticking = none → exec .domainTick s = .next (s.setArray s.ev.key.coreKey
          ((commitCells a steps ticking).mapDoms (fun d x => if ticking d = true then
            { x with steps := x.steps + 1, tick := x.tick + x.period } else x)))))
  ∧ (∀ (s : State) (inc : Int),
    let k := s.ev.key.coreKey
    let a := s.array k
    let ticking (d : Nat) : Bool := (a.dom d).run && decide ((a.dom d).tick ≤ s.cyc)
    let head := if a.src.getLsbD 11 && ticking (fld a.src 2 0) then sourceHead s a else none
    let steps := (a.cells.filter (fun p => p.2.en && ticking p.2.dom)).map (fun p => stepCell a inc p.1 p.2)
    let out := if a.sink.getLsbD 11 then steps.find? (fun x => x.n = fld a.sink 7 0 ∧ x.z ≠ 0) else none
    tickDue s a = true → (head = none → inc = 0) →
    (∀ p c e, head = some (p, c, e) →
      inc = if e.tag then 0 else if 0 < e.word.toInt then 1 else if e.word.toInt < 0 then -1 else 0) →
      (∀ f, tickFault s a steps ticking = some f → exec .domainTick s = .next (s.setArray k (freeze a s.cyc ticking f)))
      ∧ (tickFault s a steps ticking = none → ∃ z, exec .domainTick s = .next z ∧ z.mem = s.mem ∧ z.th = s.th
        ∧ (z.array k).cells = (commitCells a steps ticking).cells
        ∧ (∀ d < 8, ((z.array k).dom d).steps = (a.dom d).steps + (if ticking d = true then 1 else 0))
        ∧ ((∀ p c e, head = some (p, c, e) → e.tag = false) → (z.array k).src = a.src ∧ (z.array k).status = a.status)
        ∧ (∀ p c e, head = some (p, c, e) →
          (e.tag = true → (z.array k).src = a.src &&& ~~~0x800
            ∧ fld (z.array k).status 36 36 = 1 ∧ fld (z.array k).status 39 37 = fld e.word 2 0
            ∧ fld (z.array k).status 35 0 = fld a.status 35 0)
          ∧ (out = none → s.chan? c.id = some c → (c.cons.map Prod.fst).Nodup → p ∈ c.cons.map Prod.fst →
            ∃ c', z.chan? c.id = some c' ∧ c'.head? p = c.elems[c.pos p + 1]?))
        ∧ (∀ x p c, out = some x → head = none → ownerChan s a (fld a.sink 10 8) true = some (p, c) → s.chan? c.id = some c →
          ∃ c' e, z.chan? c.id = some c' ∧ c'.elems = c.elems ++ [e] ∧ e.word = BitVec.ofInt 64 x.z ∧ e.tag = false)))
  ∧ (∀ (a : DArray) (n : Nat) (c : DCell),
    let x := stepCell a 0 n c
    let v (code : Nat) : Int := sourceValue a c.dom 0 code
    let s := c.q.toInt + (if c.d0.getLsbD 9 then -v (fld c.d0 8 0) else v (fld c.d0 8 0)) * c.y.toInt
    (x.z = 1 ↔ 2 ^ 31 ≤ s) ∧ (x.z = -1 ↔ s < -2 ^ 31) ∧ (-1 ≤ x.z ∧ x.z ≤ 1)
      ∧ (-(2 : Int) ^ 32 - 2 ^ 31 ≤ s → s < 2 ^ 32 + 2 ^ 31 → x.q.toInt + x.z * 2 ^ 32 = s))
  ∧ ∀ (s t : State) (w : Word), s.focus s.ev.key = some t → faultDue t t.th = some w →
    exec .integratorFaultTrap s = .next (trapHere ((t.setArray t.th.key.coreKey
      { t.array t.th.key.coreKey with due := none }).map (fun x => { x with hold := .none }))
      (if fld w 3 0 = 1 then 6 else 7) (fld w 3 0) 0 w)

/-! ## H: the heap unit -/

namespace Sys2Proof.Machine

/-- The logical tile of replica `k` of a replica table entry (R288). -/
def replicaTile (e : Word) (k : Nat) : Nat := fld e 43 0 / 2 ^ (11 * k) % 2 ^ 11

/-- Count and capacity as the heap of replica `k` last published them, where it had room (R289, R294). -/
def roomAt (s : State) (e : Word) (k : Nat) : Option (Nat × Nat) :=
  ((s.myCtx.bind (fun c => c.tile? (replicaTile e k))).bind (fun tile => assoc s.published tile)).filter (fun x => x.1 < x.2)

end Sys2Proof.Machine

/-- R282, R287, R291 to R294: the H triggers: hinit sets the heap up empty, hoffer sends its pair and counts it as a store,
hdrain writes the heap's head word and pairs in order and empties it, and hroute chooses among the replicas with room the one
of the least published count, and none (all ones) where the entry is not valid for its context or no replica has room. An
offer to another device goes through an import entry of the context (R292). -/
def Obligations.HeapTriggers : Prop :=
  ∀ (g : Guard) (l : BitVec 4) (src : Src) (s : State) (t : Word) (d : Option (BitVec 3 × Nat × Elem)),
    let u := s.passed
    let tile := s.th.key.tile
    (Fires .hinit g src s t d → fld t 47 44 = 0 → fld t 31 9 = 0 → 1 ≤ fld t 8 0 → fld t 8 0 ≤ 256 →
      (u.th.get .ho).toNat % 64 = 0 → (u.th.get .ho2).toNat % 64 = 0 → u.th.acquiring u.cyc = false → exec (.hinit g src) s =
        .next ((State.setHeap { u with lost := u.lost.erase (.heap tile) } tile
          { cap := fld t 8 0, key := t.extractLsb' 48 16, expert := t.extractLsb' 32 12, ctx := u.th.ctx, pairs := []
            ovf := u.th.get .ho, spill := u.th.get .ho2, drops := 0 }).taken d))
    ∧ (∀ dest : Option (Nat × Nat × BitVec 32), Fires .hoffer g src s t d → fld (u.th.get .ho2) 63 17 = 0 →
      ((t.toNat < 2 ^ 11 ∧ dest = none ∧ (u.myCtx.bind (fun c => c.tile? t.toNat)).isSome = true)
        ∨ (t.getLsbD 63 = true ∧ fld t 62 58 = 0 ∧ fld t 47 11 = 0 ∧ ∃ w, u.importFor u.th.ctx (fld t 57 48) = some w
            ∧ dest = some (fld w.d0 60 48, fld w.d0 41 32, w.d0.setWidth 32))) →
      u.th.unacked < 255 → u.th.acquiring u.cyc = false →
        let o : Offer := { key := s.th.key, pair := u.th.get .ho, fin := (u.th.get .ho2).getLsbD 16
                           layer := (u.th.get .ho2).setWidth 16, tile := fld t 10 0, ctx := u.th.ctx, target := t
                           due := u.landing (if t.getLsbD 63 then 6 else match u.myCtx.bind (fun c => c.tile? t.toNat) with
                             | some h => tileLatency tile h
                             | none => 6)
                           since := s.cyc, remote := dest }
        exec (.hoffer g src) s = .next ((State.map { u.drawn with offers := u.offers ++ [o] } (fun th =>
          { th with unacked := th.unacked + 1 })).taken d))
    ∧ (∀ ls, Fires .hdrain g src s t d → t.toNat % 8 = 0 → (u.heap tile).cap ≠ 0 → .heap tile ∉ u.lost →
      u.th.acquiring u.cyc = false →
      spanLocs u .store 34 t (8 + 8 * (u.heap tile).cap) = .ok ls → spanBusy u ls = false → storesHeld u ls = false →
        let h := u.heap tile
        let b := leBytes 8 (h.drops * 2 ^ 32 + h.pairs.length) ++ h.pairs.flatMap (fun p => leBytes 8 p.1.toNat)
        h.pairs.length < 2 ^ 32 → h.drops < 2 ^ 32 → exec (.hdrain g src) s =
          .next (((storeLocs .h (u.landing 1) t (actHdrain.trim b.length ls) b
            (u.drawn.setHeap tile { h with pairs := [], drops := 0 })).map
            (fun th => { th.set .hr (BitVec.ofNat 64 h.pairs.length) with readyAt := u.landing 1 })).taken d))
    ∧ (Fires .hroute g src s t d → t.toNat < 2 ^ 12 → u.th.acquiring u.cyc = false →
      let e := (assoc u.replicas t.toNat).getD 0
      (e.getLsbD 47 = false ∨ fld e 63 48 ≠ u.th.ctx → exec (.hroute g l src) s = .next ((u.drawn.opened .h l
        { doneAt := u.landing 30, hasRes := true, r := -1 }).taken d))
      ∧ ∃ r, exec (.hroute g l src) s = .next ((u.drawn.opened .h l { doneAt := u.landing 30, hasRes := true, r }).taken d)
          ∧ (r ≠ -1 → ∃ k ≤ fld e 46 45, ∃ c n, r.toNat = replicaTile e k ∧ roomAt u e k = some (n, c)
            ∧ ∀ k' ≤ fld e 46 45, ∀ n' c', roomAt u e k' = some (n', c') → n ≤ n')
          ∧ (r = -1 → e.getLsbD 47 = true → fld e 63 48 = u.th.ctx → ∀ k ≤ fld e 46 45, roomAt u e k = none))

/-- R283, R285, R287, R289: an offer at its heap: refused where no heap of its context and layer stands there, and otherwise
decided: kept in order where there is room, and in a full heap where it beats the last pair, which then gives way. Of two
pairs that the order of R283 does not separate the later comes last (log entry 53). Its acknowledgement, once any record it
caused has been passed by its ring; and the counts of every unit published at once, in the first step of each window of
1,400 cycles that publishes (log entry 39). -/
def Obligations.HeapEvents : Prop :=
  (∀ (s : State) (o : Offer) (c : Ctx) (tile : Nat), s.offers[s.ev.n]? = some o → o.decided = none → o.remote = none →
    s.ctx? o.ctx = some c → c.tile? o.tile = some tile → s.closing o.ctx = false → o.due ≤ s.cyc → .heap tile ∉ s.lost →
    let h := s.heap tile
    ((h.cap = 0 ∨ h.ctx ≠ o.ctx ∨ h.key ≠ o.layer) → ∃ z x, exec .heapOfferArrival s = .next z ∧ z.heap tile = h
      ∧ z.offers[s.ev.n]? = some x ∧ x.decided = some kOffer)
    ∧ (h.pairs.length < h.cap → h.ctx = o.ctx → h.key = o.layer → nanScore o.pair = false →
      ∃ z x, exec .heapOfferArrival s = .next z ∧ z.offers[s.ev.n]? = some x ∧ x.decided = some 0 ∧ z.mem = s.mem
        ∧ z.heap tile = { h with pairs := insertPair (o.pair, o.fin) h.pairs })
    ∧ (∀ last, h.cap ≤ h.pairs.length → h.pairs.getLast? = some last → h.cap ≠ 0 → h.ctx = o.ctx → h.key = o.layer →
      nanScore o.pair = false → ∃ z x, exec .heapOfferArrival s = .next z ∧ z.offers[s.ev.n]? = some x ∧ x.decided = some 0
        ∧ (z.heap tile).pairs = (if beats o.pair last.1 = true then insertPair (o.pair, o.fin) h.pairs.dropLast else h.pairs)))
  ∧ (∀ (p : Word × Bool) (l : List (Word × Bool)), (insertPair p l).Perm (p :: l)
    ∧ (l.Pairwise (fun x y => beats y.1 x.1 = false) → (insertPair p l).Pairwise (fun x y => beats y.1 x.1 = false)))
  ∧ (∀ (s : State) (i : Nat), s.offers.findIdx? (fun o => o.key == s.ev.key && o.decided == some 0
      && decide (o.due ≤ s.cyc) && o.ring.all (fun x => ringPassed s x.1 x.2.1 x.2.2)) = some i →
    s.ev.key = s.th.key → ∃ z, exec .offerAcknowledgement s = .next z ∧ z.offers = s.offers.eraseIdx i
      ∧ z.th.unacked = s.th.unacked - 1 ∧ z.mem = s.mem)
  ∧ ∀ s : State, s.pubWin < s.cyc / 1400 + 1 → exec .heapCountPublish s =
    .next { s with published := s.heaps.map (fun x => (x.1, x.2.pairs.length, x.2.cap)), pubWin := s.cyc / 1400 + 1 }

/-! ## Traps -/

/-- R344, R354 to R356: the Z triggers: trap takes the trap of cause 1 with its info and z.o, resuming behind it; idle holds
until its deadline; tfence with nothing to report goes on, and with enabled flags takes the arithmetic trap; tret returns
from the handler; in user mode idle and tret take the privilege trap. -/
def Obligations.SystemTriggers : Prop :=
  ∀ (g : Guard) (src : Src) (s : State) (t : Word) (d : Option (BitVec 3 × Nat × Elem)),
    let u := s.passed
    (Fires .trap g src s t d → t.toNat < 2 ^ 32 →
      (s.th.mode = .user → exec (.trap g src) s = .next (takeTrap s.seen
        { cause := 1, info := t.setWidth 32, maddr := u.th.get .zo, mtpc := s.th.pc, nx := true }))
      ∧ (s.th.mode = .monitor → exec (.trap g src) s = .next s.seen.doubleFault))
    ∧ (Fires .trap g src s t d → 2 ^ 32 ≤ t.toNat → exec (.trap g src) s = .next (trapIllegal s.seen))
    ∧ (Fires .idle g src s t d → 2 ^ 32 ≤ t.toNat → exec (.idle g src) s = .next s.seen.doubleFault)
    ∧ (srcFate s.th.key s.th.mode src = .ok → s.th.mode = .user →
      exec (.idle g src) s = .next (trapPrivilege s.seen) ∧ exec (.tret g src) s = .next (trapPrivilege s.seen))
    ∧ (Fires .idle g src s t d → t.toNat < 2 ^ 32 → exec (.idle g src) s =
      .next ((u.map (fun th => { th with hold := .idle (if t = 0 then none else some (u.cyc + t.toNat)) })).taken d))
    ∧ (Fires .tfence g src s t d → (∀ f ∈ u.th.flight, f.due ≤ u.cyc) →
      (s.th.mode = .monitor ∨ (u.th.rfq = 0 ∧ u.th.trapFlags = 0) → exec (.tfence g src) s = .next (u.taken d))
      ∧ (s.th.mode = .user → u.th.rfq = 0 → u.th.trapFlags ≠ 0 → exec (.tfence g src) s = .next (takeTrap s.seen
        { cause := 4, info := u.th.trapFlags.setWidth 32, mtpc := s.th.pc })))
    ∧ (Fires .tret g src s t d → handlerDone u = true → u.th.owing = none →
      exec (.tret g src) s = .next (returnFromTrap rereadRep (u.taken d)))

/-- R356: an idle thread wakes at the first of its events: its deadline, an entry held at the retry ring's slot rp, a
pre-emption request; z.r names those that hold. -/
def Rules.IdleWakes : Prop :=
  ∀ (s t : State) (d : Option Nat), s.focus s.ev.key = some t → t.th.hold = .idle d →
    let late := (d.map (fun x => decide (x ≤ t.cyc))).getD false
    let held := ((retryHead t t.th.ctx).map (fun x => entryHeld t t.th.ctx x.2.2)).getD false
    let e : Nat := (if late then 1 else 0) + (if held then 2 else 0) + (if t.th.preq then 4 else 0)
    e ≠ 0 → t.th.readyAt ≤ t.cyc → exec .idleWake s = .next (t.map (fun x => { x.set .zr (BitVec.ofNat 64 e) with
      hold := .none, readyAt := t.cyc + 1 }))

/-- R346, R348: a trap that is entered: the monitor ports say what it was and where to resume, the windows and any sequence
are closed, the mode is monitor and the PC the thread's own vector, or its context's; g and v stay live. -/
def Rules.TrapEntry : Prop :=
  ∀ (s : State) (ti : TrapInfo) (vec : Word) (f : Word) (x : State),
    s.th.mode = .user → s.th.drained s.cyc = true → vec ≠ 0 →
    vec = (if s.th.mvec ≠ 0 then s.th.mvec else (s.myCtx.map Ctx.vector).getD 0) →
    let u := s.map (fun t => { (t.settle s.cyc).closeDone s.cyc with
      trapWait := none, hold := .none, unperformed := none, again := false })
    u.frameOf = .ok f → writeLines u.dev 24 u (f + 0x500) (u.th.entryImage ti.mtpc) = .ok x →
      ∃ z, takeTrap s ti = z ∧ z.th.mode = .monitor ∧ z.th.pc = vec ∧ z.th.maddr = ti.maddr ∧ z.th.mtpc = ti.mtpc
        ∧ z.th.mcause = ti.info ++ (0#15 ++ BitVec.ofBool ti.nx ++ BitVec.ofNat 8 ti.detail ++ BitVec.ofNat 8 ti.cause)
        ∧ z.th.rep = {} ∧ (∀ w, (z.th.win w).isOpen = false) ∧ z.th.g = s.th.g ∧ z.th.v = s.th.v ∧ z.mem = x.mem
        ∧ z.th.trapWait = none

/-- R352: a trap in monitor mode, and an entry with no vector, is a double fault: the thread stops for good, its record's
status becomes 5, once its earlier accesses are performed and acknowledged, and the policy core is told; no monitor port
changes. -/
def Rules.DoubleFault : Prop :=
  ∀ (s : State) (ti : TrapInfo),
    let stopped : Thread := { s.th with life := .stopped, hold := .none, trapWait := none, unperformed := none, dying := true }
    (s.th.mode = .monitor → takeTrap s ti = s.doubleFault)
    ∧ (s.settled s.th = true → s.doubleFault.th = { stopped with dying := false }
      ∧ s.doubleFault.policyQ = s.policyQ ++ [{ id := s.faultSeq, ctx := s.th.ctx, key := s.th.key, tale := .stopped s.th.record }]
      ∧ ∀ x, writeVA s s.dev (s.th.record + 0x38) [5] = .ok x → s.doubleFault.mem = x.mem)
    ∧ (s.settled s.th = false → s.doubleFault = s.map (fun _ => stopped))
    ∧ ∀ k, slotReady s.doubleFault { s.th with life := .stopped, key := k } = false

/-- R349, R350, R355: tret restores from the frame what the spec lists, and nothing else: V's ports and held result, the scalar
ports but xrnd, xflags and xten, the guards, tlev, the windows with their counts, held results and flags, and the repetition
record, which a record with act = 1 that passes R47's checks starts again from its pass and word with its block words read
again; the mode is user, the PC is mtpc, or the word behind it where mcause has nx; g, v, xrnd, xflags, xten, rfq and mvec
stay as the handler leaves them. -/
def Rules.TrapReturn : Prop :=
  ∀ (s : State) (f : Word) (b : List Byte), s.frameOf = .ok f → readLines s s.dev 17 (f + 0x500) 0x400 = .ok b →
    imageReservedOk b = true → imagePendOk b = true → s.th.mtpc.toNat % 4 = 0 →
    let w := dwordAt b 0x390
    let act := w.getLsbD 63
    (act = true → ∃ bs, checkBlock { s with th := { s.th.restoreEntry b with mode := .user } } (dwordAt b 0x398) (fld w 12 10)
      (fld w 9 6) (fld w 5 0) = .ok bs ∧ fld w 21 19 ≤ fld w 12 10 ∧ fld w 18 13 ≤ fld w 5 0) →
      let z := returnFromTrap rereadRep s
      z.th.mode = .user ∧ z.th.pc = s.th.mtpc + (if s.th.mcause.getLsbD 16 then 4 else 0)
        ∧ z.th.g = s.th.g ∧ z.th.v = s.th.v ∧ z.th.rfq = s.th.rfq ∧ z.th.mvec = s.th.mvec
        ∧ (∀ l ∈ [Latch.xrnd, .xflags, .xten], z.th.get l = s.th.get l)
        ∧ (∀ l, l ≠ .xrnd → l ≠ .xflags → l ≠ .xten → z.th.get l = dwordAt b (0x100 + 8 * (latchIx l).val))
        ∧ z.th.vo = vecAt b 0 ∧ z.th.vo2 = vecAt b 0x40 ∧ z.th.vr = vecAt b 0x80
        ∧ (∀ n, n ≠ 0 → z.th.getK n = (dwordAt b 0x240).getLsbD n.toNat) ∧ z.th.tlev = (dwordAt b 0x240).extractLsb' 16 3
        ∧ z.mem = s.mem
        ∧ (∀ x ∈ [(0, Win.m), (1, .f), (2, .l), (3, .v), (4, .x), (5, .y), (6, .h), (7, .d)],
          let p := z.th.win x.2
          let a := 0x290 + 0x20 * x.1
          let pend := (dwordAt b a).getLsbD 7
          p.isOpen = (pend || (x.2 == .v && act)) ∧ p.rep = (x.2 == .v && act)
            ∧ (p.isOpen = true → p.left = fld (dwordAt b a) 3 0 ∧ p.flags = (dwordAt b (a + 24)).setWidth 7)
            ∧ (pend = true → p.hasRes = true ∧ p.known = true ∧ p.r = dwordAt b (a + 8) ∧ p.r2 = dwordAt b (a + 16)
              ∧ (x.2 = .v → p.v = vecAt b 0xC0)))
        ∧ (act = false → z.th.rep.act = false)
        ∧ (act = true → z.th.rep.act = true ∧ z.th.rep.gv = w.extractLsb' 22 8 ∧ z.th.rep.word = fld w 21 19
          ∧ z.th.rep.pass = fld w 18 13 ∧ z.th.rep.bm1 = fld w 12 10 ∧ z.th.rep.stride = fld w 9 6 ∧ z.th.rep.cm1 = fld w 5 0
          ∧ z.th.rep.addr = dwordAt b 0x398
          ∧ ∀ i < 8, z.th.rep.scal.toList.getD i 0 = dwordAt b (0x3A0 + 8 * i))

/-- R33, R34, R55: a word whose ports are assigned and allowed but whose guard is false only counts as one transport: no port,
register or byte of memory changes but by results that were due. -/
def Rules.FalseGuardSkips : Prop :=
  (∀ (t : Trig) (g : Guard) (l : BitVec 4) (src : Src) (s : State),
    (srcFate s.th.key s.th.mode src).and (trigFate s.th.key s.th.mode t) = .ok → s.seen.th.holds g = false →
      exec (t.instr g l src) s = .next s.passed)
  ∧ (∀ (t : VTrig) (g : Guard) (l : BitVec 4) (src : VSource) (s : State),
    vsourceFate s.th.key s.th.mode src = .ok → s.seen.th.holds g = false →
      exec (t.instr g l src) s = .next s.vseen.advance)
  ∧ ∀ (g : Guard) (dst : SDst) (src : Src) (s : State), s.seen.th.holds g = false →
      ((srcFate s.th.key s.th.mode src).and (dstFate s.th.key s.th.mode dst) = .ok →
        exec (.move g dst src) s = .next s.passed)
      ∧ (∀ off, exec (.br g off) s = .next s.passed ∧ exec (.brl g off) s = .next s.passed)

/-- R18, R53, R55, R344: a word that names a port its core does not have takes the illegal-transport trap, and one that names a
monitor port in user mode the privilege trap, whatever its guard; an encoding that is no instruction takes the illegal-transport
trap. -/
def Rules.ForbiddenPortsTrap : Prop :=
  (∀ (t : Trig) (g : Guard) (l : BitVec 4) (src : Src) (s : State),
    let fate := (srcFate s.th.key s.th.mode src).and (trigFate s.th.key s.th.mode t)
    (fate = .illegal → exec (t.instr g l src) s = .next (takeTrap s.seen { cause := 2, mtpc := s.th.pc }))
    ∧ (fate = .privilege → exec (t.instr g l src) s = .next (takeTrap s.seen { cause := 3, mtpc := s.th.pc })))
  ∧ (∀ (t : VTrig) (g : Guard) (l : BitVec 4) (src : VSource) (s : State), vsourceFate s.th.key s.th.mode src = .illegal →
    exec (t.instr g l src) s = .next (takeTrap s.vseen { cause := 2, mtpc := s.th.pc }))
  ∧ (∀ (w : BitVec 32) (s : State),
    exec (.encodingNotAnInstruction w) s = .next (takeTrap s.seen { cause := 2, mtpc := s.th.pc }))
  ∧ (∀ k m, (∀ t ∈ [Trig.pmma, .dpatch, .xgo, .hinit], 4 ≤ k.core → trigFate k m t = .illegal)
    ∧ (∀ t ∈ [Trig.ycopy, .yring, .ypush, .ydesc], k.core < 4 → trigFate k m t = .illegal)
    ∧ (k.core ≠ 6 → trigFate k m .ymcast = .illegal)
    ∧ (∀ t ∈ [Trig.tret, .idle], trigFate k .user t = .privilege))

/-- R186, R191, R192, R338, R339, R341, R342: a load, a store or an atomic with a reserved attribute word takes the
illegal-transport trap; a misaligned one, one whose address does not translate, one that the memory type does not admit and one
that is refused is held in the retry latch with the fault's kind and address, for the policy core where the context has no
retry ring, and where it has one with its entry in the ring; nothing is accessed. The same of vld and vst. -/
def Obligations.AccessFaults : Prop :=
  (∀ r ∈ loadRows.map (fun x => (x.1, x.2.1, Need.load, 0, [0, 1])) ++ storeRows.map (fun x => (x.1, x.2.1, Need.store, 1, [0, 2]))
      ++ amoRows.map (fun x => (x.1, x.2.1, Need.amo, 2, [0, 1, 2, 3])),
    ∀ (g : Guard) (l : BitVec 4) (src : Src) (s : State) (a : Word) (d : Option (BitVec 3 × Nat × Elem)),
    Fires r.1 g src s a d →
    let t := s.passed
    (attrOk (t.th.get .lo) r.2.2.2.2 = false → exec (r.1.instr g l src) s = .next (trapIllegal s.seen))
    ∧ ∀ k : Nat, attrOk (t.th.get .lo) r.2.2.2.2 = true →
      ((a.toNat % r.2.1 ≠ 0 ∧ k = 3)
        ∨ (a.toNat % r.2.1 = 0 ∧ t.th.acquiring t.cyc = false
          ∧ (translate t t.self a r.2.2.1 = .error k
            ∨ ∃ loc, translate t t.self a r.2.2.1 = .ok loc
              ∧ ((r.2.2.2.1 = 2 ∧ amoAdmits r.1 loc = false ∧ k = 2)
                ∨ ((r.2.2.2.1 = 2 → amoAdmits r.1 loc = true) ∧ t.denied loc.cell r.2.2.2.1 r.2.1 = k ∧ k ≠ 0
                  ∧ (r.2.2.2.1 = 1 → isPosted t loc = false)))))) →
      ((s.th.mode = .monitor ∨ (s.ctx? s.th.ctx).bind Ctx.retryRing = none) →
        ∃ z, exec (r.1.instr g l src) s = .next z ∧ z.mem = s.mem ∧ z.th.hold = .latch ∧ z.th.pc = s.th.pc
          ∧ z.th.g = s.th.g ∧ z.th.port = s.seen.th.port
          ∧ (∃ x, z.th.latch = some x ∧ x.kind = k ∧ x.addr = a ∧ x.pc = s.th.pc ∧ x.id = s.faultSeq ∧ x.ring = none)
          ∧ z.policyQ = s.policyQ ++ [{ id := s.faultSeq, ctx := s.th.ctx, key := s.th.key
                                        tale := .fault k a r.1.num s.tid none }])
      ∧ ∀ va n z1, s.th.mode = .user → (s.ctx? s.th.ctx).bind Ctx.retryRing = some va →
        let p := s.seen.th.get
        let data := if r.1 = .st128 then leBytes 8 (p .lo2).toNat ++ leBytes 8 (p .lo3).toNat else []
        ringRecord s.seen (devAgent s.th.ctx) va
          ([a, BitVec.ofNat 64 (s.th.ctx % 2 ^ 16 * 2 ^ 48 + fld s.tid 16 0 * 2 ^ 31 + r.1.num % 2 ^ 11 * 2 ^ 20 + k)
            , p .lo, p .lo2, p .lo3, s.th.pc, 1, 0].flatMap (fun x => leBytes 8 x.toNat)
            ++ data ++ List.replicate (64 - data.length) 0) = some (n, z1) →
          ∃ z, exec (r.1.instr g l src) s = .next z ∧ z.mem = z1.mem ∧ z.th.hold = .latch ∧ z.th.pc = s.th.pc
            ∧ z.th.g = s.th.g ∧ z.policyQ = z1.policyQ
            ∧ ∃ x, z.th.latch = some x ∧ x.kind = k ∧ x.addr = a ∧ x.pc = s.th.pc ∧ x.ring = some n.toNat)
  ∧ ∀ r ∈ [(VTrig.vld, Need.load, 0, [0, 1]), (.vst, .store, 1, [0, 2])], ∀ (g : Guard) (l : BitVec 4) (src : VSource) (s : State)
      (v : Vec) (d : Option (BitVec 3 × Nat × Elem)), VFires (vOperandRegs r.1) g src s v d →
    let t := s.vseen.advance
    let a : Word := lane t.th.vo2 0 ++ lane v 0
    (attrOk (t.th.get .lo) r.2.2.2 = false → exec (r.1.instr g l src) s = .next (trapIllegal s.vseen))
    ∧ ∀ k : Nat, attrOk (t.th.get .lo) r.2.2.2 = true →
      ((a.toNat % 64 ≠ 0 ∧ k = 3)
        ∨ (a.toNat % 64 = 0 ∧ t.th.acquiring t.cyc = false
          ∧ (translate t t.self a r.2.1 = .error k
            ∨ ∃ loc, translate t t.self a r.2.1 = .ok loc ∧ t.denied loc.cell r.2.2.1 64 = k ∧ k ≠ 0
              ∧ (r.2.2.1 = 1 → isPosted t loc = false)))) →
      (s.th.mode = .monitor ∨ (s.ctx? s.th.ctx).bind Ctx.retryRing = none) →
        ∃ z, exec (r.1.instr g l src) s = .next z ∧ z.mem = s.mem ∧ z.th.hold = .latch ∧ z.th.pc = s.th.pc
          ∧ z.th.g = s.th.g ∧ z.th.v = s.th.v
          ∧ (∃ x, z.th.latch = some x ∧ x.kind = k ∧ x.addr = a ∧ x.pc = s.th.pc ∧ x.id = s.faultSeq)
          ∧ z.policyQ = s.policyQ ++ [{ id := s.faultSeq, ctx := s.th.ctx, key := s.th.key
                                        tale := .fault k a r.1.num s.tid none }]

/-! ## The bindery's mailbox -/

namespace Sys2Proof.Machine

/-- The state with its request answered: the request in the request area, the response of R329 with the request's tag, go
and busy cleared together. -/
def State.answered (s : State) (op status : Nat) (results : List Word) : State :=
  { s with mail := { s.mail with
      req := (s.asked op).mail.req
      resp := Vector.ofFn (fun i => (BitVec.ofNat 64 (s.ev.req.tag.toNat * 2 ^ 32 + status) :: results).getD i.val 0)
      go := false, busy := false, await := .none } }

/-- The requests with their ops and the formats of their bodies (R330). -/
def requestRows : List (Instr × Nat × (Request → Bool)) :=
  [(.createContext, 0x01, fun r => aligned (r.d 1) 64 && r.rest0 1), (.destroyContext, 0x02, fun r => r.rest0 0),
    (.grantTiles, 0x03, fun r => within (r.d 1) 1 1536 && below (r.d 2) 8 && r.rest0 2),
    (.revokeTiles, 0x04, fun r => within (r.d 1) 1 1536 && r.rest0 1), (.mapPages, 0x05, mapOk),
    (.unmapPages, 0x06, fun r => runOk r && r.d 2 == 0 && r.rest0 3),
    (.loadKey, 0x07, fun r => within (r.d 1) 1 63 && aligned (r.d 2) 64 && r.rest0 2),
    (.freeKey, 0x08, fun r => within (r.d 1) 1 63 && r.rest0 1),
    (.writeWindow, 0x09, fun r => windowFmt r && aligned (r.d 2) 64 && r.rest0 2),
    (.clearWindow, 0x0A, fun r => windowFmt r && r.rest0 1),
    (.allocateQueue, 0x0B, fun r => aligned (r.d 1) 64 && r.rest0 1), (.destroyQueue, 0x0C, fun r => below (r.d 1) 16 && r.rest0 1),
    (.restartQueue, 0x0D, fun r => below (r.d 1) 16 && below (r.d 2) 32 && r.rest0 2),
    (.markCheckpointQueue, 0x0E, fun r => below (r.d 1) 16 && bit (r.d 2) && r.rest0 2),
    (.allotGroups, 0x0F, fun r => within (r.d 1) 1 255 && r.rest0 1)]
  ++ [(.allotExperts, 0x10, fun r => within (r.d 1) 1 4096 && r.rest0 1),
    (.registerImageKey, 0x11, fun r => aligned (r.d 1) 64 && r.rest0 1),
    (.setFaultMode, 0x12, fun r => bit (r.d 1) && (if r.d 1 = 1 then aligned (r.d 2) 64 else r.d 2 == 0) && r.rest0 2),
    (.setMonitorVector, 0x13, fun r => aligned (r.d 1) 4 && r.rest0 1),
    (.setDeadline, 0x14, fun r => within (r.d 1) 1024 (2 ^ 24) && r.rest0 1), (.setPowerRank, 0x15, fun r => below (r.d 1) 16 && r.rest0 1),
    (.registerSafeTier, 0x16, fun r => aligned (r.d 1) 4096 && bit (r.d 3) && r.rest0 3),
    (.reserveBuddyRegion, 0x17, fun r => below (r.d 1) 13 && aligned (r.d 2) 4096
      && decide ((r.d 2).toNat + (r.d 3).toNat ≤ hbmEnd) && bit (r.d 4) && r.rest0 4),
    (.setHostVisible, 0x18, fun r => aligned (r.d 1) 4096 && decide ((r.d 1).toNat + (r.d 2).toNat ≤ hbmEnd) && bit (r.d 3) && r.rest0 3)]
  ++ [(.registerCollectiveSet, 0x19, fun r => within (r.d 1) 1 65535 && within (r.d 2) 1 6144
      && decide ((r.d 3).toNat < (r.d 2).toNat) && aligned (r.d 4) 64 && r.rest0 4),
    (.setEventRing, 0x1A, fun r => aligned (r.d 1) 4096 && within (r.d 2) 6 16 && r.rest0 2),
    (.faultAnswer, 0x1B, fun r => below (r.d 1) 32 && bit (r.d 2) && r.rest0 2), (.preemptContext, 0x1C, fun r => r.rest0 0),
    (.resumeContext, 0x1D, fun r => r.rest0 0),
    (.loadCheckpoint, 0x1E, fun r => bit (r.d 1) && (if r.d 1 = 0 then aligned (r.d 2) 64 else below (r.d 2) 13) && r.rest0 2),
    (.pauseQueue, 0x1F, fun r => below (r.d 1) 16 && bit (r.d 2) && r.rest0 2)]

/-- The requests that name no context. -/
def unnamedOps : List Nat := [0x01, 0x16, 0x17, 0x18, 0x1A, 0x1E]

end Sys2Proof.Machine

/-- R328, R329: the mailbox takes one request at a time: one started while another is served is discarded, and so is one
before step 4 of R335 has opened the mailbox (the model's reading, log entry 48). A nonzero reserved byte, a context where none
is named, and a body out of format are answered with status 1; a request in format that names a context that is not resident
with status 2; a reserved op with status 1; and then nothing but the mailbox has changed. -/
def Obligations.MailboxDiscipline : Prop :=
  (∀ r ∈ requestRows, ∀ s : State,
    ((s.mail.opened = false ∨ (s.mail.busy = true ∧ s.mail.started = false)) → exec r.1 s = .next s)
    ∧ (TakenUp r.2.1 s →
      (s.ev.req.rsv ≠ 0 ∨ (r.2.1 ∈ unnamedOps ∧ s.ev.req.ctx ≠ 0) ∨ r.2.2 s.ev.req = false →
        exec r.1 s = .next (s.answered r.2.1 1 []))
      ∧ (r.2.1 ∉ unnamedOps → s.ev.req.rsv = 0 → r.2.2 s.ev.req = true → s.ctx? s.ev.req.ctx.toNat = none →
        exec r.1 s = .next (s.answered r.2.1 2 []))))
  ∧ ∀ s : State, s.ev.n = 0 ∨ (0x20 ≤ s.ev.n ∧ s.ev.n ≤ 0xFF) →
    (TakenUp s.ev.n s → exec .reservedOpRequest s = .next (s.answered s.ev.n 1 []))
    ∧ ((s.mail.opened = false ∨ (s.mail.busy = true ∧ s.mail.started = false)) → exec .reservedOpRequest s = .next s)

/-- R328, R330: the settings of a context, of its queues and of the host: each changes what it names, and the response
says status 0. Ranges are added and removed. -/
def Rules.RequestSettingsSet : Prop :=
  ∀ s : State,
    let r := s.ev.req
    let n := r.ctx.toNat
    (Asked 0x13 true (aligned (r.d 1) 4 && r.rest0 1) s → exec .setMonitorVector s =
      .next ((s.mapCtx n (fun c => { c with vector := r.d 1 })).answered 0x13 0 []))
    ∧ (Asked 0x14 true (within (r.d 1) 1024 (2 ^ 24) && r.rest0 1) s → exec .setDeadline s =
      .next ((s.mapCtx n (fun c => { c with deadline := (r.d 1).toNat })).answered 0x14 0 []))
    ∧ (Asked 0x15 true (below (r.d 1) 16 && r.rest0 1) s → exec .setPowerRank s =
      .next ((s.mapCtx n (fun c => { c with rank := (r.d 1).toNat })).answered 0x15 0 []))
    ∧ (Asked 0x12 true (r.rest0 2) s → r.d 1 = 0 → r.d 2 = 0 → exec .setFaultMode s =
      .next ((s.mapCtx n (fun c => { c with retryRing := none })).answered 0x12 0 []))
    ∧ (Asked 0x12 true (r.rest0 2) s → r.d 1 = 1 → aligned (r.d 2) 64 = true → exec .setFaultMode s =
      .next ((s.mapCtx n (fun c => { c with retryRing := some (r.d 2) })).answered 0x12 0 []))
    ∧ (∀ q, s.queue? (r.d 1).toNat = some q → q.ctx = n →
      (Asked 0x0E true (below (r.d 1) 16 && bit (r.d 2) && r.rest0 2) s → exec .markCheckpointQueue s =
        .next ((s.mapQueue q.num (fun q => { q with ckpt := decide (r.d 2 = 1) })).answered 0x0E 0 []))
      ∧ (Asked 0x1F true (below (r.d 1) 16 && bit (r.d 2) && r.rest0 2) s → exec .pauseQueue s =
        .next ((s.mapQueue q.num (fun q => { q with paused := decide (r.d 2 = 1) })).answered 0x1F 0 [])))
    ∧ (Asked 0x1A false (aligned (r.d 1) 4096 && within (r.d 2) 6 16 && r.rest0 2) s → s.events.held = [] → exec .setEventRing s =
      .next (({ s with events := { s.events with
        ring := some ((r.d 1).toNat, (r.d 2).toNat), head := 0, tail := 0 } } : State).answered 0x1A 0 []))
    ∧ (Asked 0x16 false (aligned (r.d 1) 4096 && bit (r.d 3) && r.rest0 3) s →
      let x := ((r.d 1).toNat, (r.d 2).toNat)
      (r.d 3 = 1 ∨ x ∈ s.safeTier → ∃ z : State, exec .registerSafeTier s = .next (z.answered 0x16 0 [])
        ∧ z = { s with safeTier := z.safeTier } ∧ ∀ y, y ∈ z.safeTier ↔ (y = x ∧ r.d 3 = 1) ∨ (y ≠ x ∧ y ∈ s.safeTier)))
    ∧ (Asked 0x18 false (aligned (r.d 1) 4096 && decide ((r.d 1).toNat + (r.d 2).toNat ≤ hbmEnd) && bit (r.d 3) && r.rest0 3) s →
      let x := ((r.d 1).toNat, (r.d 2).toNat)
      (r.d 3 = 1 ∨ x ∈ s.visible → ∃ z : State, exec .setHostVisible s = .next (z.answered 0x18 0 [])
        ∧ z = { s with visible := z.visible } ∧ ∀ y, y ∈ z.visible ↔ (y = x ∧ r.d 3 = 1) ∨ (y ≠ x ∧ y ∈ s.visible)))
    ∧ (Asked 0x17 false (below (r.d 1) 13 && aligned (r.d 2) 4096 && decide ((r.d 2).toNat + (r.d 3).toNat ≤ hbmEnd) && bit (r.d 4)
        && r.rest0 4) s →
      let x := ((r.d 1).toNat, (r.d 2).toNat, (r.d 3).toNat)
      (r.d 4 = 1 ∨ x ∈ s.buddies → ∃ z : State, exec .reserveBuddyRegion s = .next (z.answered 0x17 0 [])
        ∧ z = { s with buddies := z.buddies } ∧ ∀ y, y ∈ z.buddies ↔ (y = x ∧ r.d 4 = 1) ∨ (y ≠ x ∧ y ∈ s.buddies)))

/-- R234, R321, R330, R340: groups and experts allotted are free ones, and then the context's; an image key is registered
once and its identifier returned; a collective set; a driver's answer is kept with its record. That the groups and experts
allotted are the lowest free ones is the model's choice (log entry 22). -/
def Rules.RequestAllotments : Prop :=
  ∀ s : State,
    let r := s.ev.req
    let n := r.ctx.toNat
    (Asked 0x0F true (within (r.d 1) 1 255 && r.rest0 1) s →
      (r.d 1).toNat ≤ ((List.range 256).filter (fun g => g ≠ 0 ∧ (assoc s.groupOwner g).isNone)).length →
      ∃ (gs : List Nat) (z : State) (ms : List Word), exec .allotGroups s = .next (z.answered 0x0F 0 ms)
        ∧ z = { s with groupOwner := s.groupOwner ++ gs.map (fun g => (g, n)) } ∧ gs.length = (r.d 1).toNat ∧ gs.Nodup
        ∧ (∀ g ∈ gs, 1 ≤ g ∧ g ≤ 255 ∧ assoc s.groupOwner g = none)
        ∧ ms.length = 4 ∧ ∀ g, g < 256 → ((ms.getD (g / 64) 0).getLsbD (g % 64) = true ↔ g ∈ gs))
    ∧ (∀ b, Asked 0x10 true (within (r.d 1) 1 4096 && r.rest0 1) s → b + (r.d 1).toNat ≤ 4096 →
      (∀ i < (r.d 1).toNat, expertTaken s (b + i) = false) →
      ∃ b' ≤ b, exec .allotExperts s = .next (({ s with
            expertOwner := s.expertOwner ++ [(b', (r.d 1).toNat, n)] } : State).answered 0x10 0 [BitVec.ofNat 64 b'])
        ∧ ∀ i < (r.d 1).toNat, expertTaken s (b' + i) = false)
    ∧ (∀ c b, Asked 0x11 true (aligned (r.d 1) 64 && r.rest0 1) s → s.ctx? n = some c → c.imageKey = [] →
      hostBytes s (r.d 1).toNat 97 = some b → exec .registerImageKey s =
        .next (if onCurve b then
            (s.mapCtx n (fun c => { c with imageKey := b })).answered 0x11 0 [BitVec.ofNat 64 (leNat (keyIdent b))]
          else s.answered 0x11 6 []))
    ∧ (∀ b, Asked 0x19 true (within (r.d 1) 1 65535 && within (r.d 2) 1 6144 && decide ((r.d 3).toNat < (r.d 2).toNat)
        && aligned (r.d 4) 64 && r.rest0 4) s → hostBytes s (r.d 4).toNat (2 * (r.d 2).toNat) = some b →
      let ranks := (List.range (r.d 2).toNat).map (fun i => numAt b (2 * i) 2)
      (∀ d ∈ ranks, d < 2 ^ 13) →
        ∃ z : State, exec .registerCollectiveSet s = .next (z.answered 0x19 0 []) ∧ z = { s with sets := z.sets }
          ∧ z.sets.find? (fun x => x.ctx = n ∧ x.num = (r.d 1).toNat) = some ⟨n, (r.d 1).toNat, ranks, (r.d 3).toNat, 0⟩
          ∧ ∀ x, ¬(x.ctx = n ∧ x.num = (r.d 1).toNat) → (x ∈ z.sets ↔ x ∈ s.sets))
    ∧ (∀ x, Asked 0x1B true (below (r.d 1) 32 && bit (r.d 2) && r.rest0 2) s →
      s.policyQ.find? (fun x => x.id = (r.d 1).toNat ∧ x.posted ∧ x.answer.isNone) = some x → x.ctx = n →
      exec .faultAnswer s = .next (({ s with policyQ := s.policyQ.map (fun y =>
        if y.id = x.id then { y with answer := some (decide (r.d 2 = 0)) } else y) } : State).answered 0x1B 0 []))

/-- R305 to R309, R330, R331, R358, R363: contexts and tiles: a created context has a number that none had and what its
creation block says; granted tiles were in no grant, on dies the mask allows, zeroed, and follow the context's logical
tiles; revoked tiles are its highest, and are zeroed; a context is destroyed only without queue and continuation, and what
it held is freed; preq is set for every thread of a pre-empted context, and cleared when it resumes while no checkpoint is under
way. A context created while one is, is pre-empted with the others (R372). -/
def Obligations.RequestContexts : Prop :=
  (∀ (s : State) (b : List Byte) (x : State), let r := s.ev.req
    Asked 0x01 false (aligned (r.d 1) 64 && r.rest0 1) s → s.ctxs.length < 4096 → hostBytes s (r.d 1).toNat 128 = some b →
    blockOk b = true → mapPools (allocTable (s.asked 1)).1 (numAt b 0 4) (allocTable (s.asked 1)).2 = some x →
      ∃ (n : Nat) (z : State), exec .createContext s = .next (z.answered 0x01 0 [BitVec.ofNat 64 n]) ∧ s.ctx? n = none
        ∧ 1 ≤ n ∧ n ≤ 4096 ∧ z.mem = x.mem ∧ ∃ c, z.ctxs = s.ctxs ++ [c] ∧ c.num = n ∧ c.tiles = []
          ∧ c.vector = BitVec.ofNat 64 (numAt b 0x18 8) ∧ c.spawnaMax = numAt b 4 4 ∧ c.hostMax = numAt b 8 4
          ∧ c.deadline = (if numAt b 0xC 4 = 0 then 100000 else numAt b 0xC 4) ∧ c.rank = numAt b 0x10 2 ∧ c.imageKey = []
          ∧ c.preq = s.ckpt.isSome ∧ c.quiet = s.ckpt.isSome)
  ∧ (∀ (s : State) (c : Ctx) (top : Nat) (areas : List (Nat × Nat)), let r := s.ev.req
    Asked 0x03 true (within (r.d 1) 1 1536 && below (r.d 2) 8 && r.rest0 2) s → s.ctx? r.ctx.toNat = some c →
    (r.d 1).toNat ≤ (freeTiles s (r.d 2).toNat).length → c.tiles.length + (r.d 1).toNat ≤ 1536 →
    saveAreas (List.range' c.tiles.length (r.d 1).toNat) s.hbmTop c.areas = some (top, areas) →
      ∃ (got : List Nat) (z : State), exec .grantTiles s =
          .next (z.answered 0x03 0 [BitVec.ofNat 64 c.tiles.length, BitVec.ofNat 64 (r.d 1).toNat])
        ∧ got.length = (r.d 1).toNat ∧ got.Nodup ∧ (∀ t ∈ got, t ∈ freeTiles s (r.d 2).toNat)
        ∧ z.ctxs = s.ctxs.map (fun x => if x.num = c.num then
            { x with tiles := x.tiles ++ (List.range' c.tiles.length (r.d 1).toNat).zip got
                     areas := areas, poolLow := min x.poolLow top } else x)
        ∧ ∀ t ∈ got, ∀ i < 2 ^ 19, Mem.byte z.mem (scrCell t i) = 0)
  ∧ (∀ (s : State) (c : Ctx), let r := s.ev.req
    let k := c.tiles.length - (r.d 1).toNat
    let gone := (c.tiles.drop k).map Prod.snd
    Asked 0x04 true (within (r.d 1) 1 1536 && r.rest0 1) s → s.ctx? r.ctx.toNat = some c → (r.d 1).toNat ≤ c.tiles.length →
    (∀ t ∈ gone, tileInUse s c.num t = false) → accessesDone s c.num = true →
      ∃ z : State, exec .revokeTiles s = .next (z.answered 0x04 0 [])
        ∧ z.ctxs = s.ctxs.map (fun x => if x.num = c.num then { x with tiles := x.tiles.take k } else x)
        ∧ ∀ t ∈ gone, ∀ i < 2 ^ 19, Mem.byte z.mem (scrCell t i) = 0)
  ∧ (∀ (s : State) (c : Ctx), let r := s.ev.req
    Asked 0x02 true (r.rest0 0) s → s.ctx? r.ctx.toNat = some c → (∀ q ∈ s.queues, q.ctx = c.num → q.st = .freed) →
    hasContinuation s c.num = false → accessesDone s c.num = true →
      ∃ z : State, exec .destroyContext s = .next (z.answered 0x02 0 []) ∧ z.ctx? c.num = none
        ∧ (∀ e ∈ z.imports ++ z.exports, fld e.2.d1 63 48 ≠ c.num) ∧ (∀ p ∈ z.keyOwner ++ z.groupOwner, p.2 ≠ c.num)
        ∧ (∀ e ∈ z.expertOwner, e.2.2 ≠ c.num) ∧ ∀ t ∈ tilesOf s c.num, ∀ i < 2 ^ 19, Mem.byte z.mem (scrCell t i) = 0)
  ∧ (∀ (s : State) (c : Ctx), let r := s.ev.req
    Asked 0x1C true (r.rest0 0) s → s.ctx? r.ctx.toNat = some c → c.preq = false →
      ∃ z : State, exec .preemptContext s = .next z ∧ z.mail.busy = true ∧ z.mem = s.mem
        ∧ (∀ t ∈ z.th :: z.others, t.ctx = c.num → t.preq = true)
        ∧ z.ctxs = s.ctxs.map (fun x => if x.num = c.num then
            { x with preq := true, limit := s.cyc + c.deadline, quiet := false } else x))
  ∧ ∀ (s : State) (c : Ctx), let r := s.ev.req
    Asked 0x1D true (r.rest0 0) s → s.ctx? r.ctx.toNat = some c →
    (c.quiet = false → exec .resumeContext s = .next (s.answered 0x1D 4 []))
    ∧ (c.quiet = true → s.ckpt = none → c.saved = [] → s.ev.bytes = [] → (∀ p ∈ c.tiles, p.2 ∉ s.badTiles) → ∃ z : State, exec .resumeContext s = .next (z.answered 0x1D 0 [])
      ∧ (∀ t ∈ z.th :: z.others, t.ctx = c.num → t.preq = false)
      ∧ (∀ x ∈ z.ctxs, x.num = c.num → x.preq = false ∧ x.quiet = false)
      ∧ ∀ k t, c.tiles = [(k, t)] → ∀ i < 2 ^ 19, Mem.byte z.mem (scrCell t i) = Mem.byte s.mem (saveArea s c.num k + i))

/-- R310 to R319, R330: pages, keys and windows: where the tables above a 4 KiB page stand, MAP_PAGES writes its leaf and
UNMAP_PAGES clears it, each changing that entry alone, and no translation of the context stays in a TLB; a key is loaded
under a free number and freed again; a window entry is the one its buffer gives, and cleared it is not valid. -/
def Obligations.RequestMemory : Prop :=
  (∀ (s : State) (c : Ctx) (t3 t2 t1 : Nat), let r := s.ev.req
    let va := (r.d 1).toNat
    let ix (k : Nat) : Nat := va / 2 ^ (12 + 9 * k) % 512
    let table (t k t' : Nat) : Prop := binderyWord s.mem (t + 8 * ix k) = BitVec.ofNat 64 (t' + 1) ∧ t' % 4096 = 0 ∧ t' < 2 ^ 52
    s.ctx? r.ctx.toNat = some c → table c.root 3 t3 → table t3 2 t2 → table t2 1 t1 → accessesDone s c.num = true →
    r.d 3 = BitVec.ofNat 64 (2 ^ 32) →
    let at_ := binderyCell (t1 + 8 * ix 0)
    let changes (z : State) (w : Word) : Prop := binderyWord z.mem (t1 + 8 * ix 0) = w
      ∧ (∀ a, a < at_ ∨ at_ + 8 ≤ a → Mem.byte z.mem a = Mem.byte s.mem a) ∧ (∀ e ∈ z.tlb, e.2.1 ≠ c.num) ∧ z.th = s.th
    (Asked 0x05 true (mapOk r) s → fld (r.d 2) 59 54 = 0 →
      ∃ z : State, exec .mapPages s = .next (z.answered 0x05 0 []) ∧ changes z (r.d 2))
    ∧ (Asked 0x06 true (runOk r && r.d 2 == 0 && r.rest0 3) s → (binderyWord s.mem (t1 + 8 * ix 0)).getLsbD 0 = true →
      (binderyWord s.mem (t1 + 8 * ix 0)).getLsbD 6 = true →
      ∃ z : State, exec .unmapPages s = .next (z.answered 0x06 0 []) ∧ changes z 0))
  ∧ (∀ (s : State) (b : List Byte), let r := s.ev.req
    Asked 0x07 true (within (r.d 1) 1 63 && aligned (r.d 2) 64 && r.rest0 2) s → assoc s.keyOwner (r.d 1).toNat = none →
    hostBytes s (r.d 2).toNat 64 = some b →
      ∃ (z : State) (i : Nat), exec .loadKey s = .next (z.answered 0x07 0 []) ∧ z.mem = s.mem
        ∧ assoc z.keyOwner (r.d 1).toNat = some r.ctx.toNat ∧ assoc z.keyIds (r.d 1).toNat = some (i + 1) ∧ z.keys[i]? = some b)
  ∧ (∀ (s : State) (c : Ctx), let r := s.ev.req
    Asked 0x08 true (within (r.d 1) 1 63 && r.rest0 1) s → s.ctx? r.ctx.toNat = some c →
    assoc s.keyOwner (r.d 1).toNat = some c.num →
    (usesKey s.mem (r.d 1).toNat 4 c.root = true → exec .freeKey s = .next (s.answered 0x08 4 []))
    ∧ (usesKey s.mem (r.d 1).toNat 4 c.root = false → ∃ z : State, exec .freeKey s = .next (z.answered 0x08 0 [])
      ∧ assoc z.keyOwner (r.d 1).toNat = none ∧ z.mem = s.mem))
  ∧ (∀ (s : State) (b : List Byte), let r := s.ev.req
    let n := fld (r.d 1) 25 16
    let exp := decide (fld (r.d 1) 0 0 = 1)
    let w : Win256 := ⟨dwordAt b 0, dwordAt b 8, dwordAt b 16, dwordAt b 24⟩
    Asked 0x09 true (windowFmt r && aligned (r.d 2) 64 && r.rest0 2) s → hostBytes s (r.d 2).toNat 32 = some b →
    winOk exp w = true → fld w.d1 63 48 = r.ctx.toNat → windowTaken s r = false → accessesDone s r.ctx.toNat = true →
      ∃ z : State, exec .writeWindow s = .next (z.answered 0x09 0 []) ∧ z.mem = s.mem
        ∧ assoc (if exp then z.exports else z.imports) n = some w ∧ (if exp then z.imports = s.imports else z.exports = s.exports))
  ∧ ∀ s : State, let r := s.ev.req
    let n := fld (r.d 1) 25 16
    let exp := decide (fld (r.d 1) 0 0 = 1)
    Asked 0x0A true (windowFmt r && r.rest0 1) s → windowTaken s r = false → accessesDone s r.ctx.toNat = true →
      ∃ z : State, exec .clearWindow s = .next (z.answered 0x0A 0 []) ∧ z.mem = s.mem
        ∧ assoc (if exp then z.exports else z.imports) n = none ∧ (if exp then z.imports = s.imports else z.exports = s.exports)

/-- R231, R235, R238, R330, R373: queues are allocated from a valid record under a free number, restarted from their error state, and
destroyed; a checkpoint image is loaded only into a device that holds no context, and then HBM and the contexts are the
image's. That both indices of an allocated queue start from the record's read index is log entry 32, that the bindery's state in
an image is kept as data log entry 21. -/
def Obligations.RequestQueues : Prop :=
  (∀ (s : State) (b : List Byte), let r := s.ev.req
    Asked 0x0B true (aligned (r.d 1) 64 && r.rest0 1) s → hostBytes s (r.d 1).toNat 64 = some b → recordFmt b = true →
    (∃ n < 65536, s.queue? n = none ∧ (∀ t ∈ s.th :: s.others, ∀ p, t.pipe = some p → p.1 ≠ n)
      ∧ ∀ c ∈ s.ctxs, ∀ x ∈ c.saved, ∀ p, x.pipe = some p → p.1 ≠ n) →
      ∃ (n : Nat) (z : State), exec .allocateQueue s = .next (z.answered 0x0B 0 [BitVec.ofNat 64 n]) ∧ s.queue? n = none
        ∧ n < 65536 ∧ z = { s with queues := z.queues } ∧ ∃ q, z.queue? n = some q ∧ q.ctx = r.ctx.toNat ∧ q.st = .running
          ∧ q.recAddr = (r.d 1).toNat ∧ q.base = numAt b 0 8 ∧ q.log2 = numAt b 8 1 ∧ q.wr = numAt b 0x10 4 ∧ q.rd = q.wr
          ∧ q.timeline = 0 ∧ q.started = [])
  ∧ (∀ (s : State) (q : SwQueue), let r := s.ev.req
    Asked 0x0C true (below (r.d 1) 16 && r.rest0 1) s → s.queue? (r.d 1).toNat = some q → q.ctx = r.ctx.toNat →
      ∃ z : State, exec .destroyQueue s = .next z ∧ z.mail.busy = true ∧ z.mail.await = .queueFreed q.num ∧ z.mem = s.mem
        ∧ z.queue? q.num = some { q with st := .draining, slot := none, ready := none, waits := none
                                         started := if q.st = .parked then [] else q.started })
  ∧ (∀ (s : State) (q : SwQueue), let r := s.ev.req
    let rd := (r.d 2).toNat
    Asked 0x0D true (below (r.d 1) 16 && below (r.d 2) 32 && r.rest0 2) s → s.queue? (r.d 1).toNat = some q → q.ctx = r.ctx.toNat →
    (q.st ≠ .error → exec .restartQueue s = .next (s.answered 0x0D 4 []))
    ∧ (q.st = .error → (q.wr + 2 ^ 32 - rd) % 2 ^ 32 ≤ 2 ^ q.log2 →
      ∃ z : State, exec .restartQueue s = .next (z.answered 0x0D 0 []) ∧ Mem.num z.mem (hostCell (q.recAddr + 0x18)) 8 = 0
        ∧ Mem.num z.mem (hostCell (q.recAddr + 0x10)) 4 = rd
        ∧ z.queue? q.num = some { q with st := .running, rd, ready := if q.wr = rd then none else some s.cyc }))
  ∧ ∀ (s : State) (x : Stored), let r := s.ev.req
    let at_ := if r.d 1 = 0 then hostCell (r.d 2).toNat else buddyCell (r.d 2).toNat 0
    Asked 0x1E false (bit (r.d 1) && (if r.d 1 = 0 then aligned (r.d 2) 64 else below (r.d 2) 13) && r.rest0 2) s →
    (s.ctxs ≠ [] → exec .loadCheckpoint s = .next (s.answered 0x1E 4 []))
    ∧ (s.ctxs = [] → s.denied at_ 0 = 0 → assoc s.checkpoints at_ = some x → Mem.num s.mem at_ 4 = 0x504B434B →
      Mem.num s.mem (at_ + 4) 2 = 1 → Mem.num s.mem (at_ + 0x20) 8 = imageLen → Mem.num s.mem (at_ + 0x28) 8 = 1 →
        ∃ z : State, exec .loadCheckpoint s = .next (z.answered 0x1E 0 []) ∧ z.ctxs = x.ctxs ∧ z.queues = x.queues
          ∧ ∀ a < hbmEnd, (∀ k ∈ x.cells, k.1 ≠ a) →
              Mem.byte z.mem a = Mem.byte s.mem (at_ + 0x1001000 + a))

/-! ## Host queues and pipelines -/

namespace Sys2Proof.Machine

/-- The packets with their ops and the formats of their bodies (R233, R234). -/
def packetRows : List (Instr × Nat × (List Byte → Bool)) :=
  [(.nopCommand, 0, fun b => zeros b 8 56), (.launchPipeline, 1, fun b => zeros b 32 32),
    (.launchTask, 2, fun b => zeros b 16 48 && numAt b 8 8 % 64 == 0), (.wait, 3, fun b => zeros b 24 40 && zeros b 10 6),
    (.signal, 4, fun b => zeros b 24 40 && zeros b 10 6), (.copy, 5, fun b => zeros b 40 24 && copyCtlOk (dwordAt b 32)),
    (.barrier, 6, fun b => zeros b 8 56), (.checkpoint, 7, fun b => zeros b 24 40)]

/-- A queue after it has started its next packet (R231, R237): the read index has advanced, and a queue without more packets
has lost its slot. -/
def SwQueue.startedOne (q : SwQueue) : SwQueue :=
  { q with rd := (q.rd + 1) % 2 ^ 32, slot := if q.wr = (q.rd + 1) % 2 ^ 32 then none else q.slot }

end Sys2Proof.Machine

/-- R231 to R237: NOP_COMMAND, BARRIER, SIGNAL, WAIT and COPY: a packet that starts advances the read index, in the queue and in its
record; one that completes adds its cinc to the timeline; a SIGNAL adds to a timeline and a BARRIER goes on only once every
earlier packet has completed; a WAIT that is not met parks its queue; a COPY of mode 2 takes the next number of its set's sums
(log entry 3). -/
def Rules.PlainPackets : Prop :=
  ∀ (s : State) (q : SwQueue) (b : List Byte),
    let h : Word := BitVec.ofNat 64 (numAt b 8 8)
    let v : Word := BitVec.ofNat 64 (numAt b 16 8)
    let once (x : State) (z : State) : Prop :=
      z.queue? q.num = (x.queue? q.num).map (fun y => { y.startedOne with
          timeline := y.timeline + (if packetCinc b then 1 else 0) })
        ∧ Mem.num z.mem (hostCell (q.recAddr + 0x10)) 4 = (q.rd + 1) % 2 ^ 32
        ∧ (∀ a, a < hostCell (q.recAddr + 0x10) ∨ hostCell (q.recAddr + 0x14) ≤ a → Mem.byte z.mem a = Mem.byte x.mem a)
        ∧ z.th = x.th ∧ z.copies = x.copies
    s.queue? q.num = some q →
    (Starts 0 s q b (zeros b 8 56) → ∃ z, exec .nopCommand s = .next z ∧ once s z)
    ∧ (Starts 6 s q b (zeros b 8 56) → q.started = [] → ∃ z, exec .barrier s = .next z ∧ once s z)
    ∧ (Starts 4 s q b (zeros b 24 40 && zeros b 10 6) → q.started = [] → ∀ t, handleQueue s q.ctx h = some t →
      v.toNat < 2 ^ 63 → ∃ z, exec .signal s = .next z ∧ once (addTimeline s t.num v) z
        ∧ ((addTimeline s t.num v).queue? t.num).map SwQueue.timeline = some (t.timeline + v))
    ∧ (Starts 3 s q b (zeros b 24 40 && zeros b 10 6) → ∀ t, handleQueue s q.ctx h = some t →
      (meets t.timeline v = true → ∃ z, exec .wait s = .next z ∧ once s z)
      ∧ (meets t.timeline v = false → exec .wait s =
        .next (s.mapQueue q.num (fun q => { q with st := .parked, slot := none, waits := some (t.num, v) }))))
    ∧ (Starts 5 s q b (zeros b 40 24 && copyCtlOk (dwordAt b 32)) → ∀ key, freeCommandSlot s = some key →
      (fld (dwordAt b 32) 1 0 = 0 ∨ (fld (dwordAt b 32) 1 0 = 1 ∧ numAt b 24 8 % 4 = 0 ∧ fld (dwordAt b 8) 1 0 = 0
        ∧ fld (dwordAt b 16) 1 0 = 0)) →
      ∃ (z : State) (c : Copy), exec .copy s = .next z ∧ z.copies = s.copies ++ [c] ∧ c.key = key ∧ c.ctx = q.ctx
        ∧ c.src = dwordAt b 8 ∧ c.dst = dwordAt b 16 ∧ c.len = numAt b 24 8 ∧ c.kind = fld (dwordAt b 32) 1 0 ∧ c.off = 0
        ∧ c.cmd = some (q.num, q.rd) ∧ z.th = s.th
        ∧ z.queue? q.num = some { q.startedOne with started := q.started ++ [{ idx := q.rd, op := 5, tag := packetTag b, cinc := packetCinc b }] })
    ∧ (Starts 5 s q b (zeros b 40 24 && copyCtlOk (dwordAt b 32)) → ∀ key, freeCommandSlot s = some key →
      let ctl := dwordAt b 32
      ∀ x, fld ctl 1 0 = 2 → s.sets.find? (fun x => x.ctx = q.ctx ∧ x.num = fld ctl 31 16) = some x →
      numAt b 24 8 % sumSize (fld ctl 5 4) = 0 →
      exec .copy s = .next (launchPacket { s with sets := s.sets.map (fun y => if y = x then { y with sums := y.sums + 1 } else y) } q b
        (fun p => { p with sum := some ⟨key, fld ctl 31 16, fld ctl 9 8, fld ctl 5 4, dwordAt b 8, dwordAt b 16, numAt b 24 8, x.sums⟩ })))

/-- R205, R206, R220, R233, R235: a packet whose header or body has a reserved bit set, and one of a reserved op, puts its queue
into the error state, with the error word and the read index of the packet in the queue's record; so do a handle that names no
timeline and an image or record that is not accepted, each with its own cause. That a reserved bit of a handle, a COPY on a set
that is not registered, and the fields of mode 2 in another mode are cause 1, and a queue of another context or a freed one cause
2, is the model's choice (log entries 32 and 47), and so is the cause of a record outside HBM or with a join (log entry 47). -/
def Rules.PacketErrors : Prop :=
  (∀ r ∈ packetRows, ∀ (s : State) (q : SwQueue) (b : List Byte), headOf s r.2.1 = some (q, b) →
    (headerOk b = false ∨ r.2.2 b = false) → exec r.1 s = .next (failQueue s q q.rd (packetTag b) 1))
  ∧ (∀ (s : State) (q : SwQueue) (b : List Byte),
    (Starts 3 s q b (zeros b 24 40 && zeros b 10 6) → handleQueue s q.ctx (BitVec.ofNat 64 (numAt b 8 8)) = none →
      exec .wait s = .next (failQueue s q q.rd (packetTag b) 2))
    ∧ (Starts 4 s q b (zeros b 24 40 && zeros b 10 6) → q.started = [] →
      (handleQueue s q.ctx (BitVec.ofNat 64 (numAt b 8 8)) = none ∨ 2 ^ 63 ≤ numAt b 16 8) →
      exec .signal s = .next (failQueue s q q.rd (packetTag b) 2))
    ∧ (Starts 2 s q b (zeros b 16 48 && numAt b 8 8 % 64 == 0) → ∀ c, s.ctx? q.ctx = some c → c.hostUsed.length < c.hostMax →
      let rec_ : Word := BitVec.ofNat 64 (numAt b 8 8)
      let outsideHbm : Prop := ∀ l, translate s ⟨c.num, false, none, false⟩ rec_ .load = .ok l → l.space ≠ .hbm
      ((∀ d < 8, dieAllowed (recDies s c.num rec_) d = false ∨ c.onDie d = false) ∨ outsideHbm ∨ recJoin s c.num rec_ ≠ 0
        ∨ fld (recControl s c.num rec_) 63 48 ≠ c.num ∨ ∀ d, recordOk s c.num rec_ d = false) →
      exec .launchTask s = .next (failQueue (recSetStatus s c.num rec_ 5) q q.rd (packetTag b) 4))
    ∧ (Starts 5 s q b (zeros b 40 24 && copyCtlOk (dwordAt b 32)) → let ctl := dwordAt b 32
      (fld ctl 1 0 = 2 → (∀ x ∈ s.sets, ¬(x.ctx = q.ctx ∧ x.num = fld ctl 31 16)) →
        exec .copy s = .next (failQueue s q q.rd (packetTag b) 1))
      ∧ (fld ctl 1 0 = 1 → numAt b 24 8 % 4 ≠ 0 → exec .copy s = .next (failQueue s q q.rd (packetTag b) 7))
      ∧ (fld ctl 1 0 = 1 → numAt b 24 8 % 4 = 0 → (fld (dwordAt b 8) 1 0 ≠ 0 ∨ fld (dwordAt b 16) 1 0 ≠ 0) →
        exec .copy s = .next (failQueue s q q.rd (packetTag b) 6)))
    ∧ (Starts 1 s q b (zeros b 32 32) → ∀ c, s.ctx? q.ctx = some c →
      (loadImage s c.num (dwordAt b 8) = none ∨ ∃ i, loadImage s c.num (dwordAt b 8) = some i ∧ imageAllowed s c i = false) →
        exec .launchPipeline s = .next (failQueue s q q.rd (packetTag b) 3))
    ∧ (Starts 7 s q b (zeros b 24 40) → q.ckpt = false →
      exec .checkpoint s = .next (failQueue s q q.rd (packetTag b) 1)))
  ∧ (∀ (s : State) (q : SwQueue), s.queue? s.ev.n = some q → mayStart s q = true → 8 ≤ packetOp (headPacket s q) →
    ckptStops s = false → exec .reservedOpPacket s = .next (failQueue s q q.rd (packetTag (headPacket s q)) 1))
  ∧ ∀ (s : State) (q : SwQueue) (idx : Nat) (tag : W32) (cause : Nat), s.queue? q.num = some q → idx < 2 ^ 32 → cause < 2 ^ 32 →
    let z := failQueue s q idx tag cause
    z.queue? q.num = some { q with st := if q.st = .draining then .draining else .error, rd := idx, slot := none
                                   ready := none, waits := none }
      ∧ Mem.num z.mem (hostCell (q.recAddr + 0x10)) 4 = idx
      ∧ Mem.num z.mem (hostCell (q.recAddr + 0x18)) 8 = tag.toNat * 2 ^ 32 + cause
      ∧ (∀ a, a < hostCell (q.recAddr + 0x10) ∨ hostCell (q.recAddr + 0x20) ≤ a → Mem.byte z.mem a = Mem.byte s.mem a)
      ∧ z.th = s.th

/-- R220, R227, R239, R323, R372: the launches: a pipeline whose image passes every other check of the loader is a queue error where
its signature does not verify under the context's key, and where it does has a thread in each stage's slot, in user mode
at the stage's code, with the packet's arguments in g1 and g2 and its frame in g30; a task whose record is accepted is queued
on its die and counted against its context; a CHECKPOINT on a marked queue pre-empts every context that is not already quiesced.
That an image for whose channels there is no place is rejected with cause 3 is the model's choice (log entry 20). -/
def Obligations.LaunchesStart : Prop :=
  (∀ (s : State) (q : SwQueue) (b img : List Byte) (c : Ctx), Starts 1 s q b (zeros b 32 32) → s.ctx? q.ctx = some c →
    loadImage s c.num (dwordAt b 8) = some img → (signedBy c.imageKey img = true → imageAllowed s c img = true) → s.deny = [] →
    c.stageRecs + (imageOf img).stages.length ≤ 2 ^ 32 →
      (signedBy c.imageKey img = true → placeChans s c (imageOf img) (q.num, q.rd) = none →
        exec .launchPipeline s = .next (failQueue s q q.rd (packetTag b) 3))
      ∧ (signedBy c.imageKey img = true → ∀ s1, placeChans s c (imageOf img) (q.num, q.rd) = some s1 →
        ∃ z, exec .launchPipeline s = .next z ∧ z.chans = s1.chans
        ∧ ∀ e ∈ (imageOf img).stages, ∀ k, e.key? c = some k →
          ∃ t ∈ z.others, t.key = k ∧ t.ctx = c.num ∧ t.life = .running ∧ t.mode = .user ∧ t.pc = e.code
            ∧ t.getG 1 = dwordAt b 16 ∧ t.getG 2 = dwordAt b 24 ∧ t.getG 30 = e.frame ∧ t.pipe = some (q.num, q.rd))
      ∧ (signedBy c.imageKey img = false → exec .launchPipeline s = .next (failQueue s q q.rd (packetTag b) 3)))
  ∧ (∀ (s : State) (q : SwQueue) (b : List Byte) (c : Ctx) (die : Nat),
    let rec_ : Word := BitVec.ofNat 64 (numAt b 8 8)
    Starts 2 s q b (zeros b 16 48 && numAt b 8 8 % 64 == 0) → s.ctx? q.ctx = some c → c.hostUsed.length < c.hostMax →
    taskDie s c rec_ = some die →
    let u := (launchPacket s q b (fun p => { p with record := some rec_ })).mapCtx c.num
      (fun c => { c with hostUsed := rec_ :: c.hostUsed })
    recordOk u c.num rec_ die = true →
      ∃ (z : State) (p : Nat), exec .launchTask s = .next z ∧ z.runq = s.runq ++ [⟨die, p, c.num, rec_, s.cyc, 0⟩]
        ∧ (z.ctx? c.num).map Ctx.hostUsed = some (rec_ :: c.hostUsed) ∧ z.th = s.th)
  ∧ ∀ (s : State) (q : SwQueue) (b : List Byte) (cell : Nat), Starts 7 s q b (zeros b 24 40) → q.ckpt = true →
    s.ckpt = none → copiesOver s = true → ckptCell s b = some cell →
      ∃ z, exec .checkpoint s = .next z ∧ z.ckpt = some ⟨q.num, q.rd, cell⟩ ∧ (∀ x ∈ z.ctxs, x.quiet = false → x.preq = true)
        ∧ z.ctxs.map Ctx.num = s.ctxs.map Ctx.num

/-- R235 to R238, R326: the queues' events: a doorbell sets the write index, one at the read index leaves the queue without a
packet, a slot or a wait, and one beyond the ring is a queue error (one with a nonzero [31:16] is discarded, and the tag of a bad
index is 0: log entry 32); the first
waiting queue gets a free slot; a queue loses its slot after its quantum; a packet that is over completes with its cinc and
is started no longer; a freed queue is reported. -/
def Obligations.QueueEvents : Prop :=
  (∀ (s : State) (q : SwQueue), let w := s.ev.w
    (s.ev.n ≠ 8 ∨ fld w 31 16 ≠ 0 ∨ s.queue? (fld w 15 0) = none → exec .doorbell s = .next s)
    ∧ (s.ev.n = 8 → fld w 31 16 = 0 → s.queue? (fld w 15 0) = some q → q.st ≠ .draining →
      let wr := fld w 63 32
      (wr = q.rd → exec .doorbell s = .next (s.mapQueue q.num (fun q =>
        { q with wr, slot := none, ready := none, waits := none, st := if q.st = .parked then .running else q.st })))
      ∧ (wr ≠ q.rd → (wr + 2 ^ 32 - q.rd) % 2 ^ 32 ≤ 2 ^ q.log2 → ∃ z, exec .doorbell s = .next z ∧ z.mem = s.mem
        ∧ ∃ y, z.queue? q.num = some y ∧ y.wr = wr ∧ y.rd = q.rd ∧ y.st = q.st
          ∧ (q.st = .running → q.slot = none → y.ready ≠ none))
      ∧ (wr ≠ q.rd → 2 ^ q.log2 < (wr + 2 ^ 32 - q.rd) % 2 ^ 32 → q.st ≠ .error →
        exec .doorbell s = .next (failQueue s q q.rd 0 1))))
  ∧ (∀ (s : State) (q : SwQueue), nextMapped s = some q → q.num = s.ev.n → slotsUsed s < 64 → q.st = .running →
    exec .queueMap s = .next (s.mapQueue q.num (fun q => { q with ready := none, slot := some s.cyc })))
  ∧ (∀ (s : State) (q : SwQueue), nextMapped s = some q → q.num = s.ev.n → slotsUsed s < 64 → q.st = .parked →
    s.queue? q.num = some q →
      let y : SwQueue := { q with ready := none, slot := some s.cyc, st := .running, waits := none }
      let b := headPacket s q
      ∃ z, exec .queueMap s = .next z ∧ z.queue? q.num =
        some { y.startedOne with timeline := q.timeline + (if (b.getD 1 0).getLsbD 0 then 1 else 0) })
  ∧ (∀ (s : State) (q : SwQueue), s.queue? s.ev.n = some q → quantumOver s q = true →
    exec .queueQuantumExpiry s = .next (s.mapQueue q.num (fun q => { q with slot := none, ready := some s.cyc })))
  ∧ (∀ (s : State) (q : SwQueue) (p : Started), s.queue? s.ev.n = some q →
    q.started.find? (fun p => p.idx = s.ev.m) = some p → p.sum = none → p.op ≠ 7 →
    let left := q.started.filter (fun y => y.idx ≠ p.idx)
    (p.fail = none → p.finished = true → (p.op = 1 → ∀ c ∈ s.chans, c.pipe = (q.num, p.idx) → c.home = none) → ∃ z, exec .packetComplete s = .next z ∧ z.mem = s.mem ∧ z.th = s.th
      ∧ (p.op = 1 → ∀ c ∈ z.chans, c.pipe ≠ (q.num, p.idx))
      ∧ ∃ y, z.queue? q.num = some y ∧ y.started = left ∧ y.timeline = q.timeline + (if p.cinc then 1 else 0))
    ∧ (∀ c, p.fail = some c → ∃ z, exec .packetComplete s = .next z ∧ z.mem = (failQueue s q p.idx p.tag c).mem
      ∧ ∃ y, z.queue? q.num = some y ∧ y.started = left ∧ y.st = (if q.st = .draining then .draining else .error)))
  ∧ ∀ (s : State) (q : SwQueue), s.queue? s.ev.n = some q → q.st = .draining → q.started = [] →
    ∃ z, exec .queueFreed s = .next z ∧ z.queue? q.num = none ∧ (s.mail.busy = false → z.th = s.th)
      ∧ (s.events.held = [] → s.events.ring = none → z.events.held = [{ ctx := q.ctx, kind := 8, d1 := BitVec.ofNat 64 q.num }])

/-- R77, R234, R372 to R374: a collective sum adds the ranks' contributions in the canonical tree, splitting at the largest power of two
below their number, and completes where all of the same number have arrived; a CHECKPOINT completes once every context is
quiesced: its image has the header of R373 with status 1, and the HBM bytes; where a write of any of it is refused the queue
fails with cause 6. That the bindery's state is kept as data beside the image is the model's choice (log entry 21), and that sums
are told apart by their order log entry 3. -/
def Obligations.SumsAndCheckpoints : Prop :=
  (∀ (n : Nat) (l : List (List W32)), 2 ≤ l.length →
    ∃ h, (∃ k, h = 2 ^ k) ∧ h < l.length ∧ l.length ≤ 2 * h ∧
      (treeSum (n + 1) l).1 = (addLists (treeSum n (l.take h)).1 (treeSum n (l.drop h)).1).1)
  ∧ (∀ (x y : W32) (xs ys : List W32), (addLists (x :: xs) (y :: ys)).1
      = (fp32.add Rm.rne 0 (fp32.value x.toNat) (fp32.value y.toNat)).code :: (addLists xs ys).1)
  ∧ (∀ (s y : State) (q : SwQueue) (p : Started) (c : Collective) (x : CollSet) (own : List Byte) (all : List (List Byte)),
    let ag : Agent := ⟨q.ctx, false, none, false⟩
    s.queue? s.ev.n = some q → q.started.find? (fun p => p.idx = s.ev.m) = some p → p.op = 5 → p.fail = none → p.sum = some c →
    s.sets.find? (fun x => x.ctx = q.ctx ∧ x.num = c.set) = some x → readLines s ag (c.len / 64 + 2) c.src c.len = .ok own →
    gathered s x c.ord own = some all → (∀ b ∈ all, b.length = c.len) →
    let wide := all.map (widenList c.sfmt (c.len / sumSize c.sfmt))
    let sum := treeSum (all.length + 1) (wide.map Prod.fst)
    let out := narrowList c.dfmt sum.1
    let flags := (wide.map Prod.snd).foldl (fun x y => x ||| y) (sum.2 ||| out.2)
    let left := s.contribs.filter (fun k => ¬(k.ctx = x.ctx ∧ k.set = x.num ∧ k.num = c.ord))
    writeLines ag (out.1.length / 64 + 2) { s with contribs := left } c.dst out.1
      = .ok y →
      let at_ := hostCell (q.recAddr + 0x20)
      ∃ z, exec .packetComplete s = .next z
        ∧ z.mem = Mem.write y.mem at_ (leBytes 8 (Mem.num y.mem at_ 8 ||| flags.toNat))
        ∧ z.contribs = left)
  ∧ (∀ (s : State) (q : SwQueue) (p : Started) (r : CkptRun), s.queue? s.ev.n = some q →
    q.started.find? (fun p => p.idx = s.ev.m) = some p → p.op = 7 → s.ckpt = some r → s.ctxs.all Ctx.quiet = true →
    let u : State := { s.mapQueue q.num (fun x => { x with started := x.started.filter (fun y => y.idx ≠ p.idx) }) with
      ckpt := none }
    exec .packetComplete s = .next (if s.denied r.cell 1 imageLen = 0 then completePacket (resumeAll (writeImage u r.cell)) q.num p.cinc
      else failQueue (resumeAll u) q p.idx p.tag 6))
  ∧ ∀ (s : State) (at_ : Nat), hostCell 0 ≤ at_ →
    let z := writeImage s at_
    Mem.num z.mem at_ 4 = 0x504B434B ∧ Mem.num z.mem (at_ + 4) 2 = 1 ∧ Mem.num z.mem (at_ + 0x20) 8 = imageLen
      ∧ Mem.num z.mem (at_ + 0x28) 8 = 1 ∧ (∃ x, assoc z.checkpoints at_ = some x ∧ x.ctxs.map Ctx.num = s.ctxs.map Ctx.num
        ∧ ∀ c ∈ x.ctxs, c.imageKey = [])
      ∧ (∀ a < hbmEnd, (∀ p ∈ s.lineKeys, p.1 ≠ a / 64) → Mem.byte z.mem (at_ + 0x1001000 + a) = Mem.byte s.mem a)
      ∧ ∀ a, a < at_ ∨ at_ + imageLen ≤ a → (∀ p ∈ s.lineKeys, p.1 < hbmEnd / 64) → Mem.byte z.mem a = Mem.byte s.mem a

/-- R241, R242: the balancers and merges of replicated stages: a token above the group level goes to every replica, to all in
one step, and the element that arrived first is merged first, of two in one cycle the lower replica's (the model's choice, log
entry 30); an element of a group to the group's replica, chosen where the fewest elements are held; a merge takes a group from one replica
and lets it go where the group ends. -/
def Obligations.BalancersAndMerges : Prop :=
  let sent (s z : State) (o : Nat) (e : Elem) : Prop := ∀ c, s.chan? o = some c → ∃ x y, z.chan? o = some y
    ∧ y.elems = c.elems ++ [x] ∧ x.word = e.word ∧ x.tag = e.tag ∧ x.sync = e.sync
  (∀ (s : State) (b : Balancer) (p : Port) (e : Elem), s.balancers[s.ev.n]? = some b → unitHead s b.src = some (p, e) →
    b.src ∉ b.outs → b.outs.Nodup →
    (isBroadcast b.level e = true → b.outs.all (roomIn s) = true → ∃ z, exec .balancerDistribute s = .next z
      ∧ (∀ o ∈ b.outs, sent s z o e) ∧ z.mem = s.mem ∧ z.th = s.th
      ∧ z.balancers[s.ev.n]? = some { b with cur := none }
      ∧ z.merges = s.merges.map (fun m => if m.behind b then { m with order := m.order ++ [none] } else m))
    ∧ (isBroadcast b.level e = false → ∀ i, b.cur = some i → i < b.outs.length → roomIn s (b.outs.getD i 0) = true →
      ∃ z, exec .balancerDistribute s = .next z ∧ sent s z (b.outs.getD i 0) e ∧ z.mem = s.mem ∧ z.th = s.th
        ∧ z.balancers[s.ev.n]? = some { b with cur := if endsGroup b.level e then none else some i })
    ∧ (isBroadcast b.level e = false → b.cur = none → b.outs ≠ [] →
      (∀ m ∈ s.merges, m.behind b = true → m.order.countP Option.isSome < 256) →
      ∃ i < b.outs.length, (∀ j < b.outs.length, heldIn s (b.outs.getD i 0) ≤ heldIn s (b.outs.getD j 0))
        ∧ (∀ j < i, heldIn s (b.outs.getD i 0) < heldIn s (b.outs.getD j 0))
        ∧ exec .balancerDistribute s = .next ((s.putBalancer s.ev.n { b with cur := some i }).distributed b (some i))))
  ∧ (∀ (s : State) (m : Merge) (i : Nat) (p : Port) (e : Elem), s.merges[s.ev.n]? = some m →
    unitHead s (m.ins.getD i 0) = some (p, e) → m.ins.getD i 0 ≠ m.out →
    let first : Prop := m.cur = none ∧ m.pair = none ∧ i < m.ins.length ∧ ∀ j < m.ins.length, ∀ p' e',
      unitHead s (m.ins.getD j 0) = some (p', e') → isBroadcast m.level e' = false →
        e.ready < e'.ready ∨ (e.ready = e'.ready ∧ i ≤ j)
    let ordered : Prop := m.cur = none ∧ m.pair ≠ none ∧ m.order.head? = some (some i)
    (isBroadcast m.level e = false → (m.cur = some i ∨ first ∨ ordered) → roomIn s m.out = true →
      ∃ z, exec .mergeEmit s = .next z ∧ sent s z m.out e ∧ z.mem = s.mem ∧ z.th = s.th
        ∧ z.merges[s.ev.n]? = some (if endsGroup m.level e then { m.emitted with cur := none } else { m with cur := some i }))
    ∧ (isBroadcast m.level e = true → (m.cur = some i ∨ ordered) → ∃ z, exec .mergeEmit s = .next z ∧ z.chans = s.chans
      ∧ z.merges[s.ev.n]? = some { m.emitted with cur := none }))
  ∧ ∀ (s : State) (m : Merge) (p : Port) (e : Elem), s.merges[s.ev.n]? = some m → m.cur = none →
    (m.pair = none ∨ m.order.head? = some none) →
    m.out ∉ m.ins → m.ins ≠ [] → unitHead s (m.ins.getD 0 0) = some (p, e) → roomIn s m.out = true →
    (∀ i ∈ m.ins, ∃ x, unitHead s i = some x ∧ isBroadcast m.level x.2 = true) →
      ∃ z, exec .mergeEmit s = .next z ∧ sent s z m.out e ∧ z.mem = s.mem ∧ z.th = s.th
        ∧ z.merges[s.ev.n]? = some m.emitted

/-! ## Peers, links, the host, reset, and the policy core -/

/-- R173, R318 to R320: a peer's request against a valid export entry of its device and cookie, below the entry's length, with the
operation's right, to an address that translates to HBM with the rights it needs, is performed: a load returns the bytes, a
store writes them, an atomic returns the old value and writes its result; any other is refused, and nothing is performed: one
that fails step 6 with the kind of its translation, one that another refuses with that kind. An offer is decided at the heap of
the exporting context, and answered once any record it caused has been passed by its ring. The kinds answered, and that
amo.cas.q is refused, are the model's choice (log entry 35). -/
def Obligations.PeerRequests : Prop :=
  (∀ (s : State) (w : Win256) (l : Loc), let q := s.ev.remote
    let need : Need := if q.op = 0 then .load else if q.op = 1 then .store else .amo
    assoc s.exports q.exp = some w → w.d0.getLsbD 63 = true → (w.d0.getLsbD 62 = true ∨ fld w.d0 55 43 = q.dev) →
    fld w.d0 31 0 = q.cookie.toNat → q.off < fld w.d2 29 0 * 4096 → q.op < 3 → w.d0.getLsbD (61 - q.op) = true →
    translate s ⟨fld w.d1 63 48, false, none, false⟩ (BitVec.ofNat 64 (fld w.d1 47 12 * 4096 + q.off)) need = .ok l →
    l.space = .hbm → s.denied l.cell q.op (if q.op = 0 then q.bytes else if q.op = 1 then s.ev.bytes.length else amoBytes q.amo) = 0 →
    (q.op = 0 → exec .remoteRequestArrival s = .next { s with reply := some ⟨0, s.readAs l.aes l.cell q.bytes⟩ })
    ∧ (q.op = 1 → exec .remoteRequestArrival s = .next { s.writeAs l.aes l.cell s.ev.bytes with reply := some ⟨0, []⟩ })
    ∧ (∀ r ∈ amoRows, q.op = 2 → q.amo = r.1 → r.1 ≠ .amoCasQ →
      let m := leNat (s.readAs l.aes l.cell r.2.1)
      let s' := match r.2.2 m (q.data.toNat % 2 ^ (8 * r.2.1)) (q.data2.toNat % 2 ^ (8 * r.2.1)) with
        | some x => s.writeAs l.aes l.cell (leBytes r.2.1 x)
        | none => s
      exec .remoteRequestArrival s = .next { s' with reply := some ⟨0, leBytes r.2.1 m⟩ }))
  ∧ (∀ (s : State) (w : Win256), let q := s.ev.remote
    q.op = 3 → assoc s.exports q.exp = some w → w.d0.getLsbD 63 = true → (w.d0.getLsbD 62 = true ∨ fld w.d0 55 43 = q.dev) →
    fld w.d0 31 0 = q.cookie.toNat →
    let x := offerAtHeap s (fld w.d1 63 48) q.off (q.data2.setWidth 16) (q.data, q.data2.getLsbD 16)
    (w.d0.getLsbD 59 = false → exec .remoteRequestArrival s = .next { s with reply := some ⟨kOffer, []⟩ })
    ∧ (w.d0.getLsbD 59 = true → (∀ a c n, x.2.2 = some (a, c, n) → ringPassed x.1 a c n = true) →
      exec .remoteRequestArrival s = .next { x.1 with reply := some ⟨x.2.1, []⟩ })
    ∧ (∀ a c n, w.d0.getLsbD 59 = true → x.2.2 = some (a, c, n) → ringPassed x.1 a c n = false →
      exec .remoteRequestArrival s = .next { x.1 with peerOffers := x.1.peerOffers ++ [⟨a, c, n, none⟩] }))
  ∧ (∀ s : State, let q := s.ev.remote
    q.op = 3 → (∀ w, assoc s.exports q.exp = some w → w.d0.getLsbD 63 = false
      ∨ (w.d0.getLsbD 62 = false ∧ fld w.d0 55 43 ≠ q.dev) ∨ fld w.d0 31 0 ≠ q.cookie.toNat) →
      exec .remoteRequestArrival s = .next { s with reply := some ⟨kOffer, []⟩ })
  ∧ (∀ (s : State) (w : Win256), let q := s.ev.remote
    let need : Need := if q.op = 0 then .load else if q.op = 1 then .store else .amo
    let x := translate s ⟨fld w.d1 63 48, false, none, false⟩ (BitVec.ofNat 64 (fld w.d1 47 12 * 4096 + q.off)) need
    let refused (k : Nat) : Prop := exec .remoteRequestArrival s = .next { s with reply := some ⟨k, []⟩ }
    assoc s.exports q.exp = some w → w.d0.getLsbD 63 = true → (w.d0.getLsbD 62 = true ∨ fld w.d0 55 43 = q.dev) →
    fld w.d0 31 0 = q.cookie.toNat → q.off < fld w.d2 29 0 * 4096 → q.op < 3 → w.d0.getLsbD (61 - q.op) = true →
    (∀ k, x = .error k → refused k)
    ∧ ∀ l, x = .ok l → (l.space ≠ .hbm → refused kPermission)
      ∧ (l.space = .hbm →
        let k := s.denied l.cell q.op (if q.op = 0 then q.bytes else if q.op = 1 then s.ev.bytes.length else amoBytes q.amo)
        (k ≠ 0 → refused k) ∧ (k = 0 → q.op = 2 → q.amo = .amoCasQ → refused kPermission)))
  ∧ ∀ s : State, let q := s.ev.remote
    q.op < 3 → (∀ w, assoc s.exports q.exp = some w → w.d0.getLsbD 63 = false
      ∨ (w.d0.getLsbD 62 = false ∧ fld w.d0 55 43 ≠ q.dev) ∨ fld w.d0 31 0 ≠ q.cookie.toNat
      ∨ fld w.d2 29 0 * 4096 ≤ q.off ∨ w.d0.getLsbD (61 - q.op) = false) →
      exec .remoteRequestArrival s = .next { s with reply := some ⟨kPermission, []⟩ }

/-- R247, R371: a flit replayed changes nothing; a retrain ends within 11,200 cycles and delays the packets it meets; at a packet's
third retrain the link is taken out of service and the host told; a packet is delivered once, and a duplicate of an urgent
request is answered with the kept response and not performed again; a buddy's bulk write goes into the region reserved for it
alone. Which packets a retrain meets is an input (log entry 3); that it begins only in service and delays them to its end is the
model's choice (log entry 35). -/
def Obligations.LinkEvents : Prop :=
  (∀ s : State, exec .flitCrcError s = .next s)
  ∧ (∀ s : State, isPort s.ev.n = false → exec .linkRetrain s = .fault .noSubject)
  ∧ (∀ s : State, isPort s.ev.n = true → (s.link s.ev.n).out = false → (s.link s.ev.n).retrain = none →
    (s.homeQ.all (fun a => decide (a.retr < 2)) = true → s.threads.all (fun t => t.posted.all (fun p => decide (p.retr < 2))) = true →
      s.offers.all (fun o => decide (o.retr < 2)) = true → (∀ t ∈ s.threads, t.retr < 2 ∧ ∀ a ∈ t.mem, a.retr < 2) →
      (∀ x ∈ s.streams, ∀ f ∈ x.fetches, f.retr < 2) → (∀ c ∈ s.copies, c.retr < 2) →
      ∃ (z : State) (d : Nat), exec .linkRetrain s = .next z ∧ s.cyc < d ∧ d ≤ s.cyc + 11200
        ∧ (z.link s.ev.n).retrain = some d ∧ z.mem = s.mem
        ∧ (∀ i a, s.homeQ[i]? = some a → z.homeQ[i]? = some (if s.ev.m.testBit i then
            { a with retr := a.retr + 1, due := max a.due d } else a))
        ∧ (∀ i a, s.th.mem[i]? = some a → z.th.mem[i]? = some (
            if s.ev.loads.testBit (loadsBefore s s.th.key + i) ∧ a.viewed = true ∧ a.off = 0 then
              { a with retr := a.retr + 1, due := max a.due d, done := max a.done d } else a))
        ∧ ∀ i c, s.copies[i]? = some c → z.copies[i]? = some (
            if s.ev.pieces.testBit i ∧ (c.ring = 0 ∨ c.slot.isSome) ∧ c.off < c.total then
              { c with retr := c.retr + 1, due := max c.due d } else c))
    ∧ (∀ i a, s.homeQ[i]? = some a → s.ev.m.testBit i = true → 2 ≤ a.retr → ∃ z, exec .linkRetrain s = .next z
      ∧ (z.link s.ev.n).out = true ∧ (∃ b, z.homeQ[i]? = some b ∧ b.retr = a.retr + 1)
      ∧ (s.events.held = [] → s.events.ring = none → z.events.held = [{ kind := 6, d1 := BitVec.ofNat 64 s.ev.n }])))
  ∧ (∀ (s : State) (d : Nat), (s.link s.ev.n).retrain = some d → d ≤ s.cyc →
    ∃ z, exec .retrainComplete s = .next z ∧ z.link s.ev.n = { s.link s.ev.n with retrain := none } ∧ z = { s with links := z.links })
  ∧ ∀ s : State, let p := s.ev.packet
    let x := (p.src, p.cls, p.lane, p.seq)
    (x ∉ s.delivered → ∃ z, exec .linkPacketReceived s = .next z ∧ z.delivered = x :: s.delivered
      ∧ (s.ev.n = 1 → s.ev.remote.op ≠ 3 → p.urgentRequest = true → ∃ r, z.reply = some r ∧ (x, r) ∈ z.kept)
      ∧ (s.ev.n = 2 → z.contribs = s.contribs ++ [⟨s.ev.w.toNat, s.ev.m, s.ev.p, s.ev.sum, s.ev.bytes⟩])
      ∧ (s.ev.n = 4 → (∀ b ∈ s.buddies, ¬(b.1 = s.ev.m ∧ s.ev.w.toNat + s.ev.bytes.length ≤ b.2.2)) →
        z.mem = s.mem ∧ z.reply = some ⟨kPermission, []⟩)
      ∧ (∀ b, s.ev.n = 4 → s.buddies = [b] → b.1 = s.ev.m → s.ev.w.toNat + s.ev.bytes.length ≤ b.2.2 →
        (b.2.1 + s.ev.w.toNat) % 64 + s.ev.bytes.length ≤ 64 → s.ev.bytes ≠ [] →
        z.mem = (s.writeAs 0 (b.2.1 + s.ev.w.toNat) s.ev.bytes).mem ∧ z.reply = some ⟨0, []⟩))
    ∧ (x ∈ s.delivered → (∀ k, s.kept.find? (fun k => k.1 = x) = some k → p.urgentRequest = true →
        exec .linkPacketReceived s = .next { s with reply := some k.2 })
      ∧ (s.kept.find? (fun k => k.1 = x) = none → exec .linkPacketReceived s = .next s))

/-- R325, R328, R332 to R334: the host's accesses: a write of BAR0 that is no aligned 8-byte write of the request area or of go is ignored,
as is any while a request is served; one of a request dword stores it, go starts the request; a read returns the mailbox's dwords, and 0 in the
reserved part. The event tail is an 8-byte register,
and held events are written as room appears; a host access outside the host-visible HBM is dropped or ends with poison, and
inside reads and writes the bytes with key 0. That BAR_REGISTER_WRITE with wr false is a host read is the model's choice (log entry
48), and that a write of the tail needs an open mailbox log entry 35. -/
def Obligations.HostAccesses : Prop :=
  (∀ s : State, let off := s.ev.n
    s.ev.wr = true →
    (s.mail.opened = false ∨ s.mail.busy = true ∨ s.ev.m ≠ 8 ∨ off % 8 ≠ 0 ∨ off < 0x2000 ∨ (0x2040 ≤ off ∧ off ≠ 0x2080)
        ∨ (off = 0x2080 ∧ s.ev.w.getLsbD 0 = false) → exec .barRegisterWrite s = .next s)
    ∧ (s.mail.opened = true → s.mail.busy = false → s.ev.m = 8 →
      (∀ i : Fin 8, off = 0x2000 + 8 * i.val → ∃ r, r[i] = s.ev.w ∧ (∀ j : Fin 8, j ≠ i → r[j] = s.mail.req[j])
        ∧ exec .barRegisterWrite s = .next { s with mail := { s.mail with req := r } })
      ∧ (off = 0x2080 → s.ev.w.getLsbD 0 = true →
        exec .barRegisterWrite s = .next { s with mail := { s.mail with go := true, busy := true } })))
  ∧ (∀ s : State, let off := s.ev.n
    s.ev.wr = false → ∃ bs, exec .barRegisterWrite s = .next { s with hostRead := some bs, draws := s.draws + 1 }
      ∧ (0x3000 ≤ off ∨ (0x20A0 ≤ off ∧ off < 0x3000 ∧ s.ev.m = 8) → bs = List.replicate s.ev.m 0)
      ∧ (s.ev.m = 8 → (∀ i : Fin 8, off = 0x2040 + 8 * i.val → bs = leBytes 8 s.mail.resp[i].toNat)
        ∧ (off = 0x2080 → bs = leBytes 8 ((if s.mail.go then 1 else 0) + (if s.mail.busy then 2 else 0)))
        ∧ (off = 0x2088 → bs = leBytes 8 s.events.head.toNat) ∧ (off = 0x2098 → s.events.lost < 2 ^ 32 → bs = leBytes 8 s.events.lost)))
  ∧ (∀ s : State,
    (s.ev.n ≠ 8 ∨ s.mail.opened = false → exec .eventTailWrite s = .next s)
    ∧ (s.ev.n = 8 → s.mail.opened = true → s.events.held = [] → exec .eventTailWrite s =
      .next { s with events := { s.events with tail := s.ev.w.setWidth 32 } })
    ∧ (∀ e rest base log2, s.ev.n = 8 → s.mail.opened = true → s.events.held = e :: rest → s.events.ring = some (base, log2) →
      rest = [] → (s.events.head - s.ev.w.setWidth 32).toNat < 2 ^ log2 →
        ∃ z, exec .eventTailWrite s = .next z ∧ z.events.held = [] ∧ z.events.head = s.events.head + 1
          ∧ Mem.bytes z.mem (hostCell (base + 64 * (s.events.head.toNat % 2 ^ log2))) 64 = e.bytes))
  ∧ ∀ s : State, let n := if s.ev.wr then s.ev.bytes.length else s.ev.m
    ((∀ r ∈ s.visible, ¬(r.1 ≤ s.ev.n ∧ s.ev.n + n ≤ r.1 + r.2)) → exec .hostMemoryAccess s =
      .next (if s.ev.wr then s else { s with hostRead := none }))
    ∧ ((∃ r ∈ s.visible, r.1 ≤ s.ev.n ∧ s.ev.n + n ≤ r.1 + r.2) → s.ev.n % 64 + n ≤ 64 → 0 < n →
      (s.ev.wr = true → ∃ z, exec .hostMemoryAccess s = .next z ∧ z.mem = (s.writeAs 0 s.ev.n s.ev.bytes).mem ∧ z.th = s.th)
      ∧ (s.ev.wr = false → exec .hostMemoryAccess s = .next { s with hostRead := some (s.readAs 0 s.ev.n n) }))

/-- R335, R336: the boot verifies the patch, measures ROM, patch, fuses and configuration, zeroes HBM and every tile, and opens the
mailbox over no context; the report of an attestation has the layout of R336 and its signature over what stands before it.
(That SPDM carries it behind a header of its own is the model's, log entry 24.) -/
def Obligations.BootAndAttestation : Prop :=
  (∀ s : State, ∃ z, exec .moduleReset s = .next z ∧ z.booted = true ∧ z.mail.opened = true ∧ z.mail.busy = false ∧ z.ctxs = []
    ∧ z.th = {} ∧ z.others = [] ∧ (∀ a < hbmEnd, Mem.byte z.mem a = 0)
    ∧ (∀ t < 1536, ∀ i < 2 ^ 19, Mem.byte z.mem (scrCell t i) = 0)
    ∧ z.patched = (sha384 Config.firmwareKey == Config.firmwareDigest
        && ecdsaVerify Config.firmwareKey (sha384 Config.patch) Config.patchSignature
        && decide (Config.rollback.toNat ≤ Config.patchVersion.toNat))
    ∧ (∀ i : Fin 8, z.meas[i] = (([Config.rom, Config.patch, Config.fuses, Config.linkConfig][i.val]?).map (fun c =>
        sha384 (digestBytes 0 ++ digestBytes (sha384 c)))).getD 0))
  ∧ (∀ s : State, exec .getVersion s = .next { s with spdm := spdmResponse 0x10 0x04 [0, 1, 0, 0x12] }
    ∧ exec .getCapabilities s = .next { s with spdm := spdmResponse 0x12 0x61 Config.spdmCapabilities })
  ∧ ∀ s : State, (s.ev.bytes = [] → ∃ pre, exec .vendorDefinedRequest s = .next { s with spdm := pre ++ Config.certificate })
    ∧ (s.ev.bytes ≠ [] → ∃ pre rep : List Byte, exec .vendorDefinedRequest s = .next { s with spdm := pre ++ rep }
      ∧ rep.length = 0x260 ∧ numAt rep 0 4 = 0x5441434B ∧ numAt rep 4 2 = 1 ∧ numAt rep 6 2 = 0
      ∧ numAt rep 8 16 = Config.serial.toNat ∧ (s.ev.bytes.length = 32 → (rep.drop 0x20).take 32 = s.ev.bytes)
      ∧ (∀ i : Fin 8, (rep.drop (0x40 + 48 * i.val)).take 48 = digestBytes s.meas[i]) ∧ zeros rep 0x1C4 60 = true
      ∧ rep.drop 0x200 = padTo 96 (Config.identitySign (sha384 (rep.take 0x200))))

/-- R332, R333, R339, R340: the policy core: a fault record of another kind than translation and permission is raised at once, and one of
those two is posted to the driver and then answered as the driver says: replayed, or the memory-fault trap with kind and
address; another report becomes an event; the records of a die are answered in the order of their arrival, those posted to the
driver apart (R394). (The thread in focus holds the record, and runs no sequence.) -/
def Obligations.PolicyCoreAnswers : Prop :=
  (∀ (s : State) (r : Report) (kind : Nat) (addr : Word) (trig : Nat) (tid : Word) (l : Retry),
    s.policyQ.find? (fun x => x.id = s.ev.n) = some r → r.tale = .fault kind addr trig tid none → s.th.life ≠ .idle →
    s.th.key = r.key → s.th.latch = some l → l.ring = none → l.id = r.id → l.trig ≠ 0x1EB → l.seq = false → mayAnswer s r = true →
    let u := { s with policyQ := s.policyQ.filter (fun x => x.id ≠ r.id) }.map (fun t => { t with hold := .none, latch := none })
    ((r.answer = some false ∨ (r.answer = none ∧ kind ≠ 1 ∧ kind ≠ 2)) → exec .policyCoreAnswer s =
      .next (takeTrap u { cause := 11, detail := l.kind, maddr := l.addr, mtpc := l.pc }))
    ∧ (r.answer = some true → l.late = false → exec .policyCoreAnswer s = .next (u.map (fun t => { t with readyAt := s.cyc + 1, again := true }))))
  ∧ (∀ (s : State) (r : Report) (kind : Nat) (addr : Word) (trig : Nat) (tid : Word) (st : Option Nat) (base log2 : Nat),
    s.policyQ.find? (fun x => x.id = s.ev.n) = some r → r.tale = .fault kind addr trig tid st → r.answer = none →
    r.posted = false → mayAnswer s r = true → (kind = 1 ∨ kind = 2) → s.events.held = [] → s.events.ring = some (base, log2) → s.events.room = true →
    r.id < 2 ^ 32 → r.ctx < 2 ^ 16 → trig < 2 ^ 11 →
      let at_ := hostCell (base + 64 * (s.events.head.toNat % 2 ^ log2))
      ∃ z, exec .policyCoreAnswer s = .next z ∧ z.th = s.th ∧ z.events.head = s.events.head + 1
        ∧ z.policyQ = s.policyQ.map (fun x => if x.id = r.id then { x with posted := true } else x)
        ∧ Mem.num z.mem at_ 8 = r.id * 2 ^ 32 + r.ctx * 2 ^ 16 + 1 ∧ Mem.num z.mem (at_ + 8) 8 = addr.toNat
        ∧ Mem.num z.mem (at_ + 16) 8 = tid.toNat % 2 ^ 17 ∧ Mem.num z.mem (at_ + 24) 8 = trig * 2 ^ 8 + kind)
  ∧ (∀ (s : State) (r x : Report), s.policyQ.find? (fun x => x.id = s.ev.n) = some r → r.posted = false →
    (∃ i j : Nat, i < j ∧ s.policyQ[i]? = some x ∧ s.policyQ[j]? = some r) → (∀ y ∈ s.policyQ, y.id = r.id → y = r) → x ≠ r →
    x.posted = false → dieOf x.key.tile = dieOf r.key.tile → exec .policyCoreAnswer s = .fault .noSubject)
  ∧ ∀ (s : State) (r : Report) (rec_ : Word), s.policyQ.find? (fun x => x.id = s.ev.n) = some r → mayAnswer s r = true →
    (r.tale = .badRecord rec_ ∨ r.tale = .negativeJoin rec_ ∨ r.tale = .stopped rec_) → s.events.held = [] → s.events.ring = none →
      ∃ z e, exec .policyCoreAnswer s = .next z ∧ z.policyQ = s.policyQ.filter (fun x => x.id ≠ r.id) ∧ z.events.held = [e]
        ∧ e.ctx = r.ctx ∧ e.d1 = rec_ ∧ e.kind = (match r.tale with
          | .badRecord _ => 2
          | .stopped _ => 3
          | _ => 7)

/-- R351, R358 to R361, R365: at a pre-emption's deadline a thread that can be saved is written whole into its frame and leaves its slot, and
no thread of the context issues in user mode any more;
once all are saved the context's tiles are saved and it is quiet; the power policy pre-empts the context of the lowest rank
above 2,400 W, and resumes the last it pre-empted after 100 ms below 2,200 W. That a check takes one context, and is given the
average, is the model's choice (log entry 34). -/
def Rules.PreemptionSteps : Prop :=
  (∀ (s x : State) (c : Ctx), s.ctx? s.ev.n = some c → c.preq = true → c.quiet = false → c.limit ≤ s.cyc → s.th.life = .running →
    s.th.ctx = c.num → s.others = [] → s.presses = [] → s.th.hold = .none → s.th.mode = .user → s.th.trapWait = none →
    s.copy? s.th.key = none → saveWaits s s.th = false → saveFrame s.quiet s.th.pc [] = some x →
      ∃ (z : State) (v : Saved), exec .preemptionDeadline s = .next z ∧ z.th = { key := s.th.key } ∧ z.others = []
        ∧ (z.ctx? c.num).map Ctx.saved = some (c.saved ++ [v]) ∧ v.record = s.th.record ∧ v.key = s.th.key ∧ v.pipe = s.th.pipe
        ∧ v.owed = s.quiet.th.owes)
  ∧ (∀ (s : State) (t : Thread) (c : Ctx), s.ctx? t.ctx = some c → c.preq = true → c.quiet = false → c.limit ≤ s.cyc → t.mode = .user →
    slotReady s t = false)
  ∧ (∀ (s : State) (c : Ctx), s.ctx? s.ev.n = some c → c.preq = true → c.quiet = false → readyToQuiesce s c = true →
    s.mail.busy = true → s.mail.await = .preempted c.num → s.retiring = [] → (∀ k, saveArea s c.num k + 0xDB000 ≤ hbmEnd) →
      ∃ z, exec .contextQuiesce s = .next z ∧ z.th = s.th ∧ (z.ctx? c.num).map Ctx.quiet = some true ∧ z.mail.busy = false
        ∧ ∀ k t, c.tiles = [(k, t)] → t < 1536 → ∀ i < 2 ^ 19,
            Mem.byte z.mem (saveArea s c.num k + i) = Mem.byte s.mem (scrCell t i))
  ∧ (∀ (s : State) (c : Ctx), 2400 < s.ev.n → c ∈ s.ctxs → c.preq = false →
    (∀ d ∈ s.ctxs, d.preq = false → d = c ∨ c.rank < d.rank) →
      ∃ z, exec .powerPolicyCheck s = .next z ∧ z.power.order = c.num :: s.power.order ∧ z.power.active = true
        ∧ z.ctxs = s.ctxs.map (fun x => if x.num = c.num then
            { x with preq := true, limit := s.cyc + c.deadline, quiet := false } else x))
  ∧ ∀ (s : State) (c : Ctx) (rest : List Nat) (t : Nat), s.ev.n < 2200 → s.power.low = some t → t + 140000000 ≤ s.cyc →
    s.power.order = c.num :: rest → c.num ∉ rest → s.ckpt = none → s.ctx? c.num = some c → c.quiet = true → c.saved = [] →
    (∀ p ∈ c.tiles, p.2 ∉ s.badTiles) →
      ∃ z, exec .powerPolicyCheck s = .next z ∧ z.power.order = rest ∧ ∀ x ∈ z.ctxs, x.num = c.num → x.preq = false

/-! ## Frames -/

/-- R14, R37, R42, R70, R73, R194: what the computing words and the loads leave unchanged. A word of A, M or F changes a.r, a result on its way, a
window, and in F the draw in xrnd, and nothing else of the machine; a vector word the same of V; a load or the launch of an
atomic opens its window. In each, the source's dequeue apart, every g and v register, every guard, every special register and
every byte of memory stays. -/
def Obligations.ComputingWordsFrame : Prop :=
  let kept (p u : State) : Prop := u.th.g = p.th.g ∧ u.th.v = p.th.v ∧ u.th.k = p.th.k ∧ u.th.tlev = p.th.tlev
    ∧ u.th.rfq = p.th.rfq ∧ u.th.mvec = p.th.mvec ∧ u.th.mcause = p.th.mcause ∧ u.th.maddr = p.th.maddr ∧ u.th.mtpc = p.th.mtpc
    ∧ u.th.bind = p.th.bind ∧ u.th.vo = p.th.vo ∧ u.th.vo2 = p.th.vo2 ∧ u.th.mode = p.th.mode ∧ u.chans = p.chans
    ∧ (∀ a, Mem.byte u.mem a = Mem.byte p.mem a)
  (∀ (t : Trig) (g : Guard) (l : BitVec 4) (src : Src) (s : State) (w : Word) (d : Option (BitVec 3 × Nat × Elem)),
    Fires t g src s w d → blockOf t ∈ [Block.a, .m, .f] → (t = .bfx → w.toNat < 2 ^ 13) →
      ∃ u, exec (t.instr g l src) s = .next (u.taken d) ∧ kept s.passed u
        ∧ (∀ x, (x = .ar ∧ blockOf t = .a) ∨ (x = .xrnd ∧ blockOf t = .f) ∨ u.th.get x = s.passed.th.get x)
        ∧ u = { s.passed with th := u.th, draws := u.draws })
  ∧ (∀ (t : VTrig) (g : Guard) (l : BitVec 4) (src : VSource) (s : State) (v : Vec) (d : Option (BitVec 3 × Nat × Elem)),
    VFires (vOperandRegs t) g src s v d → t ≠ .vld → t ≠ .vst →
      ∃ u, exec (t.instr g l src) s = .next (u.taken d) ∧ kept s.vseen.advance u
        ∧ (∀ x, x = .xrnd ∨ u.th.get x = s.vseen.advance.th.get x) ∧ u = { s.vseen.advance with th := u.th, draws := u.draws })
  ∧ (∀ r ∈ loadRows, ∀ (g : Guard) (l : BitVec 4) (src : Src) (s : State) (a : Word) (d : Option (BitVec 3 × Nat × Elem))
    (loc : Loc), Fires r.1 g src s a d → Reaches [0, 1] r.2.1 .load 0 none a s.passed loc →
      ∃ u, exec (r.1.instr g l src) s = .next (u.taken d) ∧ kept s.passed u
        ∧ u.th = { s.passed.th with pend := u.th.pend, mem := u.th.mem })
  ∧ ∀ r ∈ amoRows, ∀ (g : Guard) (l : BitVec 4) (src : Src) (s : State) (a : Word) (d : Option (BitVec 3 × Nat × Elem))
    (loc : Loc), Fires r.1 g src s a d → Reaches [0, 1, 2, 3] r.2.1 .amo 2 none a s.passed loc → MayRelease s.passed →
      s.passed.storeBehind loc (amoClass (fld (s.passed.th.get .lo) 6 5)) = false → amoAdmits r.1 loc = true →
      (loc.viewed = true → s.passed.siblingPosts s.th.key.coreKey s.th.key loc.cell 16 = false) →
      ∃ u, exec (r.1.instr g l src) s = .next (u.taken d) ∧ kept s.passed u ∧ u.th = { s.passed.th with pend := u.th.pend }

/-! ## The step, the encoding, and the invariant of every run -/

/-- R20, R32, R39, R52, R244: a step in which a slot that owes no trap issues runs the instruction that the word at its thread's PC decodes to, on the state
in which the thread's hold is over and its core has issued in this cycle, and then takes the turn of the slot; only the slot that the core's
rotation has come to issues; one that owes a trap takes it; an event that the agenda puts next is performed; what is under way is performed
before the events; and where nothing is due and no slot is ready, the cycle ends. The agenda is the model's own (log entry 1), and
that a trap is owed log entry 16. -/
def Obligations.StepRunsTheDecodedWord : Prop :=
  (∀ (s : State) (rest : List Turn) (loc : Loc) (w : BitVec 32),
    (s.agenda = .issue s.th.key :: rest ∧ s.th.key ∈ nextSlots s
      ∨ s.agenda = [] ∧ rest = [] ∧ ownMove s = none ∧ pickEvent s = none ∧ (nextSlots s).head? = some s.th.key) →
    s.th.life ≠ .idle → s.th.owed = [] →
    let u := { s.map (fun t => { t with hold := .none }) with agenda := rest, issued := s.th.key.coreKey :: s.issued }
    (s.th.key.coreKey, s.th.ctx, s.th.pc.toNat / 4096) ∈ s.tlb → (s.th.key.coreKey, s.th.ctx, s.th.pc.toNat / 64) ∈ s.ilines →
    translate u u.self s.th.pc .code = .ok loc → fetchWord u s.th.pc = .ok w → codeBusy u loc.cell = false →
      step s = match exec (decode w) (if loc.viewed then u.evict s.th.key.coreKey loc.cell else u) with
        | .next z => .next (z.served s.th.key)
        | o => o)
  ∧ (∀ (s : State) (k : SlotKey) (rest : List Turn), s.agenda = .issue k :: rest → k ∉ nextSlots s →
    step s = .next { s with agenda := rest })
  ∧ (∀ s : State, ∀ k ∈ nextSlots s, ∃ t ∈ s.threads, t.key = k ∧ slotReady s t = true
    ∧ ∀ u ∈ s.threads, slotReady s u = true → u.key.coreKey = k.coreKey →
      (k.slot + 7 - servedLast s k.coreKey) % 8 ≤ (u.key.slot + 7 - servedLast s k.coreKey) % 8)
  ∧ (∀ (s z : State) (i : Instr) (e : EvArg) (rest : List Turn), s.agenda = .event i e :: rest → mayTurn s i e = true →
    exec i { s with agenda := rest, ev := e } = .next z → step s = .next z)
  ∧ (∀ (s : State) (rest : List Turn) (ti : TrapInfo) (more : List TrapInfo), s.agenda = .issue s.th.key :: rest →
    s.th.life ≠ .idle → s.th.key ∈ nextSlots s → s.th.owed = ti :: more → s.th.mode = .user →
      step s = .next (takeTrap { s.map (fun t => { t with owed := more }) with agenda := rest }
        (if ti.here then { ti with mtpc := s.th.pc } else ti)))
  ∧ (∀ s z : State, s.agenda = [] → ownMove s = some z → step s = .next z)
  ∧ (∀ s : State, s.agenda = [] → ownMove s = none → pickEvent s = none → nextSlots s = [] → lateEvent s = none →
    ∃ z, step s = .next z ∧ z.cyc = s.cyc + 1 ∧ z.issued = [] ∧ z.vUsed = [] ∧ (s.mail.busy = false → z.th = s.th))
  ∧ ∀ s : State, s.agenda = [] → ownMove s = none → s.booted = false → step s = exec .moduleReset { s with ev := {} }

/-- R32 to R49, R55: words of every class, written out from the encoding tables, and the instructions they stand for. -/
def Obligations.WordsDecode : Prop :=
  let k0 : Guard := ⟨false, 0⟩
  decode 0x00040001 = .move k0 (.opnd .ao) (.port (.g 1)) ∧ decode 0x00072828 = .fma k0 (.port (.deq 0))
    ∧ decode 0x40008000 = .vectorTransport k0 (.toVec .vo (.vec (.v 0)))
    ∧ decode 0x4000A405 = .vmulF k0 (.bc (.g 5)) ∧ decode 0x40000010 = .vectorTransport k0 (.toVec (.v 0) (.vec .vr))
    ∧ decode 0x80053F00 = .li k0 (.g 5) 0x3F00 ∧ decode 0x82050000 = .liShiftInsert k0 (.g 5) 0
    ∧ decode 0xC0831400 = .rep k0 3 1 2 0 ∧ decode 0xDC000005 = .br ⟨false, 7⟩ 5 ∧ decode 0xC0C00000 = .nop k0
    ∧ (∀ n ∈ [0, 0xFFFFFFFF, 0x20040001, 0x00440001, 0x00010001, 0x00032001, 0x0000003B, 0x008C0800, 0xC1000000, 0xC0C00001],
        decode (BitVec.ofNat 32 n) = .encodingNotAnInstruction (BitVec.ofNat 32 n))

/-- R32 to R55: decoding what encodes a well-formed instruction gives the instruction back, with every operand. -/
def Obligations.EncodeThenDecode : Prop := ∀ (i : Instr) (w : BitVec 32), i.wf = true → encode i = some w → decode w = i

/-- R32 to R55: every word is the one encoding of what it decodes to, which is well formed: no bit of a word is dropped, and
no two words mean the same. -/
def Obligations.DecodeThenEncode : Prop := ∀ w : BitVec 32, (decode w).wf = true ∧ encode (decode w) = some w

/-- The invariant of every run (the model's own): memory, and every image of it that a checkpoint keeps, stays in its canonical
form, so that equal memories are equal states. -/
def Obligations.StepKeepsMemoryCanonical : Prop := ∀ s z : State, s.safe = true → step s = .next z → z.safe = true

/-- The invariant holds at reset. -/
def Obligations.ResetIsCanonical : Prop := State.reset.safe = true

/-- R52, R335: after reset no context exists, no slot is bound, the cycle counter and every byte of HBM, of the tiles and of
bindery memory are 0, the mailbox is closed; and the first step is the boot. (Registers without a reset value in the spec
are 0, log entry 4.) -/
def Obligations.ResetState : Prop :=
  let s := State.reset
  s.cyc = 0 ∧ s.ctxs = [] ∧ s.th.life = .idle ∧ s.others = [] ∧ s.threads = [] ∧ s.mail.opened = false ∧ s.queues = []
    ∧ s.replicas = [] ∧ s.exports = [] ∧ s.imports = [] ∧ (∀ i : Fin 8, s.meas[i] = 0) ∧ s.mail.busy = false
    ∧ (∀ a, Mem.byte s.mem a = 0) ∧ (∀ n : BitVec 3, s.th.getK n = (n == 0)) ∧ (∀ r, s.th.getG r = 0)
    ∧ step s = exec .moduleReset s

/-! ## Soft errors -/

/-- R344, R366, R368, log entry 14: a transport that reads a g or v register or a latch with a parity error and no duplicate is not performed: it
takes the register data-error trap with the kind of register in its detail, and the register then holds 0; a write ends the
error. -/
def Rules.RegisterDataErrors : Prop :=
  let kind (r : RegRef) : Nat := match r with
    | .g _ => 1
    | .v _ => 2
    | _ => 3
  let traps (z : Out) (u : State) (r : RegRef) : Prop :=
    z = .next (takeTrap (u.map (fun t => t.zero r)) { cause := 12, detail := kind r, mtpc := u.th.pc })
  (∀ (t : Trig) (g : Guard) (l : BitVec 4) (src : Src) (s : State) (w : Word) (d : Option (BitVec 3 × Nat × Elem)) (r : RegRef),
    (srcFate s.th.key s.th.mode src).and (trigFate s.th.key s.th.mode t) = .ok → s.seen.th.holds g = true →
    s.seen.closed (trigWins t) = true → s.seen.readSrc src = .val w d →
    (srcRegs src ++ operandRegs t).find? (fun r => s.seen.th.bad.contains r) = some r → traps (exec (t.instr g l src) s) s.seen r)
  ∧ (∀ (g : Guard) (dst : SDst) (src : Src) (s : State) (w : Word) (d : Option (BitVec 3 × Nat × Elem)) (r : RegRef),
    (srcFate s.th.key s.th.mode src).and (dstFate s.th.key s.th.mode dst) = .ok → s.seen.th.holds g = true →
    s.seen.readSrc src = .val w d → (srcRegs src).find? (fun r => s.seen.th.bad.contains r) = some r →
      traps (exec (.move g dst src) s) s.seen r)
  ∧ (∀ (t : VTrig) (g : Guard) (l : BitVec 4) (src : VSource) (s : State) (v : Vec) (d : Option (BitVec 3 × Nat × Elem)) (r : RegRef),
    vsourceFate s.th.key s.th.mode src = .ok → s.seen.th.holds g = true → s.seen.closed [.v] = true →
    s.vseen.readVSource src = .val v d →
    (vsrcRegs src ++ vOperandRegs t).find? (fun r => s.vseen.th.bad.contains r) = some r →
      traps (exec (t.instr g l src) s) s.vseen r)
  ∧ ∀ (t : Thread) (n : BitVec 5) (m : BitVec 4) (l : Latch) (w : Word) (v : Vec),
    (t.zero (.g n)).getG n = 0 ∧ (t.zero (.v m)).getV m = 0 ∧ (t.zero (.latch l)).get l = 0 ∧ (t.zero .vr).vr = 0
      ∧ (n ≠ 0 → .g n ∉ (t.setG n w).bad) ∧ .v m ∉ (t.setV m v).bad ∧ .latch l ∉ (t.set l w).bad

/-- R332, R366 to R370: a lasting error is logged, and reported with its structure and place, a transient one logged alone. A
scratchpad bank is retired with nothing lost; a second in its parity group retires the tile, whose context is pre-empted; what is
uncorrectable answers a read of its dword with a data error until it is written again, and a press, array or heap word has no
value then; and once its context is quiet without a free tile to move to, the context stays pre-empted and the host is told.
(That a soft error found is an input is the model's, log entry 14.) -/
def Rules.SoftErrors : Prop :=
  let lastingEvent (s : State) (t row loc : Nat) : HostEvent :=
    { ctx := tileCtx s t, kind := 4, d1 := BitVec.ofNat 64 row, d2 := BitVec.ofNat 64 loc }
  (∀ (s : State) (x : Strike) (rest : List Turn), s.agenda = .strike x :: rest →
    step s = .next (strikeNow { s with agenda := rest } x))
  ∧ (∀ (s : State) (t off : Nat), t < 1536 → off < 2 ^ 19 → s.events.held = [] → s.events.ring = none → t ∉ s.badTiles →
    let b := off / 16 % 32
    let z := strikeNow s (.bank t off false)
    ((∀ x ∈ s.badBanks, x.1 = t → x.2 / 8 ≠ b / 8) → z.badBanks = (t, b) :: s.badBanks ∧ z.badTiles = s.badTiles ∧ z.mem = s.mem
      ∧ z.th = s.th ∧ z.deny = s.deny ∧ z.events.held = [lastingEvent s t 0 (scrCell t off)])
    ∧ ((t, b) ∉ s.badBanks → (∃ x ∈ s.badBanks, x.1 = t ∧ x.2 / 8 = b / 8) → ∀ c, s.ctxs = [c] → (∃ k, (k, t) ∈ c.tiles) →
      c.preq = false → c.quiet = false → z.badTiles = t :: s.badTiles ∧ z.retiring = s.retiring ++ [⟨t, c.num, true⟩] ∧ z.mem = s.mem
        ∧ z.ctxs = [{ c with preq := true, limit := s.cyc + c.deadline, quiet := false }]))
  ∧ (∀ (s : State) (t off : Nat), t < 1536 → off < 2 ^ 19 → let b := off / 16 % 32
    let z := strikeNow s (.bank t off true)
    ((∀ x ∈ s.badBanks, x.1 = t → x.2 / 8 ≠ b / 8) → z.lost = s.lost ∧ z.badBanks = (t, b) :: s.badBanks)
    ∧ ((t, b) ∉ s.badBanks → (∃ x ∈ s.badBanks, x.1 = t ∧ x.2 / 8 = b / 8) → s.ctxs = [] →
      z.lost = .cell (scrCell t off / 8 * 8) :: s.lost))
  ∧ (∀ (s : State) (x : Strike), strikeOk x = false → strikeNow s x = s)
  ∧ (∀ (s : State) (row loc : Nat), row < 7 →
    strikeNow s (.transient row loc) = { s with errLog := (row, loc, false) :: s.errLog })
  ∧ (∀ (s : State) (t c p loc : Nat), s.ctxs = [] → t < 1536 → c < 4 →
    (p < 10 → (strikeNow s (.press t c p true)).lost = .press t c p :: s.lost)
    ∧ (strikeNow s (.heap t loc true)).lost = .heap t :: s.lost
    ∧ (strikeNow s (.array ⟨t, c⟩ loc true)).lost = .array ⟨t, c⟩ :: s.lost
    ∧ ∀ d : Fin 8, ((strikeNow s (.array ⟨t, c⟩ loc true)).array ⟨t, c⟩).doms[d].run = false)
  ∧ (∀ (s : State) (cell : Nat), cell < hbmEnd → s.deny = [] → s.lost = [] → s.chans = [] → let z := strikeNow s (.hbm cell true)
    (∀ a, z.denied a 0 = (if a / 8 = cell / 8 then 4 else 0)) ∧ (∀ a, z.denied a 1 = 0)
    ∧ ∀ bs, bs.length = 8 → (z.writeAs 0 (cell / 8 * 8) bs).lost = [])
  ∧ ∀ (s : State) (c : Ctx) (k t : Nat), s.ctx? s.ev.n = some c → c.preq = true → c.quiet = false → readyToQuiesce s c = true →
    c.tiles = [(k, t)] → s.mail.busy = false → s.retiring = [⟨t, c.num, true⟩] → freeTiles s 255 = [] → s.events.held = [] →
    s.events.ring = none →
      ∃ z, exec .contextQuiesce s = .next z ∧ z.retiring = [] ∧ (z.ctx? c.num).map Ctx.preq = some true
        ∧ z.events.held = [{ ctx := c.num, kind := 5, d1 := BitVec.ofNat 64 t, d2 := 1 }]

/-! ## Rules stated together -/

/-- R80, R81: Every A trigger that fires completes: a.r is what the row of R80 says of a.o and the trigger value, bfx what
R81 says, and nothing else changes; a bfx control word with a reserved bit takes the illegal-transport trap. -/
def Obligations.IntegerResults : Prop := Rules.AluResults ∧ Rules.BitFieldExtract

/-- R76, R92 to R98: Every V trigger but vld and vst that fires completes: the value of every lane of v.r, the union of
the lanes' flags, and the draws in lane order. -/
def Obligations.VectorResults : Prop := Rules.VectorLaneResults ∧ Rules.VectorFloatResults

/-- R162 to R166, R171, R178, R180, R189, R194: A load that passes its checks leaves and opens its L window, waiting for
its value; an access on its way is performed piece by piece: a load's piece reads memory as it then stands (a peer or
host piece: memory or its core's view of the line) and its last delivers the bytes extended as its trigger says; a
store's piece writes exactly its bytes and no register; what is read are the bytes memory holds under the line's own
key, and a read after a write gives what was written. When within its latency an access is performed is a free value
(log entry 6). -/
def Obligations.LoadResults : Prop := Rules.LoadLaunch ∧ Rules.AccessPerformed ∧ Rules.ReadsItsBytes

/-- R165 to R168, R193, R194: A store to the own scratchpad, HBM or cacheable host memory leaves to write its bytes at the
cells its address translates to, and a write changes exactly its bytes; a posted store raises the unacknowledged-store
counter and leaves memory alone; one through a peer window or to uncached host memory goes through the write-combining
buffer; a due posted store changes exactly its bytes and is acknowledged, a refused one is reported with rfq rising. -/
def Obligations.StoreResults : Prop := Rules.StoreLaunch ∧ Rules.WritesExactlyItsBytes ∧ Rules.PostedStoreResults ∧ Rules.CombinedStoreResults ∧ Rules.PostedStoreEvents

/-- R173, R195 to R198: An atomic that passes its checks leaves for its home with its operands as captured and opens an L
window; at its home it reads its word once, writes the result of its operation, and answers with the old value. -/
def Obligations.Atomics : Prop := Rules.AtomicLaunch ∧ Rules.AtomicPerformed

/-- R199 to R201: A wait whose word meets its condition returns it with status 0; otherwise it holds, and ends with status
0 when the condition is met, 1 at its deadline, or a watch-unit read. That it counts and takes its source's element as
it ends, and that a watch-unit or snoop read is made in the step of its event, is the model's choice (log entry 45). -/
def Obligations.WaitsOnWords : Prop := Rules.WaitOnWord ∧ Rules.WordWaitEnds

/-- R172, R193, R202 to R204: A fence with nothing outstanding goes on; one at .dm or wider that finds reports pending
takes the remote-store-fault trap; the cache maintenance triggers complete over a range of one page. -/
def Obligations.FencesAndMaintenance : Prop := Rules.FenceCompletes ∧ Rules.FenceReportsStoreFaults ∧ Rules.CacheMaintenance

/-- R205 to R207: sig.add hands its increment to the signal unit, or traps for an increment of 2^63 or more; the unit adds
the first increment of a timeline to arrive and answers with the sum; sig.wait returns the timeline where its
threshold is met and otherwise holds until it is, its deadline, or the queue is freed. The time of a sig.wait whose
threshold is met, and that it takes its source's element at the trigger, are the model's choice (log entries 53 and
45). -/
def Obligations.Timelines : Prop := Rules.SignalAdd ∧ Rules.SignalWait ∧ Rules.TimelineEvents

/-- R46: br, brl, jr and jrl set the PC and the link register, a misaligned jump traps, nop only counts as a transport and
a nop with a field is no instruction; a long immediate to a trigger, of any sixteen bits, acts as the trigger does on
that value. -/
def Obligations.ControlTransfers : Prop := Rules.ControlWords ∧ Rules.LongImmediateTriggers

/-- R47, R101, R102: A rep whose block passes its checks starts the sequence and goes on after the block, a false guard
skips the block, a bad block traps; each word of the sequence moves or computes on the registers moved on by the pass
times the stride. -/
def Obligations.Repetition : Prop := Rules.RepStartsSequence ∧ Rules.SequenceWordIssues

/-- R32, R33, R34, R35, R38, R42, R44, R49, R51 to R53: A value moved to a g register, an operand port or a guard is
written there and nowhere else, g0 and k0 excepted; li and its shift-insert form write their immediate; a class 01
transport writes a vector destination, or lane 0 to a scalar one; in every thread g0 reads 0 and k0 reads 1; what each
source delivers, an immediate, a register, a port, a special port or a broadcast, and that a result port of a unit
with an open window holds its reader. -/
def Obligations.MovesWrite : Prop := Rules.ScalarMoves ∧ Rules.VectorMoves ∧ Rules.HardwiredRegisters ∧ Rules.SourcesRead ∧ Rules.ResultInterlock

/-- R12, R35, R49, R248 to R250: Where its channel has room, an enqueue appends its element, or its token with level and
payload, to the channel behind the port; a dequeue delivers the head, sets k7 and tlev and takes the element out of
its channel, a peek takes nothing; an empty or full queue blocks with nothing changed, a queue in error traps. -/
def Obligations.QueueTransports : Prop := Rules.EnqueueAppends ∧ Rules.QueuePorts

/-- R53, R69, R71, R343, R345, R348, R357: What each write of xrnd, xflags, xten, preq, rfq, mvec, mcause, maddr, mtpc and
mfill leaves, and the trap where a reserved value is written; mfill completes the held entry at the retry ring's slot
rp. That rfq keeps the low 16 bits of any value is the model's choice (log entry 40). -/
def Obligations.SpecialPortWrites : Prop := Rules.SpecialPorts ∧ Rules.RetryFill

/-- R26, R45, R182, R263, R316, R356: The line's arrival, the queue's element or room, the sleep's end, the completion
that a trap waits for, the completed page walk and the first event of an idle thread end their holds; prefetches take
and free the miss registers of a slice. -/
def Obligations.HoldsEnd : Prop := Rules.FetchAndQueueHolds ∧ Rules.IdleWakes ∧ Rules.SliceLines

/-- R216 to R218, R224, R225, R258: A spawn goes on at once: it takes a free slot of its die's pool (whichever: log entry
7) and s.r is the new record 6 cycles later, 0 with none free or no room in depth; a spawna counts its record against
the allowance and s.r is the record, 0 past the allowance or where a check fails; the child's record holds what its
fields are to hold, and the parent's join counter rises by one. -/
def Obligations.SpawnResults : Prop := Rules.SpawnsGoOn ∧ Rules.RecordFields

/-- R223, R229, R259 to R261, R263, R359: done retires its thread and takes one from the counter of each successor; yield,
join and pyield save a task whole where they suspend it and go on where they do not (a pyield in monitor mode only
goes on: log entry 37); a park on a word that equals s.o suspends, registered at the word's granule or line, a write
there sets it woken, and a woken one is queued. -/
def Obligations.ThreadsLeaveSlots : Prop := Rules.RetireAndYield ∧ Rules.ParkSuspends ∧ Rules.SuccessorsGo

/-- R269 to R274: ycopy, ycopy.add and ymcast start with their operands as captured; the copy unit claims slot cp, moves
pieces in order, and completes. -/
def Obligations.Copies : Prop := Rules.CopiesStart ∧ Rules.CopyEvents

/-- R252, R264 to R267: xgo starts a stream of its core, xstop and xwait end and await it; an index dequeued is a fetch of
its element, values are enqueued in index order, a failed fetch is made again on demand. -/
def Obligations.Streams : Prop := Rules.StreamTriggers ∧ Rules.StreamEvents

/-- R105, R112, R119 to R128, R132: The triggers that act at once set the format context; the queued ones enter its queue
with what they capture, and hold their thread but for pclr. -/
def Obligations.PressTriggers : Prop := Rules.PressContextTriggers ∧ Rules.PressQueueTriggers

/-- R30, R105 to R107, R113, R125 to R129: A grant performs the operation at the head of the context served next, its
completion releases the thread, an entry without busy cycles is served in its turn, the ramp limiter's window turns;
pjoin registers its context in a group and holds until the group is formed or its time is over, when it withdraws its
own registration alone (log entry 26). -/
def Obligations.PressEvents : Prop := Rules.PressServes ∧ Rules.PressJoins

/-- R56, R60, R64 to R66, R85, R90, R94, R113, R114, R125: What the sums, products, fused sums, quotients, roots and
conversions of finite operands are worth, told on rational numbers apart from the model's own rounding: the exact
result is rounded once. In the press, where no element is a NaN or an infinity the sum of the products of a row and a
column is exact, and an accumulation, a promotion and each element of a drain are rounded once. -/
def Obligations.PressSumsExactly : Prop := Rules.PressDots ∧ Rules.PressRoundsOnce ∧ Rules.RoundedValues

/-- R135, R140, R143 to R146, R156 to R158: A tick steps every enabled cell of the domains that tick from the values
before it, and delivers its fault; dsave writes the array's image, posted where it goes to another tile, and drest
takes one that passes its checks. -/
def Obligations.IntegratorTicks : Prop := Rules.ArrayTicks ∧ Rules.IntegratorImages

/-- R346 to R352, R355: A trap that is entered sets the monitor ports, the mode and the PC, and closes windows and
sequence; a trap in monitor mode stops the thread for good, its status and report following its earlier accesses; tret
gives back the mode, the PC, the nx bit, the windows with their held results, and the repetition record, whose
sequence goes on where act is 1. -/
def Obligations.TrapsAndReturns : Prop := Rules.TrapEntry ∧ Rules.DoubleFault ∧ Rules.TrapReturn

/-- R18, R34, R53, R55, R344, R366, R368: A legal word whose guard is false only counts as one transport; a word that
names a port its core lacks traps as illegal, one that names a monitor port in user mode as privilege, whatever its
guard; one that reads a register with a parity error and no duplicate takes the register data-error trap, and the
register then holds 0. Which latches a trigger reads, and that the trap is taken at issue after the source is ready,
is the model's choice (log entry 14). -/
def Obligations.WordChecks : Prop := Rules.FalseGuardSkips ∧ Rules.ForbiddenPortsTrap ∧ Rules.RegisterDataErrors

/-- R321, R328 to R330, R340, R346, R358, R365, R372: Each setting of a context, a queue or the host changes what it names
and is answered with status 0; allotted groups and experts were free and are then the context's; an image key is
registered once; a collective set and a driver's answer are kept. That the lowest free groups and experts are allotted
is the model's choice (log entry 22). -/
def Obligations.RequestSettings : Prop := Rules.RequestSettingsSet ∧ Rules.RequestAllotments

/-- R231 to R237: NOP, BARRIER, SIGNAL, WAIT and COPY packets start and complete as their rules say, each advancing the
read index; a reserved bit of a header or body, a reserved op, a bad handle, image or record puts the queue into its
error state with its cause. The causes that the spec does not name are the model's choice (log entries 32 and 47). -/
def Obligations.PacketsStart : Prop := Rules.PlainPackets ∧ Rules.PacketErrors

/-- R351, R358 to R361, R365 to R370: At its deadline a thread that can be saved leaves its slot, saved; a quiesced
context's tiles are saved; the power policy pre-empts the lowest rank and resumes in reverse order; a lasting soft
error is reported and retires what holds it. That a soft error found is an input is the model's choice (log entry 14),
and so is one context at each power check (log entry 34). -/
def Obligations.PreemptionAndRetirement : Prop := Rules.PreemptionSteps ∧ Rules.SoftErrors
end

