-- ==== Sys2Proof/Laws/State.lean ====
section
/-! SUPPORT. One lemma per field per update of a state and of a thread: what an update leaves as it was, and what it
sets. -/

namespace Sys2Proof.Machine

/-! ### State.map -/

variable (s : State) (t : Thread) (f : Thread → Thread)

@[simp] theorem State.map_th : (s.map f).th = f s.th := rfl
@[simp] theorem State.map_cyc : (s.map f).cyc = s.cyc := rfl
@[simp] theorem State.map_draws : (s.map f).draws = s.draws := rfl
@[simp] theorem State.map_agenda : (s.map f).agenda = s.agenda := rfl
@[simp] theorem State.map_ev : (s.map f).ev = s.ev := rfl
@[simp] theorem State.map_issued : (s.map f).issued = s.issued := rfl
@[simp] theorem State.map_vUsed : (s.map f).vUsed = s.vUsed := rfl
@[simp] theorem State.map_rr : (s.map f).rr = s.rr := rfl
@[simp] theorem State.map_rrRep : (s.map f).rrRep = s.rrRep := rfl
@[simp] theorem State.map_rrX : (s.map f).rrX = s.rrX := rfl
@[simp] theorem State.map_others : (s.map f).others = s.others := rfl
@[simp] theorem State.map_mem : (s.map f).mem = s.mem := rfl
@[simp] theorem State.map_hist : (s.map f).hist = s.hist := rfl
@[simp] theorem State.map_ctxs : (s.map f).ctxs = s.ctxs := rfl
@[simp] theorem State.map_lineKeys : (s.map f).lineKeys = s.lineKeys := rfl
@[simp] theorem State.map_keyOwner : (s.map f).keyOwner = s.keyOwner := rfl
@[simp] theorem State.map_keyIds : (s.map f).keyIds = s.keyIds := rfl
@[simp] theorem State.map_keys : (s.map f).keys = s.keys := rfl
@[simp] theorem State.map_imports : (s.map f).imports = s.imports := rfl
@[simp] theorem State.map_exports : (s.map f).exports = s.exports := rfl
@[simp] theorem State.map_tlb : (s.map f).tlb = s.tlb := rfl
@[simp] theorem State.map_walks : (s.map f).walks = s.walks := rfl
@[simp] theorem State.map_walkQ : (s.map f).walkQ = s.walkQ := rfl
@[simp] theorem State.map_l2 : (s.map f).l2 = s.l2 := rfl
@[simp] theorem State.map_l2miss : (s.map f).l2miss = s.l2miss := rfl
@[simp] theorem State.map_ilines : (s.map f).ilines = s.ilines := rfl
@[simp] theorem State.map_peerLines : (s.map f).peerLines = s.peerLines := rfl
@[simp] theorem State.map_homeQ : (s.map f).homeQ = s.homeQ := rfl
@[simp] theorem State.map_sigQ : (s.map f).sigQ = s.sigQ := rfl
@[simp] theorem State.map_copies : (s.map f).copies = s.copies := rfl
@[simp] theorem State.map_deny : (s.map f).deny = s.deny := rfl
@[simp] theorem State.map_chans : (s.map f).chans = s.chans := rfl
@[simp] theorem State.map_balancers : (s.map f).balancers = s.balancers := rfl
@[simp] theorem State.map_merges : (s.map f).merges = s.merges := rfl
@[simp] theorem State.map_streams : (s.map f).streams = s.streams := rfl
@[simp] theorem State.map_xwaits : (s.map f).xwaits = s.xwaits := rfl
@[simp] theorem State.map_pushes : (s.map f).pushes = s.pushes := rfl
@[simp] theorem State.map_presses : (s.map f).presses = s.presses := rfl
@[simp] theorem State.map_heaps : (s.map f).heaps = s.heaps := rfl
@[simp] theorem State.map_offers : (s.map f).offers = s.offers := rfl
@[simp] theorem State.map_published : (s.map f).published = s.published := rfl
@[simp] theorem State.map_pubWin : (s.map f).pubWin = s.pubWin := rfl
@[simp] theorem State.map_replicas : (s.map f).replicas = s.replicas := rfl
@[simp] theorem State.map_arrays : (s.map f).arrays = s.arrays := rfl
@[simp] theorem State.map_runq : (s.map f).runq = s.runq := rfl
@[simp] theorem State.map_adverts : (s.map f).adverts = s.adverts := rfl
@[simp] theorem State.map_migrations : (s.map f).migrations = s.migrations := rfl
@[simp] theorem State.map_suspended : (s.map f).suspended = s.suspended := rfl
@[simp] theorem State.map_seqRnds : (s.map f).seqRnds = s.seqRnds := rfl
@[simp] theorem State.map_peerOffers : (s.map f).peerOffers = s.peerOffers := rfl
@[simp] theorem State.map_lost : (s.map f).lost = s.lost := rfl
@[simp] theorem State.map_errLog : (s.map f).errLog = s.errLog := rfl
@[simp] theorem State.map_edges : (s.map f).edges = s.edges := rfl
@[simp] theorem State.map_groups : (s.map f).groups = s.groups := rfl
@[simp] theorem State.map_pushBinds : (s.map f).pushBinds = s.pushBinds := rfl
@[simp] theorem State.map_ringOps : (s.map f).ringOps = s.ringOps := rfl
@[simp] theorem State.map_queues : (s.map f).queues = s.queues := rfl
@[simp] theorem State.map_parks : (s.map f).parks = s.parks := rfl
@[simp] theorem State.map_policyQ : (s.map f).policyQ = s.policyQ := rfl
@[simp] theorem State.map_faultSeq : (s.map f).faultSeq = s.faultSeq := rfl
@[simp] theorem State.map_booted : (s.map f).booted = s.booted := rfl
@[simp] theorem State.map_patched : (s.map f).patched = s.patched := rfl
@[simp] theorem State.map_meas : (s.map f).meas = s.meas := rfl
@[simp] theorem State.map_spdm : (s.map f).spdm = s.spdm := rfl
@[simp] theorem State.map_mail : (s.map f).mail = s.mail := rfl
@[simp] theorem State.map_events : (s.map f).events = s.events := rfl
@[simp] theorem State.map_tables : (s.map f).tables = s.tables := rfl
@[simp] theorem State.map_hbmTop : (s.map f).hbmTop = s.hbmTop := rfl
@[simp] theorem State.map_groupOwner : (s.map f).groupOwner = s.groupOwner := rfl
@[simp] theorem State.map_expertOwner : (s.map f).expertOwner = s.expertOwner := rfl
@[simp] theorem State.map_safeTier : (s.map f).safeTier = s.safeTier := rfl
@[simp] theorem State.map_buddies : (s.map f).buddies = s.buddies := rfl
@[simp] theorem State.map_visible : (s.map f).visible = s.visible := rfl
@[simp] theorem State.map_sets : (s.map f).sets = s.sets := rfl
@[simp] theorem State.map_contribs : (s.map f).contribs = s.contribs := rfl
@[simp] theorem State.map_links : (s.map f).links = s.links := rfl
@[simp] theorem State.map_delivered : (s.map f).delivered = s.delivered := rfl
@[simp] theorem State.map_kept : (s.map f).kept = s.kept := rfl
@[simp] theorem State.map_reply : (s.map f).reply = s.reply := rfl
@[simp] theorem State.map_hostRead : (s.map f).hostRead = s.hostRead := rfl
@[simp] theorem State.map_power : (s.map f).power = s.power := rfl
@[simp] theorem State.map_badBanks : (s.map f).badBanks = s.badBanks := rfl
@[simp] theorem State.map_badLanes : (s.map f).badLanes = s.badLanes := rfl
@[simp] theorem State.map_badTiles : (s.map f).badTiles = s.badTiles := rfl
@[simp] theorem State.map_retiring : (s.map f).retiring = s.retiring := rfl
@[simp] theorem State.map_ckpt : (s.map f).ckpt = s.ckpt := rfl
@[simp] theorem State.map_checkpoints : (s.map f).checkpoints = s.checkpoints := rfl

@[simp] theorem State.map_map (h : Thread → Thread) : (s.map f).map h = s.map (fun t => h (f t)) := rfl

/-! ### Taking a free value -/

@[simp] theorem State.draw_cyc : s.draw.2.cyc = s.cyc := rfl
@[simp] theorem State.draw_agenda : s.draw.2.agenda = s.agenda := rfl
@[simp] theorem State.draw_ev : s.draw.2.ev = s.ev := rfl
@[simp] theorem State.draw_issued : s.draw.2.issued = s.issued := rfl
@[simp] theorem State.draw_vUsed : s.draw.2.vUsed = s.vUsed := rfl
@[simp] theorem State.draw_rr : s.draw.2.rr = s.rr := rfl
@[simp] theorem State.draw_rrRep : s.draw.2.rrRep = s.rrRep := rfl
@[simp] theorem State.draw_rrX : s.draw.2.rrX = s.rrX := rfl
@[simp] theorem State.draw_th : s.draw.2.th = s.th := rfl
@[simp] theorem State.draw_others : s.draw.2.others = s.others := rfl
@[simp] theorem State.draw_mem : s.draw.2.mem = s.mem := rfl
@[simp] theorem State.draw_hist : s.draw.2.hist = s.hist := rfl
@[simp] theorem State.draw_ctxs : s.draw.2.ctxs = s.ctxs := rfl
@[simp] theorem State.draw_lineKeys : s.draw.2.lineKeys = s.lineKeys := rfl
@[simp] theorem State.draw_keyOwner : s.draw.2.keyOwner = s.keyOwner := rfl
@[simp] theorem State.draw_keyIds : s.draw.2.keyIds = s.keyIds := rfl
@[simp] theorem State.draw_keys : s.draw.2.keys = s.keys := rfl
@[simp] theorem State.draw_imports : s.draw.2.imports = s.imports := rfl
@[simp] theorem State.draw_exports : s.draw.2.exports = s.exports := rfl
@[simp] theorem State.draw_tlb : s.draw.2.tlb = s.tlb := rfl
@[simp] theorem State.draw_walks : s.draw.2.walks = s.walks := rfl
@[simp] theorem State.draw_walkQ : s.draw.2.walkQ = s.walkQ := rfl
@[simp] theorem State.draw_l2 : s.draw.2.l2 = s.l2 := rfl
@[simp] theorem State.draw_l2miss : s.draw.2.l2miss = s.l2miss := rfl
@[simp] theorem State.draw_ilines : s.draw.2.ilines = s.ilines := rfl
@[simp] theorem State.draw_peerLines : s.draw.2.peerLines = s.peerLines := rfl
@[simp] theorem State.draw_homeQ : s.draw.2.homeQ = s.homeQ := rfl
@[simp] theorem State.draw_sigQ : s.draw.2.sigQ = s.sigQ := rfl
@[simp] theorem State.draw_copies : s.draw.2.copies = s.copies := rfl
@[simp] theorem State.draw_deny : s.draw.2.deny = s.deny := rfl
@[simp] theorem State.draw_chans : s.draw.2.chans = s.chans := rfl
@[simp] theorem State.draw_balancers : s.draw.2.balancers = s.balancers := rfl
@[simp] theorem State.draw_merges : s.draw.2.merges = s.merges := rfl
@[simp] theorem State.draw_streams : s.draw.2.streams = s.streams := rfl
@[simp] theorem State.draw_xwaits : s.draw.2.xwaits = s.xwaits := rfl
@[simp] theorem State.draw_pushes : s.draw.2.pushes = s.pushes := rfl
@[simp] theorem State.draw_presses : s.draw.2.presses = s.presses := rfl
@[simp] theorem State.draw_heaps : s.draw.2.heaps = s.heaps := rfl
@[simp] theorem State.draw_offers : s.draw.2.offers = s.offers := rfl
@[simp] theorem State.draw_published : s.draw.2.published = s.published := rfl
@[simp] theorem State.draw_pubWin : s.draw.2.pubWin = s.pubWin := rfl
@[simp] theorem State.draw_replicas : s.draw.2.replicas = s.replicas := rfl
@[simp] theorem State.draw_arrays : s.draw.2.arrays = s.arrays := rfl
@[simp] theorem State.draw_runq : s.draw.2.runq = s.runq := rfl
@[simp] theorem State.draw_adverts : s.draw.2.adverts = s.adverts := rfl
@[simp] theorem State.draw_migrations : s.draw.2.migrations = s.migrations := rfl
@[simp] theorem State.draw_suspended : s.draw.2.suspended = s.suspended := rfl
@[simp] theorem State.draw_seqRnds : s.draw.2.seqRnds = s.seqRnds := rfl
@[simp] theorem State.draw_peerOffers : s.draw.2.peerOffers = s.peerOffers := rfl
@[simp] theorem State.draw_lost : s.draw.2.lost = s.lost := rfl
@[simp] theorem State.draw_errLog : s.draw.2.errLog = s.errLog := rfl
@[simp] theorem State.draw_edges : s.draw.2.edges = s.edges := rfl
@[simp] theorem State.draw_groups : s.draw.2.groups = s.groups := rfl
@[simp] theorem State.draw_pushBinds : s.draw.2.pushBinds = s.pushBinds := rfl
@[simp] theorem State.draw_ringOps : s.draw.2.ringOps = s.ringOps := rfl
@[simp] theorem State.draw_queues : s.draw.2.queues = s.queues := rfl
@[simp] theorem State.draw_parks : s.draw.2.parks = s.parks := rfl
@[simp] theorem State.draw_policyQ : s.draw.2.policyQ = s.policyQ := rfl
@[simp] theorem State.draw_faultSeq : s.draw.2.faultSeq = s.faultSeq := rfl
@[simp] theorem State.draw_booted : s.draw.2.booted = s.booted := rfl
@[simp] theorem State.draw_patched : s.draw.2.patched = s.patched := rfl
@[simp] theorem State.draw_meas : s.draw.2.meas = s.meas := rfl
@[simp] theorem State.draw_spdm : s.draw.2.spdm = s.spdm := rfl
@[simp] theorem State.draw_mail : s.draw.2.mail = s.mail := rfl
@[simp] theorem State.draw_events : s.draw.2.events = s.events := rfl
@[simp] theorem State.draw_tables : s.draw.2.tables = s.tables := rfl
@[simp] theorem State.draw_hbmTop : s.draw.2.hbmTop = s.hbmTop := rfl
@[simp] theorem State.draw_groupOwner : s.draw.2.groupOwner = s.groupOwner := rfl
@[simp] theorem State.draw_expertOwner : s.draw.2.expertOwner = s.expertOwner := rfl
@[simp] theorem State.draw_safeTier : s.draw.2.safeTier = s.safeTier := rfl
@[simp] theorem State.draw_buddies : s.draw.2.buddies = s.buddies := rfl
@[simp] theorem State.draw_visible : s.draw.2.visible = s.visible := rfl
@[simp] theorem State.draw_sets : s.draw.2.sets = s.sets := rfl
@[simp] theorem State.draw_contribs : s.draw.2.contribs = s.contribs := rfl
@[simp] theorem State.draw_links : s.draw.2.links = s.links := rfl
@[simp] theorem State.draw_delivered : s.draw.2.delivered = s.delivered := rfl
@[simp] theorem State.draw_kept : s.draw.2.kept = s.kept := rfl
@[simp] theorem State.draw_reply : s.draw.2.reply = s.reply := rfl
@[simp] theorem State.draw_hostRead : s.draw.2.hostRead = s.hostRead := rfl
@[simp] theorem State.draw_power : s.draw.2.power = s.power := rfl
@[simp] theorem State.draw_badBanks : s.draw.2.badBanks = s.badBanks := rfl
@[simp] theorem State.draw_badLanes : s.draw.2.badLanes = s.badLanes := rfl
@[simp] theorem State.draw_badTiles : s.draw.2.badTiles = s.badTiles := rfl
@[simp] theorem State.draw_retiring : s.draw.2.retiring = s.retiring := rfl
@[simp] theorem State.draw_ckpt : s.draw.2.ckpt = s.ckpt := rfl
@[simp] theorem State.draw_checkpoints : s.draw.2.checkpoints = s.checkpoints := rfl
@[simp] theorem State.draw_draws : s.draw.2.draws = s.draws + 1 := rfl

/-! ### Thread updates -/

variable (l : Latch) (w : Word) (u : Win) (p : Pend) (r : BitVec 4) (v : Vec) (now : Nat) (f : Flags)

@[simp] theorem Thread.set_key : (t.set l w).key = t.key := rfl
@[simp] theorem Thread.setWin_key : (t.setWin u p).key = t.key := rfl
@[simp] theorem Thread.countWins_key : (t.countWins now).key = t.key := rfl
@[simp] theorem Thread.note_key : (t.note now f).key = t.key := rfl
@[simp] theorem Thread.setV_key : (t.setV r v).key = t.key := rfl
@[simp] theorem Thread.setVo_key : (t.setVo v).key = t.key := rfl
@[simp] theorem Thread.setVo2_key : (t.setVo2 v).key = t.key := rfl
@[simp] theorem Thread.setVr_key : (t.setVr v).key = t.key := rfl
@[simp] theorem Thread.set_ctx : (t.set l w).ctx = t.ctx := rfl
@[simp] theorem Thread.setWin_ctx : (t.setWin u p).ctx = t.ctx := rfl
@[simp] theorem Thread.countWins_ctx : (t.countWins now).ctx = t.ctx := rfl
@[simp] theorem Thread.note_ctx : (t.note now f).ctx = t.ctx := rfl
@[simp] theorem Thread.setV_ctx : (t.setV r v).ctx = t.ctx := rfl
@[simp] theorem Thread.setVo_ctx : (t.setVo v).ctx = t.ctx := rfl
@[simp] theorem Thread.setVo2_ctx : (t.setVo2 v).ctx = t.ctx := rfl
@[simp] theorem Thread.setVr_ctx : (t.setVr v).ctx = t.ctx := rfl
@[simp] theorem Thread.set_record : (t.set l w).record = t.record := rfl
@[simp] theorem Thread.setWin_record : (t.setWin u p).record = t.record := rfl
@[simp] theorem Thread.countWins_record : (t.countWins now).record = t.record := rfl
@[simp] theorem Thread.note_record : (t.note now f).record = t.record := rfl
@[simp] theorem Thread.setV_record : (t.setV r v).record = t.record := rfl
@[simp] theorem Thread.setVo_record : (t.setVo v).record = t.record := rfl
@[simp] theorem Thread.setVo2_record : (t.setVo2 v).record = t.record := rfl
@[simp] theorem Thread.setVr_record : (t.setVr v).record = t.record := rfl
@[simp] theorem Thread.set_life : (t.set l w).life = t.life := rfl
@[simp] theorem Thread.setWin_life : (t.setWin u p).life = t.life := rfl
@[simp] theorem Thread.countWins_life : (t.countWins now).life = t.life := rfl
@[simp] theorem Thread.note_life : (t.note now f).life = t.life := rfl
@[simp] theorem Thread.setV_life : (t.setV r v).life = t.life := rfl
@[simp] theorem Thread.setVo_life : (t.setVo v).life = t.life := rfl
@[simp] theorem Thread.setVo2_life : (t.setVo2 v).life = t.life := rfl
@[simp] theorem Thread.setVr_life : (t.setVr v).life = t.life := rfl
@[simp] theorem Thread.set_mode : (t.set l w).mode = t.mode := rfl
@[simp] theorem Thread.setWin_mode : (t.setWin u p).mode = t.mode := rfl
@[simp] theorem Thread.countWins_mode : (t.countWins now).mode = t.mode := rfl
@[simp] theorem Thread.note_mode : (t.note now f).mode = t.mode := rfl
@[simp] theorem Thread.setV_mode : (t.setV r v).mode = t.mode := rfl
@[simp] theorem Thread.setVo_mode : (t.setVo v).mode = t.mode := rfl
@[simp] theorem Thread.setVo2_mode : (t.setVo2 v).mode = t.mode := rfl
@[simp] theorem Thread.setVr_mode : (t.setVr v).mode = t.mode := rfl
@[simp] theorem Thread.set_pc : (t.set l w).pc = t.pc := rfl
@[simp] theorem Thread.setWin_pc : (t.setWin u p).pc = t.pc := rfl
@[simp] theorem Thread.countWins_pc : (t.countWins now).pc = t.pc := rfl
@[simp] theorem Thread.note_pc : (t.note now f).pc = t.pc := rfl
@[simp] theorem Thread.setV_pc : (t.setV r v).pc = t.pc := rfl
@[simp] theorem Thread.setVo_pc : (t.setVo v).pc = t.pc := rfl
@[simp] theorem Thread.setVo2_pc : (t.setVo2 v).pc = t.pc := rfl
@[simp] theorem Thread.setVr_pc : (t.setVr v).pc = t.pc := rfl
@[simp] theorem Thread.set_g : (t.set l w).g = t.g := rfl
@[simp] theorem Thread.setWin_g : (t.setWin u p).g = t.g := rfl
@[simp] theorem Thread.countWins_g : (t.countWins now).g = t.g := rfl
@[simp] theorem Thread.note_g : (t.note now f).g = t.g := rfl
@[simp] theorem Thread.setV_g : (t.setV r v).g = t.g := rfl
@[simp] theorem Thread.setVo_g : (t.setVo v).g = t.g := rfl
@[simp] theorem Thread.setVo2_g : (t.setVo2 v).g = t.g := rfl
@[simp] theorem Thread.setVr_g : (t.setVr v).g = t.g := rfl
@[simp] theorem Thread.set_v : (t.set l w).v = t.v := rfl
@[simp] theorem Thread.setWin_v : (t.setWin u p).v = t.v := rfl
@[simp] theorem Thread.countWins_v : (t.countWins now).v = t.v := rfl
@[simp] theorem Thread.note_v : (t.note now f).v = t.v := rfl
@[simp] theorem Thread.setVo_v : (t.setVo v).v = t.v := rfl
@[simp] theorem Thread.setVo2_v : (t.setVo2 v).v = t.v := rfl
@[simp] theorem Thread.setVr_v : (t.setVr v).v = t.v := rfl
@[simp] theorem Thread.set_vo : (t.set l w).vo = t.vo := rfl
@[simp] theorem Thread.setWin_vo : (t.setWin u p).vo = t.vo := rfl
@[simp] theorem Thread.countWins_vo : (t.countWins now).vo = t.vo := rfl
@[simp] theorem Thread.note_vo : (t.note now f).vo = t.vo := rfl
@[simp] theorem Thread.setV_vo : (t.setV r v).vo = t.vo := rfl
@[simp] theorem Thread.setVo_vo : (t.setVo v).vo = v := rfl
@[simp] theorem Thread.setVo2_vo : (t.setVo2 v).vo = t.vo := rfl
@[simp] theorem Thread.setVr_vo : (t.setVr v).vo = t.vo := rfl
@[simp] theorem Thread.set_vo2 : (t.set l w).vo2 = t.vo2 := rfl
@[simp] theorem Thread.setWin_vo2 : (t.setWin u p).vo2 = t.vo2 := rfl
@[simp] theorem Thread.countWins_vo2 : (t.countWins now).vo2 = t.vo2 := rfl
@[simp] theorem Thread.note_vo2 : (t.note now f).vo2 = t.vo2 := rfl
@[simp] theorem Thread.setV_vo2 : (t.setV r v).vo2 = t.vo2 := rfl
@[simp] theorem Thread.setVo_vo2 : (t.setVo v).vo2 = t.vo2 := rfl
@[simp] theorem Thread.setVo2_vo2 : (t.setVo2 v).vo2 = v := rfl
@[simp] theorem Thread.setVr_vo2 : (t.setVr v).vo2 = t.vo2 := rfl
@[simp] theorem Thread.set_vr : (t.set l w).vr = t.vr := rfl
@[simp] theorem Thread.setWin_vr : (t.setWin u p).vr = t.vr := rfl
@[simp] theorem Thread.countWins_vr : (t.countWins now).vr = t.vr := rfl
@[simp] theorem Thread.note_vr : (t.note now f).vr = t.vr := rfl
@[simp] theorem Thread.setV_vr : (t.setV r v).vr = t.vr := rfl
@[simp] theorem Thread.setVo_vr : (t.setVo v).vr = t.vr := rfl
@[simp] theorem Thread.setVo2_vr : (t.setVo2 v).vr = t.vr := rfl
@[simp] theorem Thread.setVr_vr : (t.setVr v).vr = v := rfl
@[simp] theorem Thread.setWin_port : (t.setWin u p).port = t.port := rfl
@[simp] theorem Thread.countWins_port : (t.countWins now).port = t.port := rfl
@[simp] theorem Thread.note_port : (t.note now f).port = t.port := rfl
@[simp] theorem Thread.setV_port : (t.setV r v).port = t.port := rfl
@[simp] theorem Thread.setVo_port : (t.setVo v).port = t.port := rfl
@[simp] theorem Thread.setVo2_port : (t.setVo2 v).port = t.port := rfl
@[simp] theorem Thread.setVr_port : (t.setVr v).port = t.port := rfl
@[simp] theorem Thread.set_k : (t.set l w).k = t.k := rfl
@[simp] theorem Thread.setWin_k : (t.setWin u p).k = t.k := rfl
@[simp] theorem Thread.countWins_k : (t.countWins now).k = t.k := rfl
@[simp] theorem Thread.note_k : (t.note now f).k = t.k := rfl
@[simp] theorem Thread.setV_k : (t.setV r v).k = t.k := rfl
@[simp] theorem Thread.setVo_k : (t.setVo v).k = t.k := rfl
@[simp] theorem Thread.setVo2_k : (t.setVo2 v).k = t.k := rfl
@[simp] theorem Thread.setVr_k : (t.setVr v).k = t.k := rfl
@[simp] theorem Thread.set_tlev : (t.set l w).tlev = t.tlev := rfl
@[simp] theorem Thread.setWin_tlev : (t.setWin u p).tlev = t.tlev := rfl
@[simp] theorem Thread.countWins_tlev : (t.countWins now).tlev = t.tlev := rfl
@[simp] theorem Thread.note_tlev : (t.note now f).tlev = t.tlev := rfl
@[simp] theorem Thread.setV_tlev : (t.setV r v).tlev = t.tlev := rfl
@[simp] theorem Thread.setVo_tlev : (t.setVo v).tlev = t.tlev := rfl
@[simp] theorem Thread.setVo2_tlev : (t.setVo2 v).tlev = t.tlev := rfl
@[simp] theorem Thread.setVr_tlev : (t.setVr v).tlev = t.tlev := rfl
@[simp] theorem Thread.set_preq : (t.set l w).preq = t.preq := rfl
@[simp] theorem Thread.setWin_preq : (t.setWin u p).preq = t.preq := rfl
@[simp] theorem Thread.countWins_preq : (t.countWins now).preq = t.preq := rfl
@[simp] theorem Thread.note_preq : (t.note now f).preq = t.preq := rfl
@[simp] theorem Thread.setV_preq : (t.setV r v).preq = t.preq := rfl
@[simp] theorem Thread.setVo_preq : (t.setVo v).preq = t.preq := rfl
@[simp] theorem Thread.setVo2_preq : (t.setVo2 v).preq = t.preq := rfl
@[simp] theorem Thread.setVr_preq : (t.setVr v).preq = t.preq := rfl
@[simp] theorem Thread.set_rfq : (t.set l w).rfq = t.rfq := rfl
@[simp] theorem Thread.setWin_rfq : (t.setWin u p).rfq = t.rfq := rfl
@[simp] theorem Thread.countWins_rfq : (t.countWins now).rfq = t.rfq := rfl
@[simp] theorem Thread.note_rfq : (t.note now f).rfq = t.rfq := rfl
@[simp] theorem Thread.setV_rfq : (t.setV r v).rfq = t.rfq := rfl
@[simp] theorem Thread.setVo_rfq : (t.setVo v).rfq = t.rfq := rfl
@[simp] theorem Thread.setVo2_rfq : (t.setVo2 v).rfq = t.rfq := rfl
@[simp] theorem Thread.setVr_rfq : (t.setVr v).rfq = t.rfq := rfl
@[simp] theorem Thread.set_repAddr : (t.set l w).repAddr = t.repAddr := rfl
@[simp] theorem Thread.setWin_repAddr : (t.setWin u p).repAddr = t.repAddr := rfl
@[simp] theorem Thread.countWins_repAddr : (t.countWins now).repAddr = t.repAddr := rfl
@[simp] theorem Thread.note_repAddr : (t.note now f).repAddr = t.repAddr := rfl
@[simp] theorem Thread.setV_repAddr : (t.setV r v).repAddr = t.repAddr := rfl
@[simp] theorem Thread.setVo_repAddr : (t.setVo v).repAddr = t.repAddr := rfl
@[simp] theorem Thread.setVo2_repAddr : (t.setVo2 v).repAddr = t.repAddr := rfl
@[simp] theorem Thread.setVr_repAddr : (t.setVr v).repAddr = t.repAddr := rfl
@[simp] theorem Thread.set_repKind : (t.set l w).repKind = t.repKind := rfl
@[simp] theorem Thread.setWin_repKind : (t.setWin u p).repKind = t.repKind := rfl
@[simp] theorem Thread.countWins_repKind : (t.countWins now).repKind = t.repKind := rfl
@[simp] theorem Thread.note_repKind : (t.note now f).repKind = t.repKind := rfl
@[simp] theorem Thread.setV_repKind : (t.setV r v).repKind = t.repKind := rfl
@[simp] theorem Thread.setVo_repKind : (t.setVo v).repKind = t.repKind := rfl
@[simp] theorem Thread.setVo2_repKind : (t.setVo2 v).repKind = t.repKind := rfl
@[simp] theorem Thread.setVr_repKind : (t.setVr v).repKind = t.repKind := rfl
@[simp] theorem Thread.set_mvec : (t.set l w).mvec = t.mvec := rfl
@[simp] theorem Thread.setWin_mvec : (t.setWin u p).mvec = t.mvec := rfl
@[simp] theorem Thread.countWins_mvec : (t.countWins now).mvec = t.mvec := rfl
@[simp] theorem Thread.note_mvec : (t.note now f).mvec = t.mvec := rfl
@[simp] theorem Thread.setV_mvec : (t.setV r v).mvec = t.mvec := rfl
@[simp] theorem Thread.setVo_mvec : (t.setVo v).mvec = t.mvec := rfl
@[simp] theorem Thread.setVo2_mvec : (t.setVo2 v).mvec = t.mvec := rfl
@[simp] theorem Thread.setVr_mvec : (t.setVr v).mvec = t.mvec := rfl
@[simp] theorem Thread.set_mcause : (t.set l w).mcause = t.mcause := rfl
@[simp] theorem Thread.setWin_mcause : (t.setWin u p).mcause = t.mcause := rfl
@[simp] theorem Thread.countWins_mcause : (t.countWins now).mcause = t.mcause := rfl
@[simp] theorem Thread.note_mcause : (t.note now f).mcause = t.mcause := rfl
@[simp] theorem Thread.setV_mcause : (t.setV r v).mcause = t.mcause := rfl
@[simp] theorem Thread.setVo_mcause : (t.setVo v).mcause = t.mcause := rfl
@[simp] theorem Thread.setVo2_mcause : (t.setVo2 v).mcause = t.mcause := rfl
@[simp] theorem Thread.setVr_mcause : (t.setVr v).mcause = t.mcause := rfl
@[simp] theorem Thread.set_maddr : (t.set l w).maddr = t.maddr := rfl
@[simp] theorem Thread.setWin_maddr : (t.setWin u p).maddr = t.maddr := rfl
@[simp] theorem Thread.countWins_maddr : (t.countWins now).maddr = t.maddr := rfl
@[simp] theorem Thread.note_maddr : (t.note now f).maddr = t.maddr := rfl
@[simp] theorem Thread.setV_maddr : (t.setV r v).maddr = t.maddr := rfl
@[simp] theorem Thread.setVo_maddr : (t.setVo v).maddr = t.maddr := rfl
@[simp] theorem Thread.setVo2_maddr : (t.setVo2 v).maddr = t.maddr := rfl
@[simp] theorem Thread.setVr_maddr : (t.setVr v).maddr = t.maddr := rfl
@[simp] theorem Thread.set_mtpc : (t.set l w).mtpc = t.mtpc := rfl
@[simp] theorem Thread.setWin_mtpc : (t.setWin u p).mtpc = t.mtpc := rfl
@[simp] theorem Thread.countWins_mtpc : (t.countWins now).mtpc = t.mtpc := rfl
@[simp] theorem Thread.note_mtpc : (t.note now f).mtpc = t.mtpc := rfl
@[simp] theorem Thread.setV_mtpc : (t.setV r v).mtpc = t.mtpc := rfl
@[simp] theorem Thread.setVo_mtpc : (t.setVo v).mtpc = t.mtpc := rfl
@[simp] theorem Thread.setVo2_mtpc : (t.setVo2 v).mtpc = t.mtpc := rfl
@[simp] theorem Thread.setVr_mtpc : (t.setVr v).mtpc = t.mtpc := rfl
@[simp] theorem Thread.set_pend : (t.set l w).pend = t.pend := rfl
@[simp] theorem Thread.note_pend : (t.note now f).pend = t.pend := rfl
@[simp] theorem Thread.setV_pend : (t.setV r v).pend = t.pend := rfl
@[simp] theorem Thread.setVo_pend : (t.setVo v).pend = t.pend := rfl
@[simp] theorem Thread.setVo2_pend : (t.setVo2 v).pend = t.pend := rfl
@[simp] theorem Thread.setVr_pend : (t.setVr v).pend = t.pend := rfl
@[simp] theorem Thread.set_flight : (t.set l w).flight = t.flight := rfl
@[simp] theorem Thread.setWin_flight : (t.setWin u p).flight = t.flight := rfl
@[simp] theorem Thread.countWins_flight : (t.countWins now).flight = t.flight := rfl
@[simp] theorem Thread.note_flight : (t.note now f).flight = t.flight := rfl
@[simp] theorem Thread.setV_flight : (t.setV r v).flight = t.flight := rfl
@[simp] theorem Thread.setVo_flight : (t.setVo v).flight = t.flight := rfl
@[simp] theorem Thread.setVo2_flight : (t.setVo2 v).flight = t.flight := rfl
@[simp] theorem Thread.setVr_flight : (t.setVr v).flight = t.flight := rfl
@[simp] theorem Thread.set_rep : (t.set l w).rep = t.rep := rfl
@[simp] theorem Thread.setWin_rep : (t.setWin u p).rep = t.rep := rfl
@[simp] theorem Thread.countWins_rep : (t.countWins now).rep = t.rep := rfl
@[simp] theorem Thread.note_rep : (t.note now f).rep = t.rep := rfl
@[simp] theorem Thread.setV_rep : (t.setV r v).rep = t.rep := rfl
@[simp] theorem Thread.setVo_rep : (t.setVo v).rep = t.rep := rfl
@[simp] theorem Thread.setVo2_rep : (t.setVo2 v).rep = t.rep := rfl
@[simp] theorem Thread.setVr_rep : (t.setVr v).rep = t.rep := rfl
@[simp] theorem Thread.set_hold : (t.set l w).hold = t.hold := rfl
@[simp] theorem Thread.setWin_hold : (t.setWin u p).hold = t.hold := rfl
@[simp] theorem Thread.countWins_hold : (t.countWins now).hold = t.hold := rfl
@[simp] theorem Thread.note_hold : (t.note now f).hold = t.hold := rfl
@[simp] theorem Thread.setV_hold : (t.setV r v).hold = t.hold := rfl
@[simp] theorem Thread.setVo_hold : (t.setVo v).hold = t.hold := rfl
@[simp] theorem Thread.setVo2_hold : (t.setVo2 v).hold = t.hold := rfl
@[simp] theorem Thread.setVr_hold : (t.setVr v).hold = t.hold := rfl
@[simp] theorem Thread.set_latch : (t.set l w).latch = t.latch := rfl
@[simp] theorem Thread.setWin_latch : (t.setWin u p).latch = t.latch := rfl
@[simp] theorem Thread.countWins_latch : (t.countWins now).latch = t.latch := rfl
@[simp] theorem Thread.note_latch : (t.note now f).latch = t.latch := rfl
@[simp] theorem Thread.setV_latch : (t.setV r v).latch = t.latch := rfl
@[simp] theorem Thread.setVo_latch : (t.setVo v).latch = t.latch := rfl
@[simp] theorem Thread.setVo2_latch : (t.setVo2 v).latch = t.latch := rfl
@[simp] theorem Thread.setVr_latch : (t.setVr v).latch = t.latch := rfl
@[simp] theorem Thread.set_unacked : (t.set l w).unacked = t.unacked := rfl
@[simp] theorem Thread.setWin_unacked : (t.setWin u p).unacked = t.unacked := rfl
@[simp] theorem Thread.countWins_unacked : (t.countWins now).unacked = t.unacked := rfl
@[simp] theorem Thread.note_unacked : (t.note now f).unacked = t.unacked := rfl
@[simp] theorem Thread.setV_unacked : (t.setV r v).unacked = t.unacked := rfl
@[simp] theorem Thread.setVo_unacked : (t.setVo v).unacked = t.unacked := rfl
@[simp] theorem Thread.setVo2_unacked : (t.setVo2 v).unacked = t.unacked := rfl
@[simp] theorem Thread.setVr_unacked : (t.setVr v).unacked = t.unacked := rfl
@[simp] theorem Thread.set_posted : (t.set l w).posted = t.posted := rfl
@[simp] theorem Thread.setWin_posted : (t.setWin u p).posted = t.posted := rfl
@[simp] theorem Thread.countWins_posted : (t.countWins now).posted = t.posted := rfl
@[simp] theorem Thread.note_posted : (t.note now f).posted = t.posted := rfl
@[simp] theorem Thread.setV_posted : (t.setV r v).posted = t.posted := rfl
@[simp] theorem Thread.setVo_posted : (t.setVo v).posted = t.posted := rfl
@[simp] theorem Thread.setVo2_posted : (t.setVo2 v).posted = t.posted := rfl
@[simp] theorem Thread.setVr_posted : (t.setVr v).posted = t.posted := rfl
@[simp] theorem Thread.set_mem : (t.set l w).mem = t.mem := rfl
@[simp] theorem Thread.setWin_mem : (t.setWin u p).mem = t.mem := rfl
@[simp] theorem Thread.countWins_mem : (t.countWins now).mem = t.mem := rfl
@[simp] theorem Thread.note_mem : (t.note now f).mem = t.mem := rfl
@[simp] theorem Thread.setV_mem : (t.setV r v).mem = t.mem := rfl
@[simp] theorem Thread.setVo_mem : (t.setVo v).mem = t.mem := rfl
@[simp] theorem Thread.setVo2_mem : (t.setVo2 v).mem = t.mem := rfl
@[simp] theorem Thread.setVr_mem : (t.setVr v).mem = t.mem := rfl
@[simp] theorem Thread.set_rels : (t.set l w).rels = t.rels := rfl
@[simp] theorem Thread.set_saw : (t.set l w).saw = t.saw := rfl
@[simp] theorem Thread.set_retr : (t.set l w).retr = t.retr := rfl
@[simp] theorem Thread.setWin_rels : (t.setWin u p).rels = t.rels := rfl
@[simp] theorem Thread.setWin_saw : (t.setWin u p).saw = t.saw := rfl
@[simp] theorem Thread.setWin_retr : (t.setWin u p).retr = t.retr := rfl
@[simp] theorem Thread.countWins_rels : (t.countWins now).rels = t.rels := rfl
@[simp] theorem Thread.countWins_saw : (t.countWins now).saw = t.saw := rfl
@[simp] theorem Thread.countWins_retr : (t.countWins now).retr = t.retr := rfl
@[simp] theorem Thread.note_rels : (t.note now f).rels = t.rels := rfl
@[simp] theorem Thread.note_saw : (t.note now f).saw = t.saw := rfl
@[simp] theorem Thread.note_retr : (t.note now f).retr = t.retr := rfl
@[simp] theorem Thread.setV_rels : (t.setV r v).rels = t.rels := rfl
@[simp] theorem Thread.setV_saw : (t.setV r v).saw = t.saw := rfl
@[simp] theorem Thread.setV_retr : (t.setV r v).retr = t.retr := rfl
@[simp] theorem Thread.setVo_rels : (t.setVo v).rels = t.rels := rfl
@[simp] theorem Thread.setVo_saw : (t.setVo v).saw = t.saw := rfl
@[simp] theorem Thread.setVo_retr : (t.setVo v).retr = t.retr := rfl
@[simp] theorem Thread.setVo2_rels : (t.setVo2 v).rels = t.rels := rfl
@[simp] theorem Thread.setVo2_saw : (t.setVo2 v).saw = t.saw := rfl
@[simp] theorem Thread.setVo2_retr : (t.setVo2 v).retr = t.retr := rfl
@[simp] theorem Thread.setVr_rels : (t.setVr v).rels = t.rels := rfl
@[simp] theorem Thread.setVr_saw : (t.setVr v).saw = t.saw := rfl
@[simp] theorem Thread.setVr_retr : (t.setVr v).retr = t.retr := rfl
@[simp] theorem Thread.set_unperformed : (t.set l w).unperformed = t.unperformed := rfl
@[simp] theorem Thread.setWin_unperformed : (t.setWin u p).unperformed = t.unperformed := rfl
@[simp] theorem Thread.countWins_unperformed : (t.countWins now).unperformed = t.unperformed := rfl
@[simp] theorem Thread.note_unperformed : (t.note now f).unperformed = t.unperformed := rfl
@[simp] theorem Thread.setV_unperformed : (t.setV r v).unperformed = t.unperformed := rfl
@[simp] theorem Thread.setVo_unperformed : (t.setVo v).unperformed = t.unperformed := rfl
@[simp] theorem Thread.setVo2_unperformed : (t.setVo2 v).unperformed = t.unperformed := rfl
@[simp] theorem Thread.setVr_unperformed : (t.setVr v).unperformed = t.unperformed := rfl
@[simp] theorem Thread.set_again : (t.set l w).again = t.again := rfl
@[simp] theorem Thread.setWin_again : (t.setWin u p).again = t.again := rfl
@[simp] theorem Thread.countWins_again : (t.countWins now).again = t.again := rfl
@[simp] theorem Thread.note_again : (t.note now f).again = t.again := rfl
@[simp] theorem Thread.setV_again : (t.setV r v).again = t.again := rfl
@[simp] theorem Thread.setVo_again : (t.setVo v).again = t.again := rfl
@[simp] theorem Thread.setVo2_again : (t.setVo2 v).again = t.again := rfl
@[simp] theorem Thread.setVr_again : (t.setVr v).again = t.again := rfl
@[simp] theorem Thread.set_seqRnd : (t.set l w).seqRnd = t.seqRnd := rfl
@[simp] theorem Thread.setWin_seqRnd : (t.setWin u p).seqRnd = t.seqRnd := rfl
@[simp] theorem Thread.countWins_seqRnd : (t.countWins now).seqRnd = t.seqRnd := rfl
@[simp] theorem Thread.note_seqRnd : (t.note now f).seqRnd = t.seqRnd := rfl
@[simp] theorem Thread.setV_seqRnd : (t.setV r v).seqRnd = t.seqRnd := rfl
@[simp] theorem Thread.setVo_seqRnd : (t.setVo v).seqRnd = t.seqRnd := rfl
@[simp] theorem Thread.setVo2_seqRnd : (t.setVo2 v).seqRnd = t.seqRnd := rfl
@[simp] theorem Thread.setVr_seqRnd : (t.setVr v).seqRnd = t.seqRnd := rfl
@[simp] theorem Thread.set_dying : (t.set l w).dying = t.dying := rfl
@[simp] theorem Thread.setWin_dying : (t.setWin u p).dying = t.dying := rfl
@[simp] theorem Thread.countWins_dying : (t.countWins now).dying = t.dying := rfl
@[simp] theorem Thread.note_dying : (t.note now f).dying = t.dying := rfl
@[simp] theorem Thread.setV_dying : (t.setV r v).dying = t.dying := rfl
@[simp] theorem Thread.setVo_dying : (t.setVo v).dying = t.dying := rfl
@[simp] theorem Thread.setVo2_dying : (t.setVo2 v).dying = t.dying := rfl
@[simp] theorem Thread.setVr_dying : (t.setVr v).dying = t.dying := rfl
@[simp] theorem Thread.set_bind : (t.set l w).bind = t.bind := rfl
@[simp] theorem Thread.setWin_bind : (t.setWin u p).bind = t.bind := rfl
@[simp] theorem Thread.countWins_bind : (t.countWins now).bind = t.bind := rfl
@[simp] theorem Thread.note_bind : (t.note now f).bind = t.bind := rfl
@[simp] theorem Thread.setV_bind : (t.setV r v).bind = t.bind := rfl
@[simp] theorem Thread.setVo_bind : (t.setVo v).bind = t.bind := rfl
@[simp] theorem Thread.setVo2_bind : (t.setVo2 v).bind = t.bind := rfl
@[simp] theorem Thread.setVr_bind : (t.setVr v).bind = t.bind := rfl
@[simp] theorem Thread.set_readyAt : (t.set l w).readyAt = t.readyAt := rfl
@[simp] theorem Thread.setWin_readyAt : (t.setWin u p).readyAt = t.readyAt := rfl
@[simp] theorem Thread.countWins_readyAt : (t.countWins now).readyAt = t.readyAt := rfl
@[simp] theorem Thread.note_readyAt : (t.note now f).readyAt = t.readyAt := rfl
@[simp] theorem Thread.setV_readyAt : (t.setV r v).readyAt = t.readyAt := rfl
@[simp] theorem Thread.setVo_readyAt : (t.setVo v).readyAt = t.readyAt := rfl
@[simp] theorem Thread.setVo2_readyAt : (t.setVo2 v).readyAt = t.readyAt := rfl
@[simp] theorem Thread.setVr_readyAt : (t.setVr v).readyAt = t.readyAt := rfl
@[simp] theorem Thread.set_trapWait : (t.set l w).trapWait = t.trapWait := rfl
@[simp] theorem Thread.setWin_trapWait : (t.setWin u p).trapWait = t.trapWait := rfl
@[simp] theorem Thread.countWins_trapWait : (t.countWins now).trapWait = t.trapWait := rfl
@[simp] theorem Thread.note_trapWait : (t.note now f).trapWait = t.trapWait := rfl
@[simp] theorem Thread.setV_trapWait : (t.setV r v).trapWait = t.trapWait := rfl
@[simp] theorem Thread.setVo_trapWait : (t.setVo v).trapWait = t.trapWait := rfl
@[simp] theorem Thread.setVo2_trapWait : (t.setVo2 v).trapWait = t.trapWait := rfl
@[simp] theorem Thread.setVr_trapWait : (t.setVr v).trapWait = t.trapWait := rfl
@[simp] theorem Thread.set_pipe : (t.set l w).pipe = t.pipe := rfl
@[simp] theorem Thread.setWin_pipe : (t.setWin u p).pipe = t.pipe := rfl
@[simp] theorem Thread.countWins_pipe : (t.countWins now).pipe = t.pipe := rfl
@[simp] theorem Thread.note_pipe : (t.note now f).pipe = t.pipe := rfl
@[simp] theorem Thread.setV_pipe : (t.setV r v).pipe = t.pipe := rfl
@[simp] theorem Thread.setVo_pipe : (t.setVo v).pipe = t.pipe := rfl
@[simp] theorem Thread.setVo2_pipe : (t.setVo2 v).pipe = t.pipe := rfl
@[simp] theorem Thread.setVr_pipe : (t.setVr v).pipe = t.pipe := rfl
@[simp] theorem Thread.set_fresh : (t.set l w).fresh = t.fresh := rfl
@[simp] theorem Thread.setWin_fresh : (t.setWin u p).fresh = t.fresh := rfl
@[simp] theorem Thread.countWins_fresh : (t.countWins now).fresh = t.fresh := rfl
@[simp] theorem Thread.setV_fresh : (t.setV r v).fresh = t.fresh := rfl
@[simp] theorem Thread.setVo_fresh : (t.setVo v).fresh = t.fresh := rfl
@[simp] theorem Thread.setVo2_fresh : (t.setVo2 v).fresh = t.fresh := rfl
@[simp] theorem Thread.setVr_fresh : (t.setVr v).fresh = t.fresh := rfl
@[simp] theorem Thread.set_owed : (t.set l w).owed = t.owed := rfl
@[simp] theorem Thread.setWin_owed : (t.setWin u p).owed = t.owed := rfl
@[simp] theorem Thread.countWins_owed : (t.countWins now).owed = t.owed := rfl
@[simp] theorem Thread.note_owed : (t.note now f).owed = t.owed := rfl
@[simp] theorem Thread.setV_owed : (t.setV r v).owed = t.owed := rfl
@[simp] theorem Thread.setVo_owed : (t.setVo v).owed = t.owed := rfl
@[simp] theorem Thread.setVo2_owed : (t.setVo2 v).owed = t.owed := rfl
@[simp] theorem Thread.setVr_owed : (t.setVr v).owed = t.owed := rfl
@[simp] theorem Thread.setWin_bad : (t.setWin u p).bad = t.bad := rfl
@[simp] theorem Thread.countWins_bad : (t.countWins now).bad = t.bad := rfl
@[simp] theorem Thread.note_bad : (t.note now f).bad = t.bad := rfl

variable (g : BitVec 5) (k : BitVec 3) (b : Bool)

@[simp] theorem Thread.setG_key : (t.setG g w).key = t.key := by simp only [Thread.setG]; split <;> rfl
@[simp] theorem Thread.setK_key : (t.setK k b).key = t.key := by simp only [Thread.setK]; split <;> rfl
@[simp] theorem Thread.setG_ctx : (t.setG g w).ctx = t.ctx := by simp only [Thread.setG]; split <;> rfl
@[simp] theorem Thread.setK_ctx : (t.setK k b).ctx = t.ctx := by simp only [Thread.setK]; split <;> rfl
@[simp] theorem Thread.setG_record : (t.setG g w).record = t.record := by simp only [Thread.setG]; split <;> rfl
@[simp] theorem Thread.setK_record : (t.setK k b).record = t.record := by simp only [Thread.setK]; split <;> rfl
@[simp] theorem Thread.setG_life : (t.setG g w).life = t.life := by simp only [Thread.setG]; split <;> rfl
@[simp] theorem Thread.setK_life : (t.setK k b).life = t.life := by simp only [Thread.setK]; split <;> rfl
@[simp] theorem Thread.setG_mode : (t.setG g w).mode = t.mode := by simp only [Thread.setG]; split <;> rfl
@[simp] theorem Thread.setK_mode : (t.setK k b).mode = t.mode := by simp only [Thread.setK]; split <;> rfl
@[simp] theorem Thread.setG_pc : (t.setG g w).pc = t.pc := by simp only [Thread.setG]; split <;> rfl
@[simp] theorem Thread.setK_pc : (t.setK k b).pc = t.pc := by simp only [Thread.setK]; split <;> rfl
@[simp] theorem Thread.setK_g : (t.setK k b).g = t.g := by simp only [Thread.setK]; split <;> rfl
@[simp] theorem Thread.setG_v : (t.setG g w).v = t.v := by simp only [Thread.setG]; split <;> rfl
@[simp] theorem Thread.setK_v : (t.setK k b).v = t.v := by simp only [Thread.setK]; split <;> rfl
@[simp] theorem Thread.setG_vo : (t.setG g w).vo = t.vo := by simp only [Thread.setG]; split <;> rfl
@[simp] theorem Thread.setK_vo : (t.setK k b).vo = t.vo := by simp only [Thread.setK]; split <;> rfl
@[simp] theorem Thread.setG_vo2 : (t.setG g w).vo2 = t.vo2 := by simp only [Thread.setG]; split <;> rfl
@[simp] theorem Thread.setK_vo2 : (t.setK k b).vo2 = t.vo2 := by simp only [Thread.setK]; split <;> rfl
@[simp] theorem Thread.setG_vr : (t.setG g w).vr = t.vr := by simp only [Thread.setG]; split <;> rfl
@[simp] theorem Thread.setK_vr : (t.setK k b).vr = t.vr := by simp only [Thread.setK]; split <;> rfl
@[simp] theorem Thread.setG_port : (t.setG g w).port = t.port := by simp only [Thread.setG]; split <;> rfl
@[simp] theorem Thread.setK_port : (t.setK k b).port = t.port := by simp only [Thread.setK]; split <;> rfl
@[simp] theorem Thread.setG_k : (t.setG g w).k = t.k := by simp only [Thread.setG]; split <;> rfl
@[simp] theorem Thread.setG_tlev : (t.setG g w).tlev = t.tlev := by simp only [Thread.setG]; split <;> rfl
@[simp] theorem Thread.setK_tlev : (t.setK k b).tlev = t.tlev := by simp only [Thread.setK]; split <;> rfl
@[simp] theorem Thread.setG_preq : (t.setG g w).preq = t.preq := by simp only [Thread.setG]; split <;> rfl
@[simp] theorem Thread.setK_preq : (t.setK k b).preq = t.preq := by simp only [Thread.setK]; split <;> rfl
@[simp] theorem Thread.setG_rfq : (t.setG g w).rfq = t.rfq := by simp only [Thread.setG]; split <;> rfl
@[simp] theorem Thread.setK_rfq : (t.setK k b).rfq = t.rfq := by simp only [Thread.setK]; split <;> rfl
@[simp] theorem Thread.setG_repAddr : (t.setG g w).repAddr = t.repAddr := by simp only [Thread.setG]; split <;> rfl
@[simp] theorem Thread.setK_repAddr : (t.setK k b).repAddr = t.repAddr := by simp only [Thread.setK]; split <;> rfl
@[simp] theorem Thread.setG_repKind : (t.setG g w).repKind = t.repKind := by simp only [Thread.setG]; split <;> rfl
@[simp] theorem Thread.setK_repKind : (t.setK k b).repKind = t.repKind := by simp only [Thread.setK]; split <;> rfl
@[simp] theorem Thread.setG_mvec : (t.setG g w).mvec = t.mvec := by simp only [Thread.setG]; split <;> rfl
@[simp] theorem Thread.setK_mvec : (t.setK k b).mvec = t.mvec := by simp only [Thread.setK]; split <;> rfl
@[simp] theorem Thread.setG_mcause : (t.setG g w).mcause = t.mcause := by simp only [Thread.setG]; split <;> rfl
@[simp] theorem Thread.setK_mcause : (t.setK k b).mcause = t.mcause := by simp only [Thread.setK]; split <;> rfl
@[simp] theorem Thread.setG_maddr : (t.setG g w).maddr = t.maddr := by simp only [Thread.setG]; split <;> rfl
@[simp] theorem Thread.setK_maddr : (t.setK k b).maddr = t.maddr := by simp only [Thread.setK]; split <;> rfl
@[simp] theorem Thread.setG_mtpc : (t.setG g w).mtpc = t.mtpc := by simp only [Thread.setG]; split <;> rfl
@[simp] theorem Thread.setK_mtpc : (t.setK k b).mtpc = t.mtpc := by simp only [Thread.setK]; split <;> rfl
@[simp] theorem Thread.setG_pend : (t.setG g w).pend = t.pend := by simp only [Thread.setG]; split <;> rfl
@[simp] theorem Thread.setK_pend : (t.setK k b).pend = t.pend := by simp only [Thread.setK]; split <;> rfl
@[simp] theorem Thread.setG_flight : (t.setG g w).flight = t.flight := by simp only [Thread.setG]; split <;> rfl
@[simp] theorem Thread.setK_flight : (t.setK k b).flight = t.flight := by simp only [Thread.setK]; split <;> rfl
@[simp] theorem Thread.setG_rep : (t.setG g w).rep = t.rep := by simp only [Thread.setG]; split <;> rfl
@[simp] theorem Thread.setK_rep : (t.setK k b).rep = t.rep := by simp only [Thread.setK]; split <;> rfl
@[simp] theorem Thread.setG_hold : (t.setG g w).hold = t.hold := by simp only [Thread.setG]; split <;> rfl
@[simp] theorem Thread.setK_hold : (t.setK k b).hold = t.hold := by simp only [Thread.setK]; split <;> rfl
@[simp] theorem Thread.setG_latch : (t.setG g w).latch = t.latch := by simp only [Thread.setG]; split <;> rfl
@[simp] theorem Thread.setK_latch : (t.setK k b).latch = t.latch := by simp only [Thread.setK]; split <;> rfl
@[simp] theorem Thread.setG_unacked : (t.setG g w).unacked = t.unacked := by simp only [Thread.setG]; split <;> rfl
@[simp] theorem Thread.setK_unacked : (t.setK k b).unacked = t.unacked := by simp only [Thread.setK]; split <;> rfl
@[simp] theorem Thread.setG_posted : (t.setG g w).posted = t.posted := by simp only [Thread.setG]; split <;> rfl
@[simp] theorem Thread.setK_posted : (t.setK k b).posted = t.posted := by simp only [Thread.setK]; split <;> rfl
@[simp] theorem Thread.setG_mem : (t.setG g w).mem = t.mem := by simp only [Thread.setG]; split <;> rfl
@[simp] theorem Thread.setK_mem : (t.setK k b).mem = t.mem := by simp only [Thread.setK]; split <;> rfl
@[simp] theorem Thread.setG_rels : (t.setG g w).rels = t.rels := by simp only [Thread.setG]; split <;> rfl
@[simp] theorem Thread.setG_saw : (t.setG g w).saw = t.saw := by simp only [Thread.setG]; split <;> rfl
@[simp] theorem Thread.setG_retr : (t.setG g w).retr = t.retr := by simp only [Thread.setG]; split <;> rfl
@[simp] theorem Thread.setK_rels : (t.setK k b).rels = t.rels := by simp only [Thread.setK]; split <;> rfl
@[simp] theorem Thread.setK_saw : (t.setK k b).saw = t.saw := by simp only [Thread.setK]; split <;> rfl
@[simp] theorem Thread.setK_retr : (t.setK k b).retr = t.retr := by simp only [Thread.setK]; split <;> rfl
@[simp] theorem Thread.setG_unperformed : (t.setG g w).unperformed = t.unperformed := by simp only [Thread.setG]; split <;> rfl
@[simp] theorem Thread.setK_unperformed : (t.setK k b).unperformed = t.unperformed := by simp only [Thread.setK]; split <;> rfl
@[simp] theorem Thread.setG_again : (t.setG g w).again = t.again := by simp only [Thread.setG]; split <;> rfl
@[simp] theorem Thread.setK_again : (t.setK k b).again = t.again := by simp only [Thread.setK]; split <;> rfl
@[simp] theorem Thread.setG_seqRnd : (t.setG g w).seqRnd = t.seqRnd := by simp only [Thread.setG]; split <;> rfl
@[simp] theorem Thread.setK_seqRnd : (t.setK k b).seqRnd = t.seqRnd := by simp only [Thread.setK]; split <;> rfl
@[simp] theorem Thread.setG_dying : (t.setG g w).dying = t.dying := by simp only [Thread.setG]; split <;> rfl
@[simp] theorem Thread.setK_dying : (t.setK k b).dying = t.dying := by simp only [Thread.setK]; split <;> rfl
@[simp] theorem Thread.setG_bind : (t.setG g w).bind = t.bind := by simp only [Thread.setG]; split <;> rfl
@[simp] theorem Thread.setK_bind : (t.setK k b).bind = t.bind := by simp only [Thread.setK]; split <;> rfl
@[simp] theorem Thread.setG_readyAt : (t.setG g w).readyAt = t.readyAt := by simp only [Thread.setG]; split <;> rfl
@[simp] theorem Thread.setK_readyAt : (t.setK k b).readyAt = t.readyAt := by simp only [Thread.setK]; split <;> rfl
@[simp] theorem Thread.setG_trapWait : (t.setG g w).trapWait = t.trapWait := by simp only [Thread.setG]; split <;> rfl
@[simp] theorem Thread.setK_trapWait : (t.setK k b).trapWait = t.trapWait := by simp only [Thread.setK]; split <;> rfl
@[simp] theorem Thread.setG_pipe : (t.setG g w).pipe = t.pipe := by simp only [Thread.setG]; split <;> rfl
@[simp] theorem Thread.setK_pipe : (t.setK k b).pipe = t.pipe := by simp only [Thread.setK]; split <;> rfl
@[simp] theorem Thread.setG_fresh : (t.setG g w).fresh = t.fresh := by simp only [Thread.setG]; split <;> rfl
@[simp] theorem Thread.setK_fresh : (t.setK k b).fresh = t.fresh := by simp only [Thread.setK]; split <;> rfl
@[simp] theorem Thread.setG_owed : (t.setG g w).owed = t.owed := by simp only [Thread.setG]; split <;> rfl
@[simp] theorem Thread.setK_owed : (t.setK k b).owed = t.owed := by simp only [Thread.setK]; split <;> rfl
@[simp] theorem Thread.setK_bad : (t.setK k b).bad = t.bad := by simp only [Thread.setK]; split <;> rfl

/-! ### Reading what was written -/

theorem latchIx_inj {a b : Latch} (h : latchIx a = latchIx b) : a = b := by
  cases a <;> cases b <;> first | rfl | exact absurd h (by decide)

theorem winIx_inj {a b : Win} (h : winIx a = winIx b) : a = b := by
  cases a <;> cases b <;> first | rfl | exact absurd h (by decide)

@[simp] theorem Thread.get_set : (t.set l w).get l = w := by simp [Thread.get, Thread.set]

theorem Thread.get_set_ne {a : Latch} (h : a ≠ l) : (t.set l w).get a = t.get a := by
  have : (latchIx l).val ≠ (latchIx a).val := fun e => h (latchIx_inj (Fin.ext e)).symm
  simp [Thread.get, Thread.set, this]

@[simp] theorem Thread.win_setWin : (t.setWin u p).win u = p := by simp [Thread.win, Thread.setWin]

theorem Thread.win_setWin_ne {a : Win} (h : a ≠ u) : (t.setWin u p).win a = t.win a := by
  have : (winIx u).val ≠ (winIx a).val := fun e => h (winIx_inj (Fin.ext e)).symm
  simp [Thread.win, Thread.setWin, this]

@[simp] theorem Thread.get_setWin (a : Latch) : (t.setWin u p).get a = t.get a := rfl
@[simp] theorem Thread.win_set (a : Win) : (t.set l w).win a = t.win a := rfl
@[simp] theorem Thread.get_countWins (a : Latch) : (t.countWins now).get a = t.get a := rfl
@[simp] theorem Thread.win_countWins (a : Win) : (t.countWins now).win a = (t.win a).count now := by
  simp [Thread.win, Thread.countWins]

/-- g0 reads 0 whatever is written (R38). -/
@[simp] theorem Thread.getG_zero : t.getG 0 = 0 := by simp [Thread.getG]

theorem Thread.getG_setG (h : g ≠ 0) : (t.setG g w).getG g = w := by
  unfold Thread.getG Thread.setG
  rw [if_neg h, if_neg h]
  simp

theorem Thread.getG_setG_ne {a : BitVec 5} (h : a ≠ g) : (t.setG g w).getG a = t.getG a := by
  unfold Thread.getG Thread.setG
  by_cases ha : a = 0
  · rw [if_pos ha, if_pos ha]
  · by_cases hg : g = 0
    · rw [if_pos hg]
    · have : g.toNat ≠ a.toNat := fun e => h (BitVec.eq_of_toNat_eq e).symm
      rw [if_neg ha, if_neg ha, if_neg hg]
      simp [this]

@[simp] theorem Thread.getV_setV : (t.setV r v).getV r = v := by simp [Thread.getV, Thread.setV]

theorem Thread.getV_setV_ne {a : BitVec 4} (h : a ≠ r) : (t.setV r v).getV a = t.getV a := by
  have : r.toNat ≠ a.toNat := fun e => h (BitVec.eq_of_toNat_eq e).symm
  simp [Thread.getV, Thread.setV, this]

end Sys2Proof.Machine
end

