-- ==== Sys2Proof/Laws/Transport.lean ====
section
/-! SUPPORT. What each shared operation of a transport can do, said once: the checks, the guard, the windows, the source,
and how an act is concluded. -/

namespace Sys2Proof.Machine

/-! ### Delivering results leaves the rest of a thread alone -/

theorem Thread.deliver_keeps (t : Thread) (f : Flight) :
    (t.deliver f).key = t.key ∧ (t.deliver f).mode = t.mode ∧ (t.deliver f).k = t.k ∧ (t.deliver f).pend = t.pend
      ∧ (t.deliver f).g = t.g ∧ (t.deliver f).v = t.v ∧ (t.deliver f).pc = t.pc := by
  unfold Thread.deliver; cases f.port <;> exact ⟨rfl, rfl, rfl, rfl, rfl, rfl, rfl⟩

theorem Thread.deliverAll_keeps (l : List Flight) (t : Thread) :
    (l.foldl Thread.deliver t).key = t.key ∧ (l.foldl Thread.deliver t).mode = t.mode ∧ (l.foldl Thread.deliver t).k = t.k
      ∧ (l.foldl Thread.deliver t).pend = t.pend ∧ (l.foldl Thread.deliver t).g = t.g
      ∧ (l.foldl Thread.deliver t).v = t.v ∧ (l.foldl Thread.deliver t).pc = t.pc := by
  induction l generalizing t with
  | nil => exact ⟨rfl, rfl, rfl, rfl, rfl, rfl, rfl⟩
  | cons f l ih =>
    obtain ⟨a, b, c, d, e, h, i⟩ := ih (t.deliver f)
    obtain ⟨a', b', c', d', e', h', i'⟩ := Thread.deliver_keeps t f
    exact ⟨a.trans a', b.trans b', c.trans c', d.trans d', e.trans e', h.trans h', i.trans i'⟩

@[simp] theorem State.seen_key (s : State) : s.seen.th.key = s.th.key := (Thread.deliverAll_keeps _ _).1
@[simp] theorem State.seen_mode (s : State) : s.seen.th.mode = s.th.mode := (Thread.deliverAll_keeps _ _).2.1
@[simp] theorem State.seen_k (s : State) : s.seen.th.k = s.th.k := (Thread.deliverAll_keeps _ _).2.2.1
@[simp] theorem State.seen_pend (s : State) : s.seen.th.pend = s.th.pend := (Thread.deliverAll_keeps _ _).2.2.2.1
@[simp] theorem State.seen_g (s : State) : s.seen.th.g = s.th.g := (Thread.deliverAll_keeps _ _).2.2.2.2.1
@[simp] theorem State.seen_v (s : State) : s.seen.th.v = s.th.v := (Thread.deliverAll_keeps _ _).2.2.2.2.2.1
@[simp] theorem State.seen_pc (s : State) : s.seen.th.pc = s.th.pc := (Thread.deliverAll_keeps _ _).2.2.2.2.2.2
@[simp] theorem State.seen_mem (s : State) : s.seen.mem = s.mem := rfl
@[simp] theorem State.seen_cyc (s : State) : s.seen.cyc = s.cyc := rfl

/-! ### Issue -/

/-- A word whose checks pass and whose guard holds performs its body (R34). -/
theorem issue_body {fate : SlotKey → Mode → Fate} {g : Guard} {body : State → State} {s : State}
    (hf : fate s.th.key s.th.mode = .ok) (hg : s.seen.th.holds g = true) : issue fate g body s = .next (body s.seen) := by
  have h : fate s.seen.th.key s.seen.th.mode = .ok := by simpa using hf
  unfold issue
  change Host.Outcome.next (match fate s.seen.th.key s.seen.th.mode with
    | .illegal => trapIllegal s.seen
    | .privilege => trapPrivilege s.seen
    | .ok => if s.seen.th.holds g then body s.seen else s.seen.advance) = _
  rw [h]; simp [hg]

/-- A word whose checks pass and whose guard is false only moves on (R34). -/
theorem issue_skip {fate : SlotKey → Mode → Fate} {g : Guard} {body : State → State} {s : State}
    (hf : fate s.th.key s.th.mode = .ok) (hg : s.seen.th.holds g = false) : issue fate g body s = .next s.passed := by
  have h : fate s.seen.th.key s.seen.th.mode = .ok := by simpa using hf
  unfold issue
  change Host.Outcome.next (match fate s.seen.th.key s.seen.th.mode with
    | .illegal => trapIllegal s.seen
    | .privilege => trapPrivilege s.seen
    | .ok => if s.seen.th.holds g then body s.seen else s.seen.advance) = _
  rw [h]; simp [hg, State.passed]

/-- A word that R55 calls illegal here traps, whatever its guard. -/
theorem issue_illegal {fate : SlotKey → Mode → Fate} {g : Guard} {body : State → State} {s : State}
    (hf : fate s.th.key s.th.mode = .illegal) : issue fate g body s = .next (trapIllegal s.seen) := by
  have h : fate s.seen.th.key s.seen.th.mode = .illegal := by simpa using hf
  unfold issue
  change Host.Outcome.next (match fate s.seen.th.key s.seen.th.mode with
    | .illegal => trapIllegal s.seen
    | .privilege => trapPrivilege s.seen
    | .ok => if s.seen.th.holds g then body s.seen else s.seen.advance) = _
  rw [h]

/-- A word that names a monitor port in user mode takes the privilege trap (R53, R55). -/
theorem issue_privilege {fate : SlotKey → Mode → Fate} {g : Guard} {body : State → State} {s : State}
    (hf : fate s.th.key s.th.mode = .privilege) : issue fate g body s = .next (trapPrivilege s.seen) := by
  have h : fate s.seen.th.key s.seen.th.mode = .privilege := by simpa using hf
  unfold issue
  change Host.Outcome.next (match fate s.seen.th.key s.seen.th.mode with
    | .illegal => trapIllegal s.seen
    | .privilege => trapPrivilege s.seen
    | .ok => if s.seen.th.holds g then body s.seen else s.seen.advance) = _
  rw [h]

/-! ### Windows and sources -/

theorem endWindow_closed {us : List Win} {body : State → State} {s : State} (h : s.closed us = true) :
    endWindow us body s = body s := by
  have : us.any (fun u => (s.th.win u).isOpen) = false := by
    simp only [State.closed, List.all_eq_true, Bool.not_eq_true'] at h
    rw [List.any_eq_false]; exact fun u hu => by simp [h u hu]
  simp [endWindow, this]

/-- A transport whose registers have no parity error is performed (R368). -/
theorem checked_sound {rs : List RegRef} {body : State → State} {s : State} (h : s.th.sound rs = true) :
    checked rs body s = body s := by
  have : rs.find? (fun r => s.th.bad.contains r) = none := by
    rw [List.find?_eq_none]
    intro r hr
    have := (List.all_eq_true.mp h) r hr
    simpa using this
  unfold checked
  rw [this]

/-- One that reads a register with a parity error takes the register data-error trap, and the register then holds 0. -/
theorem checked_bad {rs : List RegRef} {body : State → State} {s : State} {r : RegRef}
    (h : rs.find? (fun r => s.th.bad.contains r) = some r) : checked rs body s = dataError s r := by
  unfold checked
  rw [h]

theorem withSrc_val {trig look : Nat} {ops : List RegRef} {src : Src} {act : Word → State → Act} {s : State} {w : Word}
    {d : Option (BitVec 3 × Nat × Elem)} (h : s.readSrc src = .val w d) (hb : s.th.sound (srcRegs src ++ ops) = true) :
    withSrc trig look ops src act s = conclude false trig look s d (act w s.advance) := by
  simp [withSrc, h, checked_sound hb]

theorem withVSrc_val {trig look : Nat} {ops : List RegRef} {src : VSource} {act : Vec → State → Act} {s : State} {v : Vec}
    {d : Option (BitVec 3 × Nat × Elem)} (h : s.readVSource src = .val v d) (hb : s.th.sound (vsrcRegs src ++ ops) = true) :
    withVSrc trig look ops src act s = conclude true trig look s d (act v s.advance) := by
  simp [withVSrc, h, checked_sound hb]

/-- A performed act: its state, then the source's dequeue. -/
@[simp] theorem conclude_done {isV : Bool} {trig look : Nat} {s t : State} {d : Option (BitVec 3 × Nat × Elem)} :
    conclude isV trig look s d (.done t) = t.taken d := by
  cases d <;> rfl

/-- A performed act after whose dequeue the thread leaves its slot. -/
@[simp] theorem conclude_doneThen {isV : Bool} {trig look : Nat} {s t : State} {d : Option (BitVec 3 × Nat × Elem)}
    {leave : State → State} : conclude isV trig look s d (.doneThen t leave) = leave (t.taken d) := by
  cases d <;> rfl

/-- A transport that starts and is performed when its hold ends. -/
@[simp] theorem conclude_hold {isV : Bool} {trig look : Nat} {s : State} {d : Option (BitVec 3 × Nat × Elem)} {h : Hold}
    {start : State → State} : conclude isV trig look s d (.hold h start) =
      (start s).map (fun t => { t with hold := h, unperformed := some (d.map Prod.fst) }) := rfl

/-- A transport that traps is not performed. -/
@[simp] theorem conclude_trap {isV : Bool} {trig look : Nat} {s : State} {d : Option (BitVec 3 × Nat × Elem)} {c e : Nat} {i : W32}
    {m : Word} : conclude isV trig look s d (.trap c e i m) =
      takeTrap s { cause := c, detail := e, info := i, maddr := m, nx := c = 1 || c = 8, mtpc := s.th.pc } := rfl

@[simp] theorem State.taken_none (s : State) : s.taken none = s := rfl

/-- A trigger that fires runs its act on the state that the transport has passed. -/
theorem trigger_fires {t : Trig} {look : BitVec 4} {g : Guard} {src : Src} {act : Word → State → Act} {s : State} {w : Word}
    {d : Option (BitVec 3 × Nat × Elem)} (h : Fires t g src s w d) :
    trigger t look g src act s = .next (conclude false t.num look.toNat s.seen d (act w s.passed)) := by
  obtain ⟨hf, hg, hw, hs, hb⟩ := h
  rw [trigger, issue_body hf hg, endWindow_closed hw, withSrc_val hs hb]; rfl

/-- A move that is performed runs its act on the state that the transport has passed. -/
theorem moveTo_moves {dst : SlotKey → Mode → Fate} {g : Guard} {src : Src} {act : Word → State → Act} {s : State} {w : Word}
    {d : Option (BitVec 3 × Nat × Elem)} (h : Moves (dst s.th.key s.th.mode) g src s w d) :
    moveTo dst g src act s = .next (conclude false 0 0 s.seen d (act w s.passed)) := by
  obtain ⟨hf, hg, hs, hb⟩ := h
  rw [moveTo, issue_body (fate := fun k m => (srcFate k m src).and (dst k m)) hf hg,
    withSrc_val hs (by rwa [List.append_nil])]; rfl

theorem State.takeV_seen (s : State) : s.takeV.seen = { s.seen with vUsed := s.th.key.coreKey :: s.vUsed } := rfl

/-- A vector trigger that fires. -/
theorem vtrigger_fires {t : VTrig} {look : BitVec 4} {g : Guard} {src : VSource} {act : Vec → State → Act} {s : State} {v : Vec}
    {d : Option (BitVec 3 × Nat × Elem)} (h : VFires (vOperandRegs t) g src s v d) :
    vtrigger t look g src act s = .next (conclude true t.num look.toNat s.vseen d (act v s.vseen.advance)) := by
  obtain ⟨hf, hg, hw, hs, hb⟩ := h
  have hf' : vsourceFate s.takeV.th.key s.takeV.th.mode src = .ok := hf
  have hg' : s.takeV.seen.th.holds g = true := hg
  have hw' : s.takeV.seen.closed [.v] = true := hw
  rw [vtrigger, issue_body (fate := fun k m => vsourceFate k m src) hf' hg', endWindow_closed hw']
  exact congrArg _ (withVSrc_val hs hb)

/-- An access that reaches its place goes on there. -/
theorem access_reaches {orders : List Nat} {n : Nat} {need : Need} {op : Nat} {same : Option (Win × Nat)} {a : Word}
    {s : State} {loc : Loc} {k : Attr → Loc → Act} {admits : Loc → Bool} (h : Reaches orders n need op same a s loc)
    (hm : admits loc = true) : access orders n need op same a s k (admits := admits) = k (attrOf (s.th.get .lo)) loc := by
  obtain ⟨h1, h2, h3, h4, h5, h6⟩ := h
  have h5' : ¬(s.denied loc.cell op n ≠ 0 ∧ ¬(op = 1 ∧ isPosted s loc = true)) := by
    rintro ⟨x, y⟩; rcases h5 with h | h
    · exact x h
    · exact y h
  simp only [access, h1, h2, h3, h4, hm, if_neg h5', h6]
  simp

/-- A release with nothing outstanding goes on. -/
theorem releaseWait_released {s : State} {scope : Nat} (h : Released s scope) : s.releaseWait scope = none := by
  obtain ⟨h1, h2, h3, h4⟩ := h
  have h1' : ¬(1 ≤ scope ∧ s.th.unacked ≠ 0) := by rintro ⟨a, b⟩; rcases h1 with h | ⟨h, _⟩ <;> omega
  have h5 : ¬(1 ≤ scope ∧ s.sawPending = true) := by rintro ⟨a, b⟩; rcases h1 with h | ⟨_, h⟩ <;> simp_all
  simp [State.releaseWait, if_neg h1', if_neg h5, h2, h3, h4]

/-- A fence with nothing outstanding goes on. -/
theorem fenceWait_may {s : State} {a : Attr} (h : FenceMay s a) : s.fenceWait a = none := by
  obtain ⟨h1, h2, h3⟩ := h
  unfold State.fenceWait
  rw [if_neg (by simp [h1])]
  split
  · exact releaseWait_released (h3 ‹_›)
  · rw [if_neg]; rintro ⟨x, y⟩; simp [h2 x] at y

theorem withRing_at {s : State} {va : Word} {loc : Loc} {f : Loc → RingObj → Act} (h : RingAt s va loc) :
    withRing s va f = f loc (ringAt s loc) := by
  obtain ⟨h1, h2, h3⟩ := h
  simp [withRing, h1, h2, h3]

theorem dWith_may {s : State} {f : DArray → Act} (h : MayUseArray s) : dWith s f = f (s.array s.th.key.coreKey) := by
  simp only [dWith, if_pos h]

/-! ### Events -/

theorem onSlot_some {f : State → Option State} {s s1 s2 : State} (h : s.focus s.ev.key = some s1) (h2 : f s1 = some s2) :
    onSlot f s = .next s2 := by
  simp [onSlot, h, h2]

/-- A request that is asked is performed, and answered (R328, R329). -/
theorem serve_asked {op : Nat} {named : Bool} {fmt : Request → Bool} {f : Request → State → Answer} {s : State}
    (h : Asked op named (fmt s.ev.req) s) :
    serve op named fmt f s = .next (match f s.ev.req (s.asked op) with
      | .no status => respond (s.asked op) status []
      | .yes s results => respond s 0 results
      | .later s a => completeRequest { s with mail := { s.mail with go := true, busy := true, await := a } }) := by
  obtain ⟨⟨h1, h2⟩, h3, h4, h5⟩ := h
  have hc : ∀ m, ((s.asked m).ctx? s.ev.req.ctx.toNat) = s.ctx? s.ev.req.ctx.toNat := fun _ => rfl
  unfold serve
  rw [if_neg (by rcases h2 with h | ⟨a, b, c⟩ <;> simp_all)]
  show Host.Outcome.next (if s.ev.req.rsv ≠ 0 ∨ (¬named = true ∧ s.ev.req.ctx ≠ 0) ∨ (!fmt s.ev.req) = true then _
    else if named = true ∧ ((s.asked op).ctx? s.ev.req.ctx.toNat).isNone = true then _ else _) = _
  cases named
  · simp only [Bool.false_eq_true, if_false] at h5
    rw [if_neg (by simp [h3, h4, h5]), if_neg (by simp)]; rfl
  · simp only [if_true] at h5
    rw [if_neg (by simp [h3, h4]), if_neg (by rw [hc]; cases hx : s.ctx? s.ev.req.ctx.toNat <;> simp_all)]; rfl

/-- A packet that starts is performed by its act. -/
theorem packet_starts {op : Nat} {fmt : List Byte → Bool} {act : SwQueue → List Byte → State → Option State} {s : State}
    {q : SwQueue} {b : List Byte} (h : Starts op s q b (fmt b)) : packet op fmt act s = orNone (act q b s) := by
  obtain ⟨h1, h2, h3⟩ := h
  simp [packet, h1, h2, h3]

end Sys2Proof.Machine
end

