-- ==== Sys2Proof/Laws/Access.lean ====
section
/-! SUPPORT. What an access that passes its checks does, said once: loads, stores, atomics, and cache maintenance. -/

namespace Sys2Proof.Machine

/-- The address of a transport that has been passed. -/
@[simp] theorem State.passed_at (s : State) : s.passed.at_ = s.th.pc := by
  have : s.passed.th.pc = s.th.pc + 4 := congrArg (· + 4) (State.seen_pc s)
  simp only [State.at_, this]; bv_omega

@[simp] theorem State.passed_key (s : State) : s.passed.th.key = s.th.key := State.seen_key s
@[simp] theorem State.passed_mode (s : State) : s.passed.th.mode = s.th.mode := State.seen_mode s
@[simp] theorem State.passed_cyc (s : State) : s.passed.cyc = s.cyc := rfl
@[simp] theorem State.passed_mem (s : State) : s.passed.mem = s.mem := rfl

/-- A release that the attribute word orders waits for nothing. -/
theorem releaseWait_may {s : State} (h : MayRelease s) :
    (if (attrOf (s.th.get .lo)).rel then s.releaseWait (attrOf (s.th.get .lo)).scope else none) = none := by
  split
  · exact releaseWait_released (h (of_decide_eq_true ‹_›))
  · rfl

/-- A load leaves in unit L, with its two free values drawn. -/
theorem launchLoad_l (s : State) (n : Nat) (sext : Bool) (l : BitVec 4) (a : Word) (loc : Loc) :
    launchLoad s .l false n sext l (attrOf (s.th.get .lo)) a loc =
      (s.sent (s.loadOf .l n sext a loc (s.landing (leastLatency s loc)))).opened .l l
        { known := false, doneAt := s.landing (leastLatency s loc), hasRes := true, acq := fld (s.th.get .lo) 4 3 % 2 = 1 } := by
  have e : (if (attrOf (s.th.get .lo)).acq = true then some (attrOf (s.th.get .lo)).scope else none)
      = if fld (s.th.get .lo) 4 3 % 2 = 1 then some (fld (s.th.get .lo) 2 0) else none := by
    by_cases h : fld (s.th.get .lo) 4 3 % 2 = 1 <;> simp [Attr.acq, attrOf, h]
  simp only [launchLoad, e]
  rfl

/-- A load that reaches its place leaves. -/
theorem loadAct_reaches {n : Nat} {sext : Bool} {l : BitVec 4} {a : Word} {s : State} {loc : Loc}
    (h : Reaches ordLoad n .load 0 none a s loc) : loadAct n sext l a s = .done
      ((s.sent (s.loadOf .l n sext a loc (s.landing (leastLatency s loc)))).opened .l l
        { known := false, doneAt := s.landing (leastLatency s loc), hasRes := true, acq := fld (s.th.get .lo) 4 3 % 2 = 1 }) := by
  unfold loadAct; rw [access_reaches (admits := fun _ => true) h rfl, launchLoad_l]

/-- Memory, the cycle, and the registers and counter of the thread in focus are as before, and no posted store of it is
lost. -/
structure Calm (s t : State) : Prop where
  cyc : t.cyc = s.cyc
  mem : t.mem = s.mem
  g : t.th.g = s.th.g
  v : t.th.v = s.th.v
  port : t.th.port = s.th.port
  unacked : t.th.unacked = s.th.unacked
  posted : ∀ p ∈ s.th.posted, ∃ q ∈ t.th.posted, q.cell = p.cell ∧ q.bytes = p.bytes ∧ q.va = p.va

theorem Calm.of_th {s t : State} (h1 : t.cyc = s.cyc) (h2 : t.mem = s.mem) (h3 : t.th = s.th) : Calm s t := by
  constructor <;> simp_all
  exact fun p hp => ⟨p, hp, rfl, rfl, rfl⟩

theorem Calm.trans {s t u : State} (h : Calm s t) (k : Calm t u) : Calm s u where
  cyc := k.cyc.trans h.cyc
  mem := k.mem.trans h.mem
  g := k.g.trans h.g
  v := k.v.trans h.v
  port := k.port.trans h.port
  unacked := k.unacked.trans h.unacked
  posted p hp := by
    obtain ⟨q, hq, a, b, c⟩ := h.posted p hp
    obtain ⟨r, hr, a', b', c'⟩ := k.posted q hq
    exact ⟨r, hr, a'.trans a, b'.trans b, c'.trans c⟩

/-- Sending a line of the write-combining buffer changes only when its stores are performed. -/
theorem sendLine_calm (s : State) (e : SlotKey × Nat) : Calm s (sendLine s e) := by
  simp only [sendLine, State.mapSlot, State.mapAll]
  split
  · refine ⟨rfl, rfl, rfl, rfl, rfl, rfl, fun p hp => ⟨_, List.mem_map_of_mem hp, ?_⟩⟩
    split <;> exact ⟨rfl, rfl, rfl⟩
  · exact .of_th rfl rfl rfl

theorem wcbRoom_calm (s : State) (line : Nat) : Calm s (wcbRoom s line) := by
  have h (o : Option (SlotKey × Nat)) : Calm s.draw.2 (match o with
      | some e => sendLine s.draw.2 e
      | none => s.draw.2) := by
    cases o
    · exact .of_th rfl rfl rfl
    · exact sendLine_calm _ _
  by_cases hc : 8 ≤ (wcbLines s).length ∧ ¬(wcbLines s).contains (s.th.key, line) = true
  · simp only [wcbRoom, if_pos hc]
    exact Calm.trans (.of_th (t := s.draw.2) rfl rfl rfl) (h _)
  · simp only [wcbRoom, if_neg hc]
    exact .of_th rfl rfl rfl

theorem showPosted_calm (s : State) (cell : Nat) (bs : List Byte) : Calm s (s.showPosted cell bs) := by
  unfold State.showPosted; split <;> exact .of_th rfl rfl rfl

/-- A posted store raises the counter by one and enters its thread's list (R167, R168). -/
theorem postStore_calm (s : State) (u : Win) (at_ : Attr) (l : Loc) (va : Word) (bs : List Byte) (op : Nat) (seq : Bool) :
    ∃ (t : State) (p : Posted), Calm s t ∧ p.cell = l.cell ∧ p.bytes = bs ∧ p.va = va
      ∧ Calm (t.map (fun t => { t with unacked := t.unacked + 1, posted := t.posted ++ [p] })) (postStore s u at_ l va bs op seq) := by
  have hw : Calm s (if isCombined l then wcbRoom s (l.cell / 64) else s) := by
    split
    · exact wcbRoom_calm s _
    · exact .of_th rfl rfl rfl
  have hv (s : State) : Calm s (if l.viewed then s.showPosted l.cell bs else s) := by
    split
    · exact showPosted_calm s _ _
    · exact .of_th rfl rfl rfl
  have hs (c : Prop) [Decidable c] (s : State) (e : SlotKey × Nat) : Calm s (if c then sendLine s e else s) := by
    split
    · exact sendLine_calm s _
    · exact .of_th rfl rfl rfl
  refine ⟨_, _, hw.trans (Calm.trans (.of_th (t := ((if isCombined l then wcbRoom s (l.cell / 64) else s).after
    (leastLatency (if isCombined l then wcbRoom s (l.cell / 64) else s) l)).2) rfl rfl rfl) (hv _)), ?_, ?_, ?_, hs _ _ _⟩ <;> rfl

/-- What a posted store leaves behind. -/
theorem postStore_keeps (s : State) (u : Win) (at_ : Attr) (l : Loc) (va : Word) (bs : List Byte) (op : Nat) (seq : Bool) :
    (postStore s u at_ l va bs op seq).cyc = s.cyc ∧ (postStore s u at_ l va bs op seq).mem = s.mem
    ∧ (postStore s u at_ l va bs op seq).th.g = s.th.g ∧ (postStore s u at_ l va bs op seq).th.v = s.th.v
    ∧ (postStore s u at_ l va bs op seq).th.port = s.th.port
    ∧ (postStore s u at_ l va bs op seq).th.unacked = s.th.unacked + 1
    ∧ ∃ p ∈ (postStore s u at_ l va bs op seq).th.posted, p.cell = l.cell ∧ p.bytes = bs ∧ p.va = va := by
  obtain ⟨t, p, h, p1, p2, p3, k⟩ := postStore_calm s u at_ l va bs op seq
  obtain ⟨q, hq, q1, q2, q3⟩ := k.posted p (by simp [State.map])
  exact ⟨k.cyc.trans h.cyc, k.mem.trans h.mem, k.g.trans h.g, k.v.trans h.v, k.port.trans h.port,
    k.unacked.trans (congrArg (· + 1) h.unacked), q, hq, q1.trans p1, q2.trans p2, q3.trans p3⟩

/-- A store that reaches its place, with nothing to wait for, is posted or leaves. -/
theorem storeAct_reaches {u : Win} {n : Nat} {bs : List Byte} {l : BitVec 4} {a : Word} {s : State} {loc : Loc}
    (h : Reaches ordStore n .store 1 (some (u, (attrOf (s.th.get .lo)).cls)) a s loc) (hm : MayRelease s)
    (hb : s.storeBehind loc (attrOf (s.th.get .lo)).cls = false) (hv : s.behindSibling s.th loc.cell n = false) :
    storeAct u n bs l a s = if isPosted s loc then
        if 255 ≤ s.th.unacked then .wait (s.cyc + 1)
        else .done ((postStore s u (attrOf (s.th.get .lo)) loc a bs 1).openWin u l { doneAt := s.cyc + 1 })
      else .done (launchStore s u false bs l (attrOf (s.th.get .lo)) a loc) := by
  unfold storeAct
  rw [access_reaches (admits := fun _ => true) h rfl]
  simp only [releaseWait_may hm, hb, hv, Bool.false_eq_true, or_self, if_false, (postStore_keeps s u _ loc a bs 1 false).1]

/-- A store that is not posted leaves, with its two free values drawn. -/
theorem launchStore_eq (s : State) (u : Win) (bs : List Byte) (l : BitVec 4) (a : Word) (loc : Loc) :
    launchStore s u false bs l (attrOf (s.th.get .lo)) a loc =
      (s.sent (s.storeOf u bs a loc (s.landing (storeLeast loc)))).opened u l
        { known := false, doneAt := s.landing (storeLeast loc) } := rfl

/-- An atomic that reaches a place that admits it leaves for its home. -/
theorem amoAct_reaches {op : Trig} {l : BitVec 4} {a : Word} {s : State} {loc : Loc}
    (h : Reaches ordAll (amoBytes op) .amo 2 none a s loc) (hp : amoAdmits op loc = true) (hm : MayRelease s)
    (hb : s.storeBehind loc (amoClass (attrOf (s.th.get .lo)).cls) = false)
    (hv : loc.viewed = true → s.siblingPosts s.th.key.coreKey s.th.key loc.cell 16 = false) :
    amoAct op l a s = .done (State.opened { s.drawn with homeQ := s.homeQ ++ [
        { key := s.th.key, amo := op, cell := loc.cell, aes := loc.aes, va := a, v := (amoOperands op s.th).1
          w := (amoOperands op s.th).2, due := s.landing (amoLeast s loc), pc := s.at_, lo := s.th.get .lo, since := s.cyc }] } .l l
        { known := false, doneAt := s.landing (amoLeast s loc), hasRes := true, acq := fld (s.th.get .lo) 4 3 % 2 = 1 }) := by
  have h2 : ¬(s.storeBehind loc (amoClass (attrOf (s.th.get .lo)).cls) = true
      ∨ (loc.viewed = true ∧ s.siblingPosts s.th.key.coreKey s.th.key loc.cell 16 = true)) := by
    rintro (h | ⟨h, h'⟩)
    · simp [hb] at h
    · simp [hv h] at h'
  unfold amoAct
  rw [access_reaches (admits := amoAdmits op) h hp]
  simp only [releaseWait_may hm]
  rw [if_neg h2]
  rfl

end Sys2Proof.Machine
end

