-- ==== Sys2Proof/Laws/Alu.lean ====
section
/-! SUPPORT. What the bit operations of the integer results (R80, R81) compute, said as sums, counts and quotients. -/

namespace Sys2Proof.Machine

/-- The low bits of a word as a number. -/
theorem fld_low (w : Word) (n : Nat) : fld w n 0 = w.toNat % 2 ^ (n+1) := by
  simp [fld]

/-- The zeros above the highest 1, counted from the top (clz). -/
theorem leading_eq (w : Word) : ∀ n ≤ 64, leading w n = (List.range n).findIdx (fun i => w.getLsbD (n - 1 - i)) := by
  intro n
  induction n with
  | zero => intro _; rfl
  | succ n ih =>
    intro h
    rw [leading, List.range_succ_eq_map, List.findIdx_cons]
    simp only [Nat.add_sub_cancel, Nat.sub_zero, List.findIdx_map]
    cases hb : w.getLsbD n
    · simp only [Bool.false_eq_true, if_false, cond_false]
      rw [ih (by omega), Nat.add_comm]
      congr 2
      funext i; simp [Nat.sub_sub, Nat.add_comm]
    · simp

/-- The zeros below the lowest 1 (ctz). -/
theorem trailing_eq (w : Word) : ∀ n ≤ 64, trailing w n = (List.range n).findIdx (fun i => w.getLsbD (64 - n + i)) := by
  intro n
  induction n with
  | zero => intro _; rfl
  | succ n ih =>
    intro h
    rw [trailing, List.range_succ_eq_map, List.findIdx_cons]
    rw [show 64 - (n+1) + 0 = 63 - n by omega]
    simp only [List.findIdx_map]
    cases hb : w.getLsbD (63 - n)
    · simp only [Bool.false_eq_true, if_false, cond_false]
      rw [ih (by omega), Nat.add_comm]
      congr 2
      funext i; simp only [Function.comp]; congr 1; omega
    · simp

/-- The count of ones (popc). -/
theorem popcount_eq (w : Word) (n : Nat) : popcount w n = (List.range n).countP (fun i => w.getLsbD i) := by
  induction n with
  | zero => rfl
  | succ n ih =>
    rw [popcount, List.range_succ, List.countP_append, ih, Nat.add_comm]
    simp [List.countP_cons]

/-- An arithmetic right shift is the floor of a quotient. -/
theorem sshiftRight_eq (a : BitVec n) (k : Nat) : a.sshiftRight k = BitVec.ofInt n (a.toInt / 2^k) := by
  rw [← BitVec.ofInt_toInt (x := a.sshiftRight k), BitVec.toInt_sshiftRight, Int.shiftRight_eq_div_pow]
  norm_cast

/-- Bit n and those below it, zero extended (zext). -/
theorem zextFrom_eq (a : Word) (n : Nat) (h : n < 64) : zextFrom a n = BitVec.ofNat 64 (a.toNat % 2 ^ (n+1)) := by
  apply BitVec.eq_of_toNat_eq
  have hp : (2:Nat)^64 = 2^(n+1) * 2^(63-n) := by rw [← Nat.pow_add]; congr 1; omega
  simp only [zextFrom, BitVec.toNat_ushiftRight, BitVec.toNat_shiftLeft, BitVec.toNat_ofNat, Nat.shiftLeft_eq, Nat.shiftRight_eq_div_pow]
  rw [hp, Nat.mul_mod_mul_right, Nat.mul_div_cancel _ (by positivity), ← hp]
  symm; apply Nat.mod_eq_of_lt
  exact lt_of_lt_of_le (Nat.mod_lt _ (by positivity)) (Nat.pow_le_pow_right (by norm_num) (by omega))

/-- Bit n and those below it, sign extended (sext). -/
theorem sextFrom_eq (a : Word) (n : Nat) (h : n < 64) : sextFrom a n = BitVec.ofInt 64 (Int.bmod a.toNat (2 ^ (n+1))) := by
  have hp : (2:Nat)^64 = 2^(n+1) * 2^(63-n) := by rw [← Nat.pow_add]; congr 1; omega
  rw [sextFrom, sshiftRight_eq, BitVec.toInt_shiftLeft]
  refine congrArg (BitVec.ofInt 64) ?_
  have : ((a.toNat <<< (63-n) : Nat) : Int) = (a.toNat : Int) * ((2^(63-n) : Nat) : Int) := by
    rw [Nat.shiftLeft_eq]; push_cast; ring
  rw [this, hp]
  have hk : (0:Int) < ((2^(63-n) : Nat) : Int) := by positivity
  rw [show ((2:Int)^(63-n)) = ((2^(63-n) : Nat) : Int) by push_cast; rfl]
  clear this
  have hKpos : 0 < 2^(63-n) := by positivity
  have hP : (2:Nat)^64 = 2^64 := rfl
  clear hp hP
  revert hk hKpos
  generalize (2^(63-n) : Nat) = Kn
  intro hk hKpos
  obtain ⟨M, hM⟩ : ∃ M, (2:Nat)^(n+1) = 2 * M := ⟨2^n, by rw [pow_succ]; ring⟩
  rw [hM]
  have hMpos : 0 < M := by have : 0 < 2^(n+1) := by positivity
                           omega
  generalize (a.toNat : Int) = x
  rw [Int.bmod_def, Int.bmod_def]
  have e1 : ((2 * M * Kn : Nat) : Int) = (Kn:Int) * ((2*M : Nat):Int) := by push_cast; ring
  rw [e1, mul_comm x, Int.mul_emod_mul_of_pos _ _ hk]
  have e2 : ((Kn:Int) * ((2*M:Nat):Int) + 1) / 2 = Kn * M := by push_cast; rw [show (Kn:Int) * (2 * M) = 2 * (Kn * M) by ring]; omega
  have e3 : (((2*M:Nat):Int) + 1)/2 = M := by push_cast; omega
  rw [e2, e3]
  by_cases hc : x % ((2*M:Nat):Int) < M
  · rw [if_pos hc, if_pos (by exact (mul_lt_mul_iff_right₀ hk).mpr hc)]
    exact Int.mul_ediv_cancel_left _ hk.ne'
  · rw [if_neg hc, if_neg (by intro hh; exact hc ((mul_lt_mul_iff_right₀ hk).mp hh)), ← mul_sub]
    exact Int.mul_ediv_cancel_left _ hk.ne'

end Sys2Proof.Machine
end

