-- ==== Sys2Proof/Laws/Decode.lean ====
section
/-! SUPPORT. The fields of an encoded word (R32, R44) and the round trip of each field and of each class of word: what
the lemmas per instruction cite. -/

namespace Sys2Proof.Laws

/-! ### The fields of a word -/

theorem bits_scalar (c : BitVec 2) (g l : BitVec 4) (d s : BitVec 11) (n : Nat) :
    BitVec.getLsbD (w := 32) (c ++ g ++ l ++ d ++ s) n =
      if n < 11 then s.getLsbD n else if n < 22 then d.getLsbD (n - 11) else if n < 26 then l.getLsbD (n - 22)
      else if n < 30 then g.getLsbD (n - 26) else c.getLsbD (n - 30) := by
  change BitVec.getLsbD (w := 2 + 4 + 4 + 11 + 11) (c ++ g ++ l ++ d ++ s) n = _
  simp only [BitVec.getLsbD_append]
  repeat' split
  all_goals first | rfl | omega

theorem fields_scalar {c : BitVec 2} {g l : BitVec 4} {d s : BitVec 11} {w : BitVec 32}
    (h : w = c ++ g ++ l ++ d ++ s) :
    w.extractLsb' 30 2 = c ∧ w.extractLsb' 26 4 = g ∧ w.extractLsb' 22 4 = l ∧ w.extractLsb' 11 11 = d ∧
      w.extractLsb' 0 11 = s := by
  subst h
  refine ⟨?_, ?_, ?_, ?_, ?_⟩ <;>
    (ext i hi; rw [BitVec.getElem_extractLsb', bits_scalar]; repeat' split) <;>
    first | omega | (rw [← BitVec.getLsbD_eq_getElem]; congr 1; omega)

theorem bits_vector (c : BitVec 2) (g l : BitVec 4) (a : BitVec 1) (d : BitVec 10) (b : BitVec 1) (s : BitVec 10)
    (n : Nat) :
    BitVec.getLsbD (w := 32) (c ++ g ++ l ++ a ++ d ++ b ++ s) n =
      if n < 10 then s.getLsbD n else if n < 11 then b.getLsbD (n - 10) else if n < 21 then d.getLsbD (n - 11)
      else if n < 22 then a.getLsbD (n - 21) else if n < 26 then l.getLsbD (n - 22)
      else if n < 30 then g.getLsbD (n - 26) else c.getLsbD (n - 30) := by
  change BitVec.getLsbD (w := 2 + 4 + 4 + 1 + 10 + 1 + 10) (c ++ g ++ l ++ a ++ d ++ b ++ s) n = _
  simp only [BitVec.getLsbD_append]
  repeat' split
  all_goals first | rfl | omega

theorem fields_vector {c : BitVec 2} {g l : BitVec 4} {a : BitVec 1} {d : BitVec 10} {b : BitVec 1}
    {s : BitVec 10} {w : BitVec 32} (h : w = c ++ g ++ l ++ a ++ d ++ b ++ s) :
    w.extractLsb' 30 2 = c ∧ w.extractLsb' 26 4 = g ∧ w.extractLsb' 22 4 = l ∧ w.getLsbD 21 = a.getLsbD 0 ∧
      w.extractLsb' 11 10 = d ∧ w.getLsbD 10 = b.getLsbD 0 ∧ w.extractLsb' 0 10 = s := by
  subst h
  refine ⟨?_, ?_, ?_, by rw [bits_vector]; rfl, ?_, by rw [bits_vector]; rfl, ?_⟩ <;>
    (ext i hi; rw [BitVec.getElem_extractLsb', bits_vector]; repeat' split) <;>
    first | omega | (rw [← BitVec.getLsbD_eq_getElem]; congr 1; omega)

theorem bits_toVec (c : BitVec 2) (g l : BitVec 4) (a : BitVec 1) (d : BitVec 10) (s : BitVec 11) (n : Nat) :
    BitVec.getLsbD (w := 32) (c ++ g ++ l ++ a ++ d ++ s) n =
      if n < 11 then s.getLsbD n else if n < 21 then d.getLsbD (n - 11)
      else if n < 22 then a.getLsbD (n - 21) else if n < 26 then l.getLsbD (n - 22)
      else if n < 30 then g.getLsbD (n - 26) else c.getLsbD (n - 30) := by
  change BitVec.getLsbD (w := 2 + 4 + 4 + 1 + 10 + 11) (c ++ g ++ l ++ a ++ d ++ s) n = _
  simp only [BitVec.getLsbD_append]
  repeat' split
  all_goals first | rfl | omega

theorem fields_toVec {c : BitVec 2} {g l : BitVec 4} {a : BitVec 1} {d : BitVec 10} {s : BitVec 11}
    {w : BitVec 32} (h : w = c ++ g ++ l ++ a ++ d ++ s) :
    w.extractLsb' 30 2 = c ∧ w.extractLsb' 26 4 = g ∧ w.extractLsb' 22 4 = l ∧ w.getLsbD 21 = a.getLsbD 0 ∧
      w.extractLsb' 11 10 = d ∧ w.extractLsb' 0 11 = s := by
  subst h
  refine ⟨?_, ?_, ?_, by rw [bits_toVec]; rfl, ?_, ?_⟩ <;>
    (ext i hi; rw [BitVec.getElem_extractLsb', bits_toVec]; repeat' split) <;>
    first | omega | (rw [← BitVec.getLsbD_eq_getElem]; congr 1; omega)

theorem bits_immediate (c : BitVec 2) (g : BitVec 4) (h : BitVec 1) (d : BitVec 9) (i : BitVec 16) (n : Nat) :
    BitVec.getLsbD (w := 32) (c ++ g ++ h ++ d ++ i) n =
      if n < 16 then i.getLsbD n else if n < 25 then d.getLsbD (n - 16) else if n < 26 then h.getLsbD (n - 25)
      else if n < 30 then g.getLsbD (n - 26) else c.getLsbD (n - 30) := by
  change BitVec.getLsbD (w := 2 + 4 + 1 + 9 + 16) (c ++ g ++ h ++ d ++ i) n = _
  simp only [BitVec.getLsbD_append]
  repeat' split
  all_goals first | rfl | omega

theorem fields_immediate {c : BitVec 2} {g : BitVec 4} {b : BitVec 1} {d : BitVec 9} {i : BitVec 16}
    {w : BitVec 32} (h : w = c ++ g ++ b ++ d ++ i) :
    w.extractLsb' 30 2 = c ∧ w.extractLsb' 26 4 = g ∧ w.getLsbD 25 = b.getLsbD 0 ∧ w.extractLsb' 16 9 = d ∧
      w.extractLsb' 0 16 = i := by
  subst h
  refine ⟨?_, ?_, by rw [bits_immediate]; rfl, ?_, ?_⟩ <;>
    (ext i hi; rw [BitVec.getElem_extractLsb', bits_immediate]; repeat' split) <;>
    first | omega | (rw [← BitVec.getLsbD_eq_getElem]; congr 1; omega)

theorem bits_control (c : BitVec 2) (g o : BitVec 4) (f : BitVec 22) (n : Nat) :
    BitVec.getLsbD (w := 32) (c ++ g ++ o ++ f) n =
      if n < 22 then f.getLsbD n else if n < 26 then o.getLsbD (n - 22)
      else if n < 30 then g.getLsbD (n - 26) else c.getLsbD (n - 30) := by
  change BitVec.getLsbD (w := 2 + 4 + 4 + 22) (c ++ g ++ o ++ f) n = _
  simp only [BitVec.getLsbD_append]
  repeat' split
  all_goals first | rfl | omega

theorem fields_control {c : BitVec 2} {g o : BitVec 4} {f : BitVec 22} {w : BitVec 32} (h : w = c ++ g ++ o ++ f) :
    w.extractLsb' 30 2 = c ∧ w.extractLsb' 26 4 = g ∧ w.extractLsb' 22 4 = o ∧ w.extractLsb' 0 22 = f := by
  subst h
  refine ⟨?_, ?_, ?_, ?_⟩ <;>
    (ext i hi; rw [BitVec.getElem_extractLsb', bits_control]; repeat' split) <;>
    first | omega | (rw [← BitVec.getLsbD_eq_getElem]; congr 1; omega)

theorem bits_repeat (c : BitVec 6) (s : BitVec 4) (b : BitVec 3) (l : BitVec 4) (z : BitVec 5) (n : Nat) :
    BitVec.getLsbD (w := 22) (c ++ s ++ b ++ l ++ z) n =
      if n < 5 then z.getLsbD n else if n < 9 then l.getLsbD (n - 5) else if n < 12 then b.getLsbD (n - 9)
      else if n < 16 then s.getLsbD (n - 12) else c.getLsbD (n - 16) := by
  change BitVec.getLsbD (w := 6 + 4 + 3 + 4 + 5) (c ++ s ++ b ++ l ++ z) n = _
  simp only [BitVec.getLsbD_append]
  repeat' split
  all_goals first | rfl | omega

theorem fields_repeat {c : BitVec 6} {s : BitVec 4} {b : BitVec 3} {l : BitVec 4} {z : BitVec 5} {f : BitVec 22}
    (h : f = c ++ s ++ b ++ l ++ z) :
    f.extractLsb' 16 6 = c ∧ f.extractLsb' 12 4 = s ∧ f.extractLsb' 9 3 = b ∧ f.extractLsb' 5 4 = l ∧
      f.extractLsb' 0 5 = z := by
  subst h
  refine ⟨?_, ?_, ?_, ?_, ?_⟩ <;>
    (ext i hi; rw [BitVec.getElem_extractLsb', bits_repeat]; repeat' split) <;>
    first | omega | (rw [← BitVec.getLsbD_eq_getElem]; congr 1; omega)

/-! ### The round trip of each field -/

theorem three_bits (n : BitVec 3) :
    n = 0 ∨ n = 1 ∨ n = 2 ∨ n = 3 ∨ n = 4 ∨ n = 5 ∨ n = 6 ∨ n = 7 := by
  revert n
  decide

theorem guard_round (g : Guard) (h : g.wf = true) : Guard.ofBits g.bits = .ok g := by
  obtain ⟨v, k⟩ := g
  cases v <;> obtain rfl | rfl | rfl | rfl | rfl | rfl | rfl | rfl := three_bits k <;>
    first | rfl | exact absurd h (by decide)

theorem sport_round (p : SPort) (h : p.wf = true) : SPort.ofNum p.num = some p := by
  cases p with
  | g r => simp [SPort.ofNum, SPort.num]; omega
  | k n => revert n; decide
  | deq n => revert n; decide
  | peek n => revert n; decide
  | tlev => rfl
  | cyc => rfl
  | tid => rfl
  | special q => cases q <;> first | rfl | simp [SPort.wf, Special.readable] at h
  | res l => cases l <;> first | rfl | (revert h; decide)

theorem sport_num_lt (p : SPort) : p.num < 2 ^ 10 := by
  cases p with
  | g r => simp only [SPort.num]; omega
  | k n => simp only [SPort.num]; omega
  | deq n => simp only [SPort.num]; omega
  | peek n => simp only [SPort.num]; omega
  | tlev => decide
  | cyc => decide
  | tid => decide
  | special q => cases q <;> decide
  | res l => cases l <;> decide

theorem sdst_round (d : SDst) (h : d.wf = true) : SDst.ofNum d.num = .ok d := by
  cases d with
  | g r => simp [SDst.ofNum, SDst.num]; omega
  | k n =>
    obtain rfl | rfl | rfl | rfl | rfl | rfl | rfl | rfl := three_bits n <;>
      first | rfl | exact absurd h (by decide)
  | enq n => obtain rfl | rfl | rfl | rfl | rfl | rfl | rfl | rfl := three_bits n <;> rfl
  | tok n => obtain rfl | rfl | rfl | rfl | rfl | rfl | rfl | rfl := three_bits n <;> rfl
  | special q => cases q <;> first | rfl | simp [SDst.wf, Special.writable] at h
  | opnd l => cases l <;> first | rfl | exact absurd h (by decide)
  | trig t => cases t <;> rfl

theorem sdst_num_lt (d : SDst) (h : d.wf = true) : d.num < 2 ^ 10 := by
  cases d with
  | g r => simp only [SDst.num]; omega
  | k n => simp only [SDst.num]; omega
  | enq n => simp only [SDst.num]; omega
  | tok n => simp only [SDst.num]; omega
  | special q => cases q <;> decide
  | opnd l => cases l <;> first | decide | (revert h; decide)
  | trig t => cases t <;> decide

theorem vport_round (p : VPort) : VPort.ofNum p.num = some p := by
  cases p with
  | v r => revert r; decide
  | vr => rfl

theorem vport_num_lt (p : VPort) : p.num < 2 ^ 10 := by
  cases p with
  | v r => simp only [VPort.num]; omega
  | vr => decide

theorem vdst_round (d : VDst) : VDst.ofNum d.num = some d := by
  cases d with
  | v r => revert r; decide
  | vo => rfl
  | vo2 => rfl

theorem vdst_num_lt (d : VDst) : d.num < 2 ^ 10 := by
  cases d with
  | v r => simp only [VDst.num]; omega
  | vo => decide
  | vo2 => decide

/-- The two parts of an eleven-bit source field. -/
theorem source_bits (b : BitVec 1) (n : BitVec 10) :
    BitVec.getLsbD (w := 11) (b ++ n) 10 = b.getLsbD 0 ∧ BitVec.extractLsb' (n := 11) 0 10 (b ++ n) = n := by
  constructor
  · change BitVec.getLsbD (w := 1 + 10) (b ++ n) 10 = _
    rw [BitVec.getLsbD_append]
    rfl
  · ext i hi
    rw [BitVec.getElem_extractLsb']
    change BitVec.getLsbD (w := 1 + 10) (b ++ n) _ = _
    rw [BitVec.getLsbD_append, if_pos (by omega), ← BitVec.getLsbD_eq_getElem]
    congr 1
    omega

theorem num_round {n : Nat} (h : n < 2 ^ 10) : (BitVec.ofNat 10 n).toNat = n := by
  rw [BitVec.toNat_ofNat, Nat.mod_eq_of_lt h]

theorem src_round (s : Src) (h : s.wf = true) : Src.ofBits s.bits = .ok s := by
  cases s with
  | imm i =>
    simp only [Src.ofBits, Src.bits, source_bits]
    rfl
  | port p =>
    simp only [Src.ofBits, Src.bits, source_bits, num_round (sport_num_lt p), sport_round p h]
    rfl

theorem vsource_round (s : VSource) (h : s.wf = true) : VSource.ofBits s.bits = .ok s := by
  cases s with
  | vec p =>
    simp only [VSource.ofBits, VSource.bits, source_bits, num_round (vport_num_lt p), vport_round p]
    rfl
  | bc p =>
    simp only [VSource.ofBits, VSource.bits, source_bits, num_round (sport_num_lt p), sport_round p h]
    rfl

theorem trig_round (t : Trig) : SDst.ofNum t.num = .ok (.trig t) := sdst_round (.trig t) rfl

theorem trig_num_lt (t : Trig) : t.num < 2 ^ 10 := sdst_num_lt (.trig t) rfl

theorem vtrig_round (t : VTrig) : VDst.ofNum t.num = none ∧ VTrig.ofNum t.num = some t := by
  cases t <;> exact ⟨rfl, rfl⟩

theorem vtrig_num_lt (t : VTrig) : t.num < 2 ^ 10 := by
  cases t <;> decide

/-! ### The round trip of each class of word -/

/-- What is read from a word that is neither of the two R55 excludes, its guard and class known. -/
theorem decodeWord_of {w : BitVec 32} (h0 : w ≠ 0) (h1 : w ≠ 0xFFFFFFFF) {g : Guard}
    (hg : Guard.ofBits (w.extractLsb' 26 4) = .ok g) :
    decodeWord w = (match (w.extractLsb' 30 2).toNat with
      | 0 => do
        let d ← SDst.ofNum (w.extractLsb' 11 11).toNat
        let s ← Src.ofBits (w.extractLsb' 0 11)
        decodeScalar g (w.extractLsb' 22 4) d s
      | 1 => decodeVector w g
      | 2 => decodeImmediate w g
      | _ => decodeControl w g) := by
  unfold decodeWord
  rw [if_neg (fun h => h.elim h0 h1), hg]
  rfl

theorem decode_scalar {g : Guard} {l : BitVec 4} {n : Nat} {d : SDst} {s : Src} (hg : g.wf = true) (hs : s.wf = true)
    (hn : n < 2 ^ 10) (hd : SDst.ofNum n = .ok d) (h0 : word00 g l n s ≠ 0) (h1 : word00 g l n s ≠ 0xFFFFFFFF) :
    decodeWord (word00 g l n s) = decodeScalar g l d s := by
  obtain ⟨e1, e2, e3, e4, e5⟩ := fields_scalar (w := word00 g l n s) rfl
  rw [decodeWord_of h0 h1 (by rw [e2, guard_round g hg]), e1, e3, e4, e5, src_round s hs]
  change (SDst.ofNum (BitVec.ofNat 11 n).toNat >>= fun d => decodeScalar g l d s) = _
  rw [BitVec.toNat_ofNat, Nat.mod_eq_of_lt (by omega), hd]
  rfl

/-- A scalar trigger's class 00 word (R41: L is 0 unless the trigger is long-latency). -/
theorem decode_trig {g : Guard} {l : BitVec 4} {s : Src} (t : Trig) (hg : g.wf = true) (hs : s.wf = true)
    (hl : l = 0 ∨ t.long = true) (h0 : word00 g l t.num s ≠ 0) (h1 : word00 g l t.num s ≠ 0xFFFFFFFF) :
    decodeWord (word00 g l t.num s) = .ok (t.instr g l s) := by
  rw [decode_scalar hg hs (trig_num_lt t) (trig_round t) h0 h1]
  exact if_pos hl

/-- A class 01 word with dst.s = 0, its operands well formed. -/
theorem decode_vector {g : Guard} {l : BitVec 4} {n : Nat} {s : VSource} (hg : g.wf = true) (hs : s.wf = true)
    (hn : n < 2 ^ 10) :
    decodeWord (word01 g l n s) =
      (match VDst.ofNum n with
      | some d => if l = 0 then .ok (.vectorTransport g (.toVec d s)) else .error .lookahead
      | none =>
        match VTrig.ofNum n with
        | some t => if l = 0 ∨ t.long then .ok (t.instr g l s) else .error .lookahead
        | none => .error .destination) := by
  obtain ⟨e1, e2, e3, e4, e5, e6⟩ := fields_toVec (w := word01 g l n s) rfl
  rw [decodeWord_of (by intro h; rw [h] at e1; revert e1; decide) (by intro h; rw [h] at e1; revert e1; decide)
    (by rw [e2, guard_round g hg]), e1]
  change decodeVector _ _ = _
  unfold decodeVector
  rw [e4, e3, e5, e6, vsource_round s hs, num_round hn]
  rfl

/-- A vector destination that triggers nothing. -/
theorem decode_vdst {g : Guard} {s : VSource} (d : VDst) (hg : g.wf = true) (hs : s.wf = true) :
    decodeWord (word01 g 0 d.num s) = .ok (.vectorTransport g (.toVec d s)) := by
  rw [decode_vector hg hs (vdst_num_lt d), vdst_round]
  rfl

/-- A vector trigger's word (R41: L is 0 unless the trigger is vld or vst). -/
theorem decode_vtrig {g : Guard} {l : BitVec 4} {s : VSource} (t : VTrig) (hg : g.wf = true) (hs : s.wf = true)
    (hl : l = 0 ∨ t.long = true) : decodeWord (word01 g l t.num s) = .ok (t.instr g l s) := by
  rw [decode_vector hg hs (vtrig_num_lt t), (vtrig_round t).1, (vtrig_round t).2]
  exact if_pos hl

/-- A class 01 word with dst.s = 1 and src.s = 0. -/
theorem decode_vsrc {g : Guard} {l : BitVec 4} {d : SDst} {p : VPort} {w : BitVec 32} (hg : g.wf = true)
    (hd : d.wf = true) (hl : l = 0 ∨ d.long = true)
    (hw : w = 0b01#2 ++ g.bits ++ l ++ 1#1 ++ BitVec.ofNat 10 d.num ++ 0#1 ++ BitVec.ofNat 10 p.num) :
    decodeWord w = .ok (.vectorTransport g (.toScalar l d p)) := by
  obtain ⟨e1, e2, e3, e4, e5, e6, e7⟩ := fields_vector hw
  rw [decodeWord_of (by intro h; rw [h] at e1; revert e1; decide) (by intro h; rw [h] at e1; revert e1; decide)
    (by rw [e2, guard_round g hg]), e1]
  change decodeVector _ _ = _
  unfold decodeVector
  rw [e4, e3, e5, e6, e7, num_round (sdst_num_lt d hd), num_round (vport_num_lt p), vport_round]
  change (SDst.ofNum d.num >>= fun d =>
    if l = 0 ∨ d.long then Except.ok (Instr.vectorTransport g (.toScalar l d p)) else .error .lookahead) = _
  rw [sdst_round d hd]
  exact if_pos hl

/-- A class 10 word. -/
theorem decode_immediate {g : Guard} {b : BitVec 1} {d : SDst} {i : BitVec 16} (hg : g.wf = true)
    (hd : d.wf = true) (hn : d.short = true) :
    decodeWord (word10 g b d i) =
      if b.getLsbD 0 then
        if d.shiftable then .ok (.liShiftInsert g d i) else .error .shiftInsert
      else .ok (.li g d i) := by
  obtain ⟨e1, e2, e3, e4, e5⟩ := fields_immediate (w := word10 g b d i) rfl
  rw [decodeWord_of (by intro h; rw [h] at e1; revert e1; decide) (by intro h; rw [h] at e1; revert e1; decide)
    (by rw [e2, guard_round g hg]), e1]
  change decodeImmediate _ _ = _
  unfold decodeImmediate
  rw [e3, e4, e5, BitVec.toNat_ofNat, Nat.mod_eq_of_lt (of_decide_eq_true hn), sdst_round d hd]
  rfl

/-- A class 11 word. -/
theorem decode_control {g : Guard} {o : BitVec 4} {f : BitVec 22} (hg : g.wf = true)
    (h1 : word11 g o f ≠ 0xFFFFFFFF) :
    decodeWord (word11 g o f) =
      (match o.toNat with
      | 0 => .ok (.br g f)
      | 1 => .ok (.brl g f)
      | 2 =>
        if f.extractLsb' 0 5 = 0 then
          .ok (.rep g (f.extractLsb' 16 6) (f.extractLsb' 12 4) (f.extractLsb' 9 3) (f.extractLsb' 5 4))
        else .error .repField
      | 3 => if f = 0 then .ok (.nop g) else .error .nopField
      | _ => .error .op4) := by
  obtain ⟨e1, e2, e3, e4⟩ := fields_control (w := word11 g o f) rfl
  rw [decodeWord_of (by intro h; rw [h] at e1; revert e1; decide) h1 (by rw [e2, guard_round g hg]), e1]
  change decodeControl _ _ = _
  unfold decodeControl
  rw [e3, e4]
  all_goals rfl

theorem decode_of {w : BitVec 32} {i : Instr} (h : decodeWord w = .ok i) : decode w = i := by
  rw [decode, h]

end Sys2Proof.Laws
end

