-- ==== Sys2Proof/Laws/Memory.lean ====
section
/-! SUPPORT. Every memory operation keeps the canonical form, and what a write leaves and stores. -/

namespace Sys2Proof.Machine

/-- The canonical form as a statement over the list: strictly rising addresses, no byte equal to `unlisted`. -/
def Mem.Canonical (m : List Host.Cell) : Prop :=
  m.Pairwise (fun c d => c.1 < d.1) ∧ ∀ c ∈ m, c.2 ≠ unlisted

theorem Mem.wf_iff (m : List Host.Cell) : Mem.wf m = true ↔ Mem.Canonical m := by
  induction m with
  | nil => simp [Mem.wf, Mem.Canonical]
  | cons c m ih =>
    simp only [Mem.wf, Mem.Canonical, Bool.and_eq_true, bne_iff_ne, List.all_eq_true, decide_eq_true_eq,
      List.pairwise_cons, List.forall_mem_cons] at ih ⊢
    rw [ih]; tauto

theorem Mem.filter_wf {m : List Host.Cell} (p : Host.Cell → Bool) (h : Mem.wf m = true) : Mem.wf (m.filter p) = true := by
  rw [Mem.wf_iff] at h ⊢
  exact ⟨h.1.filter _, fun c hc => h.2 c (List.mem_filter.mp hc).1⟩

/-- Canonical parts whose addresses follow one another make a canonical whole. -/
theorem Mem.append_wf {a b : List Host.Cell} (ha : Mem.wf a = true) (hb : Mem.wf b = true)
    (h : ∀ c ∈ a, ∀ d ∈ b, c.1 < d.1) : Mem.wf (a ++ b) = true := by
  rw [Mem.wf_iff] at *
  refine ⟨List.pairwise_append.mpr ⟨ha.1, hb.1, h⟩, fun c hc => ?_⟩
  rcases List.mem_append.mp hc with hc | hc
  · exact ha.2 c hc
  · exact hb.2 c hc

theorem Mem.mem_cells {a : Nat} {bs : List Byte} {c : Host.Cell} (h : c ∈ Mem.cells a bs) :
    a ≤ c.1 ∧ c.1 < a + bs.length := by
  induction bs generalizing a with
  | nil => simp [Mem.cells] at h
  | cons b bs ih =>
    unfold Mem.cells at h
    split at h
    · have := ih h; simp only [List.length_cons]; omega
    · rcases List.mem_cons.mp h with rfl | h
      · simp
      · have := ih h; simp only [List.length_cons]; omega

theorem Mem.cells_wf (a : Nat) (bs : List Byte) : Mem.wf (Mem.cells a bs) = true := by
  induction bs generalizing a with
  | nil => rfl
  | cons b bs ih =>
    unfold Mem.cells
    split
    · exact ih _
    · rename_i hb
      simp only [Mem.wf, Bool.and_eq_true, bne_iff_ne, ne_eq, List.all_eq_true, decide_eq_true_eq]
      exact ⟨⟨hb, fun d hd => by have := Mem.mem_cells hd; omega⟩, ih _⟩

/-- A write keeps the canonical form. -/
theorem Mem.write_wf {m : List Host.Cell} (a : Nat) (bs : List Byte) (h : Mem.wf m = true) :
    Mem.wf (Mem.write m a bs) = true := by
  unfold Mem.write
  apply Mem.append_wf
  · apply Mem.append_wf (Mem.filter_wf _ h) (Mem.cells_wf _ _)
    intro c hc d hd
    have hc := (List.mem_filter.mp hc).2
    have hd := Mem.mem_cells hd
    simp only [decide_eq_true_eq] at hc; omega
  · exact Mem.filter_wf _ h
  · intro c hc d hd
    have hd := (List.mem_filter.mp hd).2
    simp only [decide_eq_true_eq] at hd
    rcases List.mem_append.mp hc with hc | hc
    · have hc := (List.mem_filter.mp hc).2
      simp only [decide_eq_true_eq] at hc; omega
    · have := Mem.mem_cells hc; omega

theorem Mem.clear_wf {m : List Host.Cell} (lo hi : Nat) (hle : lo ≤ hi) (h : Mem.wf m = true) :
    Mem.wf (Mem.clear m lo hi) = true := by
  refine Mem.append_wf (Mem.filter_wf _ h) (Mem.filter_wf _ h) fun c hc d hd => ?_
  have hc := (List.mem_filter.mp hc).2
  have hd := (List.mem_filter.mp hd).2
  simp only [decide_eq_true_eq] at hc hd; omega

theorem Mem.copy_wf {m : List Host.Cell} (src n dst : Nat) (h : Mem.wf m = true) : Mem.wf (Mem.copy m src n dst) = true := by
  have moved : Mem.wf ((m.filter (fun c => decide (src ≤ c.1 ∧ c.1 < src + n))).map (fun c => (c.1 - src + dst, c.2))) = true := by
    have hf := Mem.filter_wf (fun c => decide (src ≤ c.1 ∧ c.1 < src + n)) h
    rw [Mem.wf_iff] at hf ⊢
    refine ⟨List.pairwise_map.mpr ?_, fun c hc => ?_⟩
    · refine hf.1.imp_of_mem fun {c d} hc hd hlt => ?_
      have hc := (List.mem_filter.mp hc).2
      have hd := (List.mem_filter.mp hd).2
      simp only [decide_eq_true_eq] at hc hd ⊢; omega
    · obtain ⟨d, hd, rfl⟩ := List.mem_map.mp hc
      exact hf.2 d hd
  have inside : ∀ c ∈ (m.filter (fun c => decide (src ≤ c.1 ∧ c.1 < src + n))).map (fun c => (c.1 - src + dst, c.2)),
      dst ≤ c.1 ∧ c.1 < dst + n := by
    intro c hc
    obtain ⟨d, hd, rfl⟩ := List.mem_map.mp hc
    have hd := (List.mem_filter.mp hd).2
    simp only [decide_eq_true_eq] at hd ⊢; omega
  unfold Mem.copy
  refine Mem.append_wf (Mem.append_wf (Mem.filter_wf _ h) moved fun c hc d hd => ?_) (Mem.filter_wf _ h) fun c hc d hd => ?_
  · have hc := (List.mem_filter.mp hc).2
    have hd := inside d hd
    simp only [decide_eq_true_eq] at hc; omega
  · have hd := (List.mem_filter.mp hd).2
    simp only [decide_eq_true_eq] at hd
    rcases List.mem_append.mp hc with hc | hc
    · have hc := (List.mem_filter.mp hc).2
      simp only [decide_eq_true_eq] at hc; omega
    · have := inside c hc; omega

/-! ### Reading a byte -/

theorem Mem.byte_append {a b : List Host.Cell} {x : Nat} (h : ∀ c ∈ a, c.1 ≠ x) : Mem.byte (a ++ b) x = Mem.byte b x := by
  induction a with
  | nil => rfl
  | cons c a ih =>
    rw [List.cons_append, Mem.byte, if_neg (h c (by simp))]
    exact ih fun d hd => h d (by simp [hd])

theorem Mem.byte_append_left {a b : List Host.Cell} {x : Nat} (h : ∀ c ∈ b, c.1 ≠ x) : Mem.byte (a ++ b) x = Mem.byte a x := by
  induction a with
  | nil =>
    rw [List.nil_append]
    have := Mem.byte_append (b := []) h
    rwa [List.append_nil] at this
  | cons c a ih =>
    rw [List.cons_append, Mem.byte, Mem.byte, ih]

theorem Mem.byte_filter {m : List Host.Cell} {p : Nat → Bool} {x : Nat} (h : p x = true) :
    Mem.byte (m.filter (fun c => p c.1)) x = Mem.byte m x := by
  induction m with
  | nil => rfl
  | cons c m ih =>
    by_cases hc : p c.1 = true
    · rw [List.filter_cons_of_pos (by exact hc), Mem.byte, Mem.byte, ih]
    · have hne : ¬c.1 = x := fun e => hc (by rw [e]; exact h)
      rw [List.filter_cons_of_neg (by exact hc), ih, Mem.byte, if_neg hne]

theorem Mem.byte_cells (a : Nat) (bs : List Byte) (i : Nat) (h : i < bs.length) : Mem.byte (Mem.cells a bs) (a + i) = bs[i] := by
  induction bs generalizing a i with
  | nil => simp at h
  | cons b bs ih =>
    cases i with
    | zero =>
      unfold Mem.cells
      split
      · rename_i hb
        have hn : ∀ c ∈ Mem.cells (a + 1) bs, c.1 ≠ a := fun c hc => by have := Mem.mem_cells hc; omega
        have := Mem.byte_append (b := []) hn
        rw [List.append_nil] at this
        simp only [Nat.add_zero, this, List.getElem_cons_zero, hb]; rfl
      · simp [Mem.byte]
    | succ i =>
      have hi : i < bs.length := by simpa using h
      have := ih (a + 1) i hi
      rw [show a + 1 + i = a + (i + 1) by omega] at this
      unfold Mem.cells
      split
      · simpa using this
      · rw [Mem.byte, if_neg (by omega)]; simpa using this

/-- Outside the bytes written, every address reads as before. -/
theorem Mem.byte_write_ne {m : List Host.Cell} {a x : Nat} {bs : List Byte} (h : x < a ∨ a + bs.length ≤ x) :
    Mem.byte (Mem.write m a bs) x = Mem.byte m x := by
  unfold Mem.write
  rcases h with h | h
  · rw [Mem.byte_append_left, Mem.byte_append_left]
    · exact Mem.byte_filter (p := fun y => decide (y < a)) (by simpa using h)
    · intro c hc; have := Mem.mem_cells hc; omega
    · intro c hc; have hc := (List.mem_filter.mp hc).2; simp only [decide_eq_true_eq] at hc; omega
  · rw [Mem.byte_append]
    · exact Mem.byte_filter (p := fun y => decide (a + bs.length ≤ y)) (by simpa using h)
    · intro c hc
      rcases List.mem_append.mp hc with hc | hc
      · have hc := (List.mem_filter.mp hc).2; simp only [decide_eq_true_eq] at hc; omega
      · have := Mem.mem_cells hc; omega

/-- A byte written reads as written. -/
theorem Mem.byte_write {m : List Host.Cell} (a : Nat) (bs : List Byte) (i : Nat) (h : i < bs.length) :
    Mem.byte (Mem.write m a bs) (a + i) = bs[i] := by
  unfold Mem.write
  rw [Mem.byte_append_left, Mem.byte_append]
  · exact Mem.byte_cells a bs i h
  · intro c hc; have hc := (List.mem_filter.mp hc).2; simp only [decide_eq_true_eq] at hc; omega
  · intro c hc; have hc := (List.mem_filter.mp hc).2; simp only [decide_eq_true_eq] at hc; omega

end Sys2Proof.Machine
end

