-- ==== Sys2Proof/Laws/PerInstr.lean ====
section
/-! SUPPORT. One lemma per constructor: the word of an instruction whose fields are well formed decodes to it, unless it is
one of the two words R55 excludes. An event has no word. -/

namespace Sys2Proof.Laws.RoundTrip

/-- The fields are kept by encoding and decoding. -/
def Statement (i : Instr) : Prop :=
  i.fieldsWf = true → ∀ w, encode i = some w → w ≠ 0 → w ≠ 0xFFFFFFFF → decode w = i

/-- A scalar trigger's instruction: its word is the class 00 word of its number. -/
theorem of_trig (t : Trig) {g : Guard} {l : BitVec 4} {s : Src} {i : Instr} (hi : t.instr g l s = i)
    (he : encode i = some (word00 g l t.num s)) (hl : l = 0 ∨ t.long = true) (hw : i.fieldsWf = (g.wf && s.wf)) :
    Statement i := by
  intro h w hw' h0 h1
  rw [he, Option.some.injEq] at hw'
  subst hw'
  rw [hw, Bool.and_eq_true] at h
  exact decode_of (hi ▸ decode_trig t h.1 h.2 hl h0 h1)

/-- A vector trigger's instruction. -/
theorem of_vtrig (t : VTrig) {g : Guard} {l : BitVec 4} {s : VSource} {i : Instr} (hi : t.instr g l s = i)
    (he : encode i = some (word01 g l t.num s)) (hl : l = 0 ∨ t.long = true) (hw : i.fieldsWf = (g.wf && s.wf)) :
    Statement i := by
  intro h w hw' _ _
  rw [he, Option.some.injEq] at hw'
  subst hw'
  rw [hw, Bool.and_eq_true] at h
  exact decode_of (hi ▸ decode_vtrig t h.1 h.2 hl)

/-- An instruction with a class 00 word that is no trigger's: one destination number and one decoding. -/
theorem of_dst (d : SDst) {g : Guard} {s : Src} {i : Instr} (hd : i.fieldsWf = true → g.wf = true ∧ d.wf = true ∧ s.wf = true)
    (he : encode i = some (word00 g 0 d.num s)) (hi : i.fieldsWf = true → decodeScalar g 0 d s = .ok i) :
    Statement i := by
  intro h w hw' h0 h1
  rw [he, Option.some.injEq] at hw'
  subst hw'
  obtain ⟨hg, hd, hs⟩ := hd h
  exact decode_of ((decode_scalar hg hs (sdst_num_lt d hd) (sdst_round d hd) h0 h1).trans (hi h))

/-- An event has no word. -/
theorem of_event {i : Instr} (he : encode i = none) : Statement i := by
  intro _ w hw
  rw [he] at hw
  cases hw


/-- A destination without a row of its own is a destination. -/
theorem plain_wf (d : SDst) (h : d.plain = true) : d.wf = true := by
  cases d with
  | g r => rfl
  | special p => cases p <;> first | rfl | cases h
  | opnd l => exact h
  | k n => cases h
  | enq n => cases h
  | tok n => cases h
  | trig t => cases h

theorem decode_plain (g : Guard) (d : SDst) (s : Src) (h : d.plain = true) (hs : s.noQueue = true) :
    decodeScalar g 0 d s = .ok (.move g d s) := by
  cases d with
  | special p =>
    cases p <;> first
      | (cases s with
        | imm i => rfl
        | port q => cases q <;> first | rfl | cases hs)
      | cases h
  | g r =>
    cases s with
    | imm i => rfl
    | port q => cases q <;> first | rfl | cases hs
  | opnd l =>
    cases s with
    | imm i => rfl
    | port q => cases q <;> first | rfl | cases hs
  | k n => cases h
  | enq n => cases h
  | tok n => cases h
  | trig t => cases h

theorem decode_queue_deq (g : Guard) (d : SDst) (n : BitVec 3) (h : d.plain = true) :
    decodeScalar g 0 d (.port (.deq n)) = .ok (.dequeue g d n) := by
  cases d with
  | special p => cases p <;> first | rfl | cases h
  | g r => rfl
  | opnd l => rfl
  | k n => cases h
  | enq n => cases h
  | tok n => cases h
  | trig t => cases h

theorem decode_queue_peek (g : Guard) (d : SDst) (n : BitVec 3) (h : d.plain = true) :
    decodeScalar g 0 d (.port (.peek n)) = .ok (.peek g d n) := by
  cases d with
  | special p => cases p <;> first | rfl | cases h
  | g r => rfl
  | opnd l => rfl
  | k n => cases h
  | enq n => cases h
  | tok n => cases h
  | trig t => cases h

/-! ### The 322 constructors -/

theorem move (g : Guard) (d : SDst) (s : Src) : Statement (.move g d s) := by
  refine of_dst d (g := g) (s := s) (fun h => ?_) rfl (fun h => ?_)
  · simp only [Instr.fieldsWf, Bool.and_eq_true] at h
    exact ⟨h.1.1.1, plain_wf d h.1.1.2, h.1.2⟩
  · simp only [Instr.fieldsWf, Bool.and_eq_true] at h
    exact decode_plain g d s h.1.1.2 h.2

theorem vectorTransport (g : Guard) (m : VMove) : Statement (.vectorTransport g m) := by
  intro h w hw _ _
  cases m with
  | toVec d s =>
    replace hw := Option.some.inj (hw : some (word01 g 0 d.num s) = some _)
    simp only [Instr.fieldsWf, Bool.and_eq_true] at h
    subst hw
    exact decode_of (decode_vdst d h.1 h.2)
  | toScalar l d p =>
    replace hw := Option.some.inj (hw : some (0b01#2 ++ g.bits ++ l ++ 1#1 ++ BitVec.ofNat 10 d.num ++ 0#1 ++ BitVec.ofNat 10 p.num) =
      some _)
    simp only [Instr.fieldsWf, Bool.and_eq_true, Bool.or_eq_true, beq_iff_eq] at h
    exact decode_of (decode_vsrc h.1.1 h.1.2 h.2 hw.symm)

theorem enqueue (g : Guard) (n : BitVec 3) (s : Src) : Statement (.enqueue g n s) := by
  refine of_dst (.enq n) (g := g) (s := s) (fun h => ?_) rfl (fun _ => rfl)
  simp only [Instr.fieldsWf, Bool.and_eq_true] at h
  exact ⟨h.1, rfl, h.2⟩

theorem tokenEnqueue (g : Guard) (n : BitVec 3) (s : Src) : Statement (.tokenEnqueue g n s) := by
  refine of_dst (.tok n) (g := g) (s := s) (fun h => ?_) rfl (fun _ => rfl)
  simp only [Instr.fieldsWf, Bool.and_eq_true] at h
  exact ⟨h.1, rfl, h.2⟩

theorem dequeue (g : Guard) (d : SDst) (n : BitVec 3) : Statement (.dequeue g d n) := by
  refine of_dst d (g := g) (s := .port (.deq n)) (fun h => ?_) rfl (fun h => ?_)
  · simp only [Instr.fieldsWf, Bool.and_eq_true] at h
    exact ⟨h.1, plain_wf d h.2, rfl⟩
  · simp only [Instr.fieldsWf, Bool.and_eq_true] at h
    exact decode_queue_deq g d n h.2

theorem peek (g : Guard) (d : SDst) (n : BitVec 3) : Statement (.peek g d n) := by
  refine of_dst d (g := g) (s := .port (.peek n)) (fun h => ?_) rfl (fun h => ?_)
  · simp only [Instr.fieldsWf, Bool.and_eq_true] at h
    exact ⟨h.1, plain_wf d h.2, rfl⟩
  · simp only [Instr.fieldsWf, Bool.and_eq_true] at h
    exact decode_queue_peek g d n h.2

theorem guardWrite (g : Guard) (n : BitVec 3) (s : Src) : Statement (.guardWrite g n s) := by
  refine of_dst (.k n) (g := g) (s := s) (fun h => ?_) rfl (fun _ => rfl)
  simp only [Instr.fieldsWf, Bool.and_eq_true] at h
  exact ⟨h.1.1, h.1.2, h.2⟩

theorem xrndWrite (g : Guard) (s : Src) : Statement (.xrndWrite g s) := by
  refine of_dst (.special .xrnd) (g := g) (s := s) (fun h => ?_) rfl (fun _ => rfl)
  simp only [Instr.fieldsWf, Bool.and_eq_true] at h
  exact ⟨h.1, rfl, h.2⟩

theorem xflagsWrite (g : Guard) (s : Src) : Statement (.xflagsWrite g s) := by
  refine of_dst (.special .xflags) (g := g) (s := s) (fun h => ?_) rfl (fun _ => rfl)
  simp only [Instr.fieldsWf, Bool.and_eq_true] at h
  exact ⟨h.1, rfl, h.2⟩

theorem xtenWrite (g : Guard) (s : Src) : Statement (.xtenWrite g s) := by
  refine of_dst (.special .xten) (g := g) (s := s) (fun h => ?_) rfl (fun _ => rfl)
  simp only [Instr.fieldsWf, Bool.and_eq_true] at h
  exact ⟨h.1, rfl, h.2⟩

theorem preqWrite (g : Guard) (s : Src) : Statement (.preqWrite g s) := by
  refine of_dst (.special .preq) (g := g) (s := s) (fun h => ?_) rfl (fun _ => rfl)
  simp only [Instr.fieldsWf, Bool.and_eq_true] at h
  exact ⟨h.1, rfl, h.2⟩

theorem rfqWrite (g : Guard) (s : Src) : Statement (.rfqWrite g s) := by
  refine of_dst (.special .rfq) (g := g) (s := s) (fun h => ?_) rfl (fun _ => rfl)
  simp only [Instr.fieldsWf, Bool.and_eq_true] at h
  exact ⟨h.1, rfl, h.2⟩

theorem mvecWrite (g : Guard) (s : Src) : Statement (.mvecWrite g s) := by
  refine of_dst (.special .mvec) (g := g) (s := s) (fun h => ?_) rfl (fun _ => rfl)
  simp only [Instr.fieldsWf, Bool.and_eq_true] at h
  exact ⟨h.1, rfl, h.2⟩

theorem mfillWrite (g : Guard) (s : Src) : Statement (.mfillWrite g s) := by
  refine of_dst (.special .mfill) (g := g) (s := s) (fun h => ?_) rfl (fun _ => rfl)
  simp only [Instr.fieldsWf, Bool.and_eq_true] at h
  exact ⟨h.1, rfl, h.2⟩

theorem li (g : Guard) (d : SDst) (i : BitVec 16) : Statement (.li g d i) := by
  intro h w hw _ _
  replace hw := Option.some.inj (hw : some (word10 g 0 d i) = some _)
  simp only [Instr.fieldsWf, Bool.and_eq_true] at h
  subst hw
  exact decode_of (decode_immediate h.1.1 h.1.2 h.2)

theorem liShiftInsert (g : Guard) (d : SDst) (i : BitVec 16) : Statement (.liShiftInsert g d i) := by
  intro h w hw _ _
  replace hw := Option.some.inj (hw : some (word10 g 1 d i) = some _)
  simp only [Instr.fieldsWf, Bool.and_eq_true] at h
  subst hw
  exact decode_of ((decode_immediate h.1.1.1 h.1.1.2 h.2).trans (if_pos h.1.2))

theorem br (g : Guard) (o : BitVec 22) : Statement (.br g o) := by
  intro h w hw _ h1
  replace hw := Option.some.inj (hw : some (word11 g 0 o) = some _)
  subst hw
  exact decode_of (decode_control h h1)

theorem brl (g : Guard) (o : BitVec 22) : Statement (.brl g o) := by
  intro h w hw _ h1
  replace hw := Option.some.inj (hw : some (word11 g 1 o) = some _)
  subst hw
  exact decode_of (decode_control h h1)

theorem rep (g : Guard) (c : BitVec 6) (st : BitVec 4) (b : BitVec 3) (la : BitVec 4) :
    Statement (.rep g c st b la) := by
  intro h w hw _ h1
  replace hw := Option.some.inj (hw : some (word11 g 2 (c ++ st ++ b ++ la ++ 0#5)) = some _)
  subst hw
  obtain ⟨e1, e2, e3, e4, e5⟩ := fields_repeat (c := c) (s := st) (b := b) (l := la) (z := 0#5) rfl
  refine decode_of ((decode_control h h1).trans ?_)
  change (if _ then _ else _) = _
  rw [e1, e2, e3, e4, e5]
  rfl

theorem nop (g : Guard) : Statement (.nop g) := by
  intro h w hw _ h1
  replace hw := Option.some.inj (hw : some (word11 g 3 0) = some _)
  subst hw
  exact decode_of ((decode_control h h1).trans rfl)

theorem add (g : Guard) (s : Src) : Statement (.add g s) :=
  of_trig .add (l := 0) rfl rfl (.inl rfl) rfl

theorem sub (g : Guard) (s : Src) : Statement (.sub g s) :=
  of_trig .sub (l := 0) rfl rfl (.inl rfl) rfl

theorem addw (g : Guard) (s : Src) : Statement (.addw g s) :=
  of_trig .addw (l := 0) rfl rfl (.inl rfl) rfl

theorem subw (g : Guard) (s : Src) : Statement (.subw g s) :=
  of_trig .subw (l := 0) rfl rfl (.inl rfl) rfl

theorem and (g : Guard) (s : Src) : Statement (.and g s) :=
  of_trig .and (l := 0) rfl rfl (.inl rfl) rfl

theorem or (g : Guard) (s : Src) : Statement (.or g s) :=
  of_trig .or (l := 0) rfl rfl (.inl rfl) rfl

theorem xor (g : Guard) (s : Src) : Statement (.xor g s) :=
  of_trig .xor (l := 0) rfl rfl (.inl rfl) rfl

theorem andn (g : Guard) (s : Src) : Statement (.andn g s) :=
  of_trig .andn (l := 0) rfl rfl (.inl rfl) rfl

theorem shl (g : Guard) (s : Src) : Statement (.shl g s) :=
  of_trig .shl (l := 0) rfl rfl (.inl rfl) rfl

theorem shr (g : Guard) (s : Src) : Statement (.shr g s) :=
  of_trig .shr (l := 0) rfl rfl (.inl rfl) rfl

theorem sra (g : Guard) (s : Src) : Statement (.sra g s) :=
  of_trig .sra (l := 0) rfl rfl (.inl rfl) rfl

theorem shlw (g : Guard) (s : Src) : Statement (.shlw g s) :=
  of_trig .shlw (l := 0) rfl rfl (.inl rfl) rfl

theorem shrw (g : Guard) (s : Src) : Statement (.shrw g s) :=
  of_trig .shrw (l := 0) rfl rfl (.inl rfl) rfl

theorem sraw (g : Guard) (s : Src) : Statement (.sraw g s) :=
  of_trig .sraw (l := 0) rfl rfl (.inl rfl) rfl

theorem rotl (g : Guard) (s : Src) : Statement (.rotl g s) :=
  of_trig .rotl (l := 0) rfl rfl (.inl rfl) rfl

theorem min (g : Guard) (s : Src) : Statement (.min g s) :=
  of_trig .min (l := 0) rfl rfl (.inl rfl) rfl

theorem max (g : Guard) (s : Src) : Statement (.max g s) :=
  of_trig .max (l := 0) rfl rfl (.inl rfl) rfl

theorem minu (g : Guard) (s : Src) : Statement (.minu g s) :=
  of_trig .minu (l := 0) rfl rfl (.inl rfl) rfl

theorem maxu (g : Guard) (s : Src) : Statement (.maxu g s) :=
  of_trig .maxu (l := 0) rfl rfl (.inl rfl) rfl

theorem mov (g : Guard) (s : Src) : Statement (.mov g s) :=
  of_trig .mov (l := 0) rfl rfl (.inl rfl) rfl

theorem sext (g : Guard) (s : Src) : Statement (.sext g s) :=
  of_trig .sext (l := 0) rfl rfl (.inl rfl) rfl

theorem zext (g : Guard) (s : Src) : Statement (.zext g s) :=
  of_trig .zext (l := 0) rfl rfl (.inl rfl) rfl

theorem bfx (g : Guard) (s : Src) : Statement (.bfx g s) :=
  of_trig .bfx (l := 0) rfl rfl (.inl rfl) rfl

theorem clz (g : Guard) (s : Src) : Statement (.clz g s) :=
  of_trig .clz (l := 0) rfl rfl (.inl rfl) rfl

theorem ctz (g : Guard) (s : Src) : Statement (.ctz g s) :=
  of_trig .ctz (l := 0) rfl rfl (.inl rfl) rfl

theorem popc (g : Guard) (s : Src) : Statement (.popc g s) :=
  of_trig .popc (l := 0) rfl rfl (.inl rfl) rfl

theorem ceq (g : Guard) (s : Src) : Statement (.ceq g s) :=
  of_trig .ceq (l := 0) rfl rfl (.inl rfl) rfl

theorem cne (g : Guard) (s : Src) : Statement (.cne g s) :=
  of_trig .cne (l := 0) rfl rfl (.inl rfl) rfl

theorem clt (g : Guard) (s : Src) : Statement (.clt g s) :=
  of_trig .clt (l := 0) rfl rfl (.inl rfl) rfl

theorem cltu (g : Guard) (s : Src) : Statement (.cltu g s) :=
  of_trig .cltu (l := 0) rfl rfl (.inl rfl) rfl

theorem cle (g : Guard) (s : Src) : Statement (.cle g s) :=
  of_trig .cle (l := 0) rfl rfl (.inl rfl) rfl

theorem cleu (g : Guard) (s : Src) : Statement (.cleu g s) :=
  of_trig .cleu (l := 0) rfl rfl (.inl rfl) rfl

theorem shl16or (g : Guard) (s : Src) : Statement (.shl16or g s) :=
  of_trig .shl16or (l := 0) rfl rfl (.inl rfl) rfl

theorem mul (g : Guard) (s : Src) : Statement (.mul g s) :=
  of_trig .mul (l := 0) rfl rfl (.inl rfl) rfl

theorem mulw (g : Guard) (s : Src) : Statement (.mulw g s) :=
  of_trig .mulw (l := 0) rfl rfl (.inl rfl) rfl

theorem mulh (g : Guard) (s : Src) : Statement (.mulh g s) :=
  of_trig .mulh (l := 0) rfl rfl (.inl rfl) rfl

theorem mulhu (g : Guard) (s : Src) : Statement (.mulhu g s) :=
  of_trig .mulhu (l := 0) rfl rfl (.inl rfl) rfl

theorem div (g : Guard) (l : BitVec 4) (s : Src) : Statement (.div g l s) :=
  of_trig .div (l := l) rfl rfl (.inr rfl) rfl

theorem divu (g : Guard) (l : BitVec 4) (s : Src) : Statement (.divu g l s) :=
  of_trig .divu (l := l) rfl rfl (.inr rfl) rfl

theorem rem (g : Guard) (l : BitVec 4) (s : Src) : Statement (.rem g l s) :=
  of_trig .rem (l := l) rfl rfl (.inr rfl) rfl

theorem remu (g : Guard) (l : BitVec 4) (s : Src) : Statement (.remu g l s) :=
  of_trig .remu (l := l) rfl rfl (.inr rfl) rfl

theorem fadd (g : Guard) (s : Src) : Statement (.fadd g s) :=
  of_trig .fadd (l := 0) rfl rfl (.inl rfl) rfl

theorem fsub (g : Guard) (s : Src) : Statement (.fsub g s) :=
  of_trig .fsub (l := 0) rfl rfl (.inl rfl) rfl

theorem fmul (g : Guard) (s : Src) : Statement (.fmul g s) :=
  of_trig .fmul (l := 0) rfl rfl (.inl rfl) rfl

theorem fma (g : Guard) (s : Src) : Statement (.fma g s) :=
  of_trig .fma (l := 0) rfl rfl (.inl rfl) rfl

theorem fmin (g : Guard) (s : Src) : Statement (.fmin g s) :=
  of_trig .fmin (l := 0) rfl rfl (.inl rfl) rfl

theorem fmax (g : Guard) (s : Src) : Statement (.fmax g s) :=
  of_trig .fmax (l := 0) rfl rfl (.inl rfl) rfl

theorem fneg (g : Guard) (s : Src) : Statement (.fneg g s) :=
  of_trig .fneg (l := 0) rfl rfl (.inl rfl) rfl

theorem fceq (g : Guard) (s : Src) : Statement (.fceq g s) :=
  of_trig .fceq (l := 0) rfl rfl (.inl rfl) rfl

theorem fclt (g : Guard) (s : Src) : Statement (.fclt g s) :=
  of_trig .fclt (l := 0) rfl rfl (.inl rfl) rfl

theorem fcle (g : Guard) (s : Src) : Statement (.fcle g s) :=
  of_trig .fcle (l := 0) rfl rfl (.inl rfl) rfl

theorem fsqrt (g : Guard) (l : BitVec 4) (s : Src) : Statement (.fsqrt g l s) :=
  of_trig .fsqrt (l := l) rfl rfl (.inr rfl) rfl

theorem fdiv (g : Guard) (l : BitVec 4) (s : Src) : Statement (.fdiv g l s) :=
  of_trig .fdiv (l := l) rfl rfl (.inr rfl) rfl

theorem fcvtI (g : Guard) (s : Src) : Statement (.fcvtI g s) :=
  of_trig .fcvtI (l := 0) rfl rfl (.inl rfl) rfl

theorem fcvtF (g : Guard) (s : Src) : Statement (.fcvtF g s) :=
  of_trig .fcvtF (l := 0) rfl rfl (.inl rfl) rfl

theorem fcvtBf (g : Guard) (s : Src) : Statement (.fcvtBf g s) :=
  of_trig .fcvtBf (l := 0) rfl rfl (.inl rfl) rfl

theorem fcvtE4 (g : Guard) (s : Src) : Statement (.fcvtE4 g s) :=
  of_trig .fcvtE4 (l := 0) rfl rfl (.inl rfl) rfl

theorem fcvtE5 (g : Guard) (s : Src) : Statement (.fcvtE5 g s) :=
  of_trig .fcvtE5 (l := 0) rfl rfl (.inl rfl) rfl

theorem fexpBf (g : Guard) (s : Src) : Statement (.fexpBf g s) :=
  of_trig .fexpBf (l := 0) rfl rfl (.inl rfl) rfl

theorem fexpE4 (g : Guard) (s : Src) : Statement (.fexpE4 g s) :=
  of_trig .fexpE4 (l := 0) rfl rfl (.inl rfl) rfl

theorem fexpE5 (g : Guard) (s : Src) : Statement (.fexpE5 g s) :=
  of_trig .fexpE5 (l := 0) rfl rfl (.inl rfl) rfl

theorem fclass (g : Guard) (s : Src) : Statement (.fclass g s) :=
  of_trig .fclass (l := 0) rfl rfl (.inl rfl) rfl

theorem ld8 (g : Guard) (l : BitVec 4) (s : Src) : Statement (.ld8 g l s) :=
  of_trig .ld8 (l := l) rfl rfl (.inr rfl) rfl

theorem ld8u (g : Guard) (l : BitVec 4) (s : Src) : Statement (.ld8u g l s) :=
  of_trig .ld8u (l := l) rfl rfl (.inr rfl) rfl

theorem ld16 (g : Guard) (l : BitVec 4) (s : Src) : Statement (.ld16 g l s) :=
  of_trig .ld16 (l := l) rfl rfl (.inr rfl) rfl

theorem ld16u (g : Guard) (l : BitVec 4) (s : Src) : Statement (.ld16u g l s) :=
  of_trig .ld16u (l := l) rfl rfl (.inr rfl) rfl

theorem ld32 (g : Guard) (l : BitVec 4) (s : Src) : Statement (.ld32 g l s) :=
  of_trig .ld32 (l := l) rfl rfl (.inr rfl) rfl

theorem ld32u (g : Guard) (l : BitVec 4) (s : Src) : Statement (.ld32u g l s) :=
  of_trig .ld32u (l := l) rfl rfl (.inr rfl) rfl

theorem ld64 (g : Guard) (l : BitVec 4) (s : Src) : Statement (.ld64 g l s) :=
  of_trig .ld64 (l := l) rfl rfl (.inr rfl) rfl

theorem ld128 (g : Guard) (l : BitVec 4) (s : Src) : Statement (.ld128 g l s) :=
  of_trig .ld128 (l := l) rfl rfl (.inr rfl) rfl

theorem st8 (g : Guard) (l : BitVec 4) (s : Src) : Statement (.st8 g l s) :=
  of_trig .st8 (l := l) rfl rfl (.inr rfl) rfl

theorem st16 (g : Guard) (l : BitVec 4) (s : Src) : Statement (.st16 g l s) :=
  of_trig .st16 (l := l) rfl rfl (.inr rfl) rfl

theorem st32 (g : Guard) (l : BitVec 4) (s : Src) : Statement (.st32 g l s) :=
  of_trig .st32 (l := l) rfl rfl (.inr rfl) rfl

theorem st64 (g : Guard) (l : BitVec 4) (s : Src) : Statement (.st64 g l s) :=
  of_trig .st64 (l := l) rfl rfl (.inr rfl) rfl

theorem st128 (g : Guard) (l : BitVec 4) (s : Src) : Statement (.st128 g l s) :=
  of_trig .st128 (l := l) rfl rfl (.inr rfl) rfl

theorem amoAddW (g : Guard) (l : BitVec 4) (s : Src) : Statement (.amoAddW g l s) :=
  of_trig .amoAddW (l := l) rfl rfl (.inr rfl) rfl

theorem amoAddD (g : Guard) (l : BitVec 4) (s : Src) : Statement (.amoAddD g l s) :=
  of_trig .amoAddD (l := l) rfl rfl (.inr rfl) rfl

theorem amoAndW (g : Guard) (l : BitVec 4) (s : Src) : Statement (.amoAndW g l s) :=
  of_trig .amoAndW (l := l) rfl rfl (.inr rfl) rfl

theorem amoAndD (g : Guard) (l : BitVec 4) (s : Src) : Statement (.amoAndD g l s) :=
  of_trig .amoAndD (l := l) rfl rfl (.inr rfl) rfl

theorem amoOrW (g : Guard) (l : BitVec 4) (s : Src) : Statement (.amoOrW g l s) :=
  of_trig .amoOrW (l := l) rfl rfl (.inr rfl) rfl

theorem amoOrD (g : Guard) (l : BitVec 4) (s : Src) : Statement (.amoOrD g l s) :=
  of_trig .amoOrD (l := l) rfl rfl (.inr rfl) rfl

theorem amoXorW (g : Guard) (l : BitVec 4) (s : Src) : Statement (.amoXorW g l s) :=
  of_trig .amoXorW (l := l) rfl rfl (.inr rfl) rfl

theorem amoXorD (g : Guard) (l : BitVec 4) (s : Src) : Statement (.amoXorD g l s) :=
  of_trig .amoXorD (l := l) rfl rfl (.inr rfl) rfl

theorem amoMinW (g : Guard) (l : BitVec 4) (s : Src) : Statement (.amoMinW g l s) :=
  of_trig .amoMinW (l := l) rfl rfl (.inr rfl) rfl

theorem amoMinD (g : Guard) (l : BitVec 4) (s : Src) : Statement (.amoMinD g l s) :=
  of_trig .amoMinD (l := l) rfl rfl (.inr rfl) rfl

theorem amoMaxW (g : Guard) (l : BitVec 4) (s : Src) : Statement (.amoMaxW g l s) :=
  of_trig .amoMaxW (l := l) rfl rfl (.inr rfl) rfl

theorem amoMaxD (g : Guard) (l : BitVec 4) (s : Src) : Statement (.amoMaxD g l s) :=
  of_trig .amoMaxD (l := l) rfl rfl (.inr rfl) rfl

theorem amoMinuW (g : Guard) (l : BitVec 4) (s : Src) : Statement (.amoMinuW g l s) :=
  of_trig .amoMinuW (l := l) rfl rfl (.inr rfl) rfl

theorem amoMinuD (g : Guard) (l : BitVec 4) (s : Src) : Statement (.amoMinuD g l s) :=
  of_trig .amoMinuD (l := l) rfl rfl (.inr rfl) rfl

theorem amoMaxuW (g : Guard) (l : BitVec 4) (s : Src) : Statement (.amoMaxuW g l s) :=
  of_trig .amoMaxuW (l := l) rfl rfl (.inr rfl) rfl

theorem amoMaxuD (g : Guard) (l : BitVec 4) (s : Src) : Statement (.amoMaxuD g l s) :=
  of_trig .amoMaxuD (l := l) rfl rfl (.inr rfl) rfl

theorem amoSwapW (g : Guard) (l : BitVec 4) (s : Src) : Statement (.amoSwapW g l s) :=
  of_trig .amoSwapW (l := l) rfl rfl (.inr rfl) rfl

theorem amoSwapD (g : Guard) (l : BitVec 4) (s : Src) : Statement (.amoSwapD g l s) :=
  of_trig .amoSwapD (l := l) rfl rfl (.inr rfl) rfl

theorem amoCasW (g : Guard) (l : BitVec 4) (s : Src) : Statement (.amoCasW g l s) :=
  of_trig .amoCasW (l := l) rfl rfl (.inr rfl) rfl

theorem amoCasD (g : Guard) (l : BitVec 4) (s : Src) : Statement (.amoCasD g l s) :=
  of_trig .amoCasD (l := l) rfl rfl (.inr rfl) rfl

theorem amoCasQ (g : Guard) (l : BitVec 4) (s : Src) : Statement (.amoCasQ g l s) :=
  of_trig .amoCasQ (l := l) rfl rfl (.inr rfl) rfl

theorem amoFadd (g : Guard) (l : BitVec 4) (s : Src) : Statement (.amoFadd g l s) :=
  of_trig .amoFadd (l := l) rfl rfl (.inr rfl) rfl

theorem waddrW (g : Guard) (s : Src) : Statement (.waddrW g s) :=
  of_trig .waddrW (l := 0) rfl rfl (.inl rfl) rfl

theorem waddrD (g : Guard) (s : Src) : Statement (.waddrD g s) :=
  of_trig .waddrD (l := 0) rfl rfl (.inl rfl) rfl

theorem waddrGeW (g : Guard) (s : Src) : Statement (.waddrGeW g s) :=
  of_trig .waddrGeW (l := 0) rfl rfl (.inl rfl) rfl

theorem waddrGeD (g : Guard) (s : Src) : Statement (.waddrGeD g s) :=
  of_trig .waddrGeD (l := 0) rfl rfl (.inl rfl) rfl

theorem fence (g : Guard) (s : Src) : Statement (.fence g s) :=
  of_trig .fence (l := 0) rfl rfl (.inl rfl) rfl

theorem ddisc (g : Guard) (l : BitVec 4) (s : Src) : Statement (.ddisc g l s) :=
  of_trig .ddisc (l := l) rfl rfl (.inr rfl) rfl

theorem dclean (g : Guard) (l : BitVec 4) (s : Src) : Statement (.dclean g l s) :=
  of_trig .dclean (l := l) rfl rfl (.inr rfl) rfl

theorem dinval (g : Guard) (l : BitVec 4) (s : Src) : Statement (.dinval g l s) :=
  of_trig .dinval (l := l) rfl rfl (.inr rfl) rfl

theorem sigAdd (g : Guard) (l : BitVec 4) (s : Src) : Statement (.sigAdd g l s) :=
  of_trig .sigAdd (l := l) rfl rfl (.inr rfl) rfl

theorem sigWait (g : Guard) (s : Src) : Statement (.sigWait g s) :=
  of_trig .sigWait (l := 0) rfl rfl (.inl rfl) rfl

theorem jr (g : Guard) (s : Src) : Statement (.jr g s) :=
  of_trig .jr (l := 0) rfl rfl (.inl rfl) rfl

theorem jrl (g : Guard) (s : Src) : Statement (.jrl g s) :=
  of_trig .jrl (l := 0) rfl rfl (.inl rfl) rfl

theorem spawn (g : Guard) (s : Src) : Statement (.spawn g s) :=
  of_trig .spawn (l := 0) rfl rfl (.inl rfl) rfl

theorem spawna (g : Guard) (s : Src) : Statement (.spawna g s) :=
  of_trig .spawna (l := 0) rfl rfl (.inl rfl) rfl

theorem done (g : Guard) (s : Src) : Statement (.done g s) :=
  of_trig .done (l := 0) rfl rfl (.inl rfl) rfl

theorem yield (g : Guard) (s : Src) : Statement (.yield g s) :=
  of_trig .yield (l := 0) rfl rfl (.inl rfl) rfl

theorem park (g : Guard) (s : Src) : Statement (.park g s) :=
  of_trig .park (l := 0) rfl rfl (.inl rfl) rfl

theorem join (g : Guard) (s : Src) : Statement (.join g s) :=
  of_trig .join (l := 0) rfl rfl (.inl rfl) rfl

theorem gbar (g : Guard) (s : Src) : Statement (.gbar g s) :=
  of_trig .gbar (l := 0) rfl rfl (.inl rfl) rfl

theorem garrive (g : Guard) (s : Src) : Statement (.garrive g s) :=
  of_trig .garrive (l := 0) rfl rfl (.inl rfl) rfl

theorem pyield (g : Guard) (s : Src) : Statement (.pyield g s) :=
  of_trig .pyield (l := 0) rfl rfl (.inl rfl) rfl

theorem sleep (g : Guard) (s : Src) : Statement (.sleep g s) :=
  of_trig .sleep (l := 0) rfl rfl (.inl rfl) rfl

theorem xgo (g : Guard) (l : BitVec 4) (s : Src) : Statement (.xgo g l s) :=
  of_trig .xgo (l := l) rfl rfl (.inr rfl) rfl

theorem xstop (g : Guard) (l : BitVec 4) (s : Src) : Statement (.xstop g l s) :=
  of_trig .xstop (l := l) rfl rfl (.inr rfl) rfl

theorem xwait (g : Guard) (l : BitVec 4) (s : Src) : Statement (.xwait g l s) :=
  of_trig .xwait (l := l) rfl rfl (.inr rfl) rfl

theorem ycopy (g : Guard) (l : BitVec 4) (s : Src) : Statement (.ycopy g l s) :=
  of_trig .ycopy (l := l) rfl rfl (.inr rfl) rfl

theorem ycopyAdd (g : Guard) (l : BitVec 4) (s : Src) : Statement (.ycopyAdd g l s) :=
  of_trig .ycopyAdd (l := l) rfl rfl (.inr rfl) rfl

theorem ymcast (g : Guard) (l : BitVec 4) (s : Src) : Statement (.ymcast g l s) :=
  of_trig .ymcast (l := l) rfl rfl (.inr rfl) rfl

theorem yring (g : Guard) (l : BitVec 4) (s : Src) : Statement (.yring g l s) :=
  of_trig .yring (l := l) rfl rfl (.inr rfl) rfl

theorem yawait (g : Guard) (s : Src) : Statement (.yawait g s) :=
  of_trig .yawait (l := 0) rfl rfl (.inl rfl) rfl

theorem yrel (g : Guard) (l : BitVec 4) (s : Src) : Statement (.yrel g l s) :=
  of_trig .yrel (l := l) rfl rfl (.inr rfl) rfl

theorem ypush (g : Guard) (l : BitVec 4) (s : Src) : Statement (.ypush g l s) :=
  of_trig .ypush (l := l) rfl rfl (.inr rfl) rfl

theorem ydesc (g : Guard) (l : BitVec 4) (s : Src) : Statement (.ydesc g l s) :=
  of_trig .ydesc (l := l) rfl rfl (.inr rfl) rfl

theorem pctx (g : Guard) (s : Src) : Statement (.pctx g s) :=
  of_trig .pctx (l := 0) rfl rfl (.inl rfl) rfl

theorem pscaleA (g : Guard) (s : Src) : Statement (.pscaleA g s) :=
  of_trig .pscaleA (l := 0) rfl rfl (.inl rfl) rfl

theorem pscaleB (g : Guard) (s : Src) : Statement (.pscaleB g s) :=
  of_trig .pscaleB (l := 0) rfl rfl (.inl rfl) rfl

theorem pld (g : Guard) (s : Src) : Statement (.pld g s) :=
  of_trig .pld (l := 0) rfl rfl (.inl rfl) rfl

theorem pmma (g : Guard) (s : Src) : Statement (.pmma g s) :=
  of_trig .pmma (l := 0) rfl rfl (.inl rfl) rfl

theorem pmmas (g : Guard) (s : Src) : Statement (.pmmas g s) :=
  of_trig .pmmas (l := 0) rfl rfl (.inl rfl) rfl

theorem pdrain (g : Guard) (s : Src) : Statement (.pdrain g s) :=
  of_trig .pdrain (l := 0) rfl rfl (.inl rfl) rfl

theorem pclr (g : Guard) (s : Src) : Statement (.pclr g s) :=
  of_trig .pclr (l := 0) rfl rfl (.inl rfl) rfl

theorem pflags (g : Guard) (s : Src) : Statement (.pflags g s) :=
  of_trig .pflags (l := 0) rfl rfl (.inl rfl) rfl

theorem pjoin (g : Guard) (s : Src) : Statement (.pjoin g s) :=
  of_trig .pjoin (l := 0) rfl rfl (.inl rfl) rfl

theorem dpatch (g : Guard) (s : Src) : Statement (.dpatch g s) :=
  of_trig .dpatch (l := 0) rfl rfl (.inl rfl) rfl

theorem dsety (g : Guard) (s : Src) : Statement (.dsety g s) :=
  of_trig .dsety (l := 0) rfl rfl (.inl rfl) rfl

theorem dsetr (g : Guard) (s : Src) : Statement (.dsetr g s) :=
  of_trig .dsetr (l := 0) rfl rfl (.inl rfl) rfl

theorem dgety (g : Guard) (l : BitVec 4) (s : Src) : Statement (.dgety g l s) :=
  of_trig .dgety (l := l) rfl rfl (.inr rfl) rfl

theorem dgetr (g : Guard) (l : BitVec 4) (s : Src) : Statement (.dgetr g l s) :=
  of_trig .dgetr (l := l) rfl rfl (.inr rfl) rfl

theorem dclk (g : Guard) (s : Src) : Statement (.dclk g s) :=
  of_trig .dclk (l := 0) rfl rfl (.inl rfl) rfl

theorem drun (g : Guard) (s : Src) : Statement (.drun g s) :=
  of_trig .drun (l := 0) rfl rfl (.inl rfl) rfl

theorem dhalt (g : Guard) (s : Src) : Statement (.dhalt g s) :=
  of_trig .dhalt (l := 0) rfl rfl (.inl rfl) rfl

theorem dsave (g : Guard) (s : Src) : Statement (.dsave g s) :=
  of_trig .dsave (l := 0) rfl rfl (.inl rfl) rfl

theorem drest (g : Guard) (s : Src) : Statement (.drest g s) :=
  of_trig .drest (l := 0) rfl rfl (.inl rfl) rfl

theorem dstat (g : Guard) (s : Src) : Statement (.dstat g s) :=
  of_trig .dstat (l := 0) rfl rfl (.inl rfl) rfl

theorem hinit (g : Guard) (s : Src) : Statement (.hinit g s) :=
  of_trig .hinit (l := 0) rfl rfl (.inl rfl) rfl

theorem hoffer (g : Guard) (s : Src) : Statement (.hoffer g s) :=
  of_trig .hoffer (l := 0) rfl rfl (.inl rfl) rfl

theorem hdrain (g : Guard) (s : Src) : Statement (.hdrain g s) :=
  of_trig .hdrain (l := 0) rfl rfl (.inl rfl) rfl

theorem hroute (g : Guard) (l : BitVec 4) (s : Src) : Statement (.hroute g l s) :=
  of_trig .hroute (l := l) rfl rfl (.inr rfl) rfl

theorem trap (g : Guard) (s : Src) : Statement (.trap g s) :=
  of_trig .trap (l := 0) rfl rfl (.inl rfl) rfl

theorem tret (g : Guard) (s : Src) : Statement (.tret g s) :=
  of_trig .tret (l := 0) rfl rfl (.inl rfl) rfl

theorem tfence (g : Guard) (s : Src) : Statement (.tfence g s) :=
  of_trig .tfence (l := 0) rfl rfl (.inl rfl) rfl

theorem idle (g : Guard) (s : Src) : Statement (.idle g s) :=
  of_trig .idle (l := 0) rfl rfl (.inl rfl) rfl

theorem vaddF (g : Guard) (s : VSource) : Statement (.vaddF g s) :=
  of_vtrig .vaddF (l := 0) rfl rfl (.inl rfl) rfl

theorem vsubF (g : Guard) (s : VSource) : Statement (.vsubF g s) :=
  of_vtrig .vsubF (l := 0) rfl rfl (.inl rfl) rfl

theorem vmulF (g : Guard) (s : VSource) : Statement (.vmulF g s) :=
  of_vtrig .vmulF (l := 0) rfl rfl (.inl rfl) rfl

theorem vfmaF (g : Guard) (s : VSource) : Statement (.vfmaF g s) :=
  of_vtrig .vfmaF (l := 0) rfl rfl (.inl rfl) rfl

theorem vmaxF (g : Guard) (s : VSource) : Statement (.vmaxF g s) :=
  of_vtrig .vmaxF (l := 0) rfl rfl (.inl rfl) rfl

theorem vminF (g : Guard) (s : VSource) : Statement (.vminF g s) :=
  of_vtrig .vminF (l := 0) rfl rfl (.inl rfl) rfl

theorem vexp2F (g : Guard) (s : VSource) : Statement (.vexp2F g s) :=
  of_vtrig .vexp2F (l := 0) rfl rfl (.inl rfl) rfl

theorem vrcpF (g : Guard) (s : VSource) : Statement (.vrcpF g s) :=
  of_vtrig .vrcpF (l := 0) rfl rfl (.inl rfl) rfl

theorem vrsqF (g : Guard) (s : VSource) : Statement (.vrsqF g s) :=
  of_vtrig .vrsqF (l := 0) rfl rfl (.inl rfl) rfl

theorem vcvtBf (g : Guard) (s : VSource) : Statement (.vcvtBf g s) :=
  of_vtrig .vcvtBf (l := 0) rfl rfl (.inl rfl) rfl

theorem vcvtE4 (g : Guard) (s : VSource) : Statement (.vcvtE4 g s) :=
  of_vtrig .vcvtE4 (l := 0) rfl rfl (.inl rfl) rfl

theorem vcvtE5 (g : Guard) (s : VSource) : Statement (.vcvtE5 g s) :=
  of_vtrig .vcvtE5 (l := 0) rfl rfl (.inl rfl) rfl

theorem vunpBf (g : Guard) (s : VSource) : Statement (.vunpBf g s) :=
  of_vtrig .vunpBf (l := 0) rfl rfl (.inl rfl) rfl

theorem vunpE4 (g : Guard) (s : VSource) : Statement (.vunpE4 g s) :=
  of_vtrig .vunpE4 (l := 0) rfl rfl (.inl rfl) rfl

theorem vunpE5 (g : Guard) (s : VSource) : Statement (.vunpE5 g s) :=
  of_vtrig .vunpE5 (l := 0) rfl rfl (.inl rfl) rfl

theorem vaddI (g : Guard) (s : VSource) : Statement (.vaddI g s) :=
  of_vtrig .vaddI (l := 0) rfl rfl (.inl rfl) rfl

theorem vsubI (g : Guard) (s : VSource) : Statement (.vsubI g s) :=
  of_vtrig .vsubI (l := 0) rfl rfl (.inl rfl) rfl

theorem vmulI (g : Guard) (s : VSource) : Statement (.vmulI g s) :=
  of_vtrig .vmulI (l := 0) rfl rfl (.inl rfl) rfl

theorem vand (g : Guard) (s : VSource) : Statement (.vand g s) :=
  of_vtrig .vand (l := 0) rfl rfl (.inl rfl) rfl

theorem vor (g : Guard) (s : VSource) : Statement (.vor g s) :=
  of_vtrig .vor (l := 0) rfl rfl (.inl rfl) rfl

theorem vxor (g : Guard) (s : VSource) : Statement (.vxor g s) :=
  of_vtrig .vxor (l := 0) rfl rfl (.inl rfl) rfl

theorem vshl (g : Guard) (s : VSource) : Statement (.vshl g s) :=
  of_vtrig .vshl (l := 0) rfl rfl (.inl rfl) rfl

theorem vshr (g : Guard) (s : VSource) : Statement (.vshr g s) :=
  of_vtrig .vshr (l := 0) rfl rfl (.inl rfl) rfl

theorem vsra (g : Guard) (s : VSource) : Statement (.vsra g s) :=
  of_vtrig .vsra (l := 0) rfl rfl (.inl rfl) rfl

theorem vceqF (g : Guard) (s : VSource) : Statement (.vceqF g s) :=
  of_vtrig .vceqF (l := 0) rfl rfl (.inl rfl) rfl

theorem vcltF (g : Guard) (s : VSource) : Statement (.vcltF g s) :=
  of_vtrig .vcltF (l := 0) rfl rfl (.inl rfl) rfl

theorem vsel (g : Guard) (s : VSource) : Statement (.vsel g s) :=
  of_vtrig .vsel (l := 0) rfl rfl (.inl rfl) rfl

theorem vbc (g : Guard) (s : VSource) : Statement (.vbc g s) :=
  of_vtrig .vbc (l := 0) rfl rfl (.inl rfl) rfl

theorem vrot (g : Guard) (s : VSource) : Statement (.vrot g s) :=
  of_vtrig .vrot (l := 0) rfl rfl (.inl rfl) rfl

theorem vperm (g : Guard) (s : VSource) : Statement (.vperm g s) :=
  of_vtrig .vperm (l := 0) rfl rfl (.inl rfl) rfl

theorem vsumF (g : Guard) (s : VSource) : Statement (.vsumF g s) :=
  of_vtrig .vsumF (l := 0) rfl rfl (.inl rfl) rfl

theorem vmaxR (g : Guard) (s : VSource) : Statement (.vmaxR g s) :=
  of_vtrig .vmaxR (l := 0) rfl rfl (.inl rfl) rfl

theorem vld (g : Guard) (l : BitVec 4) (s : VSource) : Statement (.vld g l s) :=
  of_vtrig .vld (l := l) rfl rfl (.inr rfl) rfl

theorem vst (g : Guard) (l : BitVec 4) (s : VSource) : Statement (.vst g l s) :=
  of_vtrig .vst (l := l) rfl rfl (.inr rfl) rfl

theorem encodingNotAnInstruction (w : BitVec 32) : Statement (.encodingNotAnInstruction w) := by
  intro h v hv _ _
  replace hv := Option.some.inj (hv : some (w) = some _)
  subst hv
  simp only [Instr.fieldsWf] at h
  unfold decode
  cases e : decodeWord w with
  | ok i => rw [e] at h; cases h
  | error _ => rfl

theorem repetitionSequenceIssue : Statement .repetitionSequenceIssue := of_event rfl

theorem resultVisible : Statement .resultVisible := of_event rfl

theorem instructionLineArrival : Statement .instructionLineArrival := of_event rfl

theorem queueBlockResume : Statement .queueBlockResume := of_event rfl

theorem postedStoreAcknowledgement : Statement .postedStoreAcknowledgement := of_event rfl

theorem offerAcknowledgement : Statement .offerAcknowledgement := of_event rfl

theorem remoteFaultReport : Statement .remoteFaultReport := of_event rfl

theorem writeCombiningTimeout : Statement .writeCombiningTimeout := of_event rfl

theorem remoteRequestArrival : Statement .remoteRequestArrival := of_event rfl

theorem atomicAtHome : Statement .atomicAtHome := of_event rfl

theorem l2LineArrival : Statement .l2LineArrival := of_event rfl

theorem l2Prefetch : Statement .l2Prefetch := of_event rfl

theorem waitWake : Statement .waitWake := of_event rfl

theorem watchUnitRead : Statement .watchUnitRead := of_event rfl

theorem waitTimeout : Statement .waitTimeout := of_event rfl

theorem signalUnitAdd : Statement .signalUnitAdd := of_event rfl

theorem sigWaitWake : Statement .sigWaitWake := of_event rfl

theorem sigWaitTimeout : Statement .sigWaitTimeout := of_event rfl

theorem pressGrant : Statement .pressGrant := of_event rfl

theorem pressOperationComplete : Statement .pressOperationComplete := of_event rfl

theorem pressQueueEntryServed : Statement .pressQueueEntryServed := of_event rfl

theorem rampLimiterWindow : Statement .rampLimiterWindow := of_event rfl

theorem pjoinTimeout : Statement .pjoinTimeout := of_event rfl

theorem domainTick : Statement .domainTick := of_event rfl

theorem integratorFaultTrap : Statement .integratorFaultTrap := of_event rfl

theorem runQueuePop : Statement .runQueuePop := of_event rfl

theorem priorityRise : Statement .priorityRise := of_event rfl

theorem migrationAdvertisement : Statement .migrationAdvertisement := of_event rfl

theorem migrationMessage : Statement .migrationMessage := of_event rfl

theorem migrationAnswer : Statement .migrationAnswer := of_event rfl

theorem parkWake : Statement .parkWake := of_event rfl

theorem sleepExpiry : Statement .sleepExpiry := of_event rfl

theorem idleWake : Statement .idleWake := of_event rfl

theorem referenceStreamDequeue : Statement .referenceStreamDequeue := of_event rfl

theorem referenceFetchReturn : Statement .referenceFetchReturn := of_event rfl

theorem referenceDemandFetch : Statement .referenceDemandFetch := of_event rfl

theorem ringClaim : Statement .ringClaim := of_event rfl

theorem copyPiece : Statement .copyPiece := of_event rfl

theorem copyComplete : Statement .copyComplete := of_event rfl

theorem ringPush : Statement .ringPush := of_event rfl

theorem heapOfferArrival : Statement .heapOfferArrival := of_event rfl

theorem heapCountPublish : Statement .heapCountPublish := of_event rfl

theorem balancerDistribute : Statement .balancerDistribute := of_event rfl

theorem mergeEmit : Statement .mergeEmit := of_event rfl

theorem trapEntry : Statement .trapEntry := of_event rfl

theorem policyCoreAnswer : Statement .policyCoreAnswer := of_event rfl

theorem preemptionDeadline : Statement .preemptionDeadline := of_event rfl

theorem contextQuiesce : Statement .contextQuiesce := of_event rfl

theorem powerPolicyCheck : Statement .powerPolicyCheck := of_event rfl

theorem flitCrcError : Statement .flitCrcError := of_event rfl

theorem linkRetrain : Statement .linkRetrain := of_event rfl

theorem linkPacketReceived : Statement .linkPacketReceived := of_event rfl

theorem pageWalkComplete : Statement .pageWalkComplete := of_event rfl

theorem doorbell : Statement .doorbell := of_event rfl

theorem queueMap : Statement .queueMap := of_event rfl

theorem queueQuantumExpiry : Statement .queueQuantumExpiry := of_event rfl

theorem nopCommand : Statement .nopCommand := of_event rfl

theorem launchPipeline : Statement .launchPipeline := of_event rfl

theorem launchTask : Statement .launchTask := of_event rfl

theorem wait : Statement .wait := of_event rfl

theorem signal : Statement .signal := of_event rfl

theorem copy : Statement .copy := of_event rfl

theorem barrier : Statement .barrier := of_event rfl

theorem checkpoint : Statement .checkpoint := of_event rfl

theorem packetComplete : Statement .packetComplete := of_event rfl

theorem queueFreed : Statement .queueFreed := of_event rfl

theorem createContext : Statement .createContext := of_event rfl

theorem destroyContext : Statement .destroyContext := of_event rfl

theorem grantTiles : Statement .grantTiles := of_event rfl

theorem revokeTiles : Statement .revokeTiles := of_event rfl

theorem mapPages : Statement .mapPages := of_event rfl

theorem unmapPages : Statement .unmapPages := of_event rfl

theorem loadKey : Statement .loadKey := of_event rfl

theorem freeKey : Statement .freeKey := of_event rfl

theorem writeWindow : Statement .writeWindow := of_event rfl

theorem clearWindow : Statement .clearWindow := of_event rfl

theorem allocateQueue : Statement .allocateQueue := of_event rfl

theorem destroyQueue : Statement .destroyQueue := of_event rfl

theorem restartQueue : Statement .restartQueue := of_event rfl

theorem markCheckpointQueue : Statement .markCheckpointQueue := of_event rfl

theorem allotGroups : Statement .allotGroups := of_event rfl

theorem allotExperts : Statement .allotExperts := of_event rfl

theorem registerImageKey : Statement .registerImageKey := of_event rfl

theorem setFaultMode : Statement .setFaultMode := of_event rfl

theorem setMonitorVector : Statement .setMonitorVector := of_event rfl

theorem setDeadline : Statement .setDeadline := of_event rfl

theorem setPowerRank : Statement .setPowerRank := of_event rfl

theorem registerSafeTier : Statement .registerSafeTier := of_event rfl

theorem reserveBuddyRegion : Statement .reserveBuddyRegion := of_event rfl

theorem setHostVisible : Statement .setHostVisible := of_event rfl

theorem registerCollectiveSet : Statement .registerCollectiveSet := of_event rfl

theorem setEventRing : Statement .setEventRing := of_event rfl

theorem faultAnswer : Statement .faultAnswer := of_event rfl

theorem preemptContext : Statement .preemptContext := of_event rfl

theorem resumeContext : Statement .resumeContext := of_event rfl

theorem loadCheckpoint : Statement .loadCheckpoint := of_event rfl

theorem pauseQueue : Statement .pauseQueue := of_event rfl

theorem eventTailWrite : Statement .eventTailWrite := of_event rfl

theorem barRegisterWrite : Statement .barRegisterWrite := of_event rfl

theorem hostMemoryAccess : Statement .hostMemoryAccess := of_event rfl

theorem moduleReset : Statement .moduleReset := of_event rfl

theorem getVersion : Statement .getVersion := of_event rfl

theorem getCapabilities : Statement .getCapabilities := of_event rfl

theorem vendorDefinedRequest : Statement .vendorDefinedRequest := of_event rfl

theorem reservedOpPacket : Statement .reservedOpPacket := of_event rfl

theorem reservedOpRequest : Statement .reservedOpRequest := of_event rfl

theorem snoopOrBackInvalidate : Statement .snoopOrBackInvalidate := of_event rfl

theorem retrainComplete : Statement .retrainComplete := of_event rfl

end Sys2Proof.Laws.RoundTrip
end

