-- ==== Sys2Proof/Tests/Slice0.lean ====
section
/-! SUPPORT. Tests: ill-formed terms that each check of `Instr.wf` refuses; for every family a word written out field by
field from the encoding of R32 and R44 and the port maps of R49 to R54; results of single steps, worked by hand from
the rules; and, for every statement with hypotheses, states that meet them together. -/

namespace Sys2Proof.Tests

set_option Elab.async false

open Sys2Proof Sys2Proof.Machine

/-- The guard that always holds. -/
def k0 : Guard := ⟨false, 0⟩

/-! ### Well-formedness: one ill-formed term for each check -/

theorem test_wf_guard : (Instr.add ⟨true, 0⟩ (.imm 1)).wf = false := by decide
theorem test_wf_source_special : (Instr.add k0 (.port (.special .mfill))).wf = false := by decide
theorem test_wf_source_result : (Instr.add k0 (.port (.res .ao))).wf = false := by decide
theorem test_wf_vector_source : (Instr.vmulF k0 (.bc (.special .mfill))).wf = false := by decide
theorem test_wf_destination_trigger : (Instr.move k0 (.trig .add) (.imm 1)).wf = false := by decide
theorem test_wf_destination_operand : (Instr.move k0 (.opnd .ar) (.imm 1)).wf = false := by decide
theorem test_wf_destination_special : (Instr.li k0 (.special .mctx) 1).wf = false := by decide
theorem test_wf_queue_source : (Instr.move k0 (.g 1) (.port (.deq 0))).wf = false := by decide
theorem test_wf_k0 : (Instr.guardWrite k0 0 (.imm 1)).wf = false ∧ (Instr.li k0 (.k 0) 1).wf = false := by decide
theorem test_wf_immediate_range : (Instr.li k0 (.trig .dpatch) 1).wf = false := by decide
theorem test_wf_shift_insert : (Instr.liShiftInsert k0 (.g 0) 1).wf = false := by decide
theorem test_wf_lookahead : (Instr.vectorTransport k0 (.toScalar 1 (.trig .add) (.v 0))).wf = false := by decide
theorem test_wf_zero_word : (Instr.move k0 (.g 0) (.port (.g 0))).wf = false := by decide
theorem test_wf_no_instruction : (Instr.encodingNotAnInstruction 0x00040001).wf = false := by decide
theorem test_wf_accepts : (Instr.ld64 ⟨true, 7⟩ 15 (.port (.g 31))).wf = true ∧ (Instr.encodingNotAnInstruction 0).wf = true := by
  decide

/-! ### Decoding: a word of each family, its fields written out -/

/-- Class 00 (R32): class, guard, L, destination, source kind, source. -/
theorem test_decode_add :
    decode (0b00#2 ++ 0b0000#4 ++ 0b0000#4 ++ 0b00010000001#11 ++ 0b1#1 ++ 0b1111111111#10) = .add k0 (.imm 0x3FF) := by decide
theorem test_decode_rem :
    decode (0b00#2 ++ 0b1011#4 ++ 0b1100#4 ++ 0b00011000111#11 ++ 0b0#1 ++ 0b0000011111#10)
      = .rem ⟨true, 3⟩ 12 (.port (.g 31)) := by decide
theorem test_decode_fma :
    decode (0b00#2 ++ 0b0000#4 ++ 0b0000#4 ++ 0b00011100101#11 ++ 0b0#1 ++ 0b0000101000#10) = .fma k0 (.port (.deq 0)) := by
  decide
theorem test_decode_ld32u :
    decode (0b00#2 ++ 0b0000#4 ++ 0b0101#4 ++ 0b00100001000#11 ++ 0b0#1 ++ 0b0010000000#10) = .ld32u k0 5 (.port (.res .ar)) := by
  decide
theorem test_decode_amoCasQ :
    decode (0b00#2 ++ 0b0000#4 ++ 0b1111#4 ++ 0b00100100100#11 ++ 0b0#1 ++ 0b0000000001#10) = .amoCasQ k0 15 (.port (.g 1)) := by
  decide
theorem test_decode_jrl :
    decode (0b00#2 ++ 0b0000#4 ++ 0b0000#4 ++ 0b00110000001#11 ++ 0b0#1 ++ 0b0000011111#10) = .jrl k0 (.port (.g 31)) := by decide
theorem test_decode_spawn :
    decode (0b00#2 ++ 0b0111#4 ++ 0b0000#4 ++ 0b00110010010#11 ++ 0b0#1 ++ 0b0000000010#10) = .spawn ⟨false, 7⟩ (.port (.g 2)) := by
  decide
theorem test_decode_xgo :
    decode (0b00#2 ++ 0b0000#4 ++ 0b0001#4 ++ 0b00110110010#11 ++ 0b0#1 ++ 0b0000000011#10) = .xgo k0 1 (.port (.g 3)) := by decide
theorem test_decode_ymcast :
    decode (0b00#2 ++ 0b0000#4 ++ 0b0010#4 ++ 0b00111000110#11 ++ 0b0#1 ++ 0b0000000100#10) = .ymcast k0 2 (.port (.g 4)) := by decide
theorem test_decode_pdrain :
    decode (0b00#2 ++ 0b0000#4 ++ 0b0000#4 ++ 0b00111101011#11 ++ 0b0#1 ++ 0b0000000101#10) = .pdrain k0 (.port (.g 5)) := by decide
theorem test_decode_dgetr :
    decode (0b00#2 ++ 0b0000#4 ++ 0b0011#4 ++ 0b01000000110#11 ++ 0b1#1 ++ 0b0000000111#10) = .dgetr k0 3 (.imm 7) := by decide
theorem test_decode_hroute :
    decode (0b00#2 ++ 0b0000#4 ++ 0b1000#4 ++ 0b01000100101#11 ++ 0b0#1 ++ 0b0000000110#10) = .hroute k0 8 (.port (.g 6)) := by decide
theorem test_decode_tret :
    decode (0b00#2 ++ 0b0000#4 ++ 0b0000#4 ++ 0b01000110010#11 ++ 0b1#1 ++ 0b0000000000#10) = .tret k0 (.imm 0) := by decide
theorem test_decode_moves :
    decode (0b00#2 ++ 0b0000#4 ++ 0b0000#4 ++ 0b00010000000#11 ++ 0b0#1 ++ 0b0000111010#10) = .move k0 (.opnd .ao) (.port .tid)
    ∧ decode (0b00#2 ++ 0b0000#4 ++ 0b0000#4 ++ 0b00000101111#11 ++ 0b1#1 ++ 0b0000000001#10) = .enqueue k0 7 (.imm 1)
    ∧ decode (0b00#2 ++ 0b0000#4 ++ 0b0000#4 ++ 0b00000110000#11 ++ 0b1#1 ++ 0b0000000001#10) = .tokenEnqueue k0 0 (.imm 1)
    ∧ decode (0b00#2 ++ 0b0000#4 ++ 0b0000#4 ++ 0b00000000001#11 ++ 0b0#1 ++ 0b0000110111#10) = .peek k0 (.g 1) 7
    ∧ decode (0b00#2 ++ 0b0000#4 ++ 0b0000#4 ++ 0b00000100111#11 ++ 0b0#1 ++ 0b0000000001#10) = .guardWrite k0 7 (.port (.g 1)) := by
  decide
theorem test_decode_specials :
    decode (0b00#2 ++ 0b0000#4 ++ 0b0000#4 ++ 0b00001000000#11 ++ 0b0#1 ++ 0b0000000001#10) = .xrndWrite k0 (.port (.g 1))
    ∧ decode (0b00#2 ++ 0b0000#4 ++ 0b0000#4 ++ 0b00001100101#11 ++ 0b0#1 ++ 0b0000000001#10) = .mfillWrite k0 (.port (.g 1)) := by
  decide
/-- Class 01: class, guard, L, dst.s, destination, src.s, source. -/
theorem test_decode_vector :
    decode (0b01#2 ++ 0b0000#4 ++ 0b0000#4 ++ 0b0#1 ++ 0b0000010100#10 ++ 0b1#1 ++ 0b0000000101#10) = .vmulF k0 (.bc (.g 5))
    ∧ decode (0b01#2 ++ 0b0000#4 ++ 0b1001#4 ++ 0b0#1 ++ 0b0000110011#10 ++ 0b0#1 ++ 0b0000001111#10) = .vst k0 9 (.vec (.v 15))
    ∧ decode (0b01#2 ++ 0b0000#4 ++ 0b0000#4 ++ 0b1#1 ++ 0b0000000011#10 ++ 0b0#1 ++ 0b0000010000#10)
      = .vectorTransport k0 (.toScalar 0 (.g 3) .vr) := by decide
/-- Class 10: class, guard, H, destination, immediate. -/
theorem test_decode_long_immediate :
    decode (0b10#2 ++ 0b0000#4 ++ 0b0#1 ++ 0b000000101#9 ++ 0x8001#16) = .li k0 (.g 5) 0x8001
    ∧ decode (0b10#2 ++ 0b0000#4 ++ 0b1#1 ++ 0b010000000#9 ++ 0x0001#16) = .liShiftInsert k0 (.opnd .ao) 1 := by decide
/-- Class 11: class, guard, op4, field. -/
theorem test_decode_control :
    decode (0b11#2 ++ 0b0111#4 ++ 0b0000#4 ++ 0x3FFFFF#22) = .br ⟨false, 7⟩ (-1)
    ∧ decode (0b11#2 ++ 0b0000#4 ++ 0b0001#4 ++ 5#22) = .brl k0 5
    ∧ decode (0b11#2 ++ 0b0000#4 ++ 0b0010#4 ++ 3#6 ++ 1#4 ++ 2#3 ++ 4#4 ++ 0#5) = .rep k0 3 1 2 4
    ∧ decode (0b11#2 ++ 0b0000#4 ++ 0b0011#4 ++ 0#22) = .nop k0 := by decide
/-- L on a trigger that takes none, guard 1000, a reserved destination (R55). -/
theorem test_decode_refuses :
    decode (0b00#2 ++ 0b0000#4 ++ 0b0001#4 ++ 0b00010000001#11 ++ 0b1#1 ++ 1#10) = .encodingNotAnInstruction 0x00440C01
    ∧ decode (0b00#2 ++ 0b1000#4 ++ 0b0000#4 ++ 0b00010000001#11 ++ 0b1#1 ++ 1#10) = .encodingNotAnInstruction 0x20040C01
    ∧ decode (0b00#2 ++ 0b0000#4 ++ 0b0000#4 ++ 0b00011010000#11 ++ 0b1#1 ++ 1#10) = .encodingNotAnInstruction 0x00068401 := by decide

/-! ### A small machine: one thread of context 1 on slot 0 of stage core 0 of tile 0, which is the context's tile 0 -/

/-- The context: a monitor vector, room for host tasks, and one pool slot. -/
def ctx1 : Ctx := { num := 1, tiles := [(0, 0)], vector := 0x100, pools := [(0, 0x7F0000001000, 1)], spawnaMax := 1 }

/-- The thread, its record in its tile's scratchpad. -/
def th0 : Thread :=
  { key := ⟨0, 0, 0⟩, ctx := 1, record := 0x7F0000000400, life := .running, pc := 0x1000 }

def lab : State := { State.reset with booted := true, ctxs := [ctx1], th := th0 }

/-- The same with a value in g1. -/
def labG (w : Word) : State := lab.map (fun t => t.setG 1 w)
/-- The same with a scalar port set. -/
def labP (l : Latch) (w : Word) : State := lab.map (fun t => t.set l w)
/-- The same on copy core 6. -/
def labY : State := lab.map (fun t => { t with key := ⟨0, 6, 0⟩ })
/-- The same in monitor mode. -/
def labM : State := lab.map (fun t => { t with mode := .monitor })

/-- The same with a record that says it is a stage thread (R215). -/
def labS : State := { lab with mem := Mem.write [] (scrCell 0 0x410) (leBytes 8 (2 ^ 43)) }

/-- What a step leaves, seen through a function. -/
def sees {α : Type} (o : Out) (f : State → α) : Option α :=
  match o with
  | .next z => some (f z)
  | _ => none

/-- The step that performs the thread's first access. -/
def performed (z : State) : Out := step { z with agenda := [.perform z.th.key 0] }

def g1 : Src := .port (.g 1)

theorem test_add_wraps :
    sees (exec (.add k0 g1) ((labG 0x2).map (fun t => t.set .ao 0xFFFFFFFFFFFFFFFF))) (fun z => z.th.get .ar) = some 1 := by
  decide +kernel

/-! ### Single steps, worked by hand from the rules -/

/-- R80: shlw by 33 uses the low five bits. -/
theorem test_shlw_low_bits :
    sees (exec (.shlw k0 g1) ((labG 33).map (fun t => t.set .ao 0x40000000))) (fun z => z.th.get .ar)
      = some 0xFFFFFFFF80000000 := by decide +kernel
/-- R80: sext keeps bit 7 as the sign. -/
theorem test_sext : sees (exec (.sext k0 (.imm 7)) (labP .ao 0x180)) (fun z => z.th.get .ar) = some 0xFFFFFFFFFFFFFF80 := by decide +kernel
/-- R81: bfx of eight bits from bit 4, signed. -/
theorem test_bfx : sees (exec (.bfx k0 g1) ((labG 0x11C4).map (fun t => t.set .ao 0x8F0))) (fun z => z.th.get .ar)
    = some 0xFFFFFFFFFFFFFF8F := by decide +kernel
/-- R80: clz and ctz of 0 are 64. -/
theorem test_clz_zero : sees (exec (.clz k0 (.imm 0)) lab) (fun z => z.th.get .ar) = some 64 := by decide +kernel
theorem test_ctz_zero : sees (exec (.ctz k0 (.imm 0)) lab) (fun z => z.th.get .ar) = some 64 := by decide +kernel
/-- R83: the quotient that overflows is the dividend, and a zero divisor gives all ones with IDZ. -/
theorem test_div_overflow : sees (exec (.div k0 0 (.imm 0x3FF)) (labP .mo 0x8000000000000000)) (fun z => (z.th.win .m).r)
    = some 0x8000000000000000 := by decide +kernel
theorem test_divu_zero : sees (exec (.divu k0 0 (.imm 0)) (labP .mo 5)) (fun z => ((z.th.win .m).r, (z.th.win .m).flags))
    = some (0xFFFFFFFFFFFFFFFF, 0x20) := by decide +kernel
/-- R85, R75: 1.0 + 2^-24 ties to even. -/
theorem test_fadd_tie :
    sees (exec (.fadd k0 g1) ((labG 0x33800000).map (fun t => t.set .fo 0x3F800000))) (fun z => z.th.flight.map Flight.r)
      = some [0x3F800000] := by decide +kernel
/-- R85: infinity minus infinity is the NaN of R66, with NV. -/
theorem test_fadd_invalid :
    sees (exec (.fadd k0 g1) ((labG 0xFF800000).map (fun t => t.set .fo 0x7F800000))) (fun z => z.th.flight.map Flight.r)
      = some [0x7FC00000] := by decide +kernel
/-- R97: vrot moves lanes down. -/
theorem test_vrot :
    sees (exec (.vrot k0 (.bc (.res .ar))) (lab.map (fun t => { t.set .ar 1 with vo := 0x222222221111111100000000 })))
      (fun z => z.th.flight.map (fun f => lane f.v 0)) = some [0x11111111] := by decide +kernel
/-- R46: a taken br adds its offset in words. -/
theorem test_br_back : sees (exec (.br k0 (-1)) lab) (fun z => z.th.pc) = some 0xFFC := by decide +kernel
/-- R46: jrl links the word behind it. -/
theorem test_jrl : sees (exec (.jrl k0 g1) (labG 0x40)) (fun z => (z.th.pc, z.th.getG 31)) = some (0x40, 0x1004) := by decide +kernel
/-- R38: a write of g0 is discarded; R35: one of a guard takes whether it is nonzero. -/
theorem test_move_g0 : sees (exec (.move k0 (.g 0) (.imm 5)) lab) (fun z => (z.th.getG 0, z.th.pc)) = some (0, 0x1004) := by decide +kernel
theorem test_guard_write : sees (exec (.guardWrite k0 3 (.imm 2)) lab) (fun z => z.th.getK 3) = some true := by decide +kernel
/-- R44: shift-insert. -/
theorem test_li_shift_insert : sees (exec (.liShiftInsert k0 (.g 1) 0x8001) (labG 0xABCD)) (fun z => z.th.getG 1)
    = some 0xABCD8001 := by decide +kernel
/-- R34: a false guard leaves the destination. -/
theorem test_false_guard : sees (exec (.move ⟨true, 0⟩ (.g 1) (.imm 5)) (labG 3)) (fun z => (z.th.getG 1, z.th.pc))
    = some (3, 0x1004) := by decide +kernel
/-- R165, R194: st16 to the local alias stores its low bytes, the lowest first; ld16 extends its sign. -/
theorem test_st16 :
    sees (exec (.st16 k0 0 g1) ((labG 0x7F4000000010).map (fun t => t.set .lo2 0x98FF)))
      (fun z => sees (performed z) (fun y => Mem.bytes y.mem (scrCell 0 0x0F) 4)) = some (some [0, 0xFF, 0x98, 0]) := by
  decide +kernel
theorem test_ld16 :
    sees (exec (.ld16 k0 0 g1) { labG 0x7F4000000010 with mem := Mem.write [] (scrCell 0 0x10) [0xFF, 0x98] })
      (fun z => sees (performed z) (fun y => (y.th.win .l).r)) = some (some 0xFFFFFFFFFFFF98FF) := by decide +kernel
/-- R191: a misaligned load is held in the retry latch with kind 3. -/
theorem test_ld64_misaligned :
    sees (exec (.ld64 k0 0 g1) (labG 0x7F4000000004)) (fun z => z.th.latch.map Retry.kind) = some (some 3) := by decide +kernel
/-- R53, R55: preq is the monitor's port: written in user mode, the thread takes the privilege trap, cause 3 (R344). Here the
entry finds no frame, so it is a double fault (R352). -/
theorem test_privilege : sees (exec (.preqWrite k0 (.imm 0)) lab) (fun z => z.th.life) = some .stopped := by decide +kernel
/-- R71: xflags takes its seven bits. -/
theorem test_xflags : sees (exec (.xflagsWrite k0 (.imm 0x7F)) lab) (fun z => z.th.get .xflags) = some 0x7F := by decide +kernel
theorem test_xflags_merge : sees (exec (.xflagsWrite k0 (.imm 4)) (lab.map (fun t => { t with flight := [⟨some .fr, lab.cyc, 0, 0, 1⟩] })))
    (fun z => z.th.get .xflags) = some 5 := by decide +kernel
/-- R263: a sleep of 5 cycles. -/
theorem test_sleep : sees (exec (.sleep k0 (.imm 5)) lab) (fun z => z.th.hold) = some (.sleep 5) := by decide +kernel
/-- R121: pscale.b takes a word, and R125 joins two pclr. -/
theorem test_pscale_b : sees (exec (.pscaleB k0 (.imm 3)) lab) (fun z => (z.press 0).ctx[0].sb) = some 3 := by decide +kernel
/-- R151: dset.y of cell 7. -/
theorem test_dset_y : sees (exec (.dsety k0 (.imm 7)) (labS.map (fun t => t.set .dO 9))) (fun z => ((z.array ⟨0, 0⟩).cell 7).y) = some 9 := by decide +kernel
/-- R282: hinit with a cap of 4. -/
theorem test_hinit : sees (exec (.hinit k0 (.imm 4)) lab) (fun z => (z.heap 0).cap) = some 4 := by decide +kernel
/-- R335: the first step from reset is the boot. -/
theorem test_boot : sees (step State.reset) (fun z => (z.booted, z.mail.opened)) = some (true, true) := by decide +kernel
/-- FIPS 180-4: the digest of "abc". FIPS 197, C.3: a block under AES-256 (R315, R321). -/
theorem test_sha384 : sha384 [0x61, 0x62, 0x63] =
    0xcb00753f45a35e8bb5a03d699ac65007272c32ab0eded1631a8b605a43ff5bed8086072ba1e7cc2358baeca134c825a7 := by decide +kernel
theorem test_aes256 : aesEncrypt ((List.range 32).map (BitVec.ofNat 8)) ((List.range 16).map (fun i => BitVec.ofNat 8 (17 * i)))
    = beBytes 16 0x8ea2b7ca516745bfeafc49904b496089 := by decide +kernel
/-- A word placed where the next step fetches is what the step runs: nop moves the PC on. -/
theorem test_with_fetch_word : sees (step (State.reset.withFetchWord 32 0xC0C00000)) (fun z => z.th.pc) = some 0x10004 := by decide +kernel

/-! ### Witnesses: states that meet the hypotheses of the statements

Each is named after its statement; where a statement has clauses that split the values of an operand, the witnesses
stand at the values where they meet. -/

/-- A scratchpad place of the context's tile, and the address of the local alias that reaches it. -/
def scr : Loc := ⟨scrCell 0 0x40, .scr 0, 0, 0, 0, 0, none, 19⟩
def scrVa : Word := 0x7F4000000040

/-- A thread of a context with a page of code at 0x10000 and one of data at 0x20000 in HBM (log entry 13). -/
def hbmLab : State := hostThread State.reset
def hbm : Loc := ⟨2 ^ 32 + 2 ^ 16 + 0x1100, .hbm, 0, 0, 0, 0, none, 12⟩
def hbmVa : Word := 0x20100

/-- The answer is this place. -/
def isOk (e : Except Nat Loc) (l : Loc) : Bool :=
  match e with
  | .ok x => x == l
  | .error _ => false

theorem isOk_eq {e : Except Nat Loc} {l : Loc} (h : isOk e l = true) : e = .ok l := by
  cases e with
  | ok x => simp only [isOk, beq_iff_eq] at h; rw [h]
  | error k => cases h

/-- `Reaches`, evaluated. -/
def reaches (orders : List Nat) (n : Nat) (need : Need) (op : Nat) (same : Option (Win × Nat)) (a : Word) (s : State) (loc : Loc) : Bool :=
  decide (attrOk (s.th.get .lo) orders = true ∧ a.toNat % n = 0 ∧ s.th.acquiring s.cyc = false
    ∧ isOk (translate s s.self a need) loc = true ∧ (s.denied loc.cell op n = 0 ∨ (op = 1 ∧ isPosted s loc = true))
    ∧ s.lineBusy loc.cell n (if op = 1 ∧ isPosted s loc then same else none) = false)

theorem reaches_of {orders : List Nat} {n : Nat} {need : Need} {op : Nat} {same : Option (Win × Nat)} {a : Word} {s : State} {loc : Loc}
    (h : reaches orders n need op same a s loc = true) : Reaches orders n need op same a s loc := by
  obtain ⟨h1, h2, h3, h4, h5⟩ := of_decide_eq_true h
  exact ⟨h1, h2, h3, isOk_eq h4, h5⟩

theorem witness_AluResults : ∀ r ∈ aluRows, Fires r.1 k0 (.imm 5) lab 5 none := by decide +kernel
theorem witness_BitFieldExtract :
    Fires .bfx k0 g1 (labG 0x1FFF) 0x1FFF none ∧ Fires .bfx k0 g1 (labG 0x2000) 0x2000 none := by decide +kernel
theorem witness_MultiplyDivideResults :
    (∀ r ∈ mulRows, Fires r.1 k0 (.imm 5) lab 5 none) ∧ (∀ r ∈ divRows, Fires r.1 k0 (.imm 0) lab 0 none)
      ∧ ∀ r ∈ divRows, Fires r.1 k0 (.imm 1) lab 1 none := by decide +kernel
theorem witness_ScalarFloatResults :
    (∀ r ∈ roundRows, Fires r.1 k0 (.imm 5) lab 5 none) ∧ (∀ r ∈ plainRows, Fires r.1 k0 (.imm 5) lab 5 none)
      ∧ Fires .fcvtI k0 (.imm 5) lab 5 none ∧ ∀ op ∈ [Trig.fdiv, .fsqrt], Fires op k0 (.imm 5) lab 5 none := by
  decide +kernel
theorem witness_VectorResults :
    (∀ r ∈ laneRows, VFires (vOperandRegs r.1) k0 (.vec (.v 3)) lab 0 none)
    ∧ (∀ op ∈ vplainRows.map Prod.fst ++ vroundRows.map Prod.fst ++ vconvertRows.map Prod.fst ++ [.vsumF, .vmaxR],
      VFires (vOperandRegs op) k0 (.vec (.v 3)) lab 0 none) := by decide +kernel

theorem witness_LoadResults : ∀ r ∈ loadRows, Fires r.1 k0 g1 (labG scrVa) scrVa none
    ∧ reaches [0, 1] r.2.1 .load 0 none scrVa (labG scrVa).passed scr = true := by
  decide +kernel

/-- The small machine with page tables: code at 0x10000 and data at 0x20000 in HBM, host memory cached at 0x30000 and
uncached at 0x31000, and at 0x32000 a window to device 7 (R310 to R318). -/
def paged : State :=
  let root := 2 ^ 50
  let put (m : List Host.Cell) (a e : Nat) : List Host.Cell := Mem.write m (binderyCell a) (leBytes 8 e)
  let m := put (put (put [] root (root + 0x1000 + 1)) (root + 0x1000) (root + 0x2000 + 1)) (root + 0x2000) (root + 0x3000 + 1)
  let leaf (m : List Host.Cell) (k e : Nat) : List Host.Cell := put m (root + 0x3000 + 8 * k) e
  let m := leaf (leaf m 0x10 (2 ^ 32 + 0x4F)) 0x20 (2 ^ 32 + 0x1000 + 0x47)
  let m := leaf (leaf m 0x30 (2 ^ 52 + 0x5000 + 0x47)) 0x31 (2 ^ 53 + 0x6000 + 0x47)
  { lab with
    ctxs := [{ ctx1 with root }]
    mem := leaf m 0x32 (3 * 2 ^ 52 + 5 * 2 ^ 42 + 0x47)
    imports := [(5, { d0 := BitVec.ofNat 64 (2 ^ 63 + 7 * 2 ^ 48 + 3 * 2 ^ 32), d1 := BitVec.ofNat 64 (2 ^ 48) })] }

def pagedG (w : Word) : State := paged.map (fun t => t.setG 1 w)

def hbmLoc (off : Nat) : Loc := ⟨2 ^ 32 + 0x1000 + off, .hbm, 0, 0, 0, 0, none, 12⟩
def hostLoc (off : Nat) : Loc := ⟨hostCell (0x6000 + off), .hostUncached, 0, 0, 0, 0, none, 12⟩
def peerLoc (off : Nat) : Loc := ⟨peerCell 7 3 off, .peer, 0, 7, 3, off, none, 12⟩

theorem witness_LocalLoad_hbm : ∀ r ∈ loadRows, Fires r.1 k0 g1 (pagedG 0x20040) 0x20040 none
    ∧ reaches [0, 1] r.2.1 .load 0 none 0x20040 (pagedG 0x20040).passed (hbmLoc 0x40) = true := by
  decide +kernel
theorem witness_PeerLoadResults : ∀ r ∈ loadRows, Fires r.1 k0 g1 (pagedG 0x32040) 0x32040 none
    ∧ reaches [0, 1] r.2.1 .load 0 none 0x32040 (pagedG 0x32040).passed (peerLoc 0x40) = true := by decide +kernel
/-- An access of 16 bytes of the thread's, in pieces of 8, of which `off` bytes are performed; and the step that
performs the next. -/
def accessAt (load viewed : Bool) (off : Nat) : Access :=
  { u := .l, load, viewed, cell := scrCell 0 0x40, n := 16, grain := 8, off, bytes := List.replicate 16 5, due := 0, done := 0 }
def accessLab (a : Access) : State := { lab.map (fun t => { t with mem := [a] }) with agenda := [.perform th0.key 0] }

/-- The first piece of an access, and its last. -/
theorem witness_AccessPerformed : ∀ load ∈ [false, true], ∀ viewed ∈ [false, true], ∀ off ∈ [0, 8],
    let s := accessLab (accessAt load viewed off)
    s.focus th0.key = some s ∧ s.th.mem[0]? = some (accessAt load viewed off) ∧ (off + 8 < 16 ↔ off = 0)
      ∧ s.siblingPosts s.th.key.coreKey s.th.key (scrCell 0 0x40 + off) 8 = false := by decide +kernel
theorem witness_WritesExactlyItsBytes : lab.lineKey (scrCell 0 0x40 / 64) = 0 := by decide +kernel

theorem witness_LocalStoreResults : ∀ r ∈ storeRows, Fires r.1 k0 g1 (pagedG 0x20040) 0x20040 none
    ∧ reaches [0, 2] r.2.1 .store 1 (some (.l, fld ((pagedG 0x20040).passed.th.get .lo) 6 5)) 0x20040 (pagedG 0x20040).passed
      (hbmLoc 0x40) = true
    ∧ MayRelease (pagedG 0x20040).passed
    ∧ (pagedG 0x20040).passed.storeBehind (hbmLoc 0x40) (fld ((pagedG 0x20040).passed.th.get .lo) 6 5) = false
    ∧ isPosted (pagedG 0x20040).passed (hbmLoc 0x40) = false := by decide +kernel

/-- Context 1 with a second tile, so that a store to it is remote (R167). -/
def twoTiles : State := { labG 0x7F0000080040 with ctxs := [{ ctx1 with tiles := [(0, 0), (1, 1)] }] }
def scr1 : Loc := ⟨scrCell 1 0x40, .scr 1, 0, 0, 0, 0, none, 19⟩

theorem witness_PostedStoreResults : ∀ r ∈ storeRows, Fires r.1 k0 g1 twoTiles 0x7F0000080040 none
    ∧ reaches [0, 2] r.2.1 .store 1 (some (.l, fld (twoTiles.passed.th.get .lo) 6 5)) 0x7F0000080040 twoTiles.passed scr1 = true
    ∧ MayRelease twoTiles.passed ∧ twoTiles.passed.storeBehind scr1 (fld (twoTiles.passed.th.get .lo) 6 5) = false ∧ scr1.space = .scr 1 ∧ 1 ≠ twoTiles.th.key.tile ∧ twoTiles.th.unacked < 255 := by
  decide +kernel
theorem witness_CombinedStoreResults : ∀ r ∈ storeRows, ∀ p ∈ [((0x32040 : Word), peerLoc 0x40), (0x31040, hostLoc 0x40)],
    Fires r.1 k0 g1 (pagedG p.1) p.1 none
    ∧ reaches [0, 2] r.2.1 .store 1 (some (.l, fld ((pagedG p.1).passed.th.get .lo) 6 5)) p.1 (pagedG p.1).passed p.2 = true
    ∧ MayRelease (pagedG p.1).passed
    ∧ (pagedG p.1).passed.storeBehind p.2 (fld ((pagedG p.1).passed.th.get .lo) 6 5) = false ∧ (p.2.space = .peer ∨ p.2.space = .hostUncached) ∧ (pagedG p.1).th.unacked < 255 := by
  decide +kernel
theorem witness_AtomicLaunch : ∀ r ∈ amoRows, Fires r.1 k0 g1 (pagedG 0x20040) 0x20040 none
    ∧ reaches [0, 1, 2, 3] r.2.1 .amo 2 none 0x20040 (pagedG 0x20040).passed (hbmLoc 0x40) = true
    ∧ MayRelease (pagedG 0x20040).passed
    ∧ (pagedG 0x20040).passed.storeBehind (hbmLoc 0x40) (amoClass (fld ((pagedG 0x20040).passed.th.get .lo) 6 5)) = false
    ∧ amoAdmits r.1 (hbmLoc 0x40) = true ∧ (hbmLoc 0x40).viewed = false := by decide +kernel
theorem witness_AtomicLaunch_peer : let s := pagedG 0x32040
    Fires .amoAddD k0 g1 s 0x32040 none ∧ reaches [0, 1, 2, 3] 8 .amo 2 none 0x32040 s.passed (peerLoc 0x40) = true
    ∧ MayRelease s.passed ∧ s.passed.storeBehind (peerLoc 0x40) (amoClass (fld (s.passed.th.get .lo) 6 5)) = false
    ∧ amoAdmits .amoAddD (peerLoc 0x40) = true
    ∧ s.passed.siblingPosts s.th.key.coreKey s.th.key (peerLoc 0x40).cell 16 = false := by decide +kernel

/-- An atomic at its home. -/
def amoAt (t : Trig) : Amo := { key := ⟨0, 0, 0⟩, amo := t, cell := 2 ^ 32 + 0x1040, aes := 0, va := 0x20040, v := 1, w := 2, due := 0 }

theorem witness_AtomicPerformed : ∀ r ∈ amoRows, let s := { lab with homeQ := [amoAt r.1] }
    s.homeQ[s.ev.n]? = some (amoAt r.1) ∧ (amoAt r.1).amo = r.1 ∧ amoDue s s.ev.n = true ∧ (amoAt r.1).ends = false := by
  decide +kernel
theorem witness_WaitOnWord : ∀ r ∈ [(Trig.waddrW, 4, false), (.waddrD, 8, false), (.waddrGeW, 4, true), (.waddrGeD, 8, true)],
    ∀ v ∈ [0, 1], let s := (labG scrVa).map (fun t => t.set .lo2 (BitVec.ofNat 64 v))
    Fires r.1 k0 g1 s scrVa none ∧ reaches [0, 1] r.2.1 .load 0 none scrVa s.passed scr = true
      ∧ fld (s.passed.th.get .lo3) 63 32 = 0 ∧ scr.viewed = false ∧ s.th.unperformed = none := by decide +kernel
/-- With the word 0: not met by "differs from 0" and "is 1 or more", met by "differs from 1" and "is 0 or more". -/
theorem witness_WaitOnWord_clauses :
    waitDone false 4 0 0 = false ∧ waitDone false 4 0 1 = true ∧ waitDone true 8 0 1 = false ∧ waitDone true 8 0 0 = true := by
  decide +kernel

/-- A fence of order acq_rel at a scope. -/
def fenceAt (scope : Nat) : State := labP .lo (BitVec.ofNat 64 (0x18 + scope))

theorem witness_FenceCompletes : ∀ n ∈ [0, 1, 2, 3], let t := (fenceAt n).passed
    Fires .fence k0 (.imm 0) (fenceAt n) 0 none ∧ attrOk (t.th.get .lo) [0, 1, 2, 3] = true ∧ FenceMay t (attrOf (t.th.get .lo))
      ∧ (fld (t.th.get .lo) 2 0 = n) ∧ t.th.rfq = 0 := by decide +kernel
theorem witness_FenceReportsStoreFaults : let s := (fenceAt 3).map (fun t => { t with rfq := 1, repKind := 2 })
    let t := s.passed
    Fires .fence k0 (.imm 0) s 0 none ∧ attrOk (t.th.get .lo) [0, 1, 2, 3] = true ∧ FenceMay t (attrOf (t.th.get .lo)) ∧ 3 ≤ fld (t.th.get .lo) 2 0
      ∧ t.th.rfq ≠ 0 ∧ t.th.mode = .user ∧ t.th.repKind ≠ 6 := by decide +kernel
theorem witness_CacheMaintenance : ∀ op ∈ [Trig.ddisc, .dclean, .dinval], ∀ n ∈ [64, 4096 - 0x40],
    let s := (pagedG 0x20040).map (fun t => t.set .lo2 (BitVec.ofNat 64 n))
    let t := s.passed
    Fires op k0 g1 s 0x20040 none ∧ attrOk (t.th.get .lo) [0, 2] = true ∧ (t.th.get .lo2).toNat < 2 ^ 32
      ∧ (t.th.get .lo2).toNat % 64 = 0 ∧ t.th.acquiring t.cyc = false ∧ MayRelease t ∧ 0 < (t.th.get .lo2).toNat
      ∧ (t.th.get .lo2).toNat ≤ 4096 - 0x20040 % 4096
      ∧ isOk (translate t t.self 0x20040 (if op = .dclean then .load else .store)) (hbmLoc 0x40) = true
      ∧ t.lineBusy (hbmLoc 0x40).cell (t.th.get .lo2).toNat none = false
      ∧ t.denied (hbmLoc 0x40).cell (if op = .dclean then 0 else 1) (t.th.get .lo2).toNat = 0
      ∧ (hbmLoc 0x40).cell % 64 = 0 ∧ t.hist = [] := by decide +kernel

/-- Context 1 with queue 3, its timeline 9. -/
def queue3 : SwQueue := { num := 3, ctx := 1, recAddr := 0x8000, base := 0x9000, timeline := 9 }
def signals (u : Nat) : State := { (labG 3).map (fun t => t.set .lo2 (BitVec.ofNat 64 u)) with queues := [queue3] }

theorem witness_SignalAdd : ∀ u ∈ [2 ^ 63 - 1, 2 ^ 63], let t := (signals u).passed
    Fires .sigAdd k0 g1 (signals u) 3 none ∧ attrOk (t.th.get .lo) [0, 1, 2, 3] = true ∧ t.th.acquiring t.cyc = false
      ∧ (3 : Word).toNat < 2 ^ 16 ∧ MayRelease t := by decide +kernel
/-- The threshold 9 is met; 10 is not; handle 4 names no queue. -/
theorem witness_SignalWait : ∀ v ∈ [9, 10], let t := (signals v).passed
    Fires .sigWait k0 g1 (signals v) 3 none ∧ attrOk (t.th.get .lo) [0, 1] = true ∧ fld (t.th.get .lo3) 63 32 = 0
      ∧ t.th.acquiring t.cyc = false ∧ handleQueue t t.th.ctx 3 = some queue3 ∧ (signals v).th.unperformed = none
      ∧ ((queue3.timeline - t.th.get .lo2).toNat < 2 ^ 63 ↔ v = 9) := by decide +kernel
theorem witness_SignalWait_none : let s := (signals 9).map (fun t => t.setG 1 4)
    Fires .sigWait k0 g1 s 4 none ∧ handleQueue s.passed s.passed.th.ctx 4 = none := by decide +kernel

/-- v.o2 and v3 give a vld or vst the address 0x20040, or another. -/
def vecAt1 (a : Nat) : State :=
  paged.map (fun t => { t.setV 3 (BitVec.ofNat 512 a) with vo2 := 0 })

theorem witness_VectorMemory :
    (∀ p ∈ [(0x20040, hbmLoc 0x40), (0x32040, peerLoc 0x40)], let s := vecAt1 p.1
      VFires (vOperandRegs .vld) k0 (.vec (.v 3)) s (BitVec.ofNat 512 p.1) none
        ∧ reaches [0, 1] 64 .load 0 none (lane s.vseen.advance.th.vo2 0 ++ lane (BitVec.ofNat 512 p.1) 0) s.vseen.advance p.2 = true)
    ∧ ∀ p ∈ [(0x20040, hbmLoc 0x40), (0x32040, peerLoc 0x40)], let s := vecAt1 p.1
      VFires (vOperandRegs .vst) k0 (.vec (.v 3)) s (BitVec.ofNat 512 p.1) none
        ∧ reaches [0, 2] 64 .store 1 (some (.v, fld (s.vseen.advance.th.get .lo) 6 5)) (lane s.vseen.advance.th.vo2 0 ++ lane (BitVec.ofNat 512 p.1) 0) s.vseen.advance p.2 = true
        ∧ MayRelease s.vseen.advance
        ∧ s.vseen.advance.storeBehind p.2 (fld (s.vseen.advance.th.get .lo) 6 5) = false ∧ (isPosted s.vseen.advance p.2 = true ↔ p.1 = 0x32040)
        ∧ s.vseen.advance.th.unacked < 255 := by decide +kernel

theorem witness_ControlWords : lab.seen.th.holds k0 = true ∧ Fires .jr k0 g1 (labG 0x40) 0x40 none
    ∧ Fires .jr k0 g1 (labG 0x42) 0x42 none ∧ Fires .jrl k0 g1 (labG 0x40) 0x40 none ∧ Fires .jrl k0 g1 (labG 0x41) 0x41 none
    ∧ (0xC0C00001#32).extractLsb' 30 2 = 3 ∧ (0xC0C00001#32).extractLsb' 22 4 = 3 ∧ (0xC0C00001#32).extractLsb' 0 22 ≠ 0 := by
  decide +kernel

/-- Code at 0x10004: the block word that moves v1 to v2, or one that copies g1 to g1. -/
def blockLab (w : Nat) : State :=
  { paged with mem := Mem.write paged.mem (2 ^ 32 + 4) (leBytes 4 w), th := { th0 with pc := 0x10000 } }
def blockMove : Nat := 0x40001001

/-- What the checks of a rep at 0x10000 say: the cause of a trap, or 0 and whether the scalars can be captured. -/
def blockSays (s : State) (cm1 : Nat) : Nat × Bool :=
  match checkBlock s.seen s.th.pc 0 1 cm1 with
  | .trap c => (c, false)
  | .fault k _ => (100 + k, false)
  | .ok bs =>
    (0, match captureScalars s.seen.th s.seen bs with
      | .ok _ => s.seen.th.sound (blockRegs s.seen.th bs)
      | .error _ => false)

/-- Thirteen passes further v2 is v15; a fourteenth leaves the registers, and a word that is no block word traps too. -/
theorem witness_RepStartsSequence :
    (blockLab blockMove).seen.th.holds k0 = true ∧ (blockLab blockMove).seen.th.holds ⟨true, 0⟩ = false
      ∧ (blockLab blockMove).seen.closed [.v] = true
      ∧ blockSays (blockLab blockMove) 13 = (0, true) ∧ blockSays (blockLab blockMove) 14 = (2, false)
      ∧ blockSays (blockLab 0xC0C00000) 0 = (2, false) := by decide +kernel

/-- A sequence whose next word, in pass 2 of stride 1, is the one given. -/
def sequenceLab (w : BitVec 32) : State :=
  lab.map (fun t => { t.setWin .v { isOpen := true, rep := true } with
    rep := { act := true, pass := 2, stride := 1, cm1 := 5, words := [w], gv := 1 } })

theorem witness_SequenceWordIssues : ∀ w ∈ [0x40001001, 0x4000A001], let s := sequenceLab (BitVec.ofNat 32 w)
    s.focus s.ev.key = some s ∧ sequenceDue s s.th = true ∧ s.seen.th.rep.todo = some (2, 0)
      ∧ ((s.seen.th.rep.words[0]?).bind blockWord) = some ⟨k0, .vec (.v 1), if w = 0x40001001 then .vec (.v 2) else .trig .vmulF⟩
      ∧ s.seen.th.sound (passRegs s.seen ⟨k0, .vec (.v 1), if w = 0x40001001 then .vec (.v 2) else .trig .vmulF⟩ 2) = true := by
  decide +kernel

theorem witness_ScalarMoves :
    Moves (dstFate lab.th.key lab.th.mode (.g 0)) k0 (.imm 1) lab 1 none
    ∧ Moves (dstFate lab.th.key lab.th.mode (.opnd .ao)) k0 (.imm 1) lab 1 none
    ∧ Moves (dstFate lab.th.key lab.th.mode (.k 7)) k0 (.imm 1) lab 1 none
    ∧ dstFate lab.th.key lab.th.mode (.g 31) = .ok ∧ lab.seen.th.holds k0 = true
    ∧ dstFate lab.th.key lab.th.mode (.opnd .zo) = .ok ∧ lab.seen.th.sound [.g 31] = true
    ∧ lab.seen.th.sound [.latch .zo] = true := by decide +kernel
theorem witness_VectorMoves :
    VFires [] k0 (.vec .vr) lab 0 none ∧ (lab.th.win .v).isOpen = false ∧ isStage lab.th.key = true
      ∧ lab.vseen.readVPort (.v 15) = .val 0 none ∧ latchFate lab.th.key .ao = .ok
      ∧ lab.seen.th.sound [vportReg (.v 15)] = true := by decide +kernel

/-- Port 2 of the thread is the consumer, and port 3 the producer, of a channel. -/
def queueLab (elems : List Elem) (allowance st : Nat) : State :=
  { labS with
    th := { th0 with bind := (th0.bind.set 2 ⟨true, false, 5⟩).set 3 ⟨true, true, 5⟩ }
    chans := [{ id := 5, ctx := 1, allowance, elems, st, prod := some ⟨th0.key, 3⟩, cons := [(⟨th0.key, 2⟩, 0)] }] }
def token : Elem := { word := 0xABCDEF0100000003, tag := true, sync := true }

theorem witness_EnqueueAppends : let s := queueLab [] 4 0
    Moves .ok k0 (.imm 1) s 1 none ∧ s.passed.queueWrite 3 = .room 5 ∧ s.passed.chan? 5 = s.chans.head?
      ∧ (s.array s.th.key.coreKey).owner ≠ some s.th.key ∧ Released s.passed 2 := by decide +kernel
theorem witness_QueuePorts :
    (queueLab [token] 4 0).seen.queueRead 2 = .head 5 token ∧ (queueLab [{ word := 7 }] 4 0).seen.queueRead 2 = .head 5 { word := 7 }
      ∧ (queueLab [] 4 0).seen.queueRead 2 = .empty ∧ (queueLab [] 4 1).seen.queueRead 2 = .error
      ∧ (queueLab [{ word := 7 }] 1 0).passed.queueWrite 3 = .full ∧ (queueLab [] 4 1).passed.queueWrite 3 = .error
      ∧ Moves .ok k0 (.imm 1) (queueLab [] 4 1) 1 none ∧ Moves .ok k0 (.imm 1) (queueLab [{ word := 7 }] 1 0) 1 none := by
  decide +kernel

theorem witness_SpecialPorts :
    (∀ n ∈ [5, 6, 0x7F, 0x80], Moves .ok k0 g1 (labG (BitVec.ofNat 64 n)) (BitVec.ofNat 64 n) none)
    ∧ ∀ n ∈ [0, 1, 2, 4, 6], let s := (labG (BitVec.ofNat 64 n)).map (fun t => { t with mode := .monitor })
      Moves (if s.th.mode = .user then .privilege else .ok) k0 g1 s (BitVec.ofNat 64 n) none := by decide +kernel

/-- Context 1 in retry-ring mode, its ring at 0x20040 and its slots from 0x20400 on; `held` is word 6 of the first slot. -/
def ringLab (wp held : Nat) : State :=
  let ring := (dwords [0x20400, BitVec.ofNat 64 (2 ^ 32 * 8 + 128)] ++ leBytes 4 wp)
  { paged with
    ctxs := paged.ctxs.map (fun c => { c with retryRing := some 0x20040 })
    mem := Mem.write (Mem.write paged.mem (2 ^ 32 + 0x1040) ring) (2 ^ 32 + 0x1430) (leBytes 8 held)
    th := { th0 with mode := .monitor } }

theorem witness_RetryFill :
    Moves (if (ringLab 1 1).th.mode = .user then .privilege else .ok) k0 (.imm 1) (ringLab 1 1) 1 none
      ∧ retryHead (ringLab 0 1).passed 1 = none
      ∧ retryHead (ringLab 1 1).passed 1 = some (hbmLoc 0x40, 0, 0x20400)
      ∧ entryHeld (ringLab 1 1).passed 1 0x20400 = true ∧ entryHeld (ringLab 1 0).passed 1 0x20400 = false
      ∧ Released (ringLab 1 1).passed 2
      ∧ (match writeVA (ringLab 1 1).passed (devAgent 1) 0x20438 (leBytes 8 1) with
        | .ok t1 => (match writeVA t1 (devAgent 1) 0x20430 (leBytes 8 2) with
          | .ok _ => true
          | .error _ => false)
        | .error _ => false) = true := by decide +kernel

theorem witness_ResultVisible : ∀ ti ∈ [none, some ({ cause := 8 } : TrapInfo)],
    let s : State := { lab.map (fun t => t.setWin .l { isOpen := true, hasRes := true, r := 3, trap := ti }) with ev := { win := .l } }
    s.focus s.ev.key = some s ∧ resultDue s s.th s.ev.win = true ∧ (s.th.win .l).trap = ti ∧ s.th.trapWait = none
      ∧ (let w := s.map (fun t => { t with hold := .trap, trapWait := some { cause := 8 } });
        w.focus w.ev.key = some w ∧ resultDue w w.th w.ev.win = true) := by decide +kernel

theorem witness_FetchAndQueueHolds :
    (let s := lab.map (fun t => { t with hold := .line 0x1000 0 }); s.focus s.ev.key = some s)
    ∧ (let s := queueLab [{ word := 7 }] 1 0; s.queueRead 2 ≠ .empty ∧ s.focus s.ev.key = some s)
    ∧ (queueLab [] 1 0).queueWrite 3 ≠ .full
    ∧ (let s := lab.map (fun t => { t with trapWait := some { cause := 4 } }); s.focus s.ev.key = some s ∧ s.th.drained s.cyc = true)
    ∧ (let s := { paged with walks := [⟨0, 1, 0x10, 0⟩], th := { th0 with pc := 0x10000, hold := .walk 0x10 } };
      s.walks[s.ev.n]? = some ⟨0, 1, 0x10, 0⟩ ∧ s.th.life ≠ .idle ∧ dieOf s.th.key.tile = 0
        ∧ isOk (translate s s.self s.th.pc .code) ⟨2 ^ 32, .hbm, 0, 0, 0, 0, none, 12⟩ = true ∧ s.others = []
        ∧ s.walkQ.find? (fun x => x.1 = 0) = none
        ∧ ({ s with walkQ := [(1, 1, 3), (0, 1, 0x20)] } : State).walkQ.find? (fun x => x.1 = 0) = some (0, 1, 0x20))
    ∧ (let s := lab.map (fun t => { t with hold := .sleep 0 }); s.focus s.ev.key = some s ∧ s.th.hold = .sleep 0) := by
  decide +kernel
/-- The last line of a page can be prefetched over; the first of the next cannot. -/
theorem witness_SliceLines :
    (let s := { lab with ev := { p := 63 } };
      s.l2miss = [])
    ∧ (0, 0, 63) ∈ ({ lab with ev := { p := 63 }, l2miss := [(0, 0, 63)] } : State).l2miss := by decide +kernel

def postedAt (refuse : Nat) (wcb : Bool) : Posted :=
  { cell := scrCell 0 0x40, bytes := [1, 2], due := 0, refuse, va := scrVa, wcb }
def postedLab (refuse : Nat) (wcb : Bool) : State :=
  { lab.map (fun t => { t with posted := [postedAt refuse wcb], unacked := 1 }) with ev := { n := refuse, w := scrVa } }

theorem witness_PostedStoreEvents :
    (let s := postedLab 0 false; s.focus s.ev.key = some s ∧ s.th.posted[s.ev.n]? = some (postedAt 0 false)
      ∧ postedDue s s.th s.ev.n = true ∧ s.lineKey ((postedAt 0 false).cell / 64) = (postedAt 0 false).key)
    ∧ (let s := { lab.map (fun t => { t with posted := [{ postedAt 0 false with bytes := List.replicate 16 1 }] }) with ev := { n := 0 } };
      s.focus s.ev.key = some s ∧ postedDue s s.th s.ev.n = true
        ∧ s.th.posted.all (fun p => decide (p.grain < p.bytes.length)) = true)
    ∧ (let s := postedLab 2 false; s.th.key = s.ev.key ∧ s.th.life ≠ .idle ∧ postedDue s s.th 0 = true
      ∧ (postedAt 2 false).refuse = s.ev.n ∧ (postedAt 2 false).va = s.ev.w ∧ s.th.rfq = 0)
    ∧ (let s := postedLab 0 true; s.th ∈ s.threads ∧ s.th.key.coreKey = s.ev.key.coreKey ∧ postedAt 0 true ∈ s.th.posted
      ∧ (postedAt 0 true).due ≤ s.cyc) := by
  decide +kernel

/-- A wait for the word at an address to differ from, or reach, a value, due now. -/
def waitLab (va : Word) (v : Word) : State := paged.map (fun t => { t with hold := .waddr va 8 false v 0 (some 0) 0 })

theorem witness_WordWaitEnds :
    (∀ p ∈ [(0x20040, hbmLoc 0x40), (0x32040, peerLoc 0x40)], ∀ v ∈ [0, 1], let a := BitVec.ofNat 64 p.1
      let s := waitLab a (BitVec.ofNat 64 v);
      s.focus s.ev.key = some s ∧ isOk (translate s s.self a .load) p.2 = true ∧ s.denied p.2.cell 0 8 = 0
        ∧ (leNat (s.readAs p.2.aes p.2.cell 8) ≠ v ↔ v = 1))
    ∧ (let s := { waitLab 0x31040 0 with ev := { n := 0x181 } };
      s.others = [] ∧ s.th.life ≠ .idle ∧ s.ev.bytes.length ≠ 64 ∧ isOk (translate s s.self 0x31040 .load) (hostLoc 0x40) = true
        ∧ s.denied (hostLoc 0x40).cell 0 8 = 0 ∧ (hostLoc 0x40).cell / 64 = hostCell (s.ev.n * 64) / 64)
    ∧ (let s := (queueLab [token] 4 0).map (fun t => { t with unperformed := some (some 2) });
      s.th.unperformed = some (some 2) ∧ s.queueRead 2 = .head 5 token) ∧ lab.th.unperformed = none := by decide +kernel

def sigAdd3 (h : Word) : SigAdd := { key := th0.key, ctx := 1, handle := h, u := 1, lo := 0, pc := 0x1000, due := 0 }
theorem witness_TimelineEvents :
    (∀ h ∈ [3, 4], let s := { (signals 1).map (fun t => t.setWin .l { isOpen := true, known := false }) with
        sigQ := [sigAdd3 (BitVec.ofNat 64 h)] };
      sigDue s s.ev.n = true ∧ (handleQueue s 1 (BitVec.ofNat 64 h) = if h = 3 then some queue3 else none) ∧ (s.th.win .l).isOpen = true
        ∧ (s.th.win .l).known = false ∧ (sigAdd3 (BitVec.ofNat 64 h)).key = s.th.key)
    ∧ (∀ v ∈ [9, 10], let s := (signals 1).map (fun t => { t with hold := .sigWait 3 (BitVec.ofNat 64 v) 0 (some 0) });
      s.focus s.ev.key = some s ∧ s.queue? 3 = some queue3 ∧ queue3.ctx = s.th.ctx
        ∧ ((queue3.timeline - BitVec.ofNat 64 v).toNat < 2 ^ 63 ↔ v = 9))
    ∧ (∀ d ∈ [none, some 0], let s := lab.map (fun t => { t with hold := .sigWait 3 0 0 d }); s.queue? 3 = none ∧ s.focus s.ev.key = some s) := by
  decide +kernel

/-- A thread with a record in its tile's scratchpad: code 0x1000, frame, and the control, link and state words given. -/
def taskLab (ctl link : Nat) : State :=
  { lab with
    mem := Mem.write [] (scrCell 0 0x400)
      (dwords [0x1000, 0x7F0000010000, BitVec.ofNat 64 (2 ^ 48 + ctl), 0, BitVec.ofNat 64 link, 0, 0, 0]) }
def stageBit : Nat := 2 ^ 43

theorem witness_Spawn :
    (let s := (taskLab 0 0).map (fun t => t.setG 1 0x1000);
      Fires .spawn k0 g1 s 0x1000 none ∧ s.passed.myCtx = some ctx1 ∧ freePoolSlots ctx1 0 = [0x7F0000001000]
        ∧ recDepth s.passed 1 s.th.record < 24 ∧ s.passed.th.awaitsPhase = false)
    ∧ (let s := { (taskLab 0 0).map (fun t => t.setG 1 0x1000) with ctxs := [{ ctx1 with poolUsed := [0x7F0000001000] }] };
      Fires .spawn k0 g1 s 0x1000 none ∧ s.passed.myCtx = s.ctxs.head? ∧ s.passed.th.awaitsPhase = false)
    ∧ freePoolSlots { ctx1 with poolUsed := [0x7F0000001000] } 0 = [] := by decide +kernel

/-- The paged machine with a record in HBM at 0x20200, of the code address given; and an allowance for spawna. -/
def spawnaLab (code : Word) (room : Nat) : State :=
  { pagedG 0x20200 with
    ctxs := paged.ctxs.map (fun c => { c with spawnaMax := room })
    mem := Mem.write paged.mem (2 ^ 32 + 0x1200) (dwords [code, 0x20400, BitVec.ofNat 64 (2 ^ 48), 0, 0, 0, 0, 0]) }
/-- With no room; with a record whose code address is no multiple of 4; and with neither. -/
theorem witness_Spawna : ∀ p ∈ [((0x1000 : Word), 0), (0x1002, 1), (0x1000, 1)], let s := spawnaLab p.1 p.2; let u := s.passed
    Fires .spawna k0 g1 s 0x20200 none ∧ fld (u.th.get .so) 63 16 = 0 ∧ u.myCtx = s.ctxs.head? ∧ u.th.awaitsPhase = false
      ∧ s.ctxs.map Ctx.spawnaMax = [p.2] ∧ s.ctxs.map Ctx.spawnaUsed = [[]]
      ∧ isOk (translate u u.self 0x20200 .load) (hbmLoc 0x200) = true ∧ u.denied (hbmLoc 0x200).cell 0 64 = 0
      ∧ recDepth u u.th.ctx u.th.record < 24 ∧ dieFor u u.th.ctx 0x20200 0 = 0
      ∧ recordOkFields u (recWord u 1 0x20200 0) (recWord u 1 0x20200 8) (BitVec.ofNat 64 (2 ^ 48 + 2 ^ 32))
        (recWord u 1 0x20200 0x20) (recWord u 1 0x20200 0x38) 0 = decide (p.1 = 0x1000) := by decide +kernel

/-- `FrameOpen`, evaluated. -/
def frameOpen (s : State) : Bool :=
  match s.frameOf with
  | .ok f => (match writeLines s.dev 44 s f (s.th.fullImage s.th.pc []) with
    | .ok _ => true
    | .error _ => false)
  | .error _ => false

theorem frameOpen_of {s : State} (h : frameOpen s = true) : FrameOpen s := by
  unfold frameOpen at h
  split at h
  · rename_i f hf
    split at h
    · rename_i z hz
      exact ⟨f, z, hf, hz⟩
    · cases h
  · cases h

theorem witness_RetireAndYield : let u := (taskLab 0 0).passed;
    Fires .done k0 (.imm 0) (taskLab 0 0) 0 none ∧ u.th.busy u = false ∧ u.th.owing = none ∧ Released u 2 ∧ u.th.rfq = 0 := by
  decide +kernel
theorem witness_RetireAndYield_suspend :
    (let u := (taskLab 0 0).passed;
      Fires .yield k0 (.imm 0) (taskLab 0 0) 0 none ∧ recIsStage u 1 u.th.record = false ∧ (suspendWait u).isNone = true
        ∧ frameOpen (u.taken none).quiet = true ∧ Fires .join k0 (.imm 0) (taskLab 0 0) 0 none ∧ recJoin u 1 u.th.record = 0)
    ∧ (let u := (taskLab stageBit 0).passed; Fires .yield k0 (.imm 0) (taskLab stageBit 0) 0 none ∧ recIsStage u 1 u.th.record = true)
    ∧ (let u := (taskLab 1 0).passed; Fires .join k0 (.imm 0) (taskLab 1 0) 0 none ∧ recJoin u 1 u.th.record ≠ 0
      ∧ recIsStage u 1 u.th.record = false ∧ (suspendWait u).isNone = true ∧ frameOpen (u.taken none).quiet = true)
    ∧ (let u := (taskLab (stageBit + 1) 0).passed; Fires .join k0 (.imm 0) (taskLab (stageBit + 1) 0) 0 none
      ∧ recJoin u 1 u.th.record ≠ 0 ∧ recIsStage u 1 u.th.record = true ∧ Released u 2)
    ∧ (let s := (taskLab 0 0).map (fun t => { t with preq := true });
      Fires .pyield k0 (.imm 0) s 0 none ∧ s.passed.th.preq = true ∧ s.passed.th.mode = .user
        ∧ (suspendWait s.passed).isNone = true ∧ frameOpen (s.passed.taken none).quiet = true) := by decide +kernel

def parkLab (ctl : Nat) (so : Word) : State := (taskLab ctl 0).map (fun t => (t.setG 1 scrVa).set .so so)
theorem witness_ParkSuspends :
    (∀ c ∈ [0, stageBit], ∀ so ∈ [0, 1], let s := parkLab c (BitVec.ofNat 64 so);
      let u := s.passed;
      Fires .park k0 g1 s scrVa none ∧ isOk (translate u u.self scrVa .load) scr = true ∧ u.lineBusy scr.cell 8 none = false
        ∧ (BitVec.ofNat 64 (leNat (u.readAs scr.aes scr.cell 8)) = u.th.get .so ↔ so = 0)
        ∧ (recIsStage u 1 u.th.record = true ↔ c = stageBit) ∧ Released u 2 ∧ (suspendWait u).isNone = true
        ∧ u.th.awaitsPhase = false ∧ frameOpen ((u.taken none).quiet.map (fun t => t.set .sr 1)) = true)
    ∧ (let s : State := { lab with ev := { n := 1, w := 0x7F0000000400 }, parks := [⟨1, 0x7F0000000400, 0, scr.cell, 16, true⟩] };
      s.parks.map Park.ctx = [s.ev.n] ∧ s.parks.map Park.record = [s.ev.w] ∧ s.th.life ≠ .idle ∧ s.th.ctx = 1
        ∧ s.th.record = s.ev.w) := by decide +kernel

/-- A stage thread in group 9, of the members and arrivals given. -/
def groupLab (members arrivals : Nat) (t : Nat) : State :=
  { (taskLab stageBit (9 * 2 ^ 16)).map (fun x => x.setG 1 (BitVec.ofNat 64 t)) with
    groups := [(9, { ctx := 1, members, arrivals })] }
theorem witness_SleepAndBarriers :
    (∀ n ∈ [0, 2 ^ 32 - 1, 2 ^ 32], Fires .sleep k0 g1 (labG (BitVec.ofNat 64 n)) (BitVec.ofNat 64 n) none)
    ∧ (∀ p ∈ [(2, 0, 9), (2, 1, 9), (2, 0, 0x109), (2, 0, 0x309)], let s := groupLab p.1 p.2.1 p.2.2;
      Fires .gbar k0 g1 s (BitVec.ofNat 64 p.2.2) none ∧ Released s.passed 2
        ∧ groupOf (BitVec.ofNat 64 p.2.2) true s.passed = some { ctx := 1, members := p.1, arrivals := p.2.1 })
    ∧ (∀ n ∈ [0, 1], let s := groupLab 2 n 9;
      Fires .garrive k0 g1 s 9 none ∧ groupOf 9 false s.passed = some { ctx := 1, members := 2, arrivals := n }
        ∧ s.passed.th.awaitsPhase = false ∧ s.passed.flushWcb.th.rels = []
        ∧ s.passed.flushWcb.earlierDone s.th.key s.cyc 2 = true)
    ∧ (let s := (groupLab 2 0 9).map (fun t => { t with mem := [accessAt false false 0] });
      Fires .garrive k0 g1 { s with cyc := 1 } 9 none ∧ groupOf 9 false s.passed = some { ctx := 1, members := 2 }
        ∧ s.passed.th.awaitsPhase = false ∧ ({ s with cyc := 1 } : State).passed.flushWcb.earlierDone s.th.key 1 2 = false) := by
  decide +kernel

/-- A record at 0x7F0000000800 waiting in the run queue of die 0, at priority 3, and slot 1 of core 0 idle. -/
def poolRec : Queued := { die := 0, prio := 3, ctx := 1, record := 0x7F0000000800, since := 0, waited := 65536 }
def popLab (busy : Bool) : State :=
  { taskLab 0 0 with
    ev := { key := ⟨0, 0, 0⟩, m := 3 }
    th := if busy then { th0 with key := ⟨0, 1, 0⟩ } else { key := ⟨0, 0, 0⟩ }
    runq := [poolRec]
    mem := Mem.write [] (scrCell 0 0x800) (dwords [0x1000, 0x7F0000010000, BitVec.ofNat 64 (2 ^ 48), 0, 0, 0, 0, 0]) }
theorem witness_DispatchEvents :
    (∀ b ∈ [true, false], let s := popLab b;
      s.ctxs.find? (fun c => c.tiles.any (fun p => p.2 = s.ev.key.tile)) = some ctx1 ∧ slotIdle s s.ev.key = true
        ∧ dieOf s.ev.key.tile = s.ev.n ∧ ctxLive s 1 = true ∧ headFor s ctx1 s.ev.n = some poolRec)
    ∧ (let s := popLab false;
      s.th.life = .idle ∧ s.others = [] ∧ (poolRec.ctx, poolRec.record) ∉ s.suspended
        ∧ recordOk { s with runq := s.runq.erase poolRec } 1 poolRec.record 0 = true)
    ∧ (let s := popLab true; s.runq.find? (fun q => q.die = s.ev.n ∧ q.prio = s.ev.m ∧ riseDue s q) = some poolRec)
    ∧ advertises lab 0 = true
    ∧ (let s := { popLab true with adverts := [(1, 0, 4)], migrations := [(0, [poolRec])] };
      s.adverts.find? (fun a => a.2.1 = s.ev.n) = some (1, 0, 4) ∧ s.migrations.find? (fun m => m.1 = s.ev.n) = some (0, [poolRec])) := by
  decide +kernel

/-- The operands of a 2 by 64 byte copy from 0x20000 to the local alias, on copy core 6. -/
def copyLab (ctl : Nat) : State :=
  { paged with
    th := (((((th0.set .yo 0x20000).set .yo2 (if ctl < 64 then scrVa else 0)).set .yo3 (BitVec.ofNat 64 (2 ^ 33 + 64))).set .yo4
      (BitVec.ofNat 64 (2 ^ 38 + 64))).setG 1 (BitVec.ofNat 64 ctl))
    mem := Mem.write paged.mem (2 ^ 32 + 0x1040) (dwords [0x20400, BitVec.ofNat 64 (2 ^ 32 * 8 + 128), 0, 0, 0, 0, 0, 0]) }.map
      (fun t => { t with key := ⟨0, 6, 0⟩ })
def copyArgs (ctl : Nat) : CopyArgs := ⟨0x20000, if ctl < 64 then scrVa else 0, BitVec.ofNat 64 (2 ^ 33 + 64),
  BitVec.ofNat 64 (2 ^ 38 + 64), BitVec.ofNat 64 ctl⟩

/-- Without a ring, and with the ring at 0x20040, whose slots the rows just fit. -/
theorem witness_CopiesStart :
    (∀ r ∈ [(Trig.ycopy, 0x1C4, 0), (.ycopyAdd, 0x1C5, 1)], ∀ ctl ∈ [0, 0x20040], let s := copyLab ctl;
      let u := s.passed;
      Fires r.1 k0 g1 s (BitVec.ofNat 64 ctl) none ∧ copyOk r.2.2 (copyArgs ctl) = true ∧ (copyArgs ctl).src.toNat % 4 = 0
        ∧ (copyArgs ctl).dst.toNat % 4 = 0 ∧ u.th.acquiring u.cyc = false
        ∧ isOk (ringLoc u (BitVec.ofNat 64 0x20040)) (hbmLoc 0x40) = true ∧ u.lineBusy (hbmLoc 0x40).cell 64 none = false
        ∧ 0 + (2 - 1) * 64 + 64 ≤ (ringAt u (hbmLoc 0x40)).ssize)
    ∧ Fires .ymcast k0 (.imm 0) labY 0 none ∧ copyOk 2 ⟨0, 0, 0, 0, 0⟩ = true ∧ labY.passed.th.acquiring labY.cyc = false := by decide +kernel

/-- The block of a ydesc at 0x20200. -/
def descLab (kind : Nat) : State :=
  { (copyLab 0x20200) with
    mem := Mem.write paged.mem (2 ^ 32 + 0x1200)
      (dwords [BitVec.ofNat 64 kind, 0x20000, 0, BitVec.ofNat 64 (2 ^ 33 + 64), BitVec.ofNat 64 (2 ^ 38 + 64), 0, 0, 0]) }
theorem witness_CopiesStart_block : ∀ k ∈ [0, 1, 2], let t := (descLab k).passed;
    (t.acquire 2).th.acquiring t.cyc = false ∧
    Fires .ydesc k0 g1 (descLab k) 0x20200 none ∧ t.th.acquiring t.cyc = false
      ∧ isOk (translate t t.self 0x20200 .load) (hbmLoc 0x200) = true ∧ t.denied (hbmLoc 0x200).cell 0 64 = 0
      ∧ t.lineBusy (hbmLoc 0x200).cell 64 none = false
      ∧ (let b := t.readAs 0 (hbmLoc 0x200).cell 64;
        (dwordAt b 0).toNat = k ∧ dwordAt b 48 = 0 ∧ dwordAt b 56 = 0 ∧ dwordAt b 40 = 0 ∧ (descLab k).th.key.core = 6
          ∧ copyOk k ⟨dwordAt b 8, dwordAt b 16, dwordAt b 24, dwordAt b 32, dwordAt b 40⟩ = true
          ∧ (dwordAt b 8).toNat % 4 = 0 ∧ (dwordAt b 16).toNat % 4 = 0) := by decide +kernel

/-- The ring at 0x20040, with wp and rp, an error bit, and a drain target. -/
def ringState (wp rp ctl drain : Nat) : State :=
  { copyLab 0x20040 with
    mem := Mem.write paged.mem (2 ^ 32 + 0x1040) (dwords [0x20400, BitVec.ofNat 64 (2 ^ 32 * 8 + 128),
      BitVec.ofNat 64 (rp * 2 ^ 32 + wp), BitVec.ofNat 64 (ctl * 2 ^ 32 + wp), 0, BitVec.ofNat 64 drain, 0, 0]) }
def ringReach (s : State) : Bool :=
  decide (s.th.acquiring s.cyc = false ∧ isOk (ringLoc s 0x20040) (hbmLoc 0x40) = true
    ∧ s.lineBusy (hbmLoc 0x40).cell 64 none = false)

theorem witness_RingTriggers_yring :
    (let s := (ringState 0 0 0 64).map (fun t => (((t.set .yo 0x20400).set .yo2 (BitVec.ofNat 64 (2 ^ 32 * 8 + 128))).set .yo3 0).set .yo4 0);
      Fires .yring k0 g1 s 0x20040 none ∧ ringReach s.passed = true ∧ ringInitOk s.passed.th = true
        ∧ (ringAt s.passed (hbmLoc 0x40)).cp = (ringAt s.passed (hbmLoc 0x40)).wp
        ∧ s.passed.flushWcb.earlierDone s.th.key s.cyc 2 = true)
    ∧ (let s := { (ringState 0 0 0 64).map (fun t => { t with mem := [accessAt false false 0] }) with cyc := 1 };
      Fires .yring k0 g1 s 0x20040 none ∧ ringReach s.passed = true
        ∧ (let b := some (ringBytes s.passed.ringInit);
          ringOpReady (s.passed.flushWcb.ringOpSent 3 (hbmLoc 0x40) b) (s.passed.flushWcb.ringOpOf (hbmLoc 0x40) b) = false))
    ∧ (let s := (ringState 0 0 0 64).map (fun t => t.setG 1 0x20041);
      Fires .yring k0 g1 s 0x20041 none ∧ ringReach s.passed = true ∧ (ringAt s.passed (hbmLoc 0x40)).drain ≠ 0
        ∧ (ringAt s.passed (hbmLoc 0x40)).wp = (ringAt s.passed (hbmLoc 0x40)).rp) := by decide +kernel
theorem witness_RingTriggers_yawait :
    (∀ p ∈ [(1, 0, 0), (0, 0, 2 ^ 31), (0, 0, 0)], let s := ringState p.1 p.2.1 p.2.2 0;
      let r := ringAt s.passed (hbmLoc 0x40);
      Fires .yawait k0 g1 s 0x20040 none ∧ ringReach s.passed = true ∧ (r.wp ≠ r.rp ↔ p.1 = 1) ∧ (ringErr r = true ↔ p.2.2 ≠ 0)) := by
  decide +kernel
theorem witness_RingTriggers_yrel : ∀ n ∈ [0, 1], let s := ringState n 0 0 0;
    let r := ringAt s.passed (hbmLoc 0x40);
    Fires .yrel k0 g1 s 0x20040 none ∧ ringReach s.passed = true ∧ Released s.passed (ringScope r) ∧ (r.rp ≠ r.wp ↔ n = 1) := by
  decide +kernel
/-- Port 3 of the thread is a producer: ypush binds a ring to it. -/
theorem witness_RingTriggers_ypush : ∀ b ∈ [0, 1],
    let s := { (ringState 0 0 0 0).map (fun t => { (t.setG 1 (BitVec.ofNat 64 (0x20040 + b))).set .yo 3 with
        bind := t.bind.set 3 ⟨true, true, 5⟩ }) with
      chans := [{ id := 5, ctx := 1, prod := some ⟨⟨0, 6, 0⟩, 3⟩ }] };
    Fires .ypush k0 g1 s (BitVec.ofNat 64 (0x20040 + b)) none ∧ ringReach s.passed = true ∧ s.passed.queueWrite 3 = .room 5
      ∧ (s.passed.th.get .yo).setWidth 3 = 3#3 ∧ s.pushBinds = [] ∧ s.pushes = []
      ∧ (let s := { s with pushes := [⟨⟨⟨0, 6, 0⟩, 3⟩, 5, 0x20400, (hbmLoc 0x40).cell⟩] };
        Fires .ypush k0 g1 s (BitVec.ofNat 64 (0x20040 + b)) none ∧ ringReach s.passed = true
          ∧ s.passed.queueWrite 3 = .room 5) := by decide +kernel

/-- A copy of one row of 64 bytes under way, with or without the ring at 0x20040. -/
def running (ring off : Nat) : Copy :=
  { key := ⟨0, 0, 0⟩, ctx := 1, pc := 0x1000, trig := 0x1C4, kind := 0, src := 0x20000, dst := scrVa
    shape := BitVec.ofNat 64 (2 ^ 32 + 64), pitch := 0, ctl := BitVec.ofNat 64 ring, off }
def copying (ring off : Nat) : State := { ringState 0 0 0 0 with copies := [running ring off], th := th0 }
def pieceOk (e : Except Nat (Loc × Loc)) (a b : Loc) : Bool :=
  match e with
  | .ok x => x == (a, b)
  | .error _ => false

theorem witness_CopyEvents :
    (let s := copying 0x20040 0; let c := running 0x20040 0;
      s.copy? s.ev.key = some c ∧ c.claims s.cyc = true ∧ isOk (translate s c.agent c.ring .amo) (hbmLoc 0x40) = true
        ∧ (let r := ringAt s (hbmLoc 0x40); (r.cp - r.rp).toNat < r.count ∧ (r.cp - r.wp).toNat < 64))
    ∧ (let s := copying 0 0; let c := running 0 0;
      s.copy? s.ev.key = some c ∧ c.moves s.cyc = true ∧ (c.piece s 0).2.2 = 64
        ∧ pieceOk (checkPiece s c (c.piece s 0).1 (c.piece s 0).2.1 64) (hbmLoc 0) scr = true
        ∧ pieceBusy s c (hbmLoc 0).cell 64 = false ∧ pieceBusy s c scr.cell 64 = false)
    ∧ (let s := copying 0 64; let c := running 0 64;
      s.copy? s.ev.key = some c ∧ c.ends s.cyc = true ∧ c.slot = none ∧ c.cmd = none ∧ c.key = s.th.key)
    ∧ (let c := { running 0x20040 64 with slot := some (0, 0x20400) }; let s := { copying 0x20040 64 with copies := [c] };
      s.copy? s.ev.key = some c ∧ c.ends s.cyc = true ∧ c.cmd = none ∧ c.key = s.th.key
        ∧ s.earlierDone c.key c.since (fld c.ctl 2 0) = true ∧ isOk (translate s c.agent c.ring .amo) (hbmLoc 0x40) = true)
    ∧ (let p : Push := ⟨⟨th0.key, 3⟩, 5, 0x20400, 0⟩; let s := { queueLab [] 4 0 with pushes := [p] };
      s.pushes[s.ev.n]? = some p ∧ pushReady s s.ev.n = true ∧ s.chan? 5 = s.chans.head?) := by decide +kernel

/-- xgo of stream 0 from port 2 to port 3, whose channels are 5 and 6. -/
def xgoWord : Nat := 2 * 2 ^ 16 + 3 * 2 ^ 20
def streamLab (elems : List Elem) (streams : List Stream) : State :=
  { lab with
    th := { (th0.setG 1 (BitVec.ofNat 64 xgoWord)) with bind := (th0.bind.set 2 ⟨true, false, 5⟩).set 3 ⟨true, true, 6⟩ }
    chans := [{ id := 5, ctx := 1, allowance := 4, elems, cons := [(⟨th0.key, 2⟩, 0)] }, { id := 6, ctx := 1, allowance := 4, prod := some ⟨th0.key, 3⟩ }]
    streams }
def stream (fetches : List Fetch) : Stream :=
  { core := ⟨0, 0⟩, strm := 0, owner := th0.key, ctx := 1, cfg := BitVec.ofNat 64 xgoWord, base := scrVa, limit := 4, fetches }

theorem witness_StreamTriggers :
    (let s := streamLab [] []; Fires .xgo k0 g1 s (BitVec.ofNat 64 xgoWord) none
      ∧ portBreaks s.passed 0 2 false = false ∧ portBreaks s.passed 0 3 true = false ∧ s.passed.th.acquiring s.cyc = false)
    ∧ (∀ op ∈ [Trig.xstop, .xwait], ∀ n ∈ [0, 3], Fires op k0 g1 (labG (BitVec.ofNat 64 n)) (BitVec.ofNat 64 n) none
      ∧ (labG 0).passed.stream? ⟨0, 0⟩ n = none)
    ∧ ∀ f ∈ [[], [({} : Fetch)]], let s := (streamLab [] [stream f]).map (fun t => t.setG 1 0);
      Fires .xstop k0 g1 s 0 none ∧ Fires .xwait k0 g1 s 0 none ∧ s.passed.stream? ⟨0, 0⟩ 0 = some (stream f) := by
  decide +kernel

/-- Index 3 is inside the limit of 4, index 4 outside. -/
theorem witness_StreamEvents :
    (∀ n ∈ [3, 4], let s := streamLab [{ word := BitVec.ofNat 64 n }] [stream [{ va := some scrVa }]];
      s.stream? s.ev.key.coreKey s.ev.n = some (stream [{ va := some scrVa }]) ∧ nextStream s s.ev.key.coreKey = some s.ev.n
        ∧ (streamHead s (stream [{ va := some scrVa }])).map Prod.snd = some { word := BitVec.ofNat 64 n }
        ∧ outOfLimit (stream []) (BitVec.ofNat 64 n) = (n == 4))
    ∧ (let f0 : Fetch := { va := some scrVa, due := 5 }; let f : Fetch := { va := some scrVa };
      let s := streamLab [] [stream [f0, f]];
      s.stream? s.ev.key.coreKey s.ev.n = some (stream [f0, f]) ∧ f0.returns s.cyc = false ∧ f.returns s.cyc = true
        ∧ (match fetchBytes s (stream []) scrVa with
          | .ok _ => true
          | .error _ => false) = true)
    ∧ (∀ va ∈ [0, 0x7F4000000040], let f : Fetch := { va := some (BitVec.ofNat 64 va), demand := true };
      let s := streamLab [] [stream [f, {}]];
      s.stream? s.ev.key.coreKey s.ev.n = some (stream [f, {}]) ∧ (s.ctx? 1).bind Ctx.retryRing = none
        ∧ ((match fetchBytes s (stream []) (BitVec.ofNat 64 va) with
          | .ok _ => true
          | .error _ => false) = true ↔ va ≠ 0)
        ∧ f.due ≤ s.cyc ∧ (portChan s (stream []).qout true).isSome = true) := by decide +kernel

theorem witness_PressContextTriggers :
    (∀ n ∈ [0, 3], Fires .pctx k0 g1 (labG (BitVec.ofNat 64 n)) (BitVec.ofNat 64 n) none ∧ (fmtOk (BitVec.ofNat 64 n) = true ↔ n = 0))
    ∧ (let a := 2 ^ 19 - 256; Fires .pscaleA k0 g1 (labG (BitVec.ofNat 64 a)) (BitVec.ofNat 64 a) none ∧ a % 16 = 0
      ∧ lab.passed.th.acquiring lab.cyc = false ∧ lab.passed.lineBusy (scrCell 0 a) 256 none = false)
    ∧ (∀ n ∈ [2 ^ 32 - 1, 2 ^ 32], Fires .pscaleB k0 g1 (labG (BitVec.ofNat 64 n)) (BitVec.ofNat 64 n) none)
    ∧ (let s := labG 0x17; Fires .pld k0 g1 s 0x17 none ∧ fld 0x17 4 3 < 3 ∧ descOk (s.passed.th.get .pa0) (s.passed.th.get .pa1) = true
      ∧ descFits (s.passed.th.get .pa0) 1 (2 ^ (6 - fld 0x17 4 3)) (2 ^ (5 + fld 0x17 4 3)) = true ∧ s.passed.myPress.queue = []
      ∧ (s.passed.press 0).run = [] ∧ s.passed.th.acquiring s.cyc = false
      ∧ (descChunks (s.passed.th.get .pa0) (s.passed.th.get .pa1) 0 (2 ^ (6 - fld 0x17 4 3)) (2 ^ (5 + fld 0x17 4 3))).all
        (fun e => s.passed.lineBusy (scrCell 0 e) 16 none == false) = true) := by decide +kernel

def clrEntry : PressEntry := { op := .clr 1, key := th0.key, ctx := 1 }
theorem witness_PressQueueTriggers :
    (Fires .pmma k0 (.imm 0) lab 0 none ∧ mmaOk false 0 lab.passed = true ∧ lab.passed.th.acquiring lab.cyc = false)
    ∧ (let s := lab.setMyPress { fmt := 0x10 }; Fires .pmmas k0 (.imm 0) s 0 none ∧ mmaOk true 0 s.passed = true
      ∧ s.passed.th.acquiring s.cyc = false)
    ∧ (∀ n ∈ [0, 8, 12], let s := labP .pa1 (BitVec.ofNat 64 (n * 2 ^ 32));
      Fires .pdrain k0 (.imm 0) s 0 none ∧ fld (s.passed.th.get .pa0) 3 0 = 0 ∧ fld (s.passed.th.get .pa1) 63 36 = 0
        ∧ fld (s.passed.th.get .pa1) 3 0 = 0 ∧ fld (s.passed.th.get .pa1) 35 32 = n ∧ s.passed.th.acquiring s.passed.cyc = false)
    ∧ (∀ n ∈ [0, 1], Fires .pclr k0 g1 (labG (BitVec.ofNat 64 n)) (BitVec.ofNat 64 n) none
      ∧ Fires .pflags k0 g1 (labG (BitVec.ofNat 64 n)) (BitVec.ofNat 64 n) none)
    ∧ (lab.setMyPress { queue := [clrEntry] }).passed.myPress.queue.getLast? = some clrEntry
    ∧ lab.passed.myPress.queue.getLast? = none := by decide +kernel

theorem witness_PressJoins :
    (Fires .pjoin k0 (.imm 0) lab 0 none ∧ lab.passed.myPress.queue = [] ∧ (lab.passed.press 0).run = [])
    ∧ (∀ r ∈ [0, 0x41], let s := (labG 0x43).mapPress 0 1 (fun c => { c with reg := BitVec.ofNat 8 r });
      Fires .pjoin k0 g1 s 0x43 none ∧ fld 0x43 6 6 = 1 ∧ (0x43 : Word).getLsbD 0 = true ∧ (0x43 : Word).getLsbD (fld 0x43 5 4) = true
        ∧ (((s.passed.press 0).at_ 1).reg = 0 ↔ r = 0) ∧ ((s.passed.press 0).at_ 2).reg = 0 ∧ ((s.passed.press 0).at_ 3).reg = 0
        ∧ formed (s.passed.setMyPress { s.passed.myPress with reg := 0x43, regCtx := 1 }) 0x43 1 0 = false)
    ∧ (let s := labG 0x41; Fires .pjoin k0 g1 s 0x41 none ∧ fld 0x41 6 6 = 1
      ∧ formed (s.passed.setMyPress { s.passed.myPress with reg := 0x41, regCtx := 1 }) 0x41 1 0 = true)
    ∧ (let s := lab.map (fun t => { t with hold := .pjoin 3 0 }); s.focus s.ev.key = some s) := by decide +kernel

/-- A press of tile 0 whose context 0 has one operation in its queue, at cycle 1400. -/
def mmaOp : PressOp := .mma false 0x100 0 [] 0 0 0 0 0 0
def pressLab (op : PressOp) (run : List PressRun) : State :=
  { (lab.setPress 0 { ({} : Press) with
      ctx := (Vector.replicate 4 {}).set 0 { queue := [{ op, key := th0.key, ctx := 1 }] }, run, prev := 1400 }).map
        (fun t => { t with hold := .press }) with cyc := 1400 }
def entryOf (op : PressOp) : PressEntry := { op, key := th0.key, ctx := 1 }

theorem witness_PressEvents :
    (let s := (pressLab mmaOp []).setPress 0 { (pressLab mmaOp []).press 0 with win := 1 };
      grantable s s.ev.n = some [(0, 0)] ∧ headMma ((s.press 0).at_ 0) = some (entryOf mmaOp))
    ∧ (let s := pressLab mmaOp []; (s.press s.ev.n).win < s.cyc / 1400)
    ∧ (let r : PressRun := ⟨0, entryOf mmaOp, 0, 0⟩; let s := pressLab mmaOp [r];
      pressDone (s.press s.ev.n) s.cyc = some r ∧ r.entry.key = s.th.key ∧ s.th.hold = .press)
    ∧ headPlain ((pressLab (.clr 3) []).press 0) 0 = some (entryOf (.clr 3))
    ∧ headPlain ((pressLab .flags []).press 0) 0 = some (entryOf .flags)
    ∧ headPlain ((pressLab (.drain 0 0x20000 0 0) []).press 0) 0 = some (entryOf (.drain 0 0x20000 0 0))
    ∧ (let s := pressLab (.drain 0 0x20000 0 0) []
      s.focus th0.key = some s ∧ drainBehind s (drainTargets 0 0x20000 0) = false) := by decide +kernel
theorem witness_PressSumsExactly : ([⟨false, false, false, 2⟩] ++ [⟨false, false, true, -3⟩] : List Elt).all (fun x => !x.nan && !x.inf) = true := by
  decide +kernel

theorem witness_ArrayTriggers :
    (∀ n ∈ [0, 0xFF, 0x100, 0x101], let s := labS.map (fun t => t.setG 1 (BitVec.ofNat 64 n));
      MayUseArray s.passed ∧ Fires .dpatch k0 g1 s (BitVec.ofNat 64 n) none ∧ (s.passed.array ⟨0, 0⟩).still = true
        ∧ entryOk n (s.passed.th.get .dO) (s.passed.th.get .dO2) = true)
    ∧ (∀ op ∈ [Trig.dsety, .dsetr, .dgety, .dgetr, .dhalt], Fires op k0 (.imm 255) labS 255 none)
    ∧ (let s := labS.map (fun t => t.setG 1 0x30001); Fires .dclk k0 g1 s 0x30001 none ∧ fld 0x30001 15 0 ≠ 0
      ∧ ((s.passed.array ⟨0, 0⟩).dom 3).run = false)
    ∧ (Fires .drun k0 (.imm 0) labS 0 none ∧ loadOk (labS.passed.array ⟨0, 0⟩) 0 = true
      ∧ bridgeUnbound labS.passed (labS.passed.array ⟨0, 0⟩) = none ∧ (labS.passed.array ⟨0, 0⟩).cells = [])
    ∧ (∀ n ∈ [0, 7, 8, 24], Fires .dstat k0 g1 (labS.map (fun t => t.setG 1 (BitVec.ofNat 64 n))) (BitVec.ofNat 64 n) none) := by
  decide +kernel

theorem zeros_num (n : Nat) : leNat (List.replicate n 0) = 0 := by
  induction n with
  | zero => rfl
  | succ n ih => simp only [List.replicate_succ, leNat, ih]; rfl

theorem zeros_dword (n k : Nat) : dwordAt (List.replicate n 0) k = 0 := by
  rw [dwordAt, List.drop_replicate, List.take_replicate, zeros_num]
  rfl

theorem zero_image : imageOk (List.replicate 0x2080 0) = true := by
  simp only [imageOk, zeros_dword]
  decide +kernel

def spanOk (e : Except (Nat × Word) (List (Loc × Nat))) (n : Nat) : Bool :=
  match e with
  | .ok ls => ls.length == n
  | .error _ => false
/-- A stage thread whose g1 is an address in its tile; the image there is all zeros. -/
def imageLab : State := labS.map (fun t => t.setG 1 0x7F4000010000)
theorem witness_IntegratorImages :
    MayUseArray imageLab.passed ∧ (imageLab.passed.array ⟨0, 0⟩).still = true ∧ imageLab.passed.th.acquiring imageLab.cyc = false
      ∧ (∀ n ∈ [Need.store, .load], (match spanLocs imageLab.passed n 131 0x7F4000010000 0x2080 with
        | .ok ls => !spanBusy imageLab.passed ls && !storesHeld imageLab.passed ls
        | .error _ => false) = true)
      ∧ Fires .dsave k0 g1 imageLab 0x7F4000010000 none ∧ Fires .drest k0 g1 imageLab 0x7F4000010000 none
      ∧ spanOk (spanLocs imageLab.passed .store 131 0x7F4000010000 0x2080) 130 = true
      ∧ spanOk (spanLocs imageLab.passed .load 131 0x7F4000010000 0x2080) 130 = true
      ∧ readLocs imageLab [(scr, 64)] = List.replicate 64 0
      ∧ ¬MayUseArray lab.passed ∧ Fires .dsave k0 g1 (labG 64) 64 none := by decide +kernel

/-- Cell 5 in domain 0 with a full integrand, its own z the source: it ticks, and from residue 2^31 - 1 its increment overruns. -/
def tickLab (full : Nat) : State :=
  { lab with arrays := [(⟨0, 0⟩, { cells := [(5, { y := 1, q := 0x7FFFFFFF, d0 := BitVec.ofNat 64 (2 ^ 13 + 0x1FE), d1 := 0x01FF01FF01FF
                                                   full := BitVec.ofNat 8 full })]
                                   doms := (Vector.replicate 8 {}).set 0 { run := true, period := 4 } })] }
def tickSteps (s : State) : List Stepped :=
  let a := s.array ⟨0, 0⟩
  (a.cells.filter (fun p => p.2.en && ((a.dom p.2.dom).run && decide ((a.dom p.2.dom).tick ≤ s.cyc)))).map (fun p => stepCell a 0 p.1 p.2)
theorem witness_IntegratorTicks :
    (∀ n ∈ [0, 2], let s := tickLab n; let a := s.array ⟨0, 0⟩;
      tickDue s a = true ∧ bridgeOn a.src = false ∧ bridgeOn a.sink = false
        ∧ (tickFault s a (tickSteps s) (fun d => (a.dom d).run && decide ((a.dom d).tick ≤ s.cyc))
          = if n = 0 then none else some (2, 5, 1)))
    ∧ (let s := { lab with arrays := [(⟨0, 0⟩, { owner := some th0.key, due := some 1 })] };
      s.focus s.ev.key = some s ∧ faultDue s s.th = some 1) := by decide +kernel

theorem witness_HeapTriggers :
    (∀ n ∈ [1, 256], Fires .hinit k0 g1 (labG (BitVec.ofNat 64 n)) (BitVec.ofNat 64 n) none ∧ fld (BitVec.ofNat 64 n) 8 0 = n
      ∧ (lab.passed.th.get .ho).toNat % 64 = 0 ∧ (lab.passed.th.get .ho2).toNat % 64 = 0)
    ∧ (Fires .hoffer k0 (.imm 0) lab 0 none ∧ fld (lab.passed.th.get .ho2) 63 17 = 0 ∧ lab.passed.myCtx = some ctx1
      ∧ ctx1.tile? 0 = some 0 ∧ lab.passed.th.unacked < 255
      ∧ lab.passed.th.acquiring lab.cyc = false)
    ∧ (let t : Word := BitVec.ofNat 64 (2 ^ 63 + 5 * 2 ^ 48); Fires .hoffer k0 g1 (pagedG t) t none ∧ t.getLsbD 63 = true
      ∧ fld t 62 58 = 0 ∧ fld t 47 11 = 0 ∧ ((pagedG t).passed.importFor 1 (fld t 57 48)).isSome = true)
    ∧ (let s := (labG scrVa).setHeap 0 { cap := 2, ctx := 1, pairs := [(0x3F800000, false)] };
      Fires .hdrain k0 g1 s scrVa none ∧ (s.passed.heap 0).cap ≠ 0 ∧ spanOk (spanLocs s.passed .store 34 scrVa 24) 1 = true
        ∧ (match spanLocs s.passed .store 34 scrVa 24 with
          | .ok ls => !spanBusy s.passed ls && !storesHeld s.passed ls
          | .error _ => false) = true
        ∧ s.passed.th.acquiring s.passed.cyc = false)
    ∧ (∀ n ∈ [0, 2 ^ 12 - 1], Fires .hroute k0 g1 (labG (BitVec.ofNat 64 n)) (BitVec.ofNat 64 n) none) := by decide +kernel

/-- An offer on its way to the heap of tile 0, of capacity 1. -/
def offer0 : Offer := { key := th0.key, pair := 0x3F800000, fin := false, layer := 7, tile := 0, ctx := 1, target := 0, due := 0 }
theorem witness_HeapEvents :
    (∀ k ∈ [7, 8], let s := { lab.setHeap 0 { cap := 1, ctx := 1, key := BitVec.ofNat 16 k } with offers := [offer0] };
      s.offers[s.ev.n]? = some offer0 ∧ s.ctx? 1 = some ctx1 ∧ ctx1.tile? 0 = some 0 ∧ s.closing 1 = false
        ∧ (s.heap 0).pairs.length < (s.heap 0).cap ∧ (s.heap 0).ctx = 1 ∧ ((s.heap 0).key = offer0.layer ↔ k = 7)
        ∧ nanScore offer0.pair = false)
    ∧ (let s := { lab with offers := [{ offer0 with decided := some 0 }] };
      s.offers.findIdx? (fun o => o.key == s.ev.key && o.decided == some 0
          && o.ring.all (fun x => ringPassed s x.1 x.2.1 x.2.2)) = some 0 ∧ s.ev.key = s.th.key
        ∧ s.pubWin < s.cyc / 1400 + 1) := by decide +kernel

theorem witness_TrapAndIdle :
    (∀ n ∈ [2 ^ 32 - 1, 2 ^ 32], Fires .trap k0 g1 (labG (BitVec.ofNat 64 n)) (BitVec.ofNat 64 n) none
      ∧ Fires .idle k0 g1 ((labG (BitVec.ofNat 64 n)).map (fun t => { t with mode := .monitor })) (BitVec.ofNat 64 n) none)
    ∧ Fires .trap k0 (.imm 1) labM 1 none ∧ srcFate lab.th.key lab.th.mode (.imm 0) = .ok ∧ lab.th.mode = .user
    ∧ (let s := (labP .xflags 1).map (fun t => t.set .xten 1);
      Fires .tfence k0 (.imm 0) s 0 none ∧ s.passed.th.flight = [] ∧ s.passed.th.rfq = 0 ∧ s.passed.th.trapFlags ≠ 0)
    ∧ (Fires .tfence k0 (.imm 0) lab 0 none ∧ lab.passed.th.trapFlags = 0)
    ∧ (Fires .tret k0 (.imm 0) labM 0 none ∧ handlerDone labM.passed = true ∧ labM.passed.th.owing = none) := by decide +kernel
theorem witness_IdleWakes : let s := labM.map (fun t => { t with hold := .idle (some 0) });
    s.focus s.ev.key = some s ∧ (0 : Nat) ≤ s.cyc ∧ s.th.readyAt ≤ s.cyc := by decide +kernel

/-- A thread whose record names its frame in the tile, and its frame extension's first lines as zeros. -/
def frameLab : State := taskLab 0 0
/-- The trap of a copy whose window is open when another trap is taken stays owed (R39). -/
theorem test_trap_owed : sees (exec (.trap k0 (.imm 5)) (frameLab.map (fun t =>
      t.setWin .y { isOpen := true, left := 2, trap := some { cause := 10, detail := 4, nx := true, mtpc := 0xF0 } })))
    (fun z => (z.th.mcause, z.th.owed.map TrapInfo.mtpc, (z.th.win .y).isOpen)) = some (0x500010001, [0xF0], false) := by
  decide +kernel
def bytesOk (e : Except Nat (List Byte)) (b : List Byte) : Bool :=
  match e with
  | .ok x => x == b
  | .error _ => false
theorem witness_TrapEntry : let s := frameLab;
    let u := s.map (fun t => { (t.settle s.cyc).closeDone s.cyc with trapWait := none, hold := .none, unperformed := none, again := false });
    s.th.mode = .user ∧ s.th.drained s.cyc = true ∧ s.th.mvec = 0 ∧ (s.myCtx.map Ctx.vector) = some 0x100
      ∧ (match u.frameOf with
        | .ok f => (match writeLines u.dev 24 u (f + 0x500) (u.th.entryImage 0x1000) with
          | .ok _ => true
          | .error _ => false)
        | .error _ => false) = true := by decide +kernel
theorem witness_DoubleFault : labM.th.mode = .monitor ∧ frameLab.settled frameLab.th = true
    ∧ (let s := frameLab.map (fun t => { t with mem := [accessAt false false 0] }); s.settled s.th = false)
    ∧ (match writeVA frameLab frameLab.dev (frameLab.th.record + 0x38) [5] with
      | .ok _ => true
      | .error _ => false) = true := by decide +kernel
theorem witness_TrapReturn : let s := frameLab;
    (match s.frameOf with
      | .ok f => bytesOk (readLines s s.dev 17 (f + 0x500) 0x400) (List.replicate 0x400 0)
      | .error _ => false) = true
    ∧ imageReservedOk (List.replicate 0x400 0) = true ∧ imagePendOk (List.replicate 0x400 0) = true ∧ s.th.mtpc.toNat % 4 = 0
    ∧ (dwordAt (List.replicate 0x400 0) 0x390).getLsbD 63 = false := by decide +kernel

theorem witness_FalseGuardSkips : lab.seen.th.holds ⟨true, 0⟩ = false
    ∧ (srcFate lab.th.key lab.th.mode (.imm 0)).and (trigFate lab.th.key lab.th.mode .add) = .ok
    ∧ vsourceFate lab.th.key lab.th.mode (.vec .vr) = .ok
    ∧ (srcFate lab.th.key lab.th.mode (.imm 0)).and (dstFate lab.th.key lab.th.mode (.g 0)) = .ok := by decide +kernel
theorem witness_ForbiddenPortsTrap :
    (srcFate lab.th.key lab.th.mode (.imm 0)).and (trigFate lab.th.key lab.th.mode .ycopy) = .illegal
    ∧ (srcFate lab.th.key lab.th.mode (.imm 0)).and (trigFate lab.th.key lab.th.mode .tret) = .privilege
    ∧ vsourceFate labY.th.key labY.th.mode (.vec .vr) = .illegal := by decide +kernel

/-- Misaligned, not mapped, and refused by another device. -/
theorem witness_AccessFaults :
    (∀ r ∈ loadRows, Fires r.1 k0 g1 (pagedG 0x20041) 0x20041 none ∧ Fires r.1 k0 g1 (pagedG 0x40000) 0x40000 none
      ∧ (0x40000 : Nat) % r.2.1 = 0
      ∧ (pagedG 0x40000).passed.th.acquiring (pagedG 0x40000).cyc = false)
    ∧ attrOk (lab.passed.th.get .lo) [0, 1] = true ∧ attrOk ((labP .lo 0x10).passed.th.get .lo) [0, 1] = false
    ∧ (match translate (pagedG 0x40000).passed (pagedG 0x40000).passed.self 0x40000 .load with
      | .error k => k == 1
      | .ok _ => false) = true
    ∧ (let s := { pagedG 0x32040 with deny := [⟨0, 2 ^ 70, 7, 2⟩] };
      isOk (translate s.passed s.passed.self 0x32040 .load) (peerLoc 0x40) = true ∧ s.passed.denied (peerLoc 0x40).cell 0 8 = 2)
    ∧ (lab.ctx? lab.th.ctx).bind Ctx.retryRing = none := by decide +kernel

/-- The mailbox open, with a request of an op's body for a context. -/
def askLab (s : State) (ctx : Nat) (body : List Nat) : State :=
  { s with mail := { opened := true }
           ev := { req := ⟨0, BitVec.ofNat 16 ctx, 0, Vector.ofFn (fun i => BitVec.ofNat 64 (body.getD i.val 0))⟩ } }
def r1 (s : State) (i : Nat) : Word := s.ev.req.d i

/-- The host has started SET_MONITOR_VECTOR for context 1 in the request area. -/
def startedLab : State :=
  { askLab lab 1 [] with mail := { opened := true, go := true, busy := true
                                   req := Vector.ofFn (fun i => if i = 0 then 0x10013 else 0) } }

theorem witness_MailboxDiscipline :
    TakenUp 0x13 startedLab ∧ startedLab.mail.busy = true
      ∧ ({ startedLab with mail := { startedLab.mail with go := false } } : State).mail.started = false ∧
    (askLab lab 1 []).mail.busy = false ∧ (askLab lab 1 []).ev.req.ctx ≠ 0 ∧ (askLab lab 2 []).ctx? 2 = none ∧ lab.mail.opened = false
      ∧ (askLab lab 2 []).ev.req.rsv = 0 ∧ lab.ev.n = 0
      ∧ ({ lab with ev := { n := 0xFF } } : State).ev.n = 0xFF := by decide +kernel

def queue1 : SwQueue := { num := 7, ctx := 1, recAddr := 0x8000, base := 0x9000 }
def swLab : State := { lab with queues := [queue1] }
theorem witness_RequestSettingsSet :
    (let s := askLab lab 1 [0x200]; Asked 0x13 true (aligned (r1 s 1) 4 && s.ev.req.rest0 1) s)
    ∧ (∀ n ∈ [1024, 2 ^ 24], let s := askLab lab 1 [n]; Asked 0x14 true (within (r1 s 1) 1024 (2 ^ 24) && s.ev.req.rest0 1) s)
    ∧ (let s := askLab lab 1 [2 ^ 16 - 1]; Asked 0x15 true (below (r1 s 1) 16 && s.ev.req.rest0 1) s)
    ∧ (let s := askLab lab 1 [0, 0]; Asked 0x12 true (s.ev.req.rest0 2) s ∧ r1 s 1 = 0 ∧ r1 s 2 = 0)
    ∧ (let s := askLab lab 1 [1, 64]; Asked 0x12 true (s.ev.req.rest0 2) s ∧ r1 s 1 = 1 ∧ aligned (r1 s 2) 64 = true) := by decide +kernel
theorem witness_queue_settings :
    (∀ n ∈ [0, 1], let s := askLab swLab 1 [7, n]; Asked 0x0E true (below (r1 s 1) 16 && bit (r1 s 2) && s.ev.req.rest0 2) s
      ∧ Asked 0x1F true (below (r1 s 1) 16 && bit (r1 s 2) && s.ev.req.rest0 2) s ∧ s.queue? (r1 s 1).toNat = some queue1)
    ∧ (∀ n ∈ [6, 16], let s := askLab lab 0 [4096, n];
      Asked 0x1A false (aligned (r1 s 1) 4096 && within (r1 s 2) 6 16 && s.ev.req.rest0 2) s ∧ s.events.held = []) := by decide +kernel
theorem witness_ranges :
    (∀ n ∈ [0, 1], let s := askLab { lab with safeTier := [(4096, 4096)], visible := [(4096, 4096)] } 0 [4096, 4096, n];
      Asked 0x16 false (aligned (r1 s 1) 4096 && bit (r1 s 3) && s.ev.req.rest0 3) s ∧ (4096, 4096) ∈ s.safeTier
        ∧ Asked 0x18 false (aligned (r1 s 1) 4096 && decide ((r1 s 1).toNat + (r1 s 2).toNat ≤ hbmEnd) && bit (r1 s 3)
          && s.ev.req.rest0 3) s ∧ (4096, 4096) ∈ s.visible)
    ∧ (∀ n ∈ [0, 1], let s := askLab { lab with buddies := [(1, 4096, 4096)] } 0 [1, 4096, 4096, n];
      Asked 0x17 false (below (r1 s 1) 13 && aligned (r1 s 2) 4096 && decide ((r1 s 2).toNat + (r1 s 3).toNat ≤ hbmEnd)
        && bit (r1 s 4) && s.ev.req.rest0 4) s ∧ (1, 4096, 4096) ∈ s.buddies) := by decide +kernel

theorem witness_RequestAllotments :
    (∀ n ∈ [1, 255], let s := askLab lab 1 [n]; Asked 0x0F true (within (r1 s 1) 1 255 && s.ev.req.rest0 1) s
      ∧ n ≤ ((List.range 256).filter (fun g => g ≠ 0 ∧ (assoc s.groupOwner g).isNone)).length)
    ∧ (∀ n ∈ [1, 4096], let s := askLab lab 1 [n]; Asked 0x10 true (within (r1 s 1) 1 4096 && s.ev.req.rest0 1) s ∧ s.expertOwner = []
      ∧ 0 + n ≤ 4096)
    ∧ (let s := askLab lab 1 [64]; Asked 0x11 true (aligned (r1 s 1) 64 && s.ev.req.rest0 1) s ∧ s.ctx? 1 = some ctx1
      ∧ ctx1.imageKey = [] ∧ hostBytes s 64 97 = some (List.replicate 97 0))
    ∧ (let s := askLab lab 1 [1, 2, 1, 64]; Asked 0x19 true (within (r1 s 1) 1 65535 && within (r1 s 2) 1 6144
        && decide ((r1 s 3).toNat < (r1 s 2).toNat) && aligned (r1 s 4) 64 && s.ev.req.rest0 4) s
        ∧ hostBytes s 64 4 = some (List.replicate 4 0) ∧ ∀ i < 2, numAt (List.replicate 4 0) (2 * i) 2 < 2 ^ 13)
    ∧ (∀ n ∈ [0, 1], let x : Report := { id := 5, ctx := 1, key := th0.key, tale := .fault 1 0 0x120 0 none, posted := true }
      let s := askLab { lab with policyQ := [x] } 1 [5, n]; Asked 0x1B true (below (r1 s 1) 32 && bit (r1 s 2) && s.ev.req.rest0 2) s
        ∧ s.policyQ.find? (fun x => x.id = (r1 s 1).toNat ∧ x.posted ∧ x.answer.isNone) = some x) := by decide +kernel

/-- The creation block of a context: pools of 1,024 slots, one host task, vector 0x100. -/
def block : List Byte := leBytes 4 1024 ++ leBytes 4 0 ++ leBytes 4 1 ++ leBytes 12 0 ++ leBytes 8 0x100 ++ List.replicate 96 0
def madeLab : State := askLab { State.reset with booted := true, mem := Mem.write [] (hostCell 64) block } 0 [64]
theorem witness_createContext :
    Asked 0x01 false (aligned (r1 madeLab 1) 64 && madeLab.ev.req.rest0 1) madeLab ∧ hostBytes madeLab 64 128 = some block
      ∧ blockOk block = true
      ∧ (mapPools (allocTable (madeLab.asked 1)).1 (numAt block 0 4) (allocTable (madeLab.asked 1)).2).isSome = true := by
  decide +kernel

theorem witness_RequestContexts :
    (∀ n ∈ [1, 1535], let s := askLab lab 1 [n, 255]; Asked 0x03 true (within (r1 s 1) 1 1536 && below (r1 s 2) 8 && s.ev.req.rest0 2) s
      ∧ s.ctx? 1 = some ctx1 ∧ n ≤ (freeTiles s 255).length ∧ ctx1.tiles.length + n ≤ 1536
      ∧ (n = 1 → (saveAreas (List.range' ctx1.tiles.length n) s.hbmTop ctx1.areas).isSome = true))
    ∧ (let s := askLab { lab with th := {} } 1 [1]; Asked 0x04 true (within (r1 s 1) 1 1536 && s.ev.req.rest0 1) s ∧ s.ctx? 1 = some ctx1
      ∧ tileInUse s 1 0 = false ∧ accessesDone s 1 = true) := by decide +kernel
theorem witness_destroyContext :
    (let s := askLab { lab with th := {} } 1 []; Asked 0x02 true (s.ev.req.rest0 0) s ∧ s.queues = [] ∧ hasContinuation s 1 = false
      ∧ accessesDone s 1 = true ∧ ctx1.preq = false ∧ ctx1.quiet = false ∧ Asked 0x1C true (s.ev.req.rest0 0) s
      ∧ Asked 0x1D true (s.ev.req.rest0 0) s)
    ∧ (let c := { ctx1 with preq := true, quiet := true }; let s := askLab { lab with th := {}, ctxs := [c] } 1 [];
      Asked 0x1D true (s.ev.req.rest0 0) s ∧ s.ctx? 1 = some c ∧ c.quiet = true ∧ c.saved = [] ∧ s.ev.bytes = []
        ∧ ∀ p ∈ c.tiles, p.2 ∉ s.badTiles) := by
  decide +kernel

/-- A context whose tables stand below its root, for the page at 0x20000. -/
def tableLab (leaf : Nat) : State :=
  { lab with
    ctxs := [{ ctx1 with root := 4096 }]
    mem := Mem.write (Mem.write (Mem.write (Mem.write [] (binderyCell 4096) (leBytes 8 0x2001)) (binderyCell 0x2000) (leBytes 8 0x3001))
      (binderyCell 0x3000) (leBytes 8 0x4001)) (binderyCell (0x4000 + 8 * 0x20)) (leBytes 8 leaf) }
theorem witness_mapPages :
    (let s := askLab (tableLab 0) 1 [0x20000, 0x47, 2 ^ 32]; Asked 0x05 true (mapOk s.ev.req) s ∧ fld (r1 s 2) 59 54 = 0
      ∧ binderyWord s.mem 4096 = BitVec.ofNat 64 0x2001 ∧ binderyWord s.mem 0x2000 = BitVec.ofNat 64 0x3001
      ∧ binderyWord s.mem 0x3000 = BitVec.ofNat 64 0x4001 ∧ accessesDone s 1 = true ∧ r1 s 3 = BitVec.ofNat 64 (2 ^ 32))
    ∧ (let s := askLab (tableLab 0x47) 1 [0x20000, 0, 2 ^ 32]; Asked 0x06 true (runOk s.ev.req && r1 s 2 == 0 && s.ev.req.rest0 3) s
      ∧ (binderyWord s.mem (0x4000 + 8 * 0x20)).getLsbD 0 = true ∧ (binderyWord s.mem (0x4000 + 8 * 0x20)).getLsbD 6 = true) := by
  decide +kernel
theorem witness_keys :
    (∀ n ∈ [1, 63], let s := askLab lab 1 [n, 64]; Asked 0x07 true (within (r1 s 1) 1 63 && aligned (r1 s 2) 64 && s.ev.req.rest0 2) s
      ∧ assoc s.keyOwner n = none ∧ hostBytes s 64 64 = some (List.replicate 64 0))
    ∧ (let s := askLab { lab with keyOwner := [(63, 1)], keyIds := [(63, 1)] } 1 [63];
      Asked 0x08 true (within (r1 s 1) 1 63 && s.ev.req.rest0 1) s ∧ assoc s.keyOwner 63 = some 1) := by decide +kernel
theorem witness_freeKey : usesKey lab.mem 63 4 0 = false := by decide +kernel
theorem witness_freeKey_used : usesKey (Mem.write [] (binderyCell 4096) (leBytes 8 (63 * 2 ^ 54 + 0x47))) 63 4 4096 = true := by
  decide +kernel

/-- The entry of a window for context 1. -/
def winBytes : List Byte := leBytes 8 (2 ^ 63) ++ leBytes 8 (2 ^ 48) ++ leBytes 16 0
theorem witness_windows : ∀ n ∈ [0, 1, 1023 * 2 ^ 16],
    let s := askLab { lab with mem := Mem.write [] (hostCell 64) winBytes } 1 [n, 64];
    Asked 0x09 true (windowFmt s.ev.req && aligned (r1 s 2) 64 && s.ev.req.rest0 2) s ∧ hostBytes s 64 32 = some winBytes
      ∧ winOk (n == 1) ⟨dwordAt winBytes 0, dwordAt winBytes 8, dwordAt winBytes 16, dwordAt winBytes 24⟩ = true
      ∧ fld (dwordAt winBytes 8) 63 48 = 1 ∧ windowTaken s s.ev.req = false ∧ accessesDone s 1 = true
      ∧ (let s := askLab lab 1 [n]; Asked 0x0A true (windowFmt s.ev.req && s.ev.req.rest0 1) s ∧ windowTaken s s.ev.req = false) := by
  decide +kernel

def recordBytes : List Byte := leBytes 8 0x9000 ++ [4] ++ List.replicate 55 0
theorem witness_RequestQueues :
    (let s := askLab { lab with mem := Mem.write [] (hostCell 64) recordBytes } 1 [64];
      Asked 0x0B true (aligned (r1 s 1) 64 && s.ev.req.rest0 1) s ∧ hostBytes s 64 64 = some recordBytes ∧ recordFmt recordBytes = true
        ∧ s.queue? 0 = none)
    ∧ (let s := askLab swLab 1 [7]; Asked 0x0C true (below (r1 s 1) 16 && s.ev.req.rest0 1) s ∧ s.queue? 7 = some queue1)
    ∧ (∀ n ∈ [0, 16], let q := { queue1 with st := .error, wr := 16 }; let s := askLab { lab with queues := [q] } 1 [7, n];
      Asked 0x0D true (below (r1 s 1) 16 && below (r1 s 2) 32 && s.ev.req.rest0 2) s ∧ s.queue? 7 = some q
        ∧ (q.wr + 2 ^ 32 - n) % 2 ^ 32 ≤ 2 ^ q.log2)
    ∧ queue1.st ≠ .error := by decide +kernel

/-- The header of an image at host address 0x40000. -/
def imageHead : List Byte :=
  leBytes 4 0x504B434B ++ leBytes 2 1 ++ leBytes 2 0 ++ leBytes 24 0 ++ leBytes 8 imageLen ++ leBytes 8 1
theorem witness_loadCheckpoint :
    (let s := askLab { State.reset with mem := Mem.write [] (hostCell 0x40000) imageHead, checkpoints := [(hostCell 0x40000, {})] }
        0 [0, 0x40000];
      Asked 0x1E false (bit (r1 s 1) && (if r1 s 1 = 0 then aligned (r1 s 2) 64 else below (r1 s 2) 13) && s.ev.req.rest0 2) s
        ∧ s.ctxs = [] ∧ s.denied (hostCell 0x40000) 0 = 0 ∧ assoc s.checkpoints (hostCell 0x40000) = some {}
        ∧ Mem.num s.mem (hostCell 0x40000) 4 = 0x504B434B ∧ Mem.num s.mem (hostCell 0x40000 + 4) 2 = 1
        ∧ Mem.num s.mem (hostCell 0x40000 + 0x20) 8 = imageLen ∧ Mem.num s.mem (hostCell 0x40000 + 0x28) 8 = 1)
    ∧ (let s := askLab lab 0 [1, 2 ^ 13 - 1];
      Asked 0x1E false (bit (r1 s 1) && (if r1 s 1 = 0 then aligned (r1 s 2) 64 else below (r1 s 2) 13) && s.ev.req.rest0 2) s
        ∧ s.ctxs ≠ []) := by decide +kernel

/-- A queue with a slot and one packet to start, of these bytes. -/
def mapped : SwQueue := { queue1 with wr := 1, slot := some 0, ckpt := true, timeline := 5 }
def packetLab (s : State) (b : List Byte) : State :=
  { s with queues := [mapped], mem := Mem.write s.mem (hostCell 0x9000) b, ev := { n := 7 } }
/-- A packet's bytes: header and five dwords. -/
def packetOf (op : Nat) (ws : List Nat) : List Byte :=
  leBytes 8 op ++ (List.range 7).flatMap (fun i => leBytes 8 (ws.getD i 0))
def starts (s : State) (op : Nat) (b : List Byte) : Bool := headOf s op == some (mapped, b) && headerOk b

theorem witness_PlainPackets :
    (∀ op ∈ [0, 6], let b := packetOf op []; starts (packetLab lab b) op b = true ∧ zeros b 8 56 = true)
    ∧ mapped.started = [] ∧ (packetLab lab []).queue? 7 = some mapped
    ∧ (∀ op ∈ [3, 4], ∀ v ∈ [5, 6], let b := packetOf op [7, v]; let s := packetLab lab b;
      starts s op b = true ∧ zeros b 24 40 = true ∧ zeros b 10 6 = true ∧ handleQueue s 1 (BitVec.ofNat 64 (numAt b 8 8)) = some mapped
        ∧ meets mapped.timeline (BitVec.ofNat 64 v) = (v == 5) ∧ BitVec.ofNat 64 (numAt b 16 8) = BitVec.ofNat 64 v)
    ∧ (∀ k ∈ [0, 1], let b := packetOf 5 [0x20000, 0x21000, 4, k]; let s := packetLab lab b;
      starts s 5 b = true ∧ zeros b 40 24 = true ∧ copyCtlOk (dwordAt b 32) = true ∧ (freeCommandSlot s).isSome = true
        ∧ fld (dwordAt b 32) 1 0 = k ∧ numAt b 24 8 % 4 = 0 ∧ fld (dwordAt b 8) 1 0 = 0 ∧ fld (dwordAt b 16) 1 0 = 0)
    ∧ (let b := packetOf 5 [0x20000, 0x21000, 4, 2 + 2 ^ 16]; let s := { packetLab lab b with sets := [⟨1, 1, [0, 3], 0, 4⟩] };
      starts s 5 b = true ∧ zeros b 40 24 = true ∧ copyCtlOk (dwordAt b 32) = true ∧ (freeCommandSlot s).isSome = true
        ∧ fld (dwordAt b 32) 1 0 = 2 ∧ s.sets.find? (fun x => x.ctx = mapped.ctx ∧ x.num = fld (dwordAt b 32) 31 16) = some ⟨1, 1, [0, 3], 0, 4⟩
        ∧ numAt b 24 8 % sumSize (fld (dwordAt b 32) 5 4) = 0) := by decide +kernel

theorem witness_PacketErrors :
    (∀ r ∈ packetRows, r.2.1 < 7 → headOf (packetLab lab (packetOf (r.2.1 + 0x200) [])) r.2.1 = some (mapped, packetOf (r.2.1 + 0x200) [])
      ∧ headerOk (packetOf (r.2.1 + 0x200) []) = false ∧ r.2.2 (packetOf r.2.1 [0, 0, 0, 0, 0, 0, 1]) = false)
    ∧ headOf (packetLab lab (packetOf 0x207 [])) 7 = some (mapped, packetOf 0x207 [])
    ∧ (let b := packetOf 3 [8, 0]; starts (packetLab lab b) 3 b = true
      ∧ handleQueue (packetLab lab b) 1 (BitVec.ofNat 64 (numAt b 8 8)) = none)
    ∧ (let b := packetOf 1 [0x1001]; starts (packetLab lab b) 1 b = true ∧ zeros b 32 32 = true ∧ lab.ctx? 1 = some ctx1
      ∧ loadImage (packetLab lab b) 1 (dwordAt b 8) = none)
    ∧ (let b := packetOf 7 []; let q := { mapped with ckpt := false }; let s := { packetLab lab b with queues := [q] };
      headOf s 7 = some (q, b) ∧ headerOk b = true ∧ zeros b 24 40 = true)
    ∧ (∀ op ∈ [8, 255], let s := packetLab lab (packetOf op []);
      s.queue? s.ev.n = some mapped ∧ mayStart s mapped = true ∧ 8 ≤ packetOp (headPacket s mapped) ∧ ckptStops s = false) := by
  decide +kernel

/-- A stage entry: its code in the image's own page, its frame in the page at 0x20000, on a core of tile 0 (R391). -/
def stageEnt (core : Byte) : List Byte :=
  leBytes 8 0x10800 ++ leBytes 8 0x20000 ++ leBytes 2 0 ++ [core, 0, 0, 3] ++ List.replicate 10 0
/-- Three times the generator of the curve, and the signatures of the two images under 3 as the private key. -/
def key3 : List Byte := beBytes 97 0x047b63205bf00ddae73b17452b6a27ebf53df581348c6949f83ee1b6fcc7463bbe3c11ef6596a3b8897d7cc85b3035f11f761d3a4a5f8093775521a326bc02baaf7b2eb481ead16a5c7b2bd39462363e0373c0edaea3b8f59381d7129d48772eb3
def sign1 : List Byte := beBytes 96 0x2282bc382a2f4dfcb95c3495d7b4fd590ad520b3eb6be4d6ec2f80c4e0f70df87c4ba74a09b553ebb427b58df9d59fca109b38dc2ec05b73dc2e3d1d0adaeddd654d92d97ac03ce569daf694925b224210fc1a908919c23dacbfbd5ecc388044
def sign2 : List Byte := beBytes 96 0x2282bc382a2f4dfcb95c3495d7b4fd590ad520b3eb6be4d6ec2f80c4e0f70df87c4ba74a09b553ebb427b58df9d59fca5ff37c818d95188348cfe6bba9a055bb2f44a709b9bb08e1c2daa228bc33bc0e6183b0c2e22bd5fb81c502e0c063e0cc
def imageStart (len : Nat) (counts : List Nat) : List Byte :=
  leBytes 4 0x3949434B ++ leBytes 2 1 ++ leBytes 2 0 ++ leBytes 8 len ++ beBytes 8 0xa4a9704fadb90eee ++ counts.flatMap (leBytes 4)
/-- An image of one stage (R322). -/
def image1 : List Byte :=
  imageStart 256 [1, 0, 0, 0, 0, 0] ++ leBytes 4 0x80 ++ leBytes 4 32 ++ leBytes 40 0 ++ List.replicate 32 0 ++ stageEnt 1 ++ sign1
/-- An image of two stages with a channel between them, and a region that takes up the whole scratchpad of tile 0. -/
def image2 : List Byte :=
  imageStart 360 [2, 1, 0, 0, 0, 1] ++ leBytes 4 0x80 ++ leBytes 4 64 ++ leBytes 4 0xC0 ++ leBytes 4 48 ++ leBytes 24 0
    ++ leBytes 4 0xF0 ++ leBytes 4 24 ++ List.replicate 32 0 ++ stageEnt 1 ++ stageEnt 2
    ++ leBytes 2 0 ++ leBytes 2 1 ++ [3, 0, 0xFF, 1] ++ leBytes 4 1 ++ leBytes 4 0 ++ leBytes 2 1 ++ leBytes 14 0 ++ [2] ++ leBytes 15 0
    ++ leBytes 8 0x7F0000000000 ++ leBytes 8 (2 ^ 19) ++ [3] ++ leBytes 7 0 ++ sign2
def launchCtx : Ctx := { hostedCtx 1 with imageKey := key3 }
def launchLab (img : List Byte) : State :=
  packetLab { hbmLab with ctxs := [launchCtx], mem := Mem.write hbmLab.mem (2 ^ 32 + 2 ^ 16) img } (packetOf 1 [0x10000, 3, 4])
theorem witness_launchPipeline : ∀ i ∈ [image1, image2], let s := launchLab i
    starts s 1 (packetOf 1 [0x10000, 3, 4]) = true ∧ zeros (packetOf 1 [0x10000, 3, 4]) 32 32 = true
      ∧ s.ctx? 1 = some launchCtx ∧ loadImage s 1 0x10000 = some i ∧ s.deny = []
      ∧ launchCtx.stageRecs + (imageOf i).stages.length ≤ 2 ^ 32
      ∧ (placeChans s launchCtx (imageOf i) (7, 0)).isSome = decide (i = image1) := by decide +kernel
theorem witness_signed : signedBy key3 image1 = true ∧ signedBy key3 image2 = true ∧ signedBy key3 (image1.set 0x80 4) = false := by
  decide +kernel
theorem witness_imageAllowed : ∀ i ∈ [image1, image2], imageAllowed (launchLab i) launchCtx i = true := by decide +kernel
/-- A record at 0x20000 that LAUNCH_TASK takes: its home the context, its mask every die (R216). -/
def taskPacket : List Byte := packetOf 2 [0x20000]
def taskLab2 : State := packetLab (recPut { hbmLab with ctxs := [launchCtx] } 1 0x20000 0x38 8 0) taskPacket
theorem witness_launchTask :
    let s := taskLab2;
    starts s 2 taskPacket = true ∧ zeros taskPacket 16 48 = true ∧ numAt taskPacket 8 8 % 64 = 0 ∧ s.ctx? 1 = some launchCtx
      ∧ launchCtx.hostUsed.length < launchCtx.hostMax ∧ taskDie s launchCtx 0x20000 = some 0
      ∧ recordOk ((launchPacket s mapped taskPacket (fun p => { p with record := some 0x20000 })).mapCtx 1
          (fun c => { c with hostUsed := 0x20000 :: c.hostUsed })) 1 0x20000 0 = true := by decide +kernel
theorem witness_checkpoint : ∀ p ∈ [(0, 4096), (1, 2 ^ 13 - 1)], let b := packetOf 7 [p.1, p.2];
    let s := packetLab { lab with safeTier := [(4096, imageLen)] } b;
    starts s 7 b = true ∧ zeros b 24 40 = true ∧ mapped.ckpt = true ∧ s.ckpt = none ∧ copiesOver s = true
      ∧ (ckptCell s b).isSome = true := by decide +kernel

theorem witness_QueueEvents :
    (∀ wr ∈ [16, 17], let s := { swLab with ev := { n := 8, w := BitVec.ofNat 64 (wr * 2 ^ 32 + 7) } };
      fld s.ev.w 31 16 = 0 ∧ s.queue? (fld s.ev.w 15 0) = some queue1 ∧ queue1.st = .running
        ∧ (decide ((fld s.ev.w 63 32 + 2 ^ 32 - queue1.rd) % 2 ^ 32 ≤ 2 ^ queue1.log2) = (wr == 16)))
    ∧ (∀ st ∈ [QState.running, .parked], let q := { queue1 with st, ready := some 0 }; let s := { lab with queues := [q], ev := { n := 7 } };
      nextMapped s = some q ∧ q.num = s.ev.n ∧ slotsUsed s < 64 ∧ s.queue? q.num = some q)
    ∧ (let p : Started := ⟨0, 5, 0, true, [], none, true, none, none⟩; ∀ f ∈ [none, some 5],
      let q := { queue1 with started := [{ p with fail := f }] }; let s := { lab with queues := [q], ev := { n := 7 } };
      s.queue? s.ev.n = some q ∧ q.started.find? (fun p => p.idx = s.ev.m) = some { p with fail := f } ∧ p.finished = true)
    ∧ (let q := { queue1 with st := .draining }; let s := { lab with queues := [q], ev := { n := 7 } };
      s.queue? s.ev.n = some q ∧ s.mail.busy = false ∧ s.events.held = [] ∧ s.events.ring = none) := by decide +kernel
theorem witness_quantum :
    let s := { lab with
      cyc := 1400000, queues := { queue1 with num := 65, ready := some 0 } :: List.replicate 64 { queue1 with slot := some 0 }
      ev := { n := 7 } };
    s.queue? s.ev.n = some { queue1 with slot := some 0 } ∧ quantumOver s { queue1 with slot := some 0 } = true := by decide +kernel

/-- A sum of a set of one rank: one FP32 code, from its page to the next line. -/
def collective1 : Collective := ⟨⟨0, 6, 0⟩, 1, 0, 0, 0x20800, 0x20840, 4, 2⟩
def sumLab : State :=
  let p : Started := ⟨0, 5, 0, true, [], none, false, none, some collective1⟩
  { hbmLab with queues := [{ queue1 with started := [p] }], sets := [⟨1, 1, [0], 0, 3⟩], ev := { n := 7 } }
theorem witness_SumsAndCheckpoints :
    (let s := sumLab; let c := collective1; let ag : Agent := ⟨1, false, none, false⟩;
      bytesOk (readLines s ag (c.len / 64 + 2) c.src c.len) (List.replicate 4 0) = true
        ∧ gathered s ⟨1, 1, [0], 0, 3⟩ c.ord (List.replicate 4 0) = some [List.replicate 4 0]
        ∧ (let sum := treeSum 2 ([List.replicate 4 0].map (fun b => (widenList 0 (4 / sumSize 0) b).1))
          (match writeLines ag ((narrowList 0 sum.1).1.length / 64 + 2) s
              c.dst (narrowList 0 sum.1).1 with
            | .ok _ => true
            | .error _ => false) = true))
    ∧ (let p : Started := ⟨0, 7, 0, true, [], none, false, none, none⟩; let q := { queue1 with started := [p] };
      let s := { lab with queues := [q], ctxs := [{ ctx1 with quiet := true, preq := true }], ckpt := some ⟨7, 0, hostCell 4096⟩, ev := { n := 7 } };
      s.queue? s.ev.n = some q ∧ s.ctxs.all Ctx.quiet = true ∧ s.denied (hostCell 4096) 1 imageLen = 0
        ∧ hostCell 0 ≤ hostCell 4096) := by decide +kernel

def chanOf1 (id : Nat) (es : List Elem) : Chan := { id, ctx := 1, allowance := 4, elems := es, cons := [(⟨⟨0, 7, 0⟩, 0⟩, 0)] }
/-- A balancer of channel 1 to channels 2 and 3, and a merge of channels 2 and 3 into 4, of group level 2. -/
def unitLab (e1 : List Elem) (e2 e3 : List Elem) (cur : Option Nat) : State :=
  { lab with chans := [chanOf1 1 e1, chanOf1 2 e2, chanOf1 3 e3, chanOf1 4 []]
             balancers := [{ src := 1, outs := [2, 3], level := some 2, cur, pipe := (0, 0) }]
             merges := [{ ins := [2, 3], out := 4, level := some 2, pair := none, cur, pipe := (0, 0) }] }
def data1 : Elem := { word := 9 }
def tok (n : Nat) : Elem := { word := BitVec.ofNat 64 n, tag := true }
theorem witness_BalancersAndMerges :
    (∀ n ∈ [2, 3], let s := unitLab [tok n] [] [] (some 1);
      unitHead s 1 = some (⟨⟨0, 7, 0⟩, 0⟩, tok n) ∧ isBroadcast (some 2) (tok n) = (n == 3) ∧ [2, 3].all (roomIn s) = true)
    ∧ (let s := unitLab [data1] [] [] none; unitHead s 1 = some (⟨⟨0, 7, 0⟩, 0⟩, data1) ∧ isBroadcast (some 2) data1 = false)
    ∧ (∀ cur ∈ [none, some 0], let s := unitLab [] [data1] [] cur;
      unitHead s 2 = some (⟨⟨0, 7, 0⟩, 0⟩, data1) ∧ unitHead s 3 = none ∧ roomIn s 4 = true)
    ∧ (∀ cur ∈ [none, some 0], let s := unitLab [] [tok 3] [tok 4] cur;
      unitHead s 2 = some (⟨⟨0, 7, 0⟩, 0⟩, tok 3) ∧ unitHead s 3 = some (⟨⟨0, 7, 0⟩, 0⟩, tok 4)
        ∧ isBroadcast (some 2) (tok 3) = true ∧ isBroadcast (some 2) (tok 4) = true) := by decide +kernel
/-- The merge behind the ordered balancer whose next group came through replica 1. -/
theorem witness_ordered_merge : ∀ o ∈ [none, some 1],
    let m : Merge := { ins := [2, 3], out := 4, level := some 2, pair := some 1, order := [o], pipe := (0, 0) }
    let b : Balancer := { src := 1, outs := [2, 3], level := some 2, pipe := (0, 0) }
    let s := { unitLab [] (if o = none then [tok 3] else []) [if o = none then tok 3 else data1] none with merges := [m] };
    unitHead s 3 = some (⟨⟨0, 7, 0⟩, 0⟩, if o = none then tok 3 else data1) ∧ m.order.head? = some o ∧ m.behind b = true
      ∧ s.balancers = [b] ∧ m.order.countP Option.isSome < 256 ∧ roomIn s 4 = true := by decide +kernel

/-- An export entry of every right to context 1's page at 0x20000, for device 5 with cookie 6. -/
def export1 : Win256 :=
  { d0 := BitVec.ofNat 64 (2 ^ 63 + 2 ^ 61 + 2 ^ 60 + 2 ^ 59 + 5 * 2 ^ 43 + 6), d1 := BitVec.ofNat 64 (2 ^ 48 + 0x20000), d2 := 1 }
def remoteLab (op off : Nat) : State :=
  { hbmLab with exports := [(3, export1)]
                ev := { bytes := [1, 2], remote := ⟨5, 3, 6, off, op, 8, .amoAddW, 7, 0⟩ } }
theorem witness_PeerRequests :
    (∀ op ∈ [0, 1, 2], let s := remoteLab op 0x100; let q := s.ev.remote
      let need : Need := if q.op = 0 then .load else if q.op = 1 then .store else .amo
      assoc s.exports q.exp = some export1 ∧ export1.d0.getLsbD 63 = true ∧ fld export1.d0 55 43 = q.dev
        ∧ fld export1.d0 31 0 = q.cookie.toNat ∧ q.off < fld export1.d2 29 0 * 4096 ∧ export1.d0.getLsbD (61 - op) = (op != 3)
        ∧ isOk (translate s ⟨1, false, none, false⟩ (BitVec.ofNat 64 (fld export1.d1 47 12 * 4096 + q.off)) need)
            { hbm with cell := 2 ^ 32 + 2 ^ 16 + 0x1100 } = true
        ∧ s.denied (2 ^ 32 + 2 ^ 16 + 0x1100) op 8 = 0)
    ∧ (let q := (remoteLab 3 0).ev.remote; q.op = 3 ∧ assoc (remoteLab 3 0).exports q.exp = some export1
      ∧ export1.d0.getLsbD 63 = true ∧ fld export1.d0 55 43 = q.dev ∧ fld export1.d0 31 0 = q.cookie.toNat)
    ∧ (∀ off ∈ [4095, 4096], decide (fld export1.d2 29 0 * 4096 ≤ (remoteLab 0 off).ev.remote.off) = (off == 4096)) := by
  decide +kernel

/-- An atomic on its way whose packet has met `n` retrains. -/
def amo1 (n : Nat) : Amo :=
  { key := th0.key, amo := .amoAddW, cell := peerCell 5 3 0, aes := 0, va := 0x32000, v := 0, w := 0, due := 9, retr := n }
theorem witness_LinkEvents :
    (∀ n ∈ [1, 2], let s := { lab with homeQ := [amo1 n], ev := { n := 2, m := 1 } };
      isPort s.ev.n = true ∧ (s.link s.ev.n).out = false ∧ (s.link s.ev.n).retrain = none ∧ s.homeQ[0]? = some (amo1 n) ∧ s.ev.m.testBit 0 = true
        ∧ s.homeQ.all (fun a => decide (a.retr < 2)) = (n == 1) ∧ s.threads.all (fun t => t.posted.all (fun p => decide (p.retr < 2))) = true
        ∧ s.offers = [] ∧ s.events.held = [] ∧ s.events.ring = none)
    ∧ isPort 18 = true ∧ isPort 19 = false ∧ isPort 32 = true
    ∧ (let s := { lab with links := [⟨0, some 0, false⟩] }; (s.link s.ev.n).retrain = some 0 ∧ 0 ≤ s.cyc)
    ∧ (let s := { lab with ev := { packet := ⟨1, 0, 0, 0, true⟩, n := 1 } }; (1, 0, 0, 0) ∉ s.delivered ∧ s.ev.packet.urgentRequest = true)
    ∧ (let s := { lab with delivered := [(1, 0, 0, 0)], kept := [((1, 0, 0, 0), ⟨0, []⟩)], ev := { packet := ⟨1, 0, 0, 0, true⟩ } };
      (1, 0, 0, 0) ∈ s.delivered ∧ s.kept.find? (fun k => k.1 = (1, 0, 0, 0)) = some ((1, 0, 0, 0), ⟨0, []⟩)) := by decide +kernel

/-- A host access to BAR0 of 8 bytes at an offset. -/
def barLab (off : Nat) (w : Word) (wr : Bool) : State := { lab with mail := { opened := true }, ev := { n := off, m := 8, w, wr } }
theorem witness_bar :
    (∀ off ∈ [0x1FF8, 0x2040, 0x2084, 0x2088], let s := barLab off 1 true;
      s.ev.wr = true ∧ s.mail.opened = true ∧ s.mail.busy = false
        ∧ (off % 8 ≠ 0 ∨ off < 0x2000 ∨ (0x2040 ≤ off ∧ off ≠ 0x2080)))
    ∧ (∀ off ∈ [0x2000, 0x2038], let s := barLab off 1 true; s.ev.m = 8 ∧ ∃ i : Fin 8, s.ev.n = 0x2000 + 8 * i.val)
    ∧ (∀ w ∈ [0, 1], (barLab 0x2080 (BitVec.ofNat 64 w) true).ev.w.getLsbD 0 = (w == 1))
    ∧ (∀ off ∈ [0x2040, 0x2078, 0x2080, 0x2088, 0x2098, 0x20A0, 0x2FF8, 0x3000], let s := barLab off 0 false;
      s.ev.wr = false ∧ s.ev.m = 8 ∧ s.events.lost < 2 ^ 32) := by decide +kernel

theorem witness_HostAccesses :
    (let s := { lab with mail := { opened := true }, ev := { n := 8, w := 63 } }; s.ev.n = 8 ∧ s.mail.opened = true ∧ s.events.held = [])
    ∧ (let e : HostEvent := { kind := 8 }
      let s := { lab with mail := { opened := true }, ev := { n := 8, w := 1 }
                          events := { ring := some (4096, 6), head := 64, held := [e] } };
      s.events.held = [e] ∧ (s.events.head - s.ev.w.setWidth 32).toNat < 2 ^ 6)
    ∧ (∀ a ∈ [4096, 8192 - 4], let s := { lab with visible := [(4096, 4096)], ev := { n := a, m := 4 } };
      (∃ r ∈ s.visible, r.1 ≤ s.ev.n ∧ s.ev.n + s.ev.m ≤ r.1 + r.2) ∧ s.ev.n % 64 + s.ev.m ≤ 64 ∧ 0 < s.ev.m
        ∧ s.ev.wr = false)
    ∧ (let s := { lab with visible := [(4096, 4096)], ev := { n := 4096, bytes := [1], wr := true } };
      (∃ r ∈ s.visible, r.1 ≤ s.ev.n ∧ s.ev.n + s.ev.bytes.length ≤ r.1 + r.2) ∧ s.ev.n % 64 + s.ev.bytes.length ≤ 64)
    ∧ (let s := { lab with visible := [(4096, 4096)], ev := { n := 8192, m := 4 } };
      ∀ r ∈ s.visible, ¬(r.1 ≤ s.ev.n ∧ s.ev.n + s.ev.m ≤ r.1 + r.2)) := by decide +kernel

/-- A memory fault of the thread held in its retry latch, and its record. -/
def fault1 : Report := { id := 1, ctx := 1, key := th0.key, tale := .fault 1 0x40000 0x120 0 none }
def latch1 : Retry := { trig := 0x120, kind := 1, addr := 0x40000, pc := 0x1000, id := 1 }
def faultLab (r : Report) : State :=
  { lab.map (fun t => { t with hold := .latch, latch := some latch1 }) with policyQ := [r], ev := { n := 1 } }
theorem witness_PolicyCoreAnswers :
    (∀ a ∈ [some true, some false], let r := { fault1 with answer := a, posted := true }; let s := faultLab r;
      s.policyQ.find? (fun x => x.id = s.ev.n) = some r ∧ s.th.life = .running ∧ s.th.key = r.key ∧ s.th.latch = some latch1
        ∧ latch1.ring = none ∧ latch1.trig ≠ 0x1EB ∧ latch1.seq = false ∧ latch1.id = r.id)
    ∧ (∀ k ∈ [1, 2], let r := { fault1 with tale := .fault k 0x40000 0x120 0 none };
      let s := { faultLab r with events := { ring := some (4096, 6) } };
      s.policyQ.find? (fun x => x.id = s.ev.n) = some r ∧ s.events.room = true ∧ s.events.held = [])
    ∧ (∀ t ∈ [Tale.badRecord 64, .negativeJoin 64, .stopped 64], let r := { fault1 with tale := t }; let s := faultLab r;
      s.policyQ.find? (fun x => x.id = s.ev.n) = some r ∧ s.events.held = [] ∧ s.events.ring = none) := by decide +kernel

theorem witness_PreemptionEvents :
    (let c := { ctx1 with preq := true }; let s := { frameLab with ctxs := [c], ev := { n := 1 } };
      s.ctx? s.ev.n = some c ∧ c.quiet = false ∧ c.limit ≤ s.cyc ∧ s.th.life = .running ∧ s.th.ctx = 1 ∧ s.others = []
        ∧ s.presses = [] ∧ s.th.hold = .none ∧ s.th.mode = .user ∧ s.th.trapWait = none ∧ s.copy? s.th.key = none
        ∧ saveWaits s s.th = false ∧ (saveFrame s.quiet s.th.pc []).isSome = true)
    ∧ (let c := { ctx1 with preq := true }
      let s := { lab with th := {}, ctxs := [c], ev := { n := 1 }, mail := { opened := true, busy := true, await := .preempted 1 } };
      s.ctx? s.ev.n = some c ∧ readyToQuiesce s c = true ∧ s.retiring = [] ∧ c.areas = [])
    ∧ (∀ w ∈ [2401], let s := { lab with ev := { n := w } }; 2400 < s.ev.n ∧ ctx1 ∈ s.ctxs
      ∧ ∀ d ∈ s.ctxs, d.preq = false → d = ctx1 ∨ ctx1.rank < d.rank)
    ∧ (let c := { ctx1 with preq := true, quiet := true }
      let s := { lab with ctxs := [c], cyc := 140000000, ev := { n := 2199 }, power := { low := some 0, order := [1] } };
      s.ev.n < 2200 ∧ s.power.low = some 0 ∧ s.power.order = [c.num] ∧ s.ctx? 1 = some c ∧ c.saved = []
        ∧ ∀ p ∈ c.tiles, p.2 ∉ s.badTiles) := by decide +kernel
/-- With no area its own: every save area lies in HBM. -/
theorem witness_saveArea (s : State) (h : s.ctx? 1 = some { ctx1 with preq := true }) : ∀ k, saveArea s 1 k + 0xDB000 ≤ hbmEnd := by
  intro k
  simp [saveArea, h, ctx1, assoc, hbmEnd]

/-- A thread of a hosted context in front of a NOP word, its slot next. -/
def stepLab : State := State.reset.withFetchWord 32 0xC0C00000
def fetches (s : State) (w : BitVec 32) : Bool :=
  (match translate s s.self s.th.pc .code with
    | .ok _ => true
    | .error _ => false) && (match fetchWord s s.th.pc with
    | .ok x => x == w
    | .error _ => false)
theorem witness_StepRunsTheDecodedWord :
    (∀ s ∈ [stepLab, { stepLab with agenda := [] }], (s.agenda = [.issue s.th.key] ∨ s.agenda = []) ∧ s.th.key ∈ nextSlots s
      ∧ (nextSlots s).head? = some s.th.key ∧ (ownMove s).isNone = true ∧ pickEvent s = none ∧ s.th.life = .running ∧ s.th.owed = []
      ∧ (s.th.key.coreKey, s.th.ctx, s.th.pc.toNat / 4096) ∈ s.tlb ∧ (s.th.key.coreKey, s.th.ctx, s.th.pc.toNat / 64) ∈ s.ilines
      ∧ fetches s 0xC0C00000 = true ∧ codeBusy s (2 ^ 32 + 2 ^ 16) = false)
    ∧ (∀ h ∈ [true, false], let s := stepLab.map (fun t => { t with owed := [{ cause := 10, nx := true, mtpc := 0x1000, here := h }] });
      s.th.key ∈ nextSlots s ∧ s.th.mode = .user)
    ∧ (let s := { stepLab with agenda := [.issue ⟨0, 0, 1⟩] }; (⟨0, 0, 1⟩ : SlotKey) ∉ nextSlots s)
    ∧ (let s := { lab with th := {}, agenda := [.event .flitCrcError {}] }; mayTurn s .flitCrcError {} = true)
    ∧ (let s := { accessLab (accessAt false false 0) with agenda := [], cyc := 1 }; (ownMove s).isSome = true)
    ∧ (let s := { lab with th := {} }; (ownMove s).isNone = true ∧ pickEvent s = none ∧ nextSlots s = [] ∧ lateEvent s = none
      ∧ s.mail.busy = false)
    ∧ (ownMove State.reset).isNone = true ∧ State.reset.agenda = [] ∧ State.reset.booted = false := by decide +kernel
/-- g1 and a.o with a parity error. -/
def badLab (r : RegRef) : State := lab.map (fun t => { t with g := t.g.set 1 5, bad := [r] })
theorem witness_RegisterDataErrors :
    (∀ r ∈ [RegRef.g 1, .latch .ao], (srcRegs g1 ++ operandRegs .add).find? (fun x => (badLab r).seen.th.bad.contains x) = some r
      ∧ (srcFate th0.key .user g1).and (trigFate th0.key .user .add) = .ok ∧ (badLab r).seen.closed (trigWins .add) = true
      ∧ (badLab r).seen.readSrc g1 = .val 5 none)
    ∧ (srcRegs g1).find? (fun x => (badLab (.g 1)).seen.th.bad.contains x) = some (.g 1)
    ∧ (vsrcRegs (.vec (.v 3)) ++ vOperandRegs .vfmaF).find? (fun x => (badLab .vo2).vseen.th.bad.contains x) = some .vo2 := by
  decide +kernel
theorem test_register_error_traps : sees (exec (.add k0 g1) (frameLab.map (fun t => { t.setG 1 5 with bad := [.g 1] })))
    (fun z => (z.th.mcause, z.th.mtpc, z.th.getG 1, z.th.pc)) = some (0x10C, 0x1000, 0, 0x100) := by decide +kernel
theorem test_write_ends_error : sees (exec (.li k0 (.g 1) 7) (badLab (.g 1))) (fun z => (z.th.getG 1, z.th.bad)) = some (7, []) := by
  decide +kernel

/-- Tile 0 with its banks 0 retired, and the strikes that meet banks 8 and 7. -/
def bankLab : State := { lab with badBanks := [(0, 0)] }
theorem witness_SoftErrors :
    (∀ b ∈ [7, 8], 0 ∉ bankLab.badTiles ∧ (0, b) ∉ bankLab.badBanks ∧ ((∃ x ∈ bankLab.badBanks, x.1 = 0 ∧ x.2 / 8 = 16 * b / 16 % 32 / 8) ↔ b = 7))
    ∧ strikeOk (.bank 1535 (2 ^ 19 - 1) true) = true ∧ strikeOk (.bank 1536 0 true) = false ∧ strikeOk (.hbm hbmEnd true) = false
    ∧ bankLab.ctxs = [ctx1] ∧ (0, 0) ∈ ctx1.tiles ∧ ctx1.preq = false ∧ ctx1.quiet = false := by decide +kernel
theorem all_retired (s : State) (h : s.badTiles = List.range 1536) : freeTiles s 255 = [] := by
  rw [freeTiles, List.filter_eq_nil_iff, h]
  intro t ht
  have : t < 1536 := by simpa using ht
  simp only [List.contains_eq_mem, List.mem_range, this, decide_true, Bool.not_true, Bool.and_false, Bool.false_and,
    Bool.false_eq_true, not_false_eq_true]
/-- The context of a retired tile, quiet but for its step, where every tile is retired. -/
def stuckLab : State :=
  { lab with th := {}, ctxs := [{ ctx1 with preq := true }], ev := { n := 1 }, retiring := [⟨0, 1, true⟩]
             badTiles := List.range 1536 }
theorem witness_stuck : stuckLab.ctx? 1 = some { ctx1 with preq := true } ∧ readyToQuiesce stuckLab { ctx1 with preq := true } = true
    ∧ stuckLab.mail.busy = false ∧ stuckLab.events.held = [] := by decide +kernel
theorem test_second_bank_retires_tile :
    sees (step { bankLab with agenda := [.strike (.bank 0 0x70 false)] })
      (fun z => (z.badTiles, z.retiring, z.ctxs.map Ctx.preq)) = some ([0], [⟨0, 1, true⟩], [true]) := by decide +kernel
theorem witness_EncodeThenDecode : (Instr.add k0 (.imm 0x3FF)).wf = true ∧ (encode (.add k0 (.imm 0x3FF))).isSome = true
    ∧ (Instr.encodingNotAnInstruction 0).wf = true ∧ encode (.encodingNotAnInstruction 0) = some 0 := by decide +kernel
theorem witness_StepKeepsMemoryCanonical : State.reset.safe = true ∧ sees (step State.reset) (fun z => z.booted) = some true := by
  decide +kernel

/-! ### Witnesses of the further clauses -/

/-- A sequence's access of the thread's, 8 of its 16 bytes performed, before the step that performs the rest. -/
def sequenceAccess (load : Bool) : Access := { accessAt load false 8 with u := .v, seq := true }
def sequenceAccessLab (load : Bool) : State :=
  (accessLab (sequenceAccess load)).map (fun t => { t.setWin .v { isOpen := true, rep := true } with
    rep := { act := true, stride := 1, cm1 := 1, words := [0x4000CC01], gv := 1 } })
theorem witness_AccessPerformed_sequence : ∀ load ∈ [false, true], let s := sequenceAccessLab load
    s.focus th0.key = some s ∧ s.th.mem[0]? = some (sequenceAccess load) ∧ (sequenceAccess load).retr < 3
      ∧ (sequenceAccess load).viewed = false ∧ (sequenceAccess load).acq = none ∧ 16 ≤ 8 + 8 := by decide +kernel
theorem witness_ReadsItsBytes : let s := queueLab [token] 4 0
    s.lineKey 1 = 0 ∧ hbmEnd ≤ scrCell 0 0x40 ∧ (∀ c ∈ s.chans, c.meets 64 16 = false)
      ∧ ∀ c ∈ s.chans, c.meets (scrCell 0 0x40) 16 = false := by decide +kernel

/-- No sibling of the thread has a store on its way to the places of the store witnesses. -/
theorem witness_stores_behind :
    (∀ n ∈ [1, 2, 4, 8, 16, 64], ∀ p ∈ [((0x20040 : Word), hbmLoc 0x40), (0x32040, peerLoc 0x40), (0x31040, hostLoc 0x40)],
      (pagedG p.1).passed.behindSibling (pagedG p.1).passed.th p.2.cell n = false)
    ∧ (∀ n ∈ [1, 2, 4, 8, 16], twoTiles.passed.behindSibling twoTiles.passed.th scr1.cell n = false)
    ∧ ∀ p ∈ [(0x20040, hbmLoc 0x40), (0x32040, peerLoc 0x40)],
      (vecAt1 p.1).vseen.advance.behindSibling (vecAt1 p.1).vseen.advance.th p.2.cell 64 = false := by decide +kernel
theorem witness_WaitOnWord_peer : ∀ n ∈ [4, 8], let s := pagedG 0x32040
    Fires .waddrD k0 g1 s 0x32040 none ∧ reaches [0, 1] n .load 0 none 0x32040 s.passed (peerLoc 0x40) = true
      ∧ (peerLoc 0x40).viewed = true ∧ s.passed.siblingPosts s.th.key.coreKey s.th.key (peerLoc 0x40).cell n = false
      ∧ s.th.unperformed = none := by decide +kernel
theorem witness_SignalWait_modes : ∀ m ∈ [Mode.user, .monitor], let s := (signals 9).map (fun t => { t.setG 1 4 with mode := m })
    Fires .sigWait k0 g1 s 4 none ∧ attrOk (s.passed.th.get .lo) [0, 1] = true ∧ fld (s.passed.th.get .lo3) 63 32 = 0
      ∧ s.passed.th.acquiring s.cyc = false ∧ handleQueue s.passed s.passed.th.ctx 4 = none ∧ s.passed.th.mode = m := by
  decide +kernel

/-- A thread with results of f.r and v.r on their way, a token at its port 2, and an element at the head of its channel. -/
def sourceLab : State :=
  (queueLab [token] 4 0).map (fun t => { t with flight := [⟨some .fr, 50, 3, 0, 0⟩, ⟨none, 60, 0, 5, 0⟩] })
theorem witness_SourcesRead : let s := sourceLab
    s.myCtx = some ctx1 ∧ s.th.key.slot < 8 ∧ s.th.key.core < 8 ∧ ctx1.logical s.th.key.tile < 2048 ∧ s.th.ctx < 2 ^ 16
      ∧ s.queueRead 2 = .head 5 token ∧ (∀ r ∈ s.th.rels, r.group = none)
      ∧ (∀ f ∈ s.th.flight, f.port = some .mr → f.due ≤ s.cyc) ∧ s.th.flight[0]? = some ⟨some .fr, 50, 3, 0, 0⟩ ∧ s.cyc < 50
      ∧ s.th.flight[1]? = some ⟨none, 60, 0, 5, 0⟩ ∧ (∀ f ∈ lab.th.flight, f.port = none → f.due ≤ lab.cyc) := by decide +kernel
theorem witness_SourcesRead_broadcast : sourceLab.readSrc (.port (.g 3)) = .val 0 none := by decide +kernel
theorem witness_ResultInterlock : let s := sourceLab
    (srcFate s.th.key s.th.mode (.port (.res .fr))).and (dstFate s.th.key s.th.mode (.g 5)) = .ok ∧ s.seen.th.holds k0 = true
      ∧ s.seen.readSrc (.port (.res .fr)) = .due 50 := by decide +kernel
theorem witness_LongImmediateTriggers : ∀ n ∈ [0x1FF, 0x200, 0x8000, 0xFFFF],
    let x := BitVec.ofNat 16 n; let s := labS.map (fun t => t.setG 7 (BitVec.ofInt 64 x.toInt))
    s.seen.th.getG 7 = BitVec.ofInt 64 x.toInt ∧ s.seen.th.sound [.g 7] = true := by decide +kernel
/-- The head of a channel with one consumer, and of one with two. -/
theorem witness_QueuePorts_taken : ∀ more ∈ [[], [((⟨⟨0, 1, 0⟩, 4⟩ : Port), 1)]],
    let s := queueLab [token, { word := 7 }] 4 0
    let s : State := { s with chans := s.chans.map (fun c => { c with cons := c.cons ++ more }) };
    s.seen.th.holds k0 = true ∧ s.seen.queueRead 2 = .head 5 token ∧ s.chan? 5 = s.chans.head?
      ∧ (∀ c ∈ s.chans, (c.cons.map Prod.fst).Nodup ∧ s.myPort 2 ∈ c.cons.map Prod.fst
        ∧ (c.cons = [(s.myPort 2, 0)] ↔ more = [])) := by decide +kernel

/-- A prefetch of a line that is not the first of its page, one of a page that is not mapped, and an arrival. -/
theorem witness_SliceLines_prefetch :
    (let s := { paged with ev := { n := 1, w := 0x20040 } };
      isOk (translate s ⟨1, false, none, false⟩ 0x20040 .load) (hbmLoc 0x40) = true ∧ (hbmLoc 0x40).cell < hbmEnd
        ∧ (hbmLoc 0x40).cell / 64 % 64 ≠ 0 ∧ s.l2miss = [])
    ∧ (match translate paged ⟨1, false, none, false⟩ 0x99990040 .load with
      | .error _ => true
      | .ok _ => false) = true
    ∧ (0, 0, 63) ∈ ({ lab with ev := { p := 63 }, l2miss := [(0, 0, 63)] } : State).l2miss := by decide +kernel

/-- The record that a spawn writes can be written in the pool's free slot. -/
theorem witness_Spawn_record : let s := ((taskLab 0 0).map (fun t => t.setG 1 0x1000)).passed
    freePoolSlots ctx1 0 = [0x7F0000001000]
      ∧ (match writeLines (devAgent 1) 3 s.drawn 0x7F0000001000 (List.replicate 64 0) with
        | .ok _ => true
        | .error _ => false) = true ∧ s.th.awaitsPhase = false := by decide +kernel
theorem witness_Spawna_place : ∀ p ∈ [((0x1000 : Word), 0), (0x1002, 1), (0x1000, 1)], let u := (spawnaLab p.1 p.2).passed
    isOk (translate u u.self 0x20200 .amo) (hbmLoc 0x200) = true ∧ (hbmLoc 0x200).space = .hbm
      ∧ u.denied (hbmLoc 0x200).cell 0 64 = 0 ∧ u.denied (hbmLoc 0x200).cell 2 64 = 0
      ∧ u.lineBusy (hbmLoc 0x200).cell 64 none = false ∧ u.th.acquiring u.cyc = false := by decide +kernel

/-- `RecordAt`, evaluated. -/
def recordAt (s : State) (ctx : Nat) (rec_ : Word) (l : Loc) : Bool :=
  decide (rec_.toNat % 64 = 0 ∧ isOk (translate s (devAgent ctx) rec_ .load) l = true
    ∧ isOk (translate s (devAgent ctx) rec_ .store) l = true ∧ l.space = .hbm ∧ l.cell % 64 = 0 ∧ l.cell + 64 ≤ hbmEnd
    ∧ s.lineKey (l.cell / 64) = l.aes ∧ s.denied l.cell 0 64 = 0 ∧ s.denied l.cell 1 64 = 0)
theorem recordAt_of {s : State} {ctx : Nat} {rec_ : Word} {l : Loc} (h : recordAt s ctx rec_ l = true) : RecordAt s ctx rec_ l := by
  obtain ⟨h1, h2, h3, h4⟩ := of_decide_eq_true h
  exact ⟨h1, isOk_eq h2, isOk_eq h3, h4⟩
theorem witness_RecordFields : RecordAt (spawnaLab 0x1000 1) 1 0x20200 (hbmLoc 0x200) := recordAt_of (by decide +kernel)

/-- A thread whose record at 0x20100 names the one at 0x20200 as its successor, in the list at 0x20300; that one's counter
and status are given. -/
def successorLab (join status : Nat) : State :=
  { paged with
    mem := Mem.write paged.mem (2 ^ 32 + 0x1100) (dwords [0x1000, 0x20500, BitVec.ofNat 64 (2 ^ 48), 0x20300, 1, 0, 0, 2]
      ++ List.replicate 192 0 ++ dwords [0x1000, 0x20400, BitVec.ofNat 64 (2 ^ 48 + join), 0, 0, 0, 0, BitVec.ofNat 64 status]
      ++ List.replicate 192 0 ++ dwords [0x20200])
    th := { th0 with record := 0x20100 } }
theorem witness_SuccessorsGo :
    (∀ status ∈ [0, 3], ∀ join ∈ [1, 2], let s := successorLab join status
      recordAt s 1 0x20200 (hbmLoc 0x200) = true ∧ recIsStage s 1 0x20200 = false
        ∧ recJoin s 1 0x20200 = BitVec.ofNat 32 join ∧ s.isSaved 1 0x20200 = false ∧ recStatus s 1 0x20200 = status
        ∧ recordOk s 1 0x20200 (dieFor s 1 0x20200 0) = true)
    ∧ (let s := successorLab 1 0;
      s.pushBinds = [] ∧ fld (recLink s 1 s.th.record) 15 0 = 1 ∧ recWord s 1 (recWord s 1 s.th.record 0x18) 0 = 0x20200) := by
  decide +kernel

/-- A write of the last bytes of a park's granule, and one that ends in its first. -/
theorem witness_ParkSuspends_write : let p : Park := ⟨1, 0x7F0000000400, 0, scr.cell, 16, false⟩
    let s := { lab with parks := [p] }
    p ∈ s.parks ∧ ∀ cell ∈ [scr.cell - 1, scr.cell + 15], s.lineKey (cell / 64) = 0 ∧ p.cell < cell + 2 ∧ cell < p.cell + p.len := by
  decide +kernel
theorem witness_ParkSuspends_reads : let u := (parkLab 0 0).passed
    u.denied scr.cell 0 8 = 0 ∧ u.th.acquiring u.cyc = false ∧ ∃ t, scr.space = .scr t := ⟨by decide +kernel, by decide +kernel, 0, rfl⟩

/-- A record of plain HBM in the run queue of die 0, and in a message to it. -/
def popHbm : State :=
  { successorLab 1 1 with ev := { m := 3 }, th := { key := ⟨0, 0, 0⟩ }, runq := [{ poolRec with record := 0x20200 }] }
theorem witness_DispatchEvents_start : let s := popHbm; let q := { poolRec with record := 0x20200 }
    s.ctxs.find? (fun c => c.tiles.any (fun p => p.2 = s.ev.key.tile)) = s.ctxs.head? ∧ slotIdle s s.ev.key = true
      ∧ s.ev.key.core < 4 ∧ s.ev.key.slot < 8 ∧ ctxLive s 1 = true ∧ (s.ctxs.head?.bind (fun c => headFor s c s.ev.n)) = some q
      ∧ s.th.life = .idle ∧ s.others = [] ∧ s.suspended = [] ∧ recordAt s 1 0x20200 (hbmLoc 0x200) = true
      ∧ recordOk { s with runq := s.runq.erase q } 1 0x20200 0 = true := by decide +kernel
theorem witness_DispatchEvents_message : let q := { poolRec with record := 0x20200 }
    let s := { successorLab 1 0 with migrations := [(0, [q])] }
    s.migrations.find? (fun m => m.1 = s.ev.n) = some (0, [q]) ∧ recordAt s 1 0x20200 (hbmLoc 0x200) = true
      ∧ recordOk s 1 0x20200 s.ev.n = true := by decide +kernel

/-- Port 3 of copy core 6 is a producer, and the ring at 0x20040 bound to it by this very thread. -/
theorem witness_RingTriggers_rebind :
    let s := { (ringState 0 0 0 0).map (fun t => { (t.setG 1 0x20041).set .yo 3 with bind := t.bind.set 3 ⟨true, true, 5⟩ }) with
      chans := [{ id := 5, ctx := 1, prod := some ⟨⟨0, 6, 0⟩, 3⟩ }] };
    let bound := { s with mem := Mem.write s.mem (2 ^ 32 + 0x1070) (leBytes 8 (pushWord s.passed 3).toNat) };
    Fires .ypush k0 g1 bound 0x20041 none ∧ ringReach bound.passed = true ∧ bound.passed.queueWrite 3 ≠ .error
      ∧ (ringAt s.passed (hbmLoc 0x40)).push.getLsbD 63 = false
      ∧ (ringAt bound.passed (hbmLoc 0x40)).push.getLsbD 63 = true
      ∧ (pushPort bound.passed 1 (ringAt bound.passed (hbmLoc 0x40)).push).map Port.key = some s.th.key := by decide +kernel

/-- The first three dwords of a piece in a scratchpad, and a copy that has filled a slot of a ring that releases wider. -/
theorem witness_CopyEvents_parts :
    (∀ n ∈ [0, 3, 30], let s := { copying 0 0 with ev := { n } }; let c := running 0 0;
      s.copy? s.ev.key = some c ∧ c.moves s.cyc = true ∧ c.retr < 3 ∧ c.cut ≤ c.off ∧ c.kind ≠ 1 ∧ (c.piece s 0).2.2 = 64
        ∧ pieceOk (checkPiece s c (c.piece s 0).1 (c.piece s 0).2.1 64) (hbmLoc 0) scr = true ∧ scr.space = .scr 0
        ∧ min 64 (8 * n - scr.cell % 8) = (if n = 30 then 64 else 8 * n)
        ∧ pieceBusy s c (hbmLoc 0).cell 64 = false ∧ pieceBusy s c scr.cell 64 = false)
    ∧ (let c := { running 0x20040 64 with slot := some (0, 0x20400) };
      let s := { ringState 0 0 (2 ^ 30 + 3) 0 with copies := [c], th := th0 }; let r := ringAt s (hbmLoc 0x40);
      s.copy? s.ev.key = some c ∧ c.ends s.cyc = true ∧ isOk (translate s c.agent c.ring .amo) (hbmLoc 0x40) = true
        ∧ s.earlierDone c.key c.since (max (fld c.ctl 2 0) (max (if r.push.getLsbD 63 then ringScope r else 0)
          (if r.ctl.getLsbD 30 = true then 2 else 0))) = true) := by decide +kernel
theorem witness_StreamEvents_index : let s := streamLab [{ word := 3 }] [stream [{ va := some scrVa }]];
    (streamHead s (stream [{ va := some scrVa }])).map (fun x => x.2.tag) = some false ∧ ({ va := some scrVa } : Fetch).elems = none
      ∧ ({ va := some scrVa } : Fetch).retr < 3 ∧ ({} : Fetch).elems = none ∧ ({} : Fetch).fault = none := by decide +kernel

theorem witness_PressContextTriggers_read : let s := labG 0x17;
    s.passed.denied (scrCell 0 (2 ^ 19 - 256)) 0 256 = 0 ∧ (s.passed.press 0).run = []
      ∧ (descChunks (s.passed.th.get .pa0) (s.passed.th.get .pa1) 0 (2 ^ (6 - fld 0x17 4 3)) (2 ^ (5 + fld 0x17 4 3))).all
        (fun e => s.passed.denied (scrCell 0 e) 0 16 == 0) = true := by decide +kernel
/-- 1.0 and 1.5 are numbers, and so is their sum. -/
theorem witness_RoundedValues : (fp32.value 0x3F800000).finite = true ∧ (fp32.value 0x3FC00000).finite = true
    ∧ ({ mode := 5, sat := false } : Rm).mode < 6 ∧ (fp32.value 0x3F800000).rat + (fp32.value 0x3FC00000).rat ≠ 0
    ∧ (fp32.value 0x3F800000).rat * (fp32.value 0x3FC00000).rat + (fp32.value 0x3F800000).rat ≠ 0
    ∧ 0 < (fp32.value 0x3F800000).rat := by decide +kernel
theorem witness_PressRoundsOnce : (fp32.value 0x3F800000).finite = true ∧ (FVal.num false 3 (-1)).finite = true
    ∧ (fp32.value 0x3F800000).rat + (FVal.num false 3 (-1)).rat ≠ 0
    ∧ (List.replicate 64 (List.replicate 64 (FVal.num false 3 (-1), false))).length = 64
    ∧ ∀ row ∈ List.replicate 64 (List.replicate 64 (FVal.num false 3 (-1), false)), row.length = 64 := by decide +kernel
theorem witness_PressServes_core : let s := pressLab mmaOp []; consumesLost s [(0, 0)] (0, 0) = false ∧ (0 : Nat) < 4 := by decide +kernel

theorem witness_arrays_good : labS.passed.arrayLost = false ∧ imageLab.passed.arrayLost = false
    ∧ fld (labS.passed.array ⟨0, 0⟩).status 3 0 = 0 := by decide +kernel
/-- Cell 5 adds what the source of domain 0 gives, and its increments may leave by the sink: the domain's next tick. -/
def bridgeLab (elems : List Elem) (sink : Nat) (q : BitVec 32) (d0 : Nat) : State :=
  let s := streamLab elems []
  { s with arrays := [(⟨0, 0⟩, { owner := some th0.key, src := BitVec.ofNat 64 (if d0 = 0x100 then 2 ^ 11 + 2 * 2 ^ 8 else 0)
                                 sink := BitVec.ofNat 64 sink
                                 cells := [(5, { y := 1, q, d0 := BitVec.ofNat 64 (2 ^ 13 + d0), d1 := 0x01FF01FF01FF })]
                                 doms := (Vector.replicate 8 {}).set 0 { run := true, period := 4 } })] }
def sinkWord : Nat := 2 ^ 11 + 3 * 2 ^ 8 + 5
def headOfSource (s : State) : Option (Port × Chan × Elem) := sourceHead s (s.array s.ev.key.coreKey)
/-- An element above 0 and one below, a token, and no element at the source. -/
theorem witness_ArrayTicks_source : ∀ es ∈ [[({ word := 5 } : Elem), { word := 3 }], [{ word := -5 }], [token], []],
    let s := bridgeLab es sinkWord 3 0x100; let a := s.array s.ev.key.coreKey;
    tickDue s a = true ∧ a.src.getLsbD 11 = true ∧ ((a.dom 0).run && decide ((a.dom 0).tick ≤ s.cyc)) = true
      ∧ (headOfSource s).map (fun x => x.2.2) = es.head?
      ∧ (headOfSource s).all (fun x => s.chan? x.2.1.id == some x.2.1 && x.2.1.cons.map Prod.fst == [x.1]) = true := by decide +kernel
/-- An overrun of cell 5 goes to port 3, whose channel has room; and a tick without one. -/
theorem witness_ArrayTicks_sink : ∀ q ∈ [0x7FFFFFFF, 3], let s := bridgeLab [] sinkWord (BitVec.ofNat 32 q) 0x1FE;
    let a := s.array s.ev.key.coreKey;
    tickDue s a = true ∧ headOfSource s = none ∧ a.sink.getLsbD 11 = true
      ∧ ((tickSteps s).find? (fun x => x.n = fld a.sink 7 0 ∧ x.z ≠ 0)).isSome = (q == 0x7FFFFFFF)
      ∧ tickFault s a (tickSteps s) (fun d => (a.dom d).run && decide ((a.dom d).tick ≤ s.cyc)) = none
      ∧ (ownerChan s a (fld a.sink 10 8) true).any (fun x => s.chan? x.2.id == some x.2) = true := by decide +kernel

theorem witness_HeapTriggers_heap : lab.passed.lost = [] ∧ lab.passed.th.acquiring lab.cyc = false ∧ lab.passed.replicas = [] := by
  decide +kernel
/-- A full heap of capacity 1, and offers that beat its pair and that do not. -/
theorem witness_HeapEvents_full : ∀ sc ∈ [0x40000000, 0x3F000000],
    let o := { offer0 with pair := BitVec.ofNat 64 sc };
    let s := { lab.setHeap 0 { cap := 1, ctx := 1, key := 7, pairs := [(0x3F800000, false)] } with offers := [o] };
    let h := s.heap 0;
    s.offers[s.ev.n]? = some o ∧ o.decided = none ∧ o.remote = none ∧ o.due ≤ s.cyc ∧ s.lost = [] ∧ s.closing 1 = false
      ∧ h.cap ≤ h.pairs.length ∧ h.pairs.getLast? = some (0x3F800000, false) ∧ h.cap ≠ 0 ∧ h.ctx = o.ctx ∧ h.key = o.layer
      ∧ nanScore o.pair = false ∧ beats o.pair 0x3F800000 = (sc == 0x40000000) := by decide +kernel
theorem witness_HeapEvents_order : [((9 : Word), true), (8, false)].Pairwise (fun x y => beats y.1 x.1 = false) := by decide +kernel
theorem witness_HeapEvents_acknowledged : let s := { lab with offers := [{ offer0 with decided := some 0 }] };
    s.offers.findIdx? (fun o => o.key == s.ev.key && o.decided == some 0 && decide (o.due ≤ s.cyc)
      && o.ring.all (fun x => ringPassed s x.1 x.2.1 x.2.2)) = some 0 := by decide +kernel

/-- The frame of a thread whose sequence was cut in pass 2 of its one word, six passes, and its m window waiting. -/
def sequenceWord1 : Nat := 2 ^ 63 + 0xFF * 2 ^ 22 + 2 * 2 ^ 13 + 2 ^ 6 + 5
def frameImage : List Byte :=
  dwords ((List.range 128).map (fun i => if i = 114 then BitVec.ofNat 64 sequenceWord1 else if i = 115 then 0x10000
    else if i = 82 then 0x85 else if i = 83 then 0x77 else 0))
def sequenceFrameLab : State :=
  let s := blockLab blockMove
  { s with
    mem := Mem.write (Mem.write s.mem (scrCell 0 0x400) (dwords [0x1000, 0x7F0000010000, BitVec.ofNat 64 (2 ^ 48), 0, 0, 0, 0, 0]))
      (scrCell 0 0x10500) frameImage
    th := { s.th with mode := .monitor, mtpc := 0x20, record := 0x7F0000000400 } }
theorem witness_TrapReturn_sequence : let s := sequenceFrameLab; let b := frameImage; let w := dwordAt b 0x390;
    (match s.frameOf with
      | .ok f => bytesOk (readLines s s.dev 17 (f + 0x500) 0x400) b
      | .error _ => false) = true
    ∧ imageReservedOk b = true ∧ imagePendOk b = true ∧ s.th.mtpc.toNat % 4 = 0 ∧ w.getLsbD 63 = true
    ∧ (match checkBlock { s with th := { s.th.restoreEntry b with mode := .user } } (dwordAt b 0x398) (fld w 12 10) (fld w 9 6)
        (fld w 5 0) with
      | .ok _ => true
      | _ => false) = true
    ∧ fld w 21 19 ≤ fld w 12 10 ∧ fld w 18 13 ≤ fld w 5 0 ∧ (dwordAt b 0x290).getLsbD 7 = true := by decide +kernel

/-- Stores, atomics, vld and vst: misaligned, not mapped, refused, and not admitted by the memory type. -/
def missing (e : Except Nat Loc) (k : Nat) : Bool :=
  match e with
  | .error x => x == k
  | .ok _ => false
theorem witness_AccessFaults_stores :
    (∀ r ∈ storeRows.map (fun x => (x.1, x.2.1)) ++ amoRows.map (fun x => (x.1, x.2.1)),
      Fires r.1 k0 g1 (pagedG 0x20041) 0x20041 none ∧ Fires r.1 k0 g1 (pagedG 0x40000) 0x40000 none ∧ 0x40000 % r.2 = 0
        ∧ Fires r.1 k0 g1 (pagedG 0x20040) 0x20040 none)
    ∧ (∀ need ∈ [Need.store, .amo], missing (translate (pagedG 0x40000).passed (pagedG 0x40000).passed.self 0x40000 need) 1 = true)
    ∧ (∀ p ∈ [(Need.store, 1), (.amo, 2)], let s := { pagedG 0x20040 with deny := [⟨0, 2 ^ 70, 7, 2⟩] };
      isOk (translate s.passed s.passed.self 0x20040 p.1) (hbmLoc 0x40) = true ∧ s.passed.denied (hbmLoc 0x40).cell p.2 8 = 2
        ∧ isPosted s.passed (hbmLoc 0x40) = false ∧ s.passed.th.acquiring s.cyc = false)
    ∧ isOk (translate (pagedG 0x32040).passed (pagedG 0x32040).passed.self 0x32040 .amo) (peerLoc 0x40) = true
    ∧ amoAdmits .amoCasQ (peerLoc 0x40) = false ∧ amoAdmits .amoAddW (hbmLoc 0x40) = true := by decide +kernel
theorem witness_AccessFaults_vectors : ∀ r ∈ [(VTrig.vld, Need.load, 0), (.vst, .store, 1)],
    (∀ a ∈ [0x20041, 0x40000], VFires (vOperandRegs r.1) k0 (.vec (.v 3)) (vecAt1 a) (BitVec.ofNat 512 a) none)
    ∧ (let t := (vecAt1 0x40000).vseen.advance; t.th.acquiring t.cyc = false ∧ missing (translate t t.self 0x40000 r.2.1) 1 = true)
    ∧ (let t := ({ vecAt1 0x20040 with deny := [⟨0, 2 ^ 70, 7, 2⟩] } : State).vseen.advance;
      isOk (translate t t.self 0x20040 r.2.1) (hbmLoc 0x40) = true ∧ t.denied (hbmLoc 0x40).cell r.2.2 64 = 2
        ∧ isPosted t (hbmLoc 0x40) = false) := by decide +kernel
/-- Retry-ring mode: the ring at 0x20040 has room for the entry. -/
def retryLab : State := (ringLab 0 0).map (fun t => { t.setG 1 0x40000 with mode := .user })
theorem witness_AccessFaults_ring : let s := retryLab;
    Fires .ld64 k0 g1 s 0x40000 none ∧ (s.ctx? s.th.ctx).bind Ctx.retryRing = some 0x20040
      ∧ (ringRecord s.seen (devAgent s.th.ctx) 0x20040 (List.replicate 128 0)).isSome = true
      ∧ attrOk (s.passed.th.get .lo) [0, 1] = true ∧ s.passed.th.acquiring s.cyc = false
      ∧ missing (translate s.passed s.passed.self 0x40000 .load) 1 = true := by decide +kernel

/-- A body in format for every request that names a context, from a context that is not resident. -/
def bodyFor (op : Nat) : List Nat :=
  match op with
  | 0x03 => [1, 255]
  | 0x05 => [0x20000, 0x47, 2 ^ 32]
  | 0x06 => [0x20000, 0, 2 ^ 32]
  | 0x07 => [1, 64]
  | 0x09 => [0, 64]
  | 0x0A => [0]
  | 0x0B | 0x11 => [64]
  | 0x02 | 0x1C | 0x1D => []
  | 0x12 => [0, 0]
  | 0x14 => [1024]
  | 0x19 => [1, 2, 1, 64]
  | 0x0D | 0x0E | 0x1F | 0x1B => [7, 0]
  | 0x13 => [0x200]
  | _ => [1]
theorem witness_MailboxDiscipline_resident : ∀ r ∈ requestRows, r.2.1 ∉ unnamedOps → let s := askLab lab 2 (bodyFor r.2.1);
    TakenUp r.2.1 s ∧ s.ev.req.rsv = 0 ∧ r.2.2 s.ev.req = true ∧ s.ctx? s.ev.req.ctx.toNat = none := by decide +kernel
/-- A request while another is served, and one before the mailbox is open. -/
theorem witness_MailboxDiscipline_discarded :
    (let s := { askLab lab 1 [0x200] with mail := { opened := true, busy := true } }; s.mail.busy = true ∧ s.mail.started = false)
    ∧ ({ askLab lab 1 [0x200] with mail := {} } : State).mail.opened = false
    ∧ TakenUp 0x20 { askLab lab 0 [] with ev := { (askLab lab 0 []).ev with n := 0x20 } } := by decide +kernel
theorem witness_RequestContexts_plain : lab.ckpt = none ∧ madeLab.ckpt = none ∧ ({ madeLab with ckpt := some ⟨7, 0, 0⟩ } : State).ckpt.isSome = true
    ∧ (saveAreas (List.range' ctx1.tiles.length 1) lab.hbmTop ctx1.areas).isSome = true := by decide +kernel
theorem witness_RequestQueues_number : lab.queue? 0 = none ∧ (∀ t ∈ lab.th :: lab.others, ∀ p, t.pipe = some p → p.1 ≠ 0)
    ∧ ∀ c ∈ lab.ctxs, ∀ x ∈ c.saved, ∀ p, x.pipe = some p → p.1 ≠ 0 := by
  refine ⟨by decide +kernel, ?_, ?_⟩
  · intro t ht p hp
    have : t.pipe = none := (by decide +kernel : ∀ t ∈ lab.th :: lab.others, t.pipe = none) t ht
    rw [this] at hp; cases hp
  · intro c hc x hx
    have : c.saved = [] := (by decide +kernel : ∀ c ∈ lab.ctxs, c.saved = []) c hc
    rw [this] at hx; cases hx

/-- Reserved bits of a body; a bad handle and an increment of 2^63 of a SIGNAL; COPYs on a set that is not registered, of a
length that is no multiple of 4, and of an address that is none; and a record outside HBM. -/
theorem witness_PacketErrors_bodies :
    (∀ r ∈ packetRows, let b := packetOf r.2.1 [1, 0, 0, 1, 0, 0, 1];
      headOf (packetLab lab b) r.2.1 = some (mapped, b) ∧ r.2.2 b = false)
    ∧ (∀ p ∈ [(8, 0), (7, 2 ^ 63)], let b := packetOf 4 [p.1, p.2]; let s := packetLab lab b;
      starts s 4 b = true ∧ zeros b 24 40 = true ∧ zeros b 10 6 = true
        ∧ (handleQueue s 1 (BitVec.ofNat 64 (numAt b 8 8)) = none ↔ p.1 = 8) ∧ (2 ^ 63 ≤ numAt b 16 8 ↔ p.1 = 7))
    ∧ (∀ p ∈ [(0, 4, 2 + 2 ^ 16), (0, 6, 1), (0x20001, 8, 1)], let b := packetOf 5 [p.1, 0, p.2.1, p.2.2]; let s := packetLab lab b;
      starts s 5 b = true ∧ zeros b 40 24 = true ∧ copyCtlOk (dwordAt b 32) = true ∧ s.sets = []
        ∧ (fld (dwordAt b 32) 1 0 = 2 ↔ p.2.1 = 4) ∧ (numAt b 24 8 % 4 ≠ 0 ↔ p.2.1 = 6) ∧ (fld (dwordAt b 8) 1 0 ≠ 0 ↔ p.2.1 = 8)) := by
  decide +kernel
theorem witness_PacketErrors_record : let b := packetOf 2 [0x20000];
    let s := packetLab lab b; let s := { s with ctxs := s.ctxs.map (fun c => { c with hostMax := 4 }) };
    starts s 2 b = true ∧ zeros b 16 48 = true ∧ numAt b 8 8 % 64 = 0
      ∧ (s.ctx? 1).any (fun c => decide (c.hostUsed.length < c.hostMax)) = true
      ∧ (List.range 8).all (fun d => !recordOk s 1 0x20000 d) = true := by decide +kernel
theorem witness_PacketErrors_failed : ∀ st ∈ [QState.running, .draining], let q := { mapped with st };
    ({ packetLab lab [] with queues := [q] } : State).queue? q.num = some q ∧ (7 : Nat) < 2 ^ 32 := by decide +kernel
theorem witness_image_not_allowed : let s := launchLab (image1.set 0x10 5);
    (s.ctx? 1).isSome = true ∧ (loadImage s 1 0x10000).isSome = true ∧ imageAllowed s launchCtx (image1.set 0x10 5) = false := by
  decide +kernel

theorem witness_QueueEvents_empty : ∀ st ∈ [QState.running, .parked, .error], let q := { queue1 with st, wr := 3, rd := 2 };
    let s := { lab with queues := [q], ev := { n := 8, w := BitVec.ofNat 64 (2 * 2 ^ 32 + 7) } };
    fld s.ev.w 31 16 = 0 ∧ s.queue? (fld s.ev.w 15 0) = some q ∧ q.st ≠ .draining ∧ fld s.ev.w 63 32 = q.rd := by decide +kernel
theorem witness_QueueEvents_pipeline : let p : Started := ⟨0, 1, 0, true, [], none, true, none, none⟩;
    let q := { queue1 with started := [p] };
    let s := { lab with queues := [q], ev := { n := 7 }, chans := [{ id := 5, ctx := 1, pipe := (7, 0) }] };
    s.queue? s.ev.n = some q ∧ q.started.find? (fun p => p.idx = s.ev.m) = some p ∧ p.sum = none ∧ p.finished = true
      ∧ ∀ c ∈ s.chans, c.pipe = (q.num, p.idx) → c.home = none := by decide +kernel
theorem witness_SumsAndCheckpoints_refused :
    let s := { lab with deny := [⟨hostCell 4096, 2 ^ 70, 2, 4⟩] }; s.denied (hostCell 4096) 1 imageLen ≠ 0 := by decide +kernel
theorem witness_SumsAndCheckpoints_tree : 2 ≤ [[1#32], [2], [3], [4], [5]].length ∧ ∀ b ∈ [List.replicate 4 (0#8)], b.length = 4 := by
  decide +kernel
theorem witness_BalancersAndMerges_outs : (1 : Nat) ∉ [2, 3] ∧ ([2, 3] : List Nat).Nodup ∧ (4 : Nat) ∉ [2, 3]
    ∧ (unitLab [] [] [] none).merges.all (fun m => decide (m.order.countP Option.isSome < 256)) = true := by decide +kernel

/-- An offer of another device: without the right, with no heap, with a ring to wait for, and under a wrong cookie. -/
theorem witness_PeerRequests_offers :
    (∀ d ∈ [0, 2 ^ 59], let w := { export1 with d0 := export1.d0 - BitVec.ofNat 64 d };
      w.d0.getLsbD 63 = true ∧ fld w.d0 55 43 = 5 ∧ fld w.d0 31 0 = 6 ∧ (w.d0.getLsbD 59 = true ↔ d = 0))
    ∧ (let s := remoteLab 3 0; (offerAtHeap s 1 0 7 (0x3F800000, false)).2.2 = none)
    ∧ (let s := { remoteLab 3 0 with exports := [(3, { export1 with d0 := export1.d0 + 1 })] };
      (assoc s.exports 3).all (fun w => decide (fld w.d0 31 0 ≠ s.ev.remote.cookie.toNat)) = true) := by decide +kernel
/-- The window of an export on pages that are not mapped; and a refusal of HBM, of each op. -/
theorem witness_PeerRequests_refused :
    (let w := { export1 with d1 := BitVec.ofNat 64 (2 ^ 48 + 0x99990000) };
      missing (translate hbmLab ⟨fld w.d1 63 48, false, none, false⟩ (BitVec.ofNat 64 (fld w.d1 47 12 * 4096 + 0x100)) .load) 1 = true)
    ∧ (∀ op ∈ [0, 1, 2], let s := { remoteLab op 0x100 with deny := [⟨0, 2 ^ 70, 7, 4⟩] };
      s.denied (2 ^ 32 + 2 ^ 16 + 0x1100) op 8 = 4)
    ∧ ({ remoteLab 2 0x100 with deny := [] } : State).denied (2 ^ 32 + 2 ^ 16 + 0x1100) 2 16 = 0
    ∧ isOk (translate { remoteLab 0 0x100 with ctxs := paged.ctxs, mem := paged.mem } ⟨1, false, none, false⟩ 0x31040 .load) (hostLoc 0x40)
        = true ∧ (hostLoc 0x40).space ≠ .hbm := by decide +kernel

/-- A retrain that meets a peer load and a piece of a copy, each for the first time. -/
theorem witness_LinkEvents_loads :
    let a := { accessAt true true 0 with cell := peerCell 7 3 0 };
    let s := { lab.map (fun t => { t with mem := [a] }) with copies := [running 0 0], ev := { n := 2, loads := 1, pieces := 1 } };
    isPort s.ev.n = true ∧ (s.link s.ev.n).out = false ∧ (s.link s.ev.n).retrain = none ∧ s.th.mem[0]? = some a
      ∧ (∀ t ∈ s.threads, t.retr < 2 ∧ ∀ a ∈ t.mem, a.retr < 2) ∧ (∀ c ∈ s.copies, c.retr < 2) ∧ s.streams = [] ∧ s.homeQ = []
      ∧ (s.ev.loads.testBit (loadsBefore s s.th.key + 0) = true ∧ a.viewed = true ∧ a.off = 0)
      ∧ (s.ev.pieces.testBit 0 = true ∧ (running 0 0).ring = 0 ∧ (running 0 0).off < (running 0 0).total) := by decide +kernel
/-- A buddy's write into the region reserved for it, to its last byte, and one beyond it. -/
theorem witness_LinkEvents_buddy : ∀ off ∈ [4032, 4033],
    let s := { lab with buddies := [(3, 8192, 4096)]
                        ev := { n := 4, m := 3, w := BitVec.ofNat 64 off, bytes := List.replicate 64 1, packet := ⟨1, 0, 0, 0, true⟩ } };
    (1, 0, 0, 0) ∉ s.delivered ∧ s.ev.bytes ≠ []
      ∧ (s.buddies.all (fun b => decide (b.1 = s.ev.m ∧ s.ev.w.toNat + s.ev.bytes.length ≤ b.2.2)) = (off == 4032))
      ∧ (off = 4032 → (8192 + s.ev.w.toNat) % 64 + s.ev.bytes.length ≤ 64) := by decide +kernel

/-- Two records of one die: the first may be answered, and the other not. -/
theorem witness_PolicyCoreAnswers_order : let x := { fault1 with tale := .stopped 64 }; let r := { fault1 with id := 2 };
    let s := { faultLab fault1 with policyQ := [x, r], ev := { n := 2 } };
    s.policyQ.find? (fun x => x.id = s.ev.n) = some r ∧ r.posted = false ∧ x.posted = false ∧ x ≠ r
      ∧ s.policyQ[0]? = some x ∧ s.policyQ[1]? = some r ∧ dieOf x.key.tile = dieOf r.key.tile
      ∧ (∀ y ∈ s.policyQ, y.id = r.id → y = r) ∧ mayAnswer s x = true ∧ mayAnswer (faultLab fault1) fault1 = true := by decide +kernel
theorem witness_PolicyCoreAnswers_may :
    (∀ a ∈ [some true, some false, none], let r := { fault1 with answer := a, posted := a.isSome }; mayAnswer (faultLab r) r = true)
    ∧ ({ faultLab fault1 with events := { ring := some (4096, 6) } } : State).events.room = true ∧ latch1.late = false := by
  decide +kernel

theorem witness_PreemptionSteps_overdue : let c := { ctx1 with preq := true }; let s := { lab with ctxs := [c] };
    s.ctx? s.th.ctx = some c ∧ c.quiet = false ∧ c.limit ≤ s.cyc ∧ s.th.mode = .user := by decide +kernel
theorem witness_PreemptionSteps_power : lab.ckpt = none ∧ (1 : Nat) ∉ ([] : List Nat) ∧ ctx1.preq = false
    ∧ ∀ d ∈ [ctx1, { ctx1 with num := 2, rank := 5 }], d.preq = false → d = ctx1 ∨ ctx1.rank < d.rank := by decide +kernel

/-- Strikes: a lost dword of a bank of a tile in no context, and one of HBM; rows and structures at their bounds. -/
theorem witness_SoftErrors_lost :
    (let s := { bankLab with ctxs := [] }; (0, 7) ∉ s.badBanks ∧ s.ctxs = [] ∧ ∃ x ∈ s.badBanks, x.1 = 0 ∧ x.2 / 8 = 7 / 8)
    ∧ (6 : Nat) < 7 ∧ (1535 : Nat) < 1536 ∧ (3 : Nat) < 4 ∧ (9 : Nat) < 10 ∧ lab.deny = [] ∧ lab.lost = [] ∧ lab.chans = []
    ∧ lab.events.held = [] ∧ lab.events.ring = none ∧ ({ lab with agenda := [.strike (.transient 6 1)] } : State).agenda = [.strike (.transient 6 1)] := by
  decide +kernel
theorem test_lost_until_written : let z := strikeNow { lab with ctxs := [] } (.hbm 0x1008 true);
    (z.denied 0x1008 0 8, z.denied 0x1000 0 8, (z.writeAs 0 0x1008 (leBytes 8 5)).denied 0x1008 0 8) = (4, 0, 0) := by decide +kernel

end Sys2Proof.Tests
end

section
/-! Proof of O15: enqueue, token enqueue, dequeue and peek. First what one dequeue and one enqueue do to a channel and leave
alone in the state, then how a transport that finds its queue empty, full or in error ends, then the rules assembled from
these. -/

namespace Sys2Proof.Machine

/-! ### A guard bit read after its write -/

theorem Thread.getK_setK (t : Thread) {n : BitVec 3} (b : Bool) (h : n ≠ 0) : (t.setK n b).getK n = b := by
  have hn : n.toNat < 8 := n.isLt
  have h0 : (n == 0) = false := beq_eq_false_iff_ne.mpr h
  rw [Thread.getK, Thread.setK, if_neg h, h0]
  cases b <;> simp [hn]

/-- The g registers after a write are determined by those before it. -/
theorem Thread.setG_g_congr {t u : Thread} (r : BitVec 5) (w : Word) (h : t.g = u.g) : (t.setG r w).g = (u.setG r w).g := by
  unfold Thread.setG
  split
  · exact h
  · exact congrArg (fun v => v.set r.toFin w) h

/-! ### What a state keeps when a channel changes -/

@[simp] theorem State.drawn_th (s : State) : s.drawn.th = s.th := rfl
@[simp] theorem State.drawn_mem (s : State) : s.drawn.mem = s.mem := rfl
@[simp] theorem State.drawn_chans (s : State) : s.drawn.chans = s.chans := rfl

@[simp] theorem State.mapChan_th (s : State) (id : Nat) (f : Chan → Chan) : (s.mapChan id f).th = s.th := rfl
@[simp] theorem State.mapChan_mem (s : State) (id : Nat) (f : Chan → Chan) : (s.mapChan id f).mem = s.mem := rfl

@[simp] theorem State.chanTouched_th (s : State) (c : Chan) (w : Option Nat) : (s.chanTouched c w).th = s.th := by
  unfold State.chanTouched; split <;> rfl
@[simp] theorem State.chanTouched_mem (s : State) (c : Chan) (w : Option Nat) : (s.chanTouched c w).mem = s.mem := by
  unfold State.chanTouched; split <;> rfl
@[simp] theorem State.chanTouched_chans (s : State) (c : Chan) (w : Option Nat) : (s.chanTouched c w).chans = s.chans := by
  unfold State.chanTouched; split <;> rfl

@[simp] theorem State.acquire_th (s : State) (scope : Nat) : (s.acquire scope).th = s.th := rfl
@[simp] theorem State.acquire_mem (s : State) (scope : Nat) : (s.acquire scope).mem = s.mem := rfl
@[simp] theorem State.acquire_chans (s : State) (scope : Nat) : (s.acquire scope).chans = s.chans := rfl

theorem State.chan?_congr {s t : State} (h : s.chans = t.chans) (id : Nat) : s.chan? id = t.chan? id := by
  simp only [State.chan?, h]

/-- An update of a channel that keeps its number is what a search for that number finds. -/
theorem State.chan?_mapChan (s : State) (id : Nat) {f : Chan → Chan} (hf : ∀ c, (f c).id = c.id) :
    (s.mapChan id f).chan? id = (s.chan? id).map f := by
  have hsame : ((fun c : Chan => decide (c.id = id)) ∘ fun c => if c.id = id then f c else c)
      = fun c => decide (c.id = id) := by
    funext c
    by_cases h : c.id = id <;> simp [h, hf]
  simp only [State.chan?, State.mapChan, List.find?_map, hsame]
  cases hc : s.chans.find? (fun c => decide (c.id = id)) with
  | none => rfl
  | some c =>
    have hid : c.id = id := by simpa using List.find?_some hc
    simp [hid]

/-! ### The heads of a channel's consumers -/

/-- A search for a consumer finds it, with its count. -/
theorem Chan.find?_consumer {c : Chan} {p : Port} (hp : p ∈ c.cons.map Prod.fst) :
    c.cons.find? (fun x => decide (x.1 = p)) = some (p, c.pos p) := by
  obtain ⟨x, hx, rfl⟩ := List.mem_map.mp hp
  obtain ⟨y, hy⟩ := Option.isSome_iff_exists.mp
    (List.find?_isSome.mpr ⟨x, hx, decide_eq_true rfl⟩ : (c.cons.find? (fun y => decide (y.1 = x.1))).isSome)
  have hyx : y.1 = x.1 := by simpa using List.find?_some hy
  rw [Chan.pos, hy, ← hyx]; rfl

/-- An update of the consumers' counts, read at one consumer. -/
theorem Chan.pos_of_cons_map {c c' : Chan} {f : Port × Nat → Nat} (h : c'.cons = c.cons.map (fun x => (x.1, f x)))
    {p : Port} (hp : p ∈ c.cons.map Prod.fst) : c'.pos p = f (p, c.pos p) := by
  have hfind : (c.cons.map (fun x => (x.1, f x))).find? (fun x => decide (x.1 = p))
      = (c.cons.find? (fun x => decide (x.1 = p))).map (fun x => (x.1, f x)) := List.find?_map
  rw [Chan.pos, h, hfind, Chan.find?_consumer hp]; rfl

/-- How many elements every consumer has dequeued: what `Chan.free` takes off the front. -/
def Chan.freed (c : Chan) : Nat := c.cons.foldl (fun n x => min n x.2) c.elems.length

/-- No consumer has dequeued fewer elements than leave the channel. -/
theorem Chan.freed_le_pos {c : Chan} {p : Port} (hp : p ∈ c.cons.map Prod.fst) : c.freed ≤ c.pos p := by
  have hmin : c.freed = (c.cons.map Prod.snd).foldl min c.elems.length := by rw [List.foldl_map]; rfl
  have hle := (List.min?_eq_some_iff.mp (List.min?_cons' (x := c.elems.length) (xs := c.cons.map Prod.snd))).2
  rw [hmin]
  exact hle _ (List.mem_cons_of_mem _ (List.mem_map_of_mem (List.mem_of_find?_eq_some (Chan.find?_consumer hp))))

/-- Elements that leave the channel change no consumer's head (R249). -/
theorem Chan.head?_free {c : Chan} (back : Nat) {p : Port} (hp : p ∈ c.cons.map Prod.fst) :
    (c.free back).head? p = c.head? p := by
  have hpos : (c.free back).pos p = c.pos p - c.freed := Chan.pos_of_cons_map (f := fun x => x.2 - c.freed) rfl hp
  have helems : (c.free back).elems = c.elems.drop c.freed := rfl
  have hle := Chan.freed_le_pos hp
  simp only [Chan.head?, hpos, helems, List.getElem?_drop]
  congr 1
  omega

/-- A channel in which a consumer has dequeued one more element than before; room that has come back is forgotten. -/
def Chan.counted (c : Chan) (p : Port) (now : Nat) : Chan :=
  { c with cons := c.cons.map (fun x : Port × Nat => if x.1 = p then (x.1, x.2 + 1) else x)
           room := c.room.filter (fun t => decide (now < t)) }

theorem Chan.counted_cons (c : Chan) (p : Port) (now : Nat) :
    (c.counted p now).cons = c.cons.map (fun x => (x.1, if x.1 = p then x.2 + 1 else x.2)) :=
  List.map_congr_left fun x _ => by split <;> rfl

theorem Chan.mem_counted (c : Chan) (p q : Port) (now : Nat) :
    q ∈ (c.counted p now).cons.map Prod.fst ↔ q ∈ c.cons.map Prod.fst := by
  rw [Chan.counted_cons, List.map_map]; rfl

/-- The consumer that has dequeued sees the element behind its head; the others see what they saw (R240, R249). -/
theorem Chan.head?_counted {c : Chan} (p : Port) (now : Nat) {q : Port} (hq : q ∈ c.cons.map Prod.fst) :
    (c.counted p now).head? q = if q = p then c.elems[c.pos p + 1]? else c.head? q := by
  have hpos := Chan.pos_of_cons_map (Chan.counted_cons c p now) hq
  have helems : (c.counted p now).elems = c.elems := rfl
  simp only [Chan.head?, hpos, helems]
  split
  next h => rw [h]
  next => rfl

/-- With one consumer, what it has dequeued leaves the channel. -/
theorem Chan.elems_dequeued_alone {c : Chan} {p : Port} (now back : Nat) (h : c.cons = [(p, 0)]) :
    ((c.counted p now).free back).elems = c.elems.tail := by
  have hfreed : (c.counted p now).freed = min c.elems.length 1 := by
    simp [Chan.freed, Chan.counted_cons, h]; rfl
  have helems : ((c.counted p now).free back).elems = c.elems.drop (c.counted p now).freed := rfl
  rw [helems, hfreed]
  cases c.elems with
  | nil => rfl
  | cons e es => simp

/-! ### Dequeue and enqueue at a channel -/

theorem State.dequeueAt_eq {s : State} {id : Nat} {c : Chan} (p : Port) (h : s.chan? id = some c) :
    s.dequeueAt p id = (s.drawn.chanTouched c none).mapChan id
      (fun x => (x.counted p s.cyc).free (s.landing c.latency)) := by
  simp only [State.dequeueAt, h]; rfl

theorem State.dequeueAt_keeps (s : State) (p : Port) (id : Nat) :
    (s.dequeueAt p id).th = s.th ∧ (s.dequeueAt p id).mem = s.mem := by
  cases h : s.chan? id with
  | none => simp [State.dequeueAt, h]
  | some c => simp [State.dequeueAt_eq p h]

@[simp] theorem State.dequeueAt_th (s : State) (p : Port) (id : Nat) : (s.dequeueAt p id).th = s.th :=
  (State.dequeueAt_keeps s p id).1
@[simp] theorem State.dequeueAt_mem (s : State) (p : Port) (id : Nat) : (s.dequeueAt p id).mem = s.mem :=
  (State.dequeueAt_keeps s p id).2

theorem State.chan?_dequeueAt {s : State} {id : Nat} {c : Chan} (p : Port) (h : s.chan? id = some c) :
    (s.dequeueAt p id).chan? id = some ((c.counted p s.cyc).free (s.landing c.latency)) := by
  have hsame : (s.drawn.chanTouched c none).chan? id = some c := 
    (State.chan?_congr (State.chanTouched_chans ..) id).trans h
  rw [State.dequeueAt_eq p h, State.chan?_mapChan (f := fun x => (x.counted p s.cyc).free (s.landing c.latency))
    _ _ (fun _ => rfl), hsame]; rfl

/-- R248, R249, R251: an enqueue appends its element, which can be taken once it has travelled, and not before the one
ahead of it. -/
theorem State.enqueueAt_eq {s : State} {id : Nat} {c : Chan} (w : Word) (tag sync : Bool) (h : s.chan? id = some c) :
    s.enqueueAt id w tag sync = (s.drawn.chanTouched c (some c.wr)).mapChan id (fun y => { y with
      elems := y.elems ++ [{ word := w, tag, sync
                             ready := max (s.landing c.latency) ((y.elems.getLast?.map Elem.ready).getD 0) }]
      wr := y.wr + 1 }) := by
  simp only [State.enqueueAt, h]; rfl

/-- The element stands at the end of the channel where the thread does not own its core's array (R143). -/
theorem enqueueMine_eq {s : State} {q : BitVec 3} {id : Nat} {w : Word} {tag sync : Bool}
    (h : (s.array s.th.key.coreKey).owner ≠ some s.th.key) : enqueueMine s q id w tag sync = s.enqueueAt id w tag sync := by
  simp [enqueueMine, h]

/-! ### The dequeue of a port -/

/-- A thread that has taken an element: k7 is its tag, and tlev a token's level (R12, R35). -/
def Thread.took (t : Thread) (e : Elem) : Thread :=
  if e.tag then { t.setK 7 e.tag with tlev := e.word.extractLsb' 0 3 } else t.setK 7 e.tag

theorem Thread.took_getK7 (t : Thread) (e : Elem) : (t.took e).getK 7 = e.tag := by
  have h : (t.setK 7 e.tag).getK 7 = e.tag := Thread.getK_setK _ _ (by decide)
  unfold Thread.took
  split <;> exact h

theorem Thread.took_tlev (t : Thread) (e : Elem) :
    (t.took e).tlev = if e.tag then e.word.extractLsb' 0 3 else t.tlev := by
  unfold Thread.took
  split
  · rfl
  · exact Thread.setK_tlev ..

@[simp] theorem Thread.took_g (t : Thread) (e : Elem) : (t.took e).g = t.g := by
  unfold Thread.took
  split <;> exact Thread.setK_g ..

@[simp] theorem Thread.took_pc (t : Thread) (e : Elem) : (t.took e).pc = t.pc := by
  unfold Thread.took
  split <;> exact Thread.setK_pc ..

/-- A port's dequeue is that of its channel, then the thread's, then the acquire of a synced element (R252). -/
theorem State.queueTake_eq (s : State) (q : BitVec 3) (id : Nat) (e : Elem) :
    ∃ scope, s.queueTake q id e = if e.sync then ((s.dequeueAt (s.myPort q) id).map (fun t => t.took e)).acquire scope
      else (s.dequeueAt (s.myPort q) id).map (fun t => t.took e) := ⟨_, rfl⟩

theorem State.queueTake_keeps (s : State) (q : BitVec 3) (id : Nat) (e : Elem) :
    (s.queueTake q id e).th = s.th.took e ∧ (s.queueTake q id e).mem = s.mem
      ∧ (s.queueTake q id e).chans = (s.dequeueAt (s.myPort q) id).chans := by
  obtain ⟨scope, h⟩ := State.queueTake_eq s q id e
  rw [h]
  split <;> simp

/-- R12, R240, R249: the port's next head is the element behind, no other consumer's head changes, and the element leaves
a channel of one consumer. -/
theorem State.queueTake_channel {s : State} {id : Nat} {c : Chan} (q : BitVec 3) (e : Elem) (h : s.chan? id = some c)
    (hp : s.myPort q ∈ c.cons.map Prod.fst) :
    ∃ c', (s.queueTake q id e).chan? id = some c' ∧ c'.head? (s.myPort q) = c.elems[c.pos (s.myPort q) + 1]?
      ∧ (∀ p ∈ c.cons.map Prod.fst, p ≠ s.myPort q → c'.head? p = c.head? p)
      ∧ (c.cons = [(s.myPort q, 0)] → c'.elems = c.elems.tail) := by
  have hhead (p : Port) (hm : p ∈ c.cons.map Prod.fst) :
      ((c.counted (s.myPort q) s.cyc).free (s.landing c.latency)).head? p
        = if p = s.myPort q then c.elems[c.pos (s.myPort q) + 1]? else c.head? p := by
    rw [Chan.head?_free _ ((Chan.mem_counted ..).mpr hm), Chan.head?_counted _ _ hm]
  obtain ⟨-, -, hchans⟩ := State.queueTake_keeps s q id e
  have htaken := (State.chan?_congr hchans id).trans (State.chan?_dequeueAt _ h)
  refine ⟨_, htaken, ?_, ?_, Chan.elems_dequeued_alone _ _⟩
  · rw [hhead _ hp, if_pos rfl]
  · intro p hm hne
    rw [hhead p hm, if_neg hne]

/-! ### A transport that its queue holds up -/

/-- R12: a transport that waits for a queue leaves its thread as it was, but for the hold. -/
@[simp] theorem conclude_stall_queue {isV : Bool} {trig look : Nat} {s : State} {d : Option (BitVec 3 × Nat × Elem)}
    {q : Nat} {read : Bool} : conclude isV trig look s d (.stall (.queue q read)) =
      (s.map (fun t => { t with hold := .queue q read, again := false })).unissue := rfl

/-- R248, R344: the queue-error trap, with the port's number. -/
@[simp] theorem conclude_queueError {isV : Bool} {trig look : Nat} {s : State} {d : Option (BitVec 3 × Nat × Elem)}
    {q : Nat} : conclude isV trig look s d (.queueError q) = takeTrap s { cause := 9, detail := q, mtpc := s.th.pc } := rfl

theorem withSrc_empty {trig look : Nat} {ops : List RegRef} {src : Src} {act : Word → State → Act} {s : State}
    {q : BitVec 3} (h : s.readSrc src = .empty q) : withSrc trig look ops src act s =
      (s.map (fun t => { t with hold := .queue q.toNat true, again := false })).unissue := by
  simp [withSrc, h]

theorem withSrc_qerror {trig look : Nat} {ops : List RegRef} {src : Src} {act : Word → State → Act} {s : State}
    {q : BitVec 3} (h : s.readSrc src = .qerror q) : withSrc trig look ops src act s =
      takeTrap s { cause := 9, detail := q.toNat, mtpc := s.th.pc } := by
  simp [withSrc, h]

theorem moveTo_empty {dst : SlotKey → Mode → Fate} {g : Guard} {src : Src} {act : Word → State → Act} {s : State}
    {q : BitVec 3} (hf : (srcFate s.th.key s.th.mode src).and (dst s.th.key s.th.mode) = .ok)
    (hg : s.seen.th.holds g = true) (h : s.seen.readSrc src = .empty q) :
    moveTo dst g src act s =
      .next ((s.seen.map (fun t => { t with hold := .queue q.toNat true, again := false })).unissue) := by
  rw [moveTo, issue_body (fate := fun k m => (srcFate k m src).and (dst k m)) hf hg, withSrc_empty h]

theorem moveTo_qerror {dst : SlotKey → Mode → Fate} {g : Guard} {src : Src} {act : Word → State → Act} {s : State}
    {q : BitVec 3} (hf : (srcFate s.th.key s.th.mode src).and (dst s.th.key s.th.mode) = .ok)
    (hg : s.seen.th.holds g = true) (h : s.seen.readSrc src = .qerror q) :
    moveTo dst g src act s = .next (takeTrap s.seen { cause := 9, detail := q.toNat, mtpc := s.th.pc }) := by
  rw [moveTo, issue_body (fate := fun k m => (srcFate k m src).and (dst k m)) hf hg, withSrc_qerror h, State.seen_pc]

/-! ### Reading a port -/

theorem readSrc_deq_head {s : State} {n : BitVec 3} {c : Nat} {e : Elem} (h : s.queueRead n = .head c e) :
    s.readSrc (.port (.deq n)) = .val e.word (some (n, c, e)) ∧ s.readSrc (.port (.peek n)) = .val e.word none := by
  simp [State.readSrc, State.readPort, h]

theorem readSrc_queue_empty {s : State} {n : BitVec 3} (h : s.queueRead n = .empty) :
    s.readSrc (.port (.deq n)) = .empty n ∧ s.readSrc (.port (.peek n)) = .empty n := by
  simp [State.readSrc, State.readPort, h]

theorem readSrc_queue_error {s : State} {n : BitVec 3} (h : s.queueRead n = .error) :
    s.readSrc (.port (.deq n)) = .qerror n ∧ s.readSrc (.port (.peek n)) = .qerror n := by
  simp [State.readSrc, State.readPort, h]

theorem Fate.ok_and (f : Fate) : Fate.ok.and f = f := by cases f <;> rfl

/-! ### The instructions -/

/-- A dequeue of a head into a g register: the write, then the dequeue (R12). -/
theorem exec_dequeue_head {g : Guard} {r : BitVec 5} {n : BitVec 3} {s : State} {c : Nat} {e : Elem}
    (hg : s.seen.th.holds g = true) (h : s.seen.queueRead n = .head c e) :
    exec (.dequeue g (.g r) n) s = .next ((s.passed.map (fun t => t.setG r e.word)).queueTake n c e) := by
  have hm : Moves .ok g (.port (.deq n)) s e.word (some (n, c, e)) := ⟨rfl, hg, (readSrc_deq_head h).1, rfl⟩
  exact (moveTo_moves (dst := fun k m => dstFate k m (.g r)) hm).trans (congrArg Host.Outcome.next conclude_done)

/-- A peek at a head only writes the register (R250). -/
theorem exec_peek_head {g : Guard} {r : BitVec 5} {n : BitVec 3} {s : State} {c : Nat} {e : Elem}
    (hg : s.seen.th.holds g = true) (h : s.seen.queueRead n = .head c e) :
    exec (.peek g (.g r) n) s = .next (s.passed.map (fun t => t.setG r e.word)) := by
  have hm : Moves .ok g (.port (.peek n)) s e.word none := ⟨rfl, hg, (readSrc_deq_head h).2, rfl⟩
  exact (moveTo_moves (dst := fun k m => dstFate k m (.g r)) hm).trans (congrArg Host.Outcome.next conclude_done)

/-- What a dequeue leaves in the thread, in memory and in the channel. -/
theorem dequeue_head {g : Guard} {r : BitVec 5} {n : BitVec 3} {s : State} {c : Nat} {e : Elem}
    (hg : s.seen.th.holds g = true) (h : s.seen.queueRead n = .head c e) :
    ∃ z, exec (.dequeue g (.g r) n) s = .next z ∧ z.th.getK 7 = e.tag
      ∧ z.th.tlev = (if e.tag then e.word.extractLsb' 0 3 else s.seen.th.tlev)
      ∧ z.th.g = (s.th.setG r e.word).g ∧ z.th.pc = s.th.pc + 4 ∧ z.mem = s.mem
      ∧ ∀ ch, s.chan? c = some ch → (ch.cons.map Prod.fst).Nodup → s.myPort n ∈ ch.cons.map Prod.fst →
        ∃ ch', z.chan? c = some ch' ∧ ch'.head? (s.myPort n) = ch.elems[ch.pos (s.myPort n) + 1]?
          ∧ (∀ p ∈ ch.cons.map Prod.fst, p ≠ s.myPort n → ch'.head? p = ch.head? p)
          ∧ (ch.cons = [(s.myPort n, 0)] → ch'.elems = ch.elems.tail) := by
  let w := s.passed.map (fun t => t.setG r e.word)
  obtain ⟨hth, hmem, -⟩ := State.queueTake_keeps w n c e
  refine ⟨_, exec_dequeue_head hg h, ?_, ?_, ?_, ?_, hmem, ?_⟩
  · rw [hth, Thread.took_getK7]
  · rw [hth, Thread.took_tlev]
    exact congrArg _ (Thread.setG_tlev ..)
  · rw [hth, Thread.took_g]
    exact Thread.setG_g_congr r e.word (State.seen_g s)
  · rw [hth, Thread.took_pc]
    exact (Thread.setG_pc ..).trans (congrArg (· + 4) (State.seen_pc s))
  · intro ch hch _ hp
    have hport : w.myPort n = s.myPort n := by simp [State.myPort, w]
    rw [← hport] at hp ⊢
    exact State.queueTake_channel n e hch hp

/-- R12: a dequeue or peek of an empty queue blocks, and one of a queue in error traps (R248). -/
theorem queue_source_blocked {g : Guard} {dst : SDst} {n : BitVec 3} {s : State} {i : Instr}
    (hi : i ∈ [Instr.dequeue g dst n, .peek g dst n]) (hd : dstFate s.th.key s.th.mode dst = .ok)
    (hg : s.seen.th.holds g = true) :
    (s.seen.queueRead n = .empty →
        exec i s = .next ((s.seen.map (fun t => { t with hold := .queue n.toNat true, again := false })).unissue))
      ∧ (s.seen.queueRead n = .error →
        exec i s = .next (takeTrap s.seen { cause := 9, detail := n.toNat, mtpc := s.th.pc })) := by
  have hf : Fate.ok.and (dstFate s.th.key s.th.mode dst) = .ok := (Fate.ok_and _).trans hd
  obtain rfl | rfl : i = .dequeue g dst n ∨ i = .peek g dst n := by simpa using hi
  case inl =>
    exact ⟨fun h => moveTo_empty (dst := fun k m => dstFate k m dst) hf hg (readSrc_queue_empty h).1,
      fun h => moveTo_qerror (dst := fun k m => dstFate k m dst) hf hg (readSrc_queue_error h).1⟩
  case inr =>
    exact ⟨fun h => moveTo_empty (dst := fun k m => dstFate k m dst) hf hg (readSrc_queue_empty h).2,
      fun h => moveTo_qerror (dst := fun k m => dstFate k m dst) hf hg (readSrc_queue_error h).2⟩

section
variable {g : Guard} {n : BitVec 3} {src : Src} {s : State} {w : Word} {d : Option (BitVec 3 × Nat × Elem)}

theorem exec_enqueue (h : Moves .ok g src s w d) :
    exec (.enqueue g n src) s = .next (conclude false 0 0 s.seen d (enqueueAct n w false false s.passed)) :=
  moveTo_moves (dst := fun _ _ => .ok) h

theorem exec_tokenEnqueue (h : Moves .ok g src s w d) :
    exec (.tokenEnqueue g n src) s = .next (conclude false 0 0 s.seen d (tokenAct n w s.passed)) :=
  moveTo_moves (dst := fun _ _ => .ok) h

theorem exec_enqueue_room {id : Nat} (h : Moves .ok g src s w d) (hr : s.passed.queueWrite n = .room id) :
    exec (.enqueue g n src) s = .next ((enqueueMine s.passed n id w false false).taken d) := by
  rw [exec_enqueue h, enqueueAct, hr]
  exact congrArg _ conclude_done

/-- R252: a token's release has nothing to wait for. -/
theorem exec_tokenEnqueue_room {id : Nat} (h : Moves .ok g src s w d) (hr : s.passed.queueWrite n = .room id)
    (hrel : Released s.passed 2) :
    exec (.tokenEnqueue g n src) s = .next ((enqueueMine s.passed n id (tokenWord w) true true).taken d) := by
  simp only [exec_tokenEnqueue h, tokenAct, enqueueAct, hr, releaseWait_released hrel, conclude_done]

theorem exec_enqueue_full (h : Moves .ok g src s w d) (hf : s.passed.queueWrite n = .full) :
    exec (.enqueue g n src) s =
      .next ((s.seen.map (fun t => { t with hold := .queue n.toNat false, again := false })).unissue) := by
  simp only [exec_enqueue h, enqueueAct, hf, conclude_stall_queue]

theorem exec_enqueue_error (h : Moves .ok g src s w d) (he : s.passed.queueWrite n = .error) :
    exec (.enqueue g n src) s = .next (takeTrap s.seen { cause := 9, detail := n.toNat, mtpc := s.th.pc }) := by
  simp only [exec_enqueue h, enqueueAct, he, conclude_queueError, State.seen_pc]

theorem exec_tokenEnqueue_error (h : Moves .ok g src s w d) (he : s.passed.queueWrite n = .error) :
    exec (.tokenEnqueue g n src) s = .next (takeTrap s.seen { cause := 9, detail := n.toNat, mtpc := s.th.pc }) := by
  simp only [exec_tokenEnqueue h, tokenAct, he, conclude_queueError, State.seen_pc]

end

/-! ### The rules -/

/-- R248, R249: where there is room, the element is appended, or the token with what its word names. -/
theorem enqueueAppends : Rules.EnqueueAppends := by
  intro g n src s w d id c hm hr hc
  refine ⟨exec_enqueue_room hm hr, exec_tokenEnqueue_room hm hr, fun harr => ?_⟩
  have harr' : (s.passed.array s.passed.th.key.coreKey).owner ≠ some s.passed.th.key := by
    rw [State.passed_key]
    exact harr
  exact ⟨(enqueueMine_eq harr').trans (State.enqueueAt_eq _ _ _ hc),
    (enqueueMine_eq harr').trans (State.enqueueAt_eq _ _ _ hc)⟩

/-- R12, R248 to R250: heads delivered, queues that block, and queues in error. -/
theorem queuePorts : Rules.QueuePorts :=
  ⟨fun _ _ _ _ _ _ hg h => ⟨dequeue_head hg h, exec_peek_head hg h⟩,
    fun _ _ _ _ _ hi hd hg => queue_source_blocked hi hd hg,
    fun _ _ _ _ _ _ hm => ⟨exec_enqueue_full hm, fun he => ⟨exec_enqueue_error hm he, exec_tokenEnqueue_error hm he⟩⟩⟩

/-- Settles O15: the enqueues from what an enqueue does to its channel, the dequeue and the peek from what a dequeue does
to its channel and its thread, and the blocked ones from how a transport that its queue holds up is concluded. -/
theorem queueTransports : Obligations.QueueTransports := ⟨enqueueAppends, queuePorts⟩

end Sys2Proof.Machine
end

section
/-! Proof of O58: every operation of the machine keeps its memory, and the images that checkpoints have written, in
canonical form. -/

namespace Sys2Proof.Machine

/-- An outcome that goes on goes on in a safe state. -/
def SafeOut : Out → Prop
  | .next z => z.safe = true
  | _ => True

/-- What a transport does keeps its state safe, at once and when its hold begins or its thread leaves. -/
def Act.Safe : Act → Prop
  | .done s => s.safe = true
  | .doneThen s leave => s.safe = true ∧ ∀ z : State, z.safe = true → (leave z).safe = true
  | .hold _ start => ∀ z : State, z.safe = true → (start z).safe = true
  | .faultAfter s _ _ => s.safe = true
  | _ => True

/-- A request's answer leaves a safe state. -/
def Answer.Safe : Answer → Prop
  | .no _ => True
  | .yes s _ => s.safe = true
  | .later s _ => s.safe = true

section
variable {s z : State} {o : Out}

theorem State.safe_iff : s.safe = true ↔ Mem.wf s.mem = true ∧ s.checkpoints.all (fun x => x.2.wf) = true := by
  simp [State.safe]

/-- Only the memory and the images of a state decide whether it is safe. -/
theorem State.safe_of (h : s.safe = true) (hm : z.mem = s.mem := by rfl) (hc : z.checkpoints = s.checkpoints := by rfl) :
    z.safe = true := by
  unfold State.safe at *
  rw [hm, hc]
  exact h

/-- Memory replaced by memory in canonical form. -/
theorem State.safe_setMem (h : s.safe = true) (hm : Mem.wf z.mem = true) (hc : z.checkpoints = s.checkpoints := by rfl) :
    z.safe = true := by
  rw [State.safe_iff] at *
  exact ⟨hm, hc ▸ h.2⟩

/-- The safety of a state written out, whatever its other fields. -/
@[simp] theorem State.safe_mk {cyc draws agenda ev issued vUsed rr rrRep rrX th others m hist ctxs lineKeys keyOwner keyIds keys imports
    exports tlb walks walkQ l2 l2miss ilines peerLines homeQ sigQ copies deny chans balancers merges streams xwaits
    pushes presses heaps offers published pubWin replicas arrays runq adverts migrations suspended seqRnds edges
    groups pushBinds ringOps queues parks policyQ faultSeq booted patched meas spdm mail events tables hbmTop
    groupOwner expertOwner safeTier buddies visible sets contribs links delivered kept reply peerOffers hostRead
    power badBanks badLanes badTiles retiring lost errLog ckpt c} :
    (State.mk cyc draws agenda ev issued vUsed rr rrRep rrX th others m hist ctxs lineKeys keyOwner keyIds keys imports
        exports tlb walks walkQ l2 l2miss ilines peerLines homeQ sigQ copies deny chans balancers merges streams xwaits
        pushes presses heaps offers published pubWin replicas arrays runq adverts migrations suspended seqRnds edges
        groups pushBinds ringOps queues parks policyQ faultSeq booted patched meas spdm mail events tables hbmTop
        groupOwner expertOwner safeTier buddies visible sets contribs links delivered kept reply peerOffers hostRead
        power badBanks badLanes badTiles retiring lost errLog ckpt c).safe
      = (Mem.wf m && c.all (fun x => x.2.wf)) := rfl

/-- The check folded back where it stands on one state's memory and images. -/
@[simp] theorem State.safe_fold : (Mem.wf s.mem && s.checkpoints.all (fun x => x.2.wf)) = s.safe := rfl

@[simp] theorem State.safe_ite {p : Prop} [Decidable p] : (if p then s else z).safe = if p then s.safe else z.safe :=
  apply_ite State.safe p s z

end


section
variable {s : State} {f : Fault} {r : Refusal} {h : Hold} {g : State → State} {n m : Nat} {i : W32} {w : Word}
  {u : Win} {ti : TrapInfo} {ws : List Word} {a : Await}

@[simp] theorem safeOut_next : SafeOut (.next s) ↔ s.safe = true := Iff.rfl
@[simp] theorem safeOut_fault : SafeOut (.fault f) := trivial

@[simp] theorem Act.safe_done : (Act.done s).Safe ↔ s.safe = true := Iff.rfl
@[simp] theorem Act.safe_doneThen : (Act.doneThen s g).Safe ↔
    s.safe = true ∧ ∀ z : State, z.safe = true → (g z).safe = true := Iff.rfl
@[simp] theorem Act.safe_stall : (Act.stall h).Safe := trivial
@[simp] theorem Act.safe_hold : (Act.hold h g).Safe ↔ ∀ z : State, z.safe = true → (g z).safe = true := Iff.rfl
@[simp] theorem Act.safe_wait : (Act.wait n).Safe := trivial
@[simp] theorem Act.safe_trap : (Act.trap n m i w).Safe := trivial
@[simp] theorem Act.safe_illegal : Act.illegal.Safe := trivial
@[simp] theorem Act.safe_queueError : (Act.queueError n).Safe := trivial
@[simp] theorem Act.safe_fault : (Act.fault n w).Safe := trivial
@[simp] theorem Act.safe_faultAfter : (Act.faultAfter s n w).Safe ↔ s.safe = true := Iff.rfl
@[simp] theorem Act.safe_double : Act.double.Safe := trivial
@[simp] theorem Act.safe_owing : (Act.owing u ti).Safe := trivial

@[simp] theorem Answer.safe_no : (Answer.no n).Safe := trivial
@[simp] theorem Answer.safe_yes : (Answer.yes s ws).Safe ↔ s.safe = true := Iff.rfl
@[simp] theorem Answer.safe_later : (Answer.later s a).Safe ↔ s.safe = true := Iff.rfl

end

section
variable {p : Prop} [Decidable p]

@[simp] theorem safeOut_ite {o u : Out} : SafeOut (if p then o else u) ↔ if p then SafeOut o else SafeOut u :=
  iff_of_eq (apply_ite SafeOut p o u)

@[simp] theorem Act.safe_ite {a b : Act} : (if p then a else b).Safe ↔ if p then a.Safe else b.Safe :=
  iff_of_eq (apply_ite Act.Safe p a b)

@[simp] theorem Answer.safe_ite {a b : Answer} : (if p then a else b).Safe ↔ if p then a.Safe else b.Safe :=
  iff_of_eq (apply_ite Answer.Safe p a b)

@[simp] theorem all_safe_ite {o u : Option State} :
    (if p then o else u).all State.safe = if p then o.all State.safe else u.all State.safe :=
  apply_ite (Option.all State.safe) p o u

end

/-- A fold of a step that keeps a state safe. -/
theorem foldl_safe {α : Type} {f : State → α → State} (hf : ∀ (z : State) (x : α), z.safe = true → (f z x).safe = true)
    {s : State} (h : s.safe = true) (l : List α) : (l.foldl f s).safe = true := by
  induction l generalizing s with
  | nil => exact h
  | cons x l ih => exact ih (hf s x h)

/-- What a computation that may fail gives is safe. -/
theorem safe_of_some {o : Option State} {z : State} (h : o.all State.safe = true) (hz : o = some z) : z.safe = true := by
  subst hz
  exact h

section
variable {α : Type} {o : Option α} {f : α → Option State}

@[simp] theorem all_safe_pure {z : State} : (pure z : Option State).all State.safe = z.safe := rfl

/-- What a bound computation gives is safe where each of its continuations is. -/
@[simp] theorem all_safe_bind : (o >>= f).all State.safe = true ↔ ∀ x, o = some x → (f x).all State.safe = true := by
  cases o with
  | none => simp
  | some x => exact ⟨fun h y hy => by cases hy; exact h, fun h => h x rfl⟩

@[simp] theorem all_safe_optionBind : (o.bind f).all State.safe = true ↔ ∀ x, o = some x → (f x).all State.safe = true :=
  all_safe_bind

@[simp] theorem all_safe_map {g : α → State} : (o.map g).all State.safe = true ↔ ∀ x, o = some x → (g x).safe = true := by
  cases o with
  | none => simp
  | some x => exact ⟨fun h y hy => by cases hy; exact h, fun h => h x rfl⟩

end

end Sys2Proof.Machine
end

section
/-! Proof of O58: the operations of the state and its records, a trap, and the issue of a transport. -/

namespace Sys2Proof.Machine

@[simp] theorem State.chanTouched_safe {s : State} {c : Chan} {w : Option Nat} (h : s.safe = true) :
    (State.chanTouched s c w).safe = true := by
  unfold State.chanTouched
  split <;> simp [h]

@[simp] theorem State.leaveHome_safe {s : State} {c : Chan} (h : s.safe = true) : (s.leaveHome c).safe = true := by
  unfold State.leaveHome
  split
  · exact h
  · exact foldl_safe (fun z x hz => State.safe_setMem hz (Mem.write_wf _ _ (State.safe_iff.mp hz).1)) h _

@[simp] theorem State.dropChans_safe {s : State} {p : Chan → Bool} (h : s.safe = true) :
    (s.dropChans p).safe = true :=
  State.safe_of (foldl_safe (fun _ _ hz => State.leaveHome_safe hz) h _)

@[simp] theorem State.poke_safe {s : State} {cell : Nat} {bs : List Byte} (h : s.safe = true) :
    (s.poke cell bs).safe = true :=
  State.safe_setMem h (Mem.write_wf _ _ (State.safe_iff.mp h).1)

@[simp] theorem State.writeAs_safe {s : State} {aes cell : Nat} {bs : List Byte} (h : s.safe = true) :
    (s.writeAs aes cell bs).safe = true := by
  unfold State.writeAs
  split
  · exact State.poke_safe (State.safe_setMem h (Mem.write_wf _ _ (State.safe_iff.mp h).1))
  · exact State.poke_safe h

theorem writeVA_safe {s z : State} {ag : Agent} {va : Word} {bs : List Byte} (h : s.safe = true)
    (hz : writeVA s ag va bs = .ok z) : z.safe = true := by
  unfold writeVA at hz
  split at hz
  · cases hz
  · split at hz <;> cases hz
    exact State.writeAs_safe h

theorem writeLines_safe {ag : Agent} {n : Nat} {s z : State} {va : Word} {bs : List Byte} (h : s.safe = true)
    (hz : writeLines ag n s va bs = .ok z) : z.safe = true := by
  induction n generalizing s va bs with
  | zero => cases hz; exact h
  | succ n ih =>
    unfold writeLines at hz
    split at hz
    · cases hz; exact h
    · dsimp only at hz
      split at hz
      · cases hz
      · exact ih (writeVA_safe h ‹_›) hz

@[simp] theorem State.map_safe {s : State} {f : Thread → Thread} : (State.map s f).safe = s.safe := rfl
@[simp] theorem State.draw_safe {s : State} : s.draw.2.safe = s.safe := rfl

theorem State.safe_of_draw {s z : State} {x : Nat} (h : s.safe = true) (hz : s.draw = (x, z)) : z.safe = true := by
  cases hz
  simp [h]

@[simp] theorem State.after_safe {s : State} {n : Nat} : (s.after n).2.safe = s.safe := rfl

theorem State.safe_of_after {s z : State} {n x : Nat} (h : s.safe = true) (hz : s.after n = (x, z)) :
    z.safe = true := by
  cases hz
  simp [h]

@[simp] theorem State.focus_safe {s : State} {k : SlotKey} (h : s.safe = true) :
    (s.focus k).all State.safe = true := by
  unfold State.focus
  split
  · exact h
  · split
    · rfl
    · exact h

@[simp] theorem State.mapAll_safe {s : State} {f : Thread → Thread} : (State.mapAll s f).safe = s.safe := rfl

@[simp] theorem State.mapSlot_safe {s : State} {k : SlotKey} {f : Thread → Thread} :
    (State.mapSlot s k f).safe = s.safe := rfl

@[simp] theorem State.mapCtx_safe {s : State} {n : Nat} {f : Ctx → Ctx} : (State.mapCtx s n f).safe = s.safe := rfl
@[simp] theorem State.unissue_safe {s : State} : (State.unissue s).safe = s.safe := rfl

@[simp] theorem State.launch_safe {s : State} {p : Option Latch} {lat : Nat} {r : Word} {v : Vec} {fl : Flags} :
    (State.launch s p lat r v fl).safe = s.safe := rfl

@[simp] theorem State.openWin_safe {s : State} {u : Win} {l : BitVec 4} {p : Pend} :
    (State.openWin s u l p).safe = s.safe := rfl

@[simp] theorem State.advance_safe {s : State} : (State.advance s).safe = s.safe := rfl

@[simp] theorem State.tell_safe {s : State} {ctx : Nat} {key : SlotKey} {t : Tale} :
    (State.tell s ctx key t).safe = s.safe := rfl

@[simp] theorem State.reportStop_safe {s : State} (h : s.safe = true) : s.reportStop.safe = true := by
  simp only [State.reportStop, State.tell_safe, State.map_safe]
  split
  · exact writeVA_safe h ‹_›
  · exact h

@[simp] theorem State.doubleFault_safe {s : State} (h : s.safe = true) : s.doubleFault.safe = true := by
  unfold State.doubleFault
  extract_lets s1
  have h1 : s1.safe = true := by simp [s1, h]
  split
  · exact State.reportStop_safe h1
  · exact h1

@[simp] theorem enterTrap_safe {s : State} {ti : TrapInfo} (h : s.safe = true) : (enterTrap s ti).safe = true := by
  unfold enterTrap
  extract_lets s1
  have h1 : s1.safe = true := by simp [s1, h]
  clear_value s1
  split
  · exact State.doubleFault_safe h1
  · split
    · simp [h1]
    · split
      · simp [h1]
      · next u hu =>
        have h2 : u.safe = true := writeLines_safe h1 hu
        simp [h2]

@[simp] theorem takeTrap_safe {s : State} {ti : TrapInfo} (h : s.safe = true) : (takeTrap s ti).safe = true := by
  unfold takeTrap
  simp [h]

@[simp] theorem dataError_safe {s : State} {r : RegRef} (h : s.safe = true) : (dataError s r).safe = true := by
  unfold dataError
  simp [h]

@[simp] theorem checked_safe {rs : List RegRef} {body : State → State} {s : State}
    (hbody : ∀ (y1 : State), y1.safe = true → (body y1).safe = true) (h : s.safe = true) :
    (checked rs body s).safe = true := by
  unfold checked
  split <;> simp [hbody, h]

@[simp] theorem trapHere_safe {s : State} {cause : Nat} {detail : Nat} {info : W32} {maddr : Word}
    (h : s.safe = true) : (trapHere s cause detail info maddr).safe = true := by
  unfold trapHere
  simp [h]

@[simp] theorem trapIllegal_safe {s : State} (h : s.safe = true) : (trapIllegal s).safe = true := by
  unfold trapIllegal
  simp [h]

@[simp] theorem trapPrivilege_safe {s : State} (h : s.safe = true) : (trapPrivilege s).safe = true := by
  unfold trapPrivilege
  simp [h]

@[simp] theorem returnFromTrap_safe {reread : State → Rep → Option Rep} {s : State} (h : s.safe = true) :
    (returnFromTrap reread s).safe = true := by
  simp only [returnFromTrap]
  (repeat' split) <;> simp [h]

@[simp] theorem State.round1_safe {s : State} (h : s.safe = true) : (State.round1 s).2.2.safe = true := by
  unfold State.round1
  simp [h]

@[simp] theorem State.mapChan_safe {s : State} {id : Nat} {f : Chan → Chan} : (State.mapChan s id f).safe = s.safe := rfl

@[simp] theorem State.dequeueAt_safe {s : State} {p : Port} {id : Nat} (h : s.safe = true) :
    (State.dequeueAt s p id).safe = true := by
  unfold State.dequeueAt
  split <;> simp [h]

@[simp] theorem State.enqueueAt_safe {s : State} {id : Nat} {w : Word} {tag : Bool} {sync : Bool}
    (h : s.safe = true) : (State.enqueueAt s id w tag sync).safe = true := by
  unfold State.enqueueAt
  split <;> simp [h]

@[simp] theorem State.acquireAt_safe {s : State} {k : CoreKey} {scope : Nat} :
    (State.acquireAt s k scope).safe = s.safe := rfl

@[simp] theorem State.acquire_safe {s : State} {scope : Nat} : (State.acquire s scope).safe = s.safe := rfl
@[simp] theorem State.evict_safe {s : State} {k : CoreKey} {cell : Nat} : (State.evict s k cell).safe = s.safe := rfl

@[simp] theorem State.queueTake_safe {s : State} {q : BitVec 3} {chan : Nat} {e : Elem} (h : s.safe = true) :
    (State.queueTake s q chan e).safe = true := by
  unfold State.queueTake
  simp [h]

@[simp] theorem State.performHeld_safe {s : State} (h : s.safe = true) : (State.performHeld s).safe = true := by
  simp only [State.performHeld]
  (repeat' split) <;> simp [h]

@[simp] theorem recPut_safe {s : State} {ctx : Nat} {rec : Word} {off n v : Nat} (h : s.safe = true) :
    (recPut s ctx rec off n v).safe = true := by
  unfold recPut
  split
  · exact writeVA_safe h ‹_›
  · exact h

@[simp] theorem recSetStatus_safe {s : State} {ctx : Nat} {rec : Word} {v : Nat} (h : s.safe = true) :
    (recSetStatus s ctx rec v).safe = true := by
  unfold recSetStatus
  simp [h]

@[simp] theorem recAddJoin_safe {s : State} {ctx : Nat} {rec : Word} {d : W32} (h : s.safe = true) :
    (recAddJoin s ctx rec d).safe = true := by
  unfold recAddJoin
  simp [h]

@[simp] theorem rejectRecord_safe {s : State} {ctx : Nat} {rec : Word} (h : s.safe = true) :
    (rejectRecord s ctx rec).safe = true := by
  unfold rejectRecord
  simp [h]

@[simp] theorem appendRecord_safe {s : State} {die : Nat} {ctx : Nat} {rec : Word} {waited : Nat}
    (h : s.safe = true) : (appendRecord s die ctx rec waited).safe = true := by
  unfold appendRecord
  simp [h]

@[simp] theorem State.takeEdges_safe {s : State} {k : CoreKey} {ctx : Nat} {rec : Word} :
    (State.takeEdges s k ctx rec).safe = s.safe := rfl

@[simp] theorem decrementJoin_safe {s : State} {ctx : Nat} {rec : Word} {die : Nat} (h : s.safe = true) :
    (decrementJoin s ctx rec die).safe = true := by
  unfold decrementJoin
  extract_lets s1 j parked mine s2 s3 s4
  have h1 : s1.safe = true := recAddJoin_safe h
  have h2 : s2.safe = true := foldl_safe (fun _ _ hz => by simp [hz]) h1 _
  have h3 : s3.safe = true := by simp [s3, h2]
  have h4 : s4.safe = true := by simp [s4, h1]
  clear_value s1 s3 s4
  split
  · split
    · simp [h3]
    · simp [h1, h4]
  · simp [h1]

@[simp] theorem putWords_safe {aes cell off : Nat} {old new : List Byte} {s : State} (h : s.safe = true) :
    (putWords aes cell off old new s).safe = true := by
  fun_induction putWords with
  | case1 off a0 a1 a2 a3 old b0 b1 b2 b3 new s ih =>
    refine ih ?_
    split <;> simp [h]
  | case2 => exact h

@[simp] theorem ringPut_safe {s : State} {l : Loc} {r : RingObj} (h : s.safe = true) :
    (ringPut s l r).safe = true := by
  unfold ringPut
  simp [h]

@[simp] theorem ringDrain_safe {s : State} {ctx : Nat} {l : Loc} (h : s.safe = true) :
    (ringDrain s ctx l).safe = true := by
  unfold ringDrain
  simp [h]

@[simp] theorem ringAdvance_safe {n : Nat} {s : State} {ctx : Nat} {l : Loc} (h : s.safe = true) :
    (ringAdvance n s ctx l).safe = true := by
  induction n generalizing s with
  | zero => exact h
  | succ n ih =>
    unfold ringAdvance
    extract_lets r s1 s2 s3
    have h1 : s1.safe = true := ringPut_safe h
    have h2 : s2.safe = true := by simp [s2, h1]
    have h3 : s3.safe = true := by
      unfold s3
      split
      · split
        · split <;> simp [h2]
        · exact h2
      · exact h2
    split
    · exact ih h3
    · exact h

@[simp] theorem ringFill_safe {s : State} {ctx : Nat} {l : Loc} {slot : W32} (h : s.safe = true) :
    (ringFill s ctx l slot).safe = true := by
  unfold ringFill
  simp [h]

@[simp] theorem ringFail_safe {s : State} {l : Loc} (h : s.safe = true) : (ringFail s l).safe = true := by
  unfold ringFail
  simp [h]

theorem ringClaimQ_safe {s z : State} {l : Loc} {slot : W32} (h : s.safe = true)
    (hz : ringClaim? s l = some (slot, z)) : z.safe = true := by
  unfold ringClaim? at hz
  dsimp only at hz
  split at hz <;> cases hz
  exact ringPut_safe h

theorem ringRecord_safe {s z : State} {ag : Agent} {va : Word} {record : List Byte} {slot : W32} (h : s.safe = true)
    (hz : ringRecord s ag va record = some (slot, z)) : z.safe = true := by
  unfold ringRecord at hz
  split at hz
  · cases hz
  · split at hz
    · cases hz
    · split at hz
      · cases hz
      · split at hz <;> cases hz
        exact ringFill_safe (writeLines_safe (ringClaimQ_safe h ‹_›) ‹_›)

theorem retryRingPut_safe {s z : State} {ctx : Nat} {entry : List Byte} {n : Nat} (h : s.safe = true)
    (hz : retryRingPut s ctx entry = some (n, z)) : z.safe = true := by
  unfold retryRingPut at hz
  split at hz
  · cases hz
  · obtain ⟨⟨slot, u⟩, hu, he⟩ := Option.map_eq_some_iff.mp hz
    cases he
    exact ringRecord_safe h hu

@[simp] theorem raiseFault_safe {s : State} {isV : Bool} {trig look kind : Nat} {addr at_ : Word}
    (h : s.safe = true) : (raiseFault s isV trig look kind addr at_).safe = true := by
  unfold raiseFault
  extract_lets t r toCore
  have hc : toCore.safe = true := by simp [toCore, h]
  split
  · exact hc
  · split
    · exact hc
    · next hr => simp [retryRingPut_safe h hr]

@[simp] theorem lateHold_safe {s : State} {u : Win} {r : Retry} {data : List Byte} (h : s.safe = true) :
    (lateHold s u r data).safe = true := by
  unfold lateHold
  extract_lets t r1 s1 toCore
  have h1 : s1.safe = true := by simp [s1, h]
  have hc : toCore.safe = true := by simp [toCore, h1]
  clear_value s1 toCore
  split
  · exact hc
  · split
    · next hr => simp [retryRingPut_safe h1 hr]
    · exact hc

@[simp] theorem State.flushWcb_safe {s : State} : (State.flushWcb s).safe = s.safe := rfl

@[simp] theorem conclude_safe {isV : Bool} {trig look : Nat} {s : State} {d : Option (BitVec 3 × Nat × Elem)}
    {a : Act} (h : s.safe = true) (ha : a.Safe) : (conclude isV trig look s d a).safe = true := by
  unfold conclude
  split
  · split
    · exact ha
    · exact State.queueTake_safe ha
  · obtain ⟨h1, h2⟩ := ha
    split
    · exact h2 _ h1
    · exact h2 _ (State.queueTake_safe h1)
  · simp [h]
  · simpa using ha _ h
  · simp [h]
  · simp [h]
  · simp [h]
  · next u k a => exact raiseFault_safe (by simpa using ha)
  · simp [h]
  · simp [h]

@[simp] theorem issue_safe {fate : SlotKey → Mode → Fate} {g : Guard} {body : State → State} {s : State}
    (hb : ∀ z : State, z.safe = true → (body z).safe = true) (h : s.safe = true) : SafeOut (issue fate g body s) := by
  unfold issue
  extract_lets s1
  have h1 : s1.safe = true := by simp [s1, h]
  clear_value s1
  rw [safeOut_next]
  split
  · simp [h1]
  · simp [h1]
  · split
    · exact hb _ h1
    · simp [h1]

@[simp] theorem withSrc_safe {trig look : Nat} {ops : List RegRef} {src : Src} {act : Word → State → Act} {s : State}
    (ha : ∀ (w : Word) (z : State), z.safe = true → (act w z).Safe) (h : s.safe = true) :
    (withSrc trig look ops src act s).safe = true := by
  unfold withSrc
  split
  · exact checked_safe (fun z hz => conclude_safe hz (ha _ _ hz)) h
  · exact conclude_safe h trivial
  · exact conclude_safe h trivial
  · exact conclude_safe h trivial

@[simp] theorem endWindow_safe {us : List Win} {body : State → State} {s : State}
    (hbody : ∀ (y1 : State), y1.safe = true → (body y1).safe = true) (h : s.safe = true) :
    (endWindow us body s).safe = true := by
  unfold endWindow
  simp [hbody, h]

@[simp] theorem State.holdFor_safe {s : State} {n : Nat} : (State.holdFor s n).safe = s.safe := rfl

@[simp] theorem moveTo_safe {dst : SlotKey → Mode → Fate} {g : Guard} {src : Src} {act : Word → State → Act}
    {s : State} (ha : ∀ (w : Word) (z : State), z.safe = true → (act w z).Safe) (h : s.safe = true) :
    SafeOut (moveTo dst g src act s) :=
  issue_safe (fun _ hz => withSrc_safe ha hz) h

@[simp] theorem trigger_safe {t : Trig} {look : BitVec 4} {g : Guard} {src : Src} {act : Word → State → Act}
    {s : State} (ha : ∀ (w : Word) (z : State), z.safe = true → (act w z).Safe) (h : s.safe = true) :
    SafeOut (trigger t look g src act s) :=
  issue_safe (fun _ hz => endWindow_safe (fun _ hu => withSrc_safe ha hu) hz) h

theorem onSlot_safe {f : State → Option State} {s : State}
    (hf : ∀ z : State, z.safe = true → (f z).all State.safe = true) (h : s.safe = true) : SafeOut (onSlot f s) := by
  unfold onSlot
  split
  · trivial
  · next s1 h1 =>
    split
    · next h2 => exact safe_of_some (hf s1 (safe_of_some (State.focus_safe h) h1)) h2
    · trivial

@[simp] theorem orNone_safe {o : Option State} : SafeOut (orNone o) ↔ o.all State.safe = true := by
  cases o with
  | none => simp [orNone]
  | some z => exact Iff.rfl

@[simp] theorem State.rejoin_safe {s : State} : (State.rejoin s).safe = s.safe := rfl

/-- A release that waits changes nothing. -/
theorem State.releaseWait_safe {s : State} {scope : Nat} {seq : Bool} {a : Act}
    (ha : s.releaseWait scope seq = some a) : a.Safe := by
  unfold State.releaseWait at ha
  split at ha
  · cases ha; trivial
  · split at ha
    · cases ha; trivial
    · split at ha <;> cases ha
      trivial

theorem State.releaseWait_ite_safe {s : State} {p : Prop} [Decidable p] {scope : Nat} {seq : Bool} {a : Act}
    (ha : (if p then s.releaseWait scope seq else none) = some a) : a.Safe := by
  split at ha
  · exact State.releaseWait_safe ha
  · cases ha

end Sys2Proof.Machine
end

section
/-! Proof of O58: loads, stores, atomics and waits, queues and channels, streams, arrays, heaps and copies. -/

namespace Sys2Proof.Machine

@[simp] theorem aluDone_safe {s : State} {r : Word} (h : s.safe = true) : (aluDone s r).Safe := by
  unfold aluDone
  simp [h]

@[simp] theorem alu2_safe {f : Word → Word → Word} {t : Word} {s : State} (h : s.safe = true) :
    (alu2 f t s).Safe := by
  unfold alu2
  simp [h]

@[simp] theorem actAdd_safe {w : Word} {s : State} (h : s.safe = true) : (actAdd w s).Safe := by
  unfold actAdd
  simp [h]

@[simp] theorem actSub_safe {w : Word} {s : State} (h : s.safe = true) : (actSub w s).Safe := by
  unfold actSub
  simp [h]

@[simp] theorem actAddw_safe {w : Word} {s : State} (h : s.safe = true) : (actAddw w s).Safe := by
  unfold actAddw
  simp [h]

@[simp] theorem actSubw_safe {w : Word} {s : State} (h : s.safe = true) : (actSubw w s).Safe := by
  unfold actSubw
  simp [h]

@[simp] theorem actAnd_safe {w : Word} {s : State} (h : s.safe = true) : (actAnd w s).Safe := by
  unfold actAnd
  simp [h]

@[simp] theorem actOr_safe {w : Word} {s : State} (h : s.safe = true) : (actOr w s).Safe := by
  unfold actOr
  simp [h]

@[simp] theorem actXor_safe {w : Word} {s : State} (h : s.safe = true) : (actXor w s).Safe := by
  unfold actXor
  simp [h]

@[simp] theorem actAndn_safe {w : Word} {s : State} (h : s.safe = true) : (actAndn w s).Safe := by
  unfold actAndn
  simp [h]

@[simp] theorem actShl_safe {w : Word} {s : State} (h : s.safe = true) : (actShl w s).Safe := by
  unfold actShl
  simp [h]

@[simp] theorem actShr_safe {w : Word} {s : State} (h : s.safe = true) : (actShr w s).Safe := by
  unfold actShr
  simp [h]

@[simp] theorem actSra_safe {w : Word} {s : State} (h : s.safe = true) : (actSra w s).Safe := by
  unfold actSra
  simp [h]

@[simp] theorem actShlw_safe {w : Word} {s : State} (h : s.safe = true) : (actShlw w s).Safe := by
  unfold actShlw
  simp [h]

@[simp] theorem actShrw_safe {w : Word} {s : State} (h : s.safe = true) : (actShrw w s).Safe := by
  unfold actShrw
  simp [h]

@[simp] theorem actSraw_safe {w : Word} {s : State} (h : s.safe = true) : (actSraw w s).Safe := by
  unfold actSraw
  simp [h]

@[simp] theorem actRotl_safe {w : Word} {s : State} (h : s.safe = true) : (actRotl w s).Safe := by
  unfold actRotl
  simp [h]

@[simp] theorem actMin_safe {w : Word} {s : State} (h : s.safe = true) : (actMin w s).Safe := by
  unfold actMin
  simp [h]

@[simp] theorem actMax_safe {w : Word} {s : State} (h : s.safe = true) : (actMax w s).Safe := by
  unfold actMax
  simp [h]

@[simp] theorem actMinu_safe {w : Word} {s : State} (h : s.safe = true) : (actMinu w s).Safe := by
  unfold actMinu
  simp [h]

@[simp] theorem actMaxu_safe {w : Word} {s : State} (h : s.safe = true) : (actMaxu w s).Safe := by
  unfold actMaxu
  simp [h]

@[simp] theorem actMov_safe {w : Word} {s : State} (h : s.safe = true) : (actMov w s).Safe := by
  unfold actMov
  simp [h]

@[simp] theorem actSext_safe {w : Word} {s : State} (h : s.safe = true) : (actSext w s).Safe := by
  unfold actSext
  simp [h]

@[simp] theorem actZext_safe {w : Word} {s : State} (h : s.safe = true) : (actZext w s).Safe := by
  unfold actZext
  simp [h]

@[simp] theorem actBfx_safe {t : Word} {s : State} (h : s.safe = true) : (actBfx t s).Safe := by
  unfold actBfx
  split <;> simp [h]

@[simp] theorem actClz_safe {w : Word} {s : State} (h : s.safe = true) : (actClz w s).Safe := by
  unfold actClz
  simp [h]

@[simp] theorem actCtz_safe {w : Word} {s : State} (h : s.safe = true) : (actCtz w s).Safe := by
  unfold actCtz
  simp [h]

@[simp] theorem actPopc_safe {w : Word} {s : State} (h : s.safe = true) : (actPopc w s).Safe := by
  unfold actPopc
  simp [h]

@[simp] theorem actCeq_safe {w : Word} {s : State} (h : s.safe = true) : (actCeq w s).Safe := by
  unfold actCeq
  simp [h]

@[simp] theorem actCne_safe {w : Word} {s : State} (h : s.safe = true) : (actCne w s).Safe := by
  unfold actCne
  simp [h]

@[simp] theorem actClt_safe {w : Word} {s : State} (h : s.safe = true) : (actClt w s).Safe := by
  unfold actClt
  simp [h]

@[simp] theorem actCltu_safe {w : Word} {s : State} (h : s.safe = true) : (actCltu w s).Safe := by
  unfold actCltu
  simp [h]

@[simp] theorem actCle_safe {w : Word} {s : State} (h : s.safe = true) : (actCle w s).Safe := by
  unfold actCle
  simp [h]

@[simp] theorem actCleu_safe {w : Word} {s : State} (h : s.safe = true) : (actCleu w s).Safe := by
  unfold actCleu
  simp [h]

@[simp] theorem actShl16or_safe {w : Word} {s : State} (h : s.safe = true) : (actShl16or w s).Safe := by
  unfold actShl16or
  simp [h]

@[simp] theorem mulDone_safe {f : Word → Word → Word} {t : Word} {s : State} (h : s.safe = true) :
    (mulDone f t s).Safe := by
  unfold mulDone
  simp [h]

@[simp] theorem actMul_safe {w : Word} {s : State} (h : s.safe = true) : (actMul w s).Safe := by
  unfold actMul
  simp [h]

@[simp] theorem actMulw_safe {w : Word} {s : State} (h : s.safe = true) : (actMulw w s).Safe := by
  unfold actMulw
  simp [h]

@[simp] theorem actMulh_safe {w : Word} {s : State} (h : s.safe = true) : (actMulh w s).Safe := by
  unfold actMulh
  simp [h]

@[simp] theorem actMulhu_safe {w : Word} {s : State} (h : s.safe = true) : (actMulhu w s).Safe := by
  unfold actMulhu
  simp [h]

@[simp] theorem divDone_safe {f : Word → Word → Word} {l : BitVec 4} {t : Word} {s : State} (h : s.safe = true) :
    (divDone f l t s).Safe := by
  unfold divDone
  simp [h]

@[simp] theorem actDiv_safe {l : BitVec 4} {w : Word} {s : State} (h : s.safe = true) : (actDiv l w s).Safe := by
  unfold actDiv
  simp [h]

@[simp] theorem actDivu_safe {l : BitVec 4} {w : Word} {s : State} (h : s.safe = true) : (actDivu l w s).Safe := by
  unfold actDivu
  simp [h]

@[simp] theorem actRem_safe {l : BitVec 4} {w : Word} {s : State} (h : s.safe = true) : (actRem l w s).Safe := by
  unfold actRem
  simp [h]

@[simp] theorem actRemu_safe {l : BitVec 4} {w : Word} {s : State} (h : s.safe = true) : (actRemu l w s).Safe := by
  unfold actRemu
  simp [h]

@[simp] theorem fDone_safe {s : State} {r : Word} {fl : Flags} (h : s.safe = true) : (fDone s r fl).Safe := by
  unfold fDone
  simp [h]

@[simp] theorem fRound_safe {f : Rm → Nat → Thread → Word → FRes} {t : Word} {s : State} (h : s.safe = true) :
    (fRound f t s).Safe := by
  unfold fRound
  simp [h]

@[simp] theorem actFadd_safe {w : Word} {s : State} (h : s.safe = true) : (actFadd w s).Safe := by
  unfold actFadd
  simp [h]

@[simp] theorem actFsub_safe {w : Word} {s : State} (h : s.safe = true) : (actFsub w s).Safe := by
  unfold actFsub
  simp [h]

@[simp] theorem actFmul_safe {w : Word} {s : State} (h : s.safe = true) : (actFmul w s).Safe := by
  unfold actFmul
  simp [h]

@[simp] theorem actFma_safe {w : Word} {s : State} (h : s.safe = true) : (actFma w s).Safe := by
  unfold actFma
  simp [h]

@[simp] theorem fMinMax_safe {isMax : Bool} {t : Word} {s : State} (h : s.safe = true) :
    (fMinMax isMax t s).Safe := by
  unfold fMinMax
  simp [h]

@[simp] theorem actFmin_safe {w : Word} {s : State} (h : s.safe = true) : (actFmin w s).Safe := by
  unfold actFmin
  simp [h]

@[simp] theorem actFmax_safe {w : Word} {s : State} (h : s.safe = true) : (actFmax w s).Safe := by
  unfold actFmax
  simp [h]

@[simp] theorem actFneg_safe {t : Word} {s : State} (h : s.safe = true) : (actFneg t s).Safe := by
  unfold actFneg
  simp [h]

@[simp] theorem fCompare_safe {any : Bool} {f : FVal → FVal → Bool} {t : Word} {s : State} (h : s.safe = true) :
    (fCompare any f t s).Safe := by
  unfold fCompare
  simp [h]

@[simp] theorem actFceq_safe {w : Word} {s : State} (h : s.safe = true) : (actFceq w s).Safe := by
  unfold actFceq
  simp [h]

@[simp] theorem actFclt_safe {w : Word} {s : State} (h : s.safe = true) : (actFclt w s).Safe := by
  unfold actFclt
  simp [h]

@[simp] theorem actFcle_safe {w : Word} {s : State} (h : s.safe = true) : (actFcle w s).Safe := by
  unfold actFcle
  simp [h]

@[simp] theorem fLong_safe {f : Rm → Nat → Thread → Word → FRes} {l : BitVec 4} {t : Word} {s : State}
    (h : s.safe = true) : (fLong f l t s).Safe := by
  unfold fLong
  simp [h]

@[simp] theorem actFsqrt_safe {l : BitVec 4} {w : Word} {s : State} (h : s.safe = true) : (actFsqrt l w s).Safe := by
  unfold actFsqrt
  simp [h]

@[simp] theorem actFdiv_safe {l : BitVec 4} {w : Word} {s : State} (h : s.safe = true) : (actFdiv l w s).Safe := by
  unfold actFdiv
  simp [h]

@[simp] theorem actFcvtI_safe {t : Word} {s : State} (h : s.safe = true) : (actFcvtI t s).Safe := by
  unfold actFcvtI
  simp [h]

@[simp] theorem actFcvtF_safe {w : Word} {s : State} (h : s.safe = true) : (actFcvtF w s).Safe := by
  unfold actFcvtF
  simp [h]

@[simp] theorem actFcvtBf_safe {w : Word} {s : State} (h : s.safe = true) : (actFcvtBf w s).Safe := by
  unfold actFcvtBf
  simp [h]

@[simp] theorem actFcvtE4_safe {w : Word} {s : State} (h : s.safe = true) : (actFcvtE4 w s).Safe := by
  unfold actFcvtE4
  simp [h]

@[simp] theorem actFcvtE5_safe {w : Word} {s : State} (h : s.safe = true) : (actFcvtE5 w s).Safe := by
  unfold actFcvtE5
  simp [h]

@[simp] theorem fExpand_safe {f : Fmt} {bits : Nat} {t : Word} {s : State} (h : s.safe = true) :
    (fExpand f bits t s).Safe := by
  unfold fExpand
  simp [h]

@[simp] theorem actFexpBf_safe {w : Word} {s : State} (h : s.safe = true) : (actFexpBf w s).Safe := by
  unfold actFexpBf
  simp [h]

@[simp] theorem actFexpE4_safe {w : Word} {s : State} (h : s.safe = true) : (actFexpE4 w s).Safe := by
  unfold actFexpE4
  simp [h]

@[simp] theorem actFexpE5_safe {w : Word} {s : State} (h : s.safe = true) : (actFexpE5 w s).Safe := by
  unfold actFexpE5
  simp [h]

@[simp] theorem actFclass_safe {t : Word} {s : State} (h : s.safe = true) : (actFclass t s).Safe := by
  unfold actFclass
  simp [h]

@[simp] theorem State.show_safe {s : State} {k : CoreKey} {cell : Nat} {bs : List Byte} :
    (State.show s k cell bs).safe = s.safe := rfl

theorem State.viewBytes_safe {s z : State} {cell n : Nat} {acq : Bool} {bs : List Byte} (h : s.safe = true)
    (hz : s.viewBytes cell n acq = some (bs, z)) : z.safe = true := by
  unfold State.viewBytes at hz
  dsimp only at hz
  split at hz
  · split at hz
    · split at hz <;> cases hz
      simp [h]
    · split at hz <;> cases hz <;> simp [h]
  · split at hz <;> cases hz
    simp [h]

@[simp] theorem access_safe {orders : List Nat} {n : Nat} {need : Need} {op : Nat} {same : Option (Win × Nat)}
    {a : Word} {s : State} {k : Attr → Loc → Act} {seq : Bool} {admits : Loc → Bool}
    (hk : ∀ at_ loc, (k at_ loc).Safe) : (access orders n need op same a s k seq admits).Safe := by
  unfold access
  split
  · trivial
  · split
    · trivial
    · split
      · trivial
      · split
        · trivial
        · simp [hk]

@[simp] theorem State.leave_safe {s : State} {least : Nat} (h : s.safe = true) :
    (State.leave s least).2.2.safe = true := by
  unfold State.leave
  simp [h]

@[simp] theorem launchLoad_safe {s : State} {u : Win} {seq : Bool} {n : Nat} {sext : Bool} {l : BitVec 4}
    {at_ : Attr} {va : Word} {loc : Loc} (h : s.safe = true) :
    (launchLoad s u seq n sext l at_ va loc).safe = true := by
  unfold launchLoad
  simp [h]

@[simp] theorem loadAct_safe {n : Nat} {sext : Bool} {l : BitVec 4} {a : Word} {s : State} (h : s.safe = true) :
    (loadAct n sext l a s).Safe := by
  unfold loadAct
  simp [h]

@[simp] theorem actLd8_safe {l : BitVec 4} {w : Word} {s : State} (h : s.safe = true) : (actLd8 l w s).Safe := by
  unfold actLd8
  simp [h]

@[simp] theorem actLd8u_safe {l : BitVec 4} {w : Word} {s : State} (h : s.safe = true) : (actLd8u l w s).Safe := by
  unfold actLd8u
  simp [h]

@[simp] theorem actLd16_safe {l : BitVec 4} {w : Word} {s : State} (h : s.safe = true) : (actLd16 l w s).Safe := by
  unfold actLd16
  simp [h]

@[simp] theorem actLd16u_safe {l : BitVec 4} {w : Word} {s : State} (h : s.safe = true) : (actLd16u l w s).Safe := by
  unfold actLd16u
  simp [h]

@[simp] theorem actLd32_safe {l : BitVec 4} {w : Word} {s : State} (h : s.safe = true) : (actLd32 l w s).Safe := by
  unfold actLd32
  simp [h]

@[simp] theorem actLd32u_safe {l : BitVec 4} {w : Word} {s : State} (h : s.safe = true) : (actLd32u l w s).Safe := by
  unfold actLd32u
  simp [h]

@[simp] theorem actLd64_safe {l : BitVec 4} {w : Word} {s : State} (h : s.safe = true) : (actLd64 l w s).Safe := by
  unfold actLd64
  simp [h]

@[simp] theorem actLd128_safe {l : BitVec 4} {w : Word} {s : State} (h : s.safe = true) : (actLd128 l w s).Safe := by
  unfold actLd128
  simp [h]

@[simp] theorem sendLine_safe {s : State} {e : SlotKey × Nat} : (sendLine s e).safe = s.safe := rfl

@[simp] theorem wcbRoom_safe {s : State} {line : Nat} (h : s.safe = true) : (wcbRoom s line).safe = true := by
  simp only [wcbRoom]
  (repeat' split) <;> simp [h]

@[simp] theorem State.showPosted_safe {s : State} {cell : Nat} {bs : List Byte} (h : s.safe = true) :
    (State.showPosted s cell bs).safe = true := by
  unfold State.showPosted
  simp [h]

@[simp] theorem postStore_safe {s : State} {u : Win} {at_ : Attr} {l : Loc} {va : Word} {bs : List Byte} {op : Nat}
    {seq : Bool} (h : s.safe = true) : (postStore s u at_ l va bs op seq).safe = true := by
  unfold postStore
  extract_lets line s1
  have h1 : s1.safe = true := by unfold s1; split <;> simp [h]
  clear_value s1
  split
  next at1 z hz =>
  have hz : z.safe = true := State.safe_of_after h1 hz
  extract_lets first p s2 s3
  have h2 : s2.safe = true := by unfold s2; split <;> simp [hz]
  have h3 : s3.safe = true := by simp [s3, h2]
  split
  · simp [h3]
  · exact h3

@[simp] theorem launchStore_safe {s : State} {u : Win} {seq : Bool} {bs : List Byte} {l : BitVec 4} {at_ : Attr}
    {va : Word} {loc : Loc} (h : s.safe = true) : (launchStore s u seq bs l at_ va loc).safe = true := by
  unfold launchStore
  simp [h]

@[simp] theorem storeAct_safe {u : Win} {n : Nat} {bs : List Byte} {l : BitVec 4} {a : Word} {s : State} {seq : Bool}
    (h : s.safe = true) : (storeAct u n bs l a s seq).Safe := by
  refine access_safe fun at_ loc => ?_
  split
  · next ha => exact State.releaseWait_ite_safe ha
  · simp [h]

@[simp] theorem actSt8_safe {l : BitVec 4} {a : Word} {s : State} (h : s.safe = true) : (actSt8 l a s).Safe := by
  unfold actSt8
  simp [h]

@[simp] theorem actSt16_safe {l : BitVec 4} {a : Word} {s : State} (h : s.safe = true) : (actSt16 l a s).Safe := by
  unfold actSt16
  simp [h]

@[simp] theorem actSt32_safe {l : BitVec 4} {a : Word} {s : State} (h : s.safe = true) : (actSt32 l a s).Safe := by
  unfold actSt32
  simp [h]

@[simp] theorem actSt64_safe {l : BitVec 4} {a : Word} {s : State} (h : s.safe = true) : (actSt64 l a s).Safe := by
  unfold actSt64
  simp [h]

@[simp] theorem actSt128_safe {l : BitVec 4} {a : Word} {s : State} (h : s.safe = true) : (actSt128 l a s).Safe := by
  unfold actSt128
  simp [h]

@[simp] theorem amoAct_safe {t : Trig} {l : BitVec 4} {a : Word} {s : State} (h : s.safe = true) :
    (amoAct t l a s).Safe := by
  refine access_safe fun at_ loc => ?_
  split
  · next ha => exact State.releaseWait_ite_safe ha
  · simp [h]

@[simp] theorem replayLate_safe {s : State} {r : Retry} (h : s.safe = true) : (replayLate s r).safe = true := by
  simp only [replayLate]
  (repeat' split) <;> simp [h]

@[simp] theorem actAmoAddW_safe {l : BitVec 4} {w : Word} {s : State} (h : s.safe = true) :
    (actAmoAddW l w s).Safe := by
  unfold actAmoAddW
  simp [h]

@[simp] theorem actAmoAddD_safe {l : BitVec 4} {w : Word} {s : State} (h : s.safe = true) :
    (actAmoAddD l w s).Safe := by
  unfold actAmoAddD
  simp [h]

@[simp] theorem actAmoAndW_safe {l : BitVec 4} {w : Word} {s : State} (h : s.safe = true) :
    (actAmoAndW l w s).Safe := by
  unfold actAmoAndW
  simp [h]

@[simp] theorem actAmoAndD_safe {l : BitVec 4} {w : Word} {s : State} (h : s.safe = true) :
    (actAmoAndD l w s).Safe := by
  unfold actAmoAndD
  simp [h]

@[simp] theorem actAmoOrW_safe {l : BitVec 4} {w : Word} {s : State} (h : s.safe = true) :
    (actAmoOrW l w s).Safe := by
  unfold actAmoOrW
  simp [h]

@[simp] theorem actAmoOrD_safe {l : BitVec 4} {w : Word} {s : State} (h : s.safe = true) :
    (actAmoOrD l w s).Safe := by
  unfold actAmoOrD
  simp [h]

@[simp] theorem actAmoXorW_safe {l : BitVec 4} {w : Word} {s : State} (h : s.safe = true) :
    (actAmoXorW l w s).Safe := by
  unfold actAmoXorW
  simp [h]

@[simp] theorem actAmoXorD_safe {l : BitVec 4} {w : Word} {s : State} (h : s.safe = true) :
    (actAmoXorD l w s).Safe := by
  unfold actAmoXorD
  simp [h]

@[simp] theorem actAmoMinW_safe {l : BitVec 4} {w : Word} {s : State} (h : s.safe = true) :
    (actAmoMinW l w s).Safe := by
  unfold actAmoMinW
  simp [h]

@[simp] theorem actAmoMinD_safe {l : BitVec 4} {w : Word} {s : State} (h : s.safe = true) :
    (actAmoMinD l w s).Safe := by
  unfold actAmoMinD
  simp [h]

@[simp] theorem actAmoMaxW_safe {l : BitVec 4} {w : Word} {s : State} (h : s.safe = true) :
    (actAmoMaxW l w s).Safe := by
  unfold actAmoMaxW
  simp [h]

@[simp] theorem actAmoMaxD_safe {l : BitVec 4} {w : Word} {s : State} (h : s.safe = true) :
    (actAmoMaxD l w s).Safe := by
  unfold actAmoMaxD
  simp [h]

@[simp] theorem actAmoMinuW_safe {l : BitVec 4} {w : Word} {s : State} (h : s.safe = true) :
    (actAmoMinuW l w s).Safe := by
  unfold actAmoMinuW
  simp [h]

@[simp] theorem actAmoMinuD_safe {l : BitVec 4} {w : Word} {s : State} (h : s.safe = true) :
    (actAmoMinuD l w s).Safe := by
  unfold actAmoMinuD
  simp [h]

@[simp] theorem actAmoMaxuW_safe {l : BitVec 4} {w : Word} {s : State} (h : s.safe = true) :
    (actAmoMaxuW l w s).Safe := by
  unfold actAmoMaxuW
  simp [h]

@[simp] theorem actAmoMaxuD_safe {l : BitVec 4} {w : Word} {s : State} (h : s.safe = true) :
    (actAmoMaxuD l w s).Safe := by
  unfold actAmoMaxuD
  simp [h]

@[simp] theorem actAmoSwapW_safe {l : BitVec 4} {w : Word} {s : State} (h : s.safe = true) :
    (actAmoSwapW l w s).Safe := by
  unfold actAmoSwapW
  simp [h]

@[simp] theorem actAmoSwapD_safe {l : BitVec 4} {w : Word} {s : State} (h : s.safe = true) :
    (actAmoSwapD l w s).Safe := by
  unfold actAmoSwapD
  simp [h]

@[simp] theorem actAmoCasW_safe {l : BitVec 4} {w : Word} {s : State} (h : s.safe = true) :
    (actAmoCasW l w s).Safe := by
  unfold actAmoCasW
  simp [h]

@[simp] theorem actAmoCasD_safe {l : BitVec 4} {w : Word} {s : State} (h : s.safe = true) :
    (actAmoCasD l w s).Safe := by
  unfold actAmoCasD
  simp [h]

@[simp] theorem actAmoCasQ_safe {l : BitVec 4} {w : Word} {s : State} (h : s.safe = true) :
    (actAmoCasQ l w s).Safe := by
  unfold actAmoCasQ
  simp [h]

@[simp] theorem actAmoFadd_safe {l : BitVec 4} {w : Word} {s : State} (h : s.safe = true) :
    (actAmoFadd l w s).Safe := by
  unfold actAmoFadd
  simp [h]

@[simp] theorem waitReturn_safe {s : State} {lo : Word} {x : Nat} {status : Nat} (h : s.safe = true) :
    (waitReturn s lo x status).safe = true := by
  unfold waitReturn
  simp [h]

@[simp] theorem State.dropView_safe {s : State} {l : Loc} (h : s.safe = true) : (State.dropView s l).safe = true := by
  unfold State.dropView
  simp [h]

@[simp] theorem waitAct_safe {n : Nat} {ge : Bool} {a : Word} {s : State} (h : s.safe = true) :
    (waitAct n ge a s).Safe := by
  unfold waitAct
  split
  · trivial
  · refine access_safe fun at_ loc => ?_
    simp [h]

@[simp] theorem actWaddrW_safe {w : Word} {s : State} (h : s.safe = true) : (actWaddrW w s).Safe := by
  unfold actWaddrW
  simp [h]

@[simp] theorem actWaddrD_safe {w : Word} {s : State} (h : s.safe = true) : (actWaddrD w s).Safe := by
  unfold actWaddrD
  simp [h]

@[simp] theorem actWaddrGeW_safe {w : Word} {s : State} (h : s.safe = true) : (actWaddrGeW w s).Safe := by
  unfold actWaddrGeW
  simp [h]

@[simp] theorem actWaddrGeD_safe {w : Word} {s : State} (h : s.safe = true) : (actWaddrGeD w s).Safe := by
  unfold actWaddrGeD
  simp [h]

@[simp] theorem remoteStoreFault_safe {t : Thread} : (remoteStoreFault t).Safe := by
  unfold remoteStoreFault
  simp []

theorem State.fenceWait_safe {s : State} {a : Attr} {w : Act} (hw : s.fenceWait a = some w) : w.Safe := by
  unfold State.fenceWait at hw
  split at hw
  · cases hw; trivial
  · split at hw
    · exact State.releaseWait_safe hw
    · split at hw <;> cases hw
      trivial

@[simp] theorem actFence_safe {w : Word} {s : State} (h : s.safe = true) : (actFence w s).Safe := by
  unfold actFence
  extract_lets a
  split
  · trivial
  · split
    · exact h
    · split
      · next hw => exact State.fenceWait_safe hw
      · simp [h]

@[simp] theorem discardLine_safe {s : State} {line : Nat} (h : s.safe = true) : (discardLine s line).safe = true := by
  unfold discardLine
  dsimp only
  split
  · split
    · simp [h]
    · exact State.safe_setMem h (Mem.write_wf _ _ (State.safe_iff.mp h).1)
  · simp [h]

@[simp] theorem State.evictAll_safe {s : State} {cell : Nat} : (State.evictAll s cell).safe = s.safe := rfl

@[simp] theorem maintLines_safe {op : Maint} {l : Loc} {n c : Nat} {s : State} (h : s.safe = true) :
    (maintLines op l n c s).safe = true := by
  induction n generalizing c s with
  | zero => exact h
  | succ n ih =>
    unfold maintLines
    extract_lets s1 s2
    have h1 : s1.safe = true := by unfold s1; split <;> simp [h]
    exact ih (by unfold s2; simp [h1])

@[simp] theorem maintPages_safe {op : Maint} {k : Nat} {a : Word} {n : Nat} {s : State} (h : s.safe = true) :
    (maintPages op k a n s).1.safe = true := by
  induction k generalizing a n s with
  | zero => exact h
  | succ k ih =>
    unfold maintPages
    split
    · exact h
    · dsimp only
      split
      · exact h
      · exact ih (maintLines_safe h)

@[simp] theorem maintAct_safe {op : Maint} {l : BitVec 4} {a : Word} {s : State} (h : s.safe = true) :
    (maintAct op l a s).Safe := by
  have hp := maintPages_safe (op := op) (k := (s.th.get .lo2).toNat / 4096 + 2) (a := a) (n := (s.th.get .lo2).toNat) h
  unfold maintAct
  dsimp only
  split
  · trivial
  · split
    · trivial
    · split
      · trivial
      · split
        · trivial
        · split
          · next ha => exact State.releaseWait_ite_safe ha
          · split
            · next hm => rw [hm] at hp; exact hp
            · next hm => rw [hm] at hp; simpa using hp

@[simp] theorem actDdisc_safe {l : BitVec 4} {w : Word} {s : State} (h : s.safe = true) : (actDdisc l w s).Safe := by
  unfold actDdisc
  simp [h]

@[simp] theorem actDclean_safe {l : BitVec 4} {w : Word} {s : State} (h : s.safe = true) :
    (actDclean l w s).Safe := by
  unfold actDclean
  simp [h]

@[simp] theorem actDinval_safe {l : BitVec 4} {w : Word} {s : State} (h : s.safe = true) :
    (actDinval l w s).Safe := by
  unfold actDinval
  simp [h]

@[simp] theorem State.setArray_safe {s : State} {c : CoreKey} {a : DArray} : (State.setArray s c a).safe = s.safe := rfl

@[simp] theorem tickArray_safe {s : State} {k : CoreKey} (h : s.safe = true) : (tickArray s k).safe = true := by
  simp only [tickArray]
  (repeat' split) <;> simp [h]

@[simp] theorem releaseArray_safe {s : State} {k : SlotKey} (h : s.safe = true) : (releaseArray s k).safe = true := by
  unfold releaseArray
  simp [h]

@[simp] theorem dWith_safe {s : State} {f : DArray → Act} (hf : ∀ a, (f a).Safe) : (dWith s f).Safe := by
  simp [dWith, hf]

@[simp] theorem State.putArray_safe {s : State} {a : DArray} : (State.putArray s a).safe = s.safe := rfl

@[simp] theorem actDpatch_safe {t : Word} {s : State} (h : s.safe = true) : (actDpatch t s).Safe := by
  unfold actDpatch
  simp [h]

@[simp] theorem setCellAct_safe {res : Bool} {t : Word} {s : State} (h : s.safe = true) :
    (setCellAct res t s).Safe := by
  unfold setCellAct
  simp [h]

@[simp] theorem actDsety_safe {w : Word} {s : State} (h : s.safe = true) : (actDsety w s).Safe := by
  unfold actDsety
  simp [h]

@[simp] theorem actDsetr_safe {w : Word} {s : State} (h : s.safe = true) : (actDsetr w s).Safe := by
  unfold actDsetr
  simp [h]

@[simp] theorem getCellAct_safe {res : Bool} {l : BitVec 4} {t : Word} {s : State} (h : s.safe = true) :
    (getCellAct res l t s).Safe := by
  unfold getCellAct
  simp [h]

@[simp] theorem actDgety_safe {l : BitVec 4} {w : Word} {s : State} (h : s.safe = true) : (actDgety l w s).Safe := by
  unfold actDgety
  simp [h]

@[simp] theorem actDgetr_safe {l : BitVec 4} {w : Word} {s : State} (h : s.safe = true) : (actDgetr l w s).Safe := by
  unfold actDgetr
  simp [h]

@[simp] theorem actDclk_safe {t : Word} {s : State} (h : s.safe = true) : (actDclk t s).Safe := by
  unfold actDclk
  simp [h]

@[simp] theorem actDrun_safe {t : Word} {s : State} (h : s.safe = true) : (actDrun t s).Safe := by
  refine dWith_safe fun a => ?_
  split
  · trivial
  · split
    · trivial
    · split
      · trivial
      · simp [h]

@[simp] theorem actDhalt_safe {t : Word} {s : State} (h : s.safe = true) : (actDhalt t s).Safe := by
  unfold actDhalt
  simp [h]

@[simp] theorem actDstat_safe {t : Word} {s : State} (h : s.safe = true) : (actDstat t s).Safe := by
  unfold actDstat
  simp [h]

@[simp] theorem storeLocs_safe {u : Win} {at_ : Nat} {va : Word} {ls : List (Loc × Nat)} {bs : List Byte} {s : State}
    (h : s.safe = true) : (storeLocs u at_ va ls bs s).safe = true := by
  induction ls generalizing va bs s with
  | nil => exact h
  | cons l ls ih =>
    unfold storeLocs
    extract_lets b p
    split
    · exact h
    · exact ih (by simp [h])

@[simp] theorem imageAct_safe {need : Need} {t : Word} {s : State} {f : DArray → List (Loc × Nat) → Act}
    (hf : ∀ a ls, (f a ls).Safe) : (imageAct need t s f).Safe := by
  refine dWith_safe fun a => ?_
  split
  · trivial
  · split
    · trivial
    · split
      · trivial
      · split
        · trivial
        · simp [hf]

@[simp] theorem actDsave_safe {t : Word} {s : State} (h : s.safe = true) : (actDsave t s).Safe := by
  unfold actDsave
  simp [h]

@[simp] theorem actDrest_safe {t : Word} {s : State} (h : s.safe = true) : (actDrest t s).Safe := by
  unfold actDrest
  simp [h]

@[simp] theorem execDomainTick_safe {s : State} (h : s.safe = true) : SafeOut (execDomainTick s) := by
  unfold execDomainTick
  simp [h]

theorem execIntegratorFaultTrap_safe {s : State} (h : s.safe = true) : SafeOut (execIntegratorFaultTrap s) :=
  onSlot_safe (fun z hz => by simp [hz]) h

@[simp] theorem State.setHeap_safe {s : State} {tile : Nat} {h : Heap} : (State.setHeap s tile h).safe = s.safe := rfl

@[simp] theorem overflowPair_safe {s : State} {tile : Nat} {p : Word × Bool} {reason : Nat} (h : s.safe = true) :
    (overflowPair s tile p reason).1.safe = true := by
  have hput : ∀ (on : Bool) (ring : Word) (ag : Agent) (record : List Byte) (x : State × Option RingSlot),
      (if on ∧ ring ≠ 0 then (ringRecord s ag ring record).map fun x =>
        (x.2, match translate s ag ring .amo with
          | .ok l => some (l.aes, l.cell, x.1)
          | .error _ => none) else none) = some x → x.1.safe = true := by
    intro on ring ag record x hx
    split at hx
    · obtain ⟨⟨slot, z⟩, hz, rfl⟩ := Option.map_eq_some_iff.mp hx
      exact ringRecord_safe h hz
    · cases hx
  unfold overflowPair
  extract_lets hp ag record put
  split
  · next hx => exact hput _ _ _ _ _ hx
  · split
    · next hx => exact hput _ _ _ _ _ hx
    · simp [h]

@[simp] theorem decideOffer_safe {s : State} {tile : Nat} {p : Word × Bool} (h : s.safe = true) :
    (decideOffer s tile p).1.safe = true := by
  simp only [decideOffer]
  (repeat' split) <;> simp [h]

@[simp] theorem offerAtHeap_safe {s : State} {ctx : Nat} {tile : Nat} {layer : BitVec 16} {p : Word × Bool}
    (h : s.safe = true) : (offerAtHeap s ctx tile layer p).1.safe = true := by
  simp only [offerAtHeap]
  (repeat' split) <;> simp [h]

@[simp] theorem actHinit_safe {t : Word} {s : State} (h : s.safe = true) : (actHinit t s).Safe := by
  unfold actHinit
  simp [h]

@[simp] theorem actHoffer_safe {t : Word} {s : State} (h : s.safe = true) : (actHoffer t s).Safe := by
  unfold actHoffer
  simp [h]

@[simp] theorem actHdrain_safe {t : Word} {s : State} (h : s.safe = true) : (actHdrain t s).Safe := by
  simp only [actHdrain]
  (repeat' split) <;> simp [h]

@[simp] theorem actHroute_safe {l : BitVec 4} {t : Word} {s : State} (h : s.safe = true) :
    (actHroute l t s).Safe := by
  unfold actHroute
  simp [h]

@[simp] theorem execHeapOfferArrival_safe {s : State} (h : s.safe = true) : SafeOut (execHeapOfferArrival s) := by
  simp only [execHeapOfferArrival]
  (repeat' split) <;> simp [h]

@[simp] theorem State.acked_safe {s : State} {k : SlotKey} : (State.acked s k).safe = s.safe := rfl

@[simp] theorem execOfferAcknowledgement_safe {s : State} (h : s.safe = true) :
    SafeOut (execOfferAcknowledgement s) := by
  simp only [execOfferAcknowledgement]
  (repeat' split) <;> simp [h]

@[simp] theorem execHeapCountPublish_safe {s : State} (h : s.safe = true) : SafeOut (execHeapCountPublish s) := by
  unfold execHeapCountPublish
  simp [h]

@[simp] theorem State.mapStream_safe {s : State} {c : CoreKey} {n : Nat} {f : Stream → Stream} :
    (State.mapStream s c n f).safe = s.safe := rfl

@[simp] theorem State.completeX_safe {s : State} {k : SlotKey} {at_ : Nat} {r : Option Word} :
    (State.completeX s k at_ r).safe = s.safe := rfl

@[simp] theorem startNext_safe {s : State} {c : CoreKey} {n : Nat} (h : s.safe = true) :
    (startNext s c n).safe = true := by
  unfold startNext
  (repeat' split) <;> simp [h]

@[simp] theorem endStream_safe {s : State} {c : CoreKey} {n : Nat} (h : s.safe = true) :
    (endStream s c n).safe = true := by
  unfold endStream
  split
  · exact h
  · split
    · exact h
    · extract_lets s1 mine s2
      have h1 : s1.safe = true := by simp [s1, h]
      have h2 : s2.safe = true := foldl_safe (fun _ _ hz => by simp [hz]) h1 _
      simp [h2]

@[simp] theorem actXgo_safe {l : BitVec 4} {t : Word} {s : State} (h : s.safe = true) : (actXgo l t s).Safe := by
  unfold actXgo
  simp [h]

@[simp] theorem endAct_safe {stop : Bool} {l : BitVec 4} {t : Word} {s : State} (h : s.safe = true) :
    (endAct stop l t s).Safe := by
  simp only [endAct]
  (repeat' split) <;> simp [h]

@[simp] theorem actXstop_safe {l : BitVec 4} {w : Word} {s : State} (h : s.safe = true) : (actXstop l w s).Safe := by
  unfold actXstop
  simp [h]

@[simp] theorem actXwait_safe {l : BitVec 4} {w : Word} {s : State} (h : s.safe = true) : (actXwait l w s).Safe := by
  unfold actXwait
  simp [h]

@[simp] theorem enqueueReady_safe {k : Nat} {c : CoreKey} {n : Nat} {s : State} (h : s.safe = true) :
    (enqueueReady k c n s).safe = true := by
  induction k generalizing s with
  | zero => exact h
  | succ k ih =>
    unfold enqueueReady
    split
    · exact h
    · split
      · split
        · exact h
        · refine ih ?_
          rw [State.mapStream_safe]
          split
          · exact foldl_safe (fun _ _ hz => by simp [hz]) h _
          · exact h
      · exact endStream_safe h

@[simp] theorem enqueueAll_safe {c : CoreKey} {n : Nat} {s : State} (h : s.safe = true) :
    (enqueueAll c n s).safe = true := by
  unfold enqueueAll
  simp [h]

theorem execReferenceStreamDequeue_safe {s : State} (h : s.safe = true) : SafeOut (execReferenceStreamDequeue s) := by
  simp only [execReferenceStreamDequeue, orNone_safe, all_safe_bind]
  intro st _
  split
  · simp [h]
  · rfl

theorem execReferenceFetchReturn_safe {s : State} (h : s.safe = true) : SafeOut (execReferenceFetchReturn s) := by
  simp only [execReferenceFetchReturn, orNone_safe, all_safe_bind]
  intro st _ f _ va _
  simp [h]

@[simp] theorem fetchFault_safe {s : State} {st : Stream} {f : Fetch} {va : Word} {kind : Nat} (h : s.safe = true) :
    (fetchFault s st f va kind).safe = true := by
  unfold fetchFault
  dsimp only
  split
  · next hr => simp [retryRingPut_safe h hr]
  · simp [h]

theorem execReferenceDemandFetch_safe {s : State} (h : s.safe = true) : SafeOut (execReferenceDemandFetch s) := by
  simp only [execReferenceDemandFetch, orNone_safe, all_safe_bind]
  intro st _ x _
  split <;> simp [h]

@[simp] theorem answerStream_safe {s : State} {st : Stream} {replay : Bool} (h : s.safe = true) :
    (answerStream s st replay).safe = true := by
  unfold answerStream
  (repeat' split) <;> simp [h]

@[simp] theorem withRing_safe {s : State} {va : Word} {f : Loc → RingObj → Act} (hf : ∀ l r, (f l r).Safe) :
    (withRing s va f).Safe := by
  unfold withRing
  split
  · trivial
  · split
    · trivial
    · simp [hf]

@[simp] theorem startCopy_safe {trig : Nat} {kind : Nat} {l : BitVec 4} {a : CopyArgs} {s : State}
    (h : s.safe = true) : (startCopy trig kind l a s).Safe := by
  unfold startCopy
  simp [h]

@[simp] theorem actYcopy_safe {l : BitVec 4} {t : Word} {s : State} (h : s.safe = true) : (actYcopy l t s).Safe := by
  unfold actYcopy
  simp [h]

@[simp] theorem actYcopyAdd_safe {l : BitVec 4} {t : Word} {s : State} (h : s.safe = true) :
    (actYcopyAdd l t s).Safe := by
  unfold actYcopyAdd
  simp [h]

@[simp] theorem actYmcast_safe {l : BitVec 4} {t : Word} {s : State} (h : s.safe = true) :
    (actYmcast l t s).Safe := by
  unfold actYmcast
  simp [h]

@[simp] theorem actYdesc_safe {l : BitVec 4} {t : Word} {s : State} (h : s.safe = true) : (actYdesc l t s).Safe := by
  unfold actYdesc
  (repeat' split) <;> simp [h]

@[simp] theorem ringOpNow_safe {s : State} {o : RingOp} (h : s.safe = true) : (ringOpNow s o).safe = true := by
  unfold ringOpNow
  split <;> simp [h]

@[simp] theorem ringOpDue_safe {s : State} (h : s.safe = true) : (ringOpDue s).all State.safe = true := by
  unfold ringOpDue
  simp [h]

@[simp] theorem startRingOp_safe {s : State} {l : BitVec 4} {loc : Loc} {init : Option (List Byte)}
    (h : s.safe = true) : (startRingOp s l loc init).safe = true := by
  unfold startRingOp
  simp [h]

@[simp] theorem actYring_safe {l : BitVec 4} {t : Word} {s : State} (h : s.safe = true) : (actYring l t s).Safe := by
  unfold actYring
  simp [h]

@[simp] theorem actYawait_safe {t : Word} {s : State} (h : s.safe = true) : (actYawait t s).Safe := by
  unfold actYawait
  simp [h]

@[simp] theorem actYrel_safe {l : BitVec 4} {t : Word} {s : State} (h : s.safe = true) : (actYrel l t s).Safe := by
  unfold actYrel
  split
  · trivial
  · refine withRing_safe fun loc r => ?_
    split
    · next hw => exact State.releaseWait_safe hw
    · simp [h]

@[simp] theorem actYpush_safe {l : BitVec 4} {t : Word} {s : State} (h : s.safe = true) : (actYpush l t s).Safe := by
  unfold actYpush
  extract_lets va o q chan
  split
  · trivial
  · split
    · trivial
    · refine withRing_safe fun loc r => ?_
      have hr : (ringPut s loc { r with push := pushWord s q.toNat }).safe = true := ringPut_safe h
      extract_lets s1 binds
      have h1 : s1.safe = true := by simp [s1, hr]
      clear_value s1
      split
      · trivial
      · split
        · simp [h1]
        · simp [h]

@[simp] theorem writeRun_safe {s : State} {aes n cell : Nat} {bs : List Byte} (h : s.safe = true) :
    (writeRun s aes n cell bs).safe = true := by
  induction n generalizing s cell bs with
  | zero => exact h
  | succ n ih =>
    unfold writeRun
    split
    · exact h
    · exact ih (State.writeAs_safe h)

@[simp] theorem addRun_safe {s : State} {aes cell : Nat} {bs : List Byte} {f : Flags} (h : s.safe = true) :
    (addRun s aes cell bs f).1.safe = true := by
  fun_induction addRun with
  | case1 s cell b0 b1 b2 b3 bs f m r ih => exact ih (State.writeAs_safe h)
  | case2 => exact h

@[simp] theorem State.putCopy_safe {s : State} {k : SlotKey} {c : Option Copy} :
    (State.putCopy s k c).safe = s.safe := rfl

@[simp] theorem answerCopy_safe {s : State} {c : Copy} {r : Word} {trap : Option TrapInfo} :
    (answerCopy s c r trap).safe = s.safe := rfl

@[simp] theorem endCommand_safe {s : State} {q : Nat} {i : Nat} {fail : Option Nat} :
    (endCommand s q i fail).safe = s.safe := rfl

@[simp] theorem failCopy_safe {s : State} {c : Copy} {kind : Nat} (h : s.safe = true) :
    (failCopy s c kind).safe = true := by
  unfold failCopy
  (repeat' split) <;> simp [h]

@[simp] theorem claimNow_safe {s : State} {c : Copy} (h : s.safe = true) : (claimNow s c).all State.safe = true := by
  unfold claimNow
  split
  · rfl
  · split
    · exact failCopy_safe h
    · split
      · rfl
      · next hr => simp [ringClaimQ_safe h hr]

@[simp] theorem execRingClaim_safe {s : State} (h : s.safe = true) : SafeOut (execRingClaim s) := by
  unfold execRingClaim
  simp [h]

@[simp] theorem State.evictRun_safe {s : State} {k : CoreKey} {cell : Nat} {n : Nat} :
    (State.evictRun s k cell n).safe = s.safe := rfl

@[simp] theorem pieceNow_safe {s : State} {c : Copy} {k : Nat} (h : s.safe = true) :
    (pieceNow s c k).all State.safe = true := by
  unfold pieceNow
  (repeat' split) <;> simp [h]

end Sys2Proof.Machine
end

section
/-! Proof of O58: the vector operations and repetitions, the frames and records of threads, and the task operations. -/

namespace Sys2Proof.Machine

@[simp] theorem execCopyPiece_safe {s : State} (h : s.safe = true) : SafeOut (execCopyPiece s) := by
  unfold execCopyPiece
  simp [h]

theorem execCopyComplete_safe {s : State} (h : s.safe = true) : SafeOut (execCopyComplete s) := by
  unfold execCopyComplete
  rw [orNone_safe, all_safe_bind]
  intro c _
  extract_lets s1
  have h1 : s1.safe = true := by
    unfold s1
    split
    · exact h
    · split <;> simp [h]
  clear_value s1
  split
  · rfl
  · rw [all_safe_pure]
    split <;> simp [h1]

@[simp] theorem execRingPush_safe {s : State} (h : s.safe = true) : SafeOut (execRingPush s) := by
  unfold execRingPush
  simp [h]

@[simp] theorem withVSrc_safe {trig look : Nat} {ops : List RegRef} {src : VSource} {act : Vec → State → Act}
    {s : State} (ha : ∀ (v : Vec) (z : State), z.safe = true → (act v z).Safe) (h : s.safe = true) :
    (withVSrc trig look ops src act s).safe = true := by
  unfold withVSrc
  split
  · exact checked_safe (fun z hz => conclude_safe hz (ha _ _ (by simp [hz]))) h
  · exact conclude_safe h trivial
  · exact conclude_safe h trivial
  · exact conclude_safe h trivial

@[simp] theorem State.takeV_safe {s : State} : (State.takeV s).safe = s.safe := rfl
@[simp] theorem State.takeSeq_safe {s : State} : (State.takeSeq s).safe = s.safe := rfl

@[simp] theorem vtrigger_safe {t : VTrig} {look : BitVec 4} {g : Guard} {src : VSource} {act : Vec → State → Act}
    {s : State} (ha : ∀ (v : Vec) (z : State), z.safe = true → (act v z).Safe) (h : s.safe = true) :
    SafeOut (vtrigger t look g src act s) :=
  issue_safe (fun _ hz => endWindow_safe (fun _ hu => withVSrc_safe ha hu) hz) (by simp [h])

@[simp] theorem vectorAct_safe {op : VTrig} {t : Vec} {s : State} (h : s.safe = true) : (vectorAct op t s).Safe := by
  unfold vectorAct
  simp [h]

@[simp] theorem actVld_safe {l : BitVec 4} {t : Vec} {s : State} (h : s.safe = true) : (actVld l t s).Safe := by
  unfold actVld
  simp [h]

@[simp] theorem actVst_safe {l : BitVec 4} {t : Vec} {s : State} (h : s.safe = true) : (actVst l t s).Safe := by
  unfold actVst
  simp [h]

theorem captureScalars_ok_safe {t0 : Thread} {bs : List BlockWord} {s z : State} {ws : List Word} (h : s.safe = true)
    (hz : captureScalars t0 s bs = .ok (ws, z)) : z.safe = true := by
  induction bs generalizing s ws with
  | nil => cases hz; exact h
  | cons b bs ih =>
    have hrest : ∀ (w : Word) (u : State), u.safe = true → (match captureScalars t0 u bs with
        | .ok (vs, u) => Except.ok (w :: vs, u)
        | .error a => .error a) = Except.ok (ws, z) → z.safe = true := by
      intro w u hu hm
      split at hm
      · next hc => cases hm; exact ih hu hc
      · cases hm
    unfold captureScalars at hz
    split at hz
    · exact hrest _ _ h hz
    · split at hz
      · exact hrest _ _ h hz
      · split at hz
        · exact hrest _ _ h hz
        · exact hrest _ _ (State.queueTake_safe h) hz
        · cases hz
        · cases hz
        · cases hz

/-- What stops the capture of a block's scalars changes nothing. -/
theorem captureScalars_error_safe {t0 : Thread} {bs : List BlockWord} {s : State} {a : Act}
    (ha : captureScalars t0 s bs = .error a) : a.Safe := by
  induction bs generalizing s with
  | nil => cases ha
  | cons b bs ih =>
    have hrest : ∀ (w : Word) (u : State), (match captureScalars t0 u bs with
        | .ok (vs, u) => Except.ok (w :: vs, u)
        | .error a => .error a) = Except.error a → a.Safe := by
      intro w u hm
      split at hm
      · cases hm
      · next hc => cases hm; exact ih hc
    unfold captureScalars at ha
    split at ha
    · exact hrest _ _ ha
    · split at ha
      · exact hrest _ _ ha
      · split at ha
        · exact hrest _ _ ha
        · exact hrest _ _ ha
        · cases ha; trivial
        · cases ha; trivial
        · cases ha; trivial

@[simp] theorem repAct_safe {cm1 : BitVec 6} {stride : BitVec 4} {bm1 : BitVec 3} {la : BitVec 4} {s : State}
    (h : s.safe = true) : (repAct cm1 stride bm1 la s).safe = true := by
  unfold repAct
  split
  · exact conclude_safe h trivial
  · split
    · simp [h]
    · simp [h]
    · dsimp only
      split
      · next ha => exact conclude_safe h (captureScalars_error_safe ha)
      · next hc =>
        have h1 := captureScalars_ok_safe h hc
        exact checked_safe (fun z hz => by simp [h1]) h

@[simp] theorem endSequence_safe {s : State} {next : Nat} : (endSequence s next).safe = s.safe := rfl

@[simp] theorem stepSequence_safe {s : State} {pass : Nat} {word : Nat} {next : Nat} (h : s.safe = true) :
    (stepSequence s pass word next).safe = true := by
  simp only [stepSequence]
  (repeat' split) <;> simp [h]

@[simp] theorem sequenceFault_safe {s : State} {trig : Nat} {kind : Nat} {x : Word} {at_ : Word}
    (h : s.safe = true) : (sequenceFault s trig kind x at_).safe = true := by
  unfold sequenceFault
  simp [h]

@[simp] theorem sequenceMemory_safe {s : State} {t : VTrig} {v : Vec} {pass word : Nat} (h : s.safe = true) :
    (sequenceMemory s t v pass word).safe = true := by
  unfold sequenceMemory
  extract_lets a at_ act
  have ha : act.Safe := by
    unfold act
    split
    · exact access_safe fun _ _ => by simp [h]
    · exact storeAct_safe h
  clear_value act
  split
  · have h1 := Act.safe_done.mp ha
    simp [h1]
  · exact ha.1
  · simp [h]
  · exact h
  · simp [h]
  · simp [h]
  · simp [h]
  · next s1 k x =>
    have h1 := Act.safe_faultAfter.mp ha
    exact sequenceFault_safe (by simp [h1])
  · simp [h]
  · simp [h]

@[simp] theorem sequenceWord_safe {s : State} {b : BlockWord} {pass word : Nat} (h : s.safe = true) :
    (sequenceWord s b pass word).safe = true := by
  unfold sequenceWord
  split
  · refine checked_safe (fun z hz => ?_) h
    dsimp only
    split <;> simp [hz]
  · simp [h]
  · exact h

@[simp] theorem sequenceIssue_safe {s : State} (h : s.safe = true) : (sequenceIssue s).safe = true := by
  simp only [sequenceIssue]
  (repeat' split) <;> simp [h]

@[simp] theorem State.putAccess_safe {s : State} {n : Nat} {a : Option Access} :
    (State.putAccess s n a).safe = s.safe := rfl

@[simp] theorem finishAccess_safe {s : State} {n : Nat} {a : Access} (h : s.safe = true) :
    (finishAccess s n a).safe = true := by
  unfold finishAccess
  split <;> simp [h]

@[simp] theorem failAccess_safe {s : State} {n : Nat} {a : Access} (h : s.safe = true) :
    (failAccess s n a).all State.safe = true := by
  unfold failAccess
  simp [h]

@[simp] theorem performNow_safe {s : State} {n : Nat} (h : s.safe = true) :
    (performNow s n).all State.safe = true := by
  unfold performNow
  split
  · rfl
  · split
    · exact failAccess_safe h
    · extract_lets cell k go bs s1
      have hgo : ∀ (a : Access) (z : State), z.safe = true → (go a z).safe = true := fun a z hz => by simp [go, hz]
      have h1 : s1.safe = true := State.writeAs_safe h
      split
      · rw [all_safe_map]
        rintro ⟨bs, z⟩ hz
        refine hgo _ _ ?_
        split at hz
        · exact State.viewBytes_safe h hz
        · cases hz; exact h
      · exact hgo _ _ (by simp [h1])

@[simp] theorem execRep_safe {g : Guard} {cm1 : BitVec 6} {stride : BitVec 4} {bm1 : BitVec 3} {la : BitVec 4}
    {s : State} (h : s.safe = true) : SafeOut (execRep g cm1 stride bm1 la s) := by
  unfold execRep
  extract_lets s1
  have h1 : s1.safe = true := by simp [s1, h]
  clear_value s1
  split
  · exact endWindow_safe (fun _ hz => repAct_safe hz) h1
  · simp [h1]

@[simp] theorem State.jump_safe {s : State} {pc : Word} : (State.jump s pc).safe = s.safe := rfl

@[simp] theorem execBr_safe {g : Guard} {off : BitVec 22} {s : State} (h : s.safe = true) :
    SafeOut (execBr g off s) :=
  issue_safe (fun _ hz => by simp [hz]) h

@[simp] theorem execBrl_safe {g : Guard} {off : BitVec 22} {s : State} (h : s.safe = true) :
    SafeOut (execBrl g off s) :=
  issue_safe (fun _ hz => by simp [hz]) h

@[simp] theorem execNop_safe {g : Guard} {s : State} (h : s.safe = true) : SafeOut (execNop g s) :=
  issue_safe (fun _ hz => by simp [hz]) h

@[simp] theorem jumpAct_safe {link : Bool} {t : Word} {s : State} (h : s.safe = true) : (jumpAct link t s).Safe := by
  unfold jumpAct
  simp [h]

@[simp] theorem actJr_safe {w : Word} {s : State} (h : s.safe = true) : (actJr w s).Safe := by
  unfold actJr
  simp [h]

@[simp] theorem actJrl_safe {w : Word} {s : State} (h : s.safe = true) : (actJrl w s).Safe := by
  unfold actJrl
  simp [h]

@[simp] theorem State.place_safe {s : State} {t : Thread} : (State.place s t).safe = s.safe := rfl
@[simp] theorem State.freeSlot_safe {s : State} : (State.freeSlot s).safe = s.safe := rfl

@[simp] theorem saveFrame_safe {s : State} {resume : Word} {wd : List Word} (h : s.safe = true) :
    (saveFrame s resume wd).all State.safe = true := by
  unfold saveFrame
  split
  · rfl
  · split
    · rfl
    · next hw =>
      have h1 := writeLines_safe h hw
      simp [h1]

@[simp] theorem savePreempted_safe {s : State} {resume : Word} {wd : List Word} {c : Word × List Word}
    (h : s.safe = true) : (savePreempted s resume wd c).safe = true := by
  unfold savePreempted
  split
  · exact State.doubleFault_safe h
  · next u hu =>
    have h1 : u.safe = true := safe_of_some (saveFrame_safe h) hu
    simp [h1]

@[simp] theorem suspendTask_safe {s : State} {status : Nat} {sr : Option Word} (h : s.safe = true) :
    (suspendTask s status sr).safe = true := by
  unfold suspendTask
  extract_lets s1
  have h1 : s1.safe = true := by unfold s1; split <;> simp [h]
  split
  · exact State.doubleFault_safe h1
  · next u hu =>
    have h2 : u.safe = true := safe_of_some (saveFrame_safe h1) hu
    simp [h2]

@[simp] theorem restoreLatch_safe {s : State} {r : Retry} {look : Nat} (h : s.safe = true) :
    (restoreLatch s r look).safe = true := by
  unfold restoreLatch
  simp [h]

@[simp] theorem State.asHeld_safe {s : State} : (State.asHeld s).safe = s.safe := rfl

@[simp] theorem waitAfresh_safe {s : State} (h : s.safe = true) : (waitAfresh s).safe = true := by
  unfold waitAfresh
  (repeat' split) <;> simp [h]

@[simp] theorem resumeThread_safe {s : State} {key : SlotKey} {ctx : Nat} {rec : Word} {pipe : Option (Nat × Nat)}
    {look : Nat} (h : s.safe = true) : (resumeThread s key ctx rec pipe look).safe = true := by
  unfold resumeThread
  extract_lets f t mine s1
  split
  · simp [h]
  · next bs _ =>
    extract_lets t1 s2 hold s3 s4 s5 s6
    have h2 : s2.safe = true := by simp [s2, s1, h]
    have h3 : s3.safe = true := by simp [s3, h2]
    have h4 : s4.safe = true := by unfold s4; split <;> simp [h3]
    have h5 : s5.safe = true := by simp [s5, h4]
    have h6 : s6.safe = true := by
      clear_value s5 hold
      unfold s6
      split <;> simp [h5]
    clear_value s6
    split
    · split <;> simp [h6]
    · exact h6

@[simp] theorem State.sResult_safe {s : State} {lat : Nat} {w : Word} : (State.sResult s lat w).safe = s.safe := rfl

@[simp] theorem wakeGroup_safe {s : State} {grp : Nat} {phase : Bool} (h : s.safe = true) :
    (wakeGroup s grp phase).safe = true := by
  unfold wakeGroup
  extract_lets past s1
  have h1 : s1.safe = true := foldl_safe (fun _ _ hz => by simp [hz]) h _
  simp [h1]

@[simp] theorem setGroup_safe {s : State} {grp : Nat} {g : Group} : (setGroup s grp g).safe = s.safe := rfl

@[simp] theorem checkGroup_safe {s : State} {grp : Nat} {g : Group} (h : s.safe = true) :
    (checkGroup s grp g).safe = true := by
  unfold checkGroup
  simp [h]

@[simp] theorem arrive_safe {s : State} {ctx : Nat} {grp : Nat} (h : s.safe = true) :
    (arrive s ctx grp).safe = true := by
  unfold arrive
  simp [h]

@[simp] theorem release_safe {r : Release} {s : State} (h : s.safe = true) : (release r s).safe = true := by
  unfold release
  split <;> simp [h]

@[simp] theorem releaseNow_safe {s : State} (h : s.safe = true) : (releaseNow s).all State.safe = true := by
  unfold releaseNow
  split <;> simp [h]

@[simp] theorem State.releasing_safe {s : State} {r : Release} (h : s.safe = true) : (s.releasing r).safe = true := by
  unfold State.releasing
  extract_lets s1
  have h1 : s1.safe = true := by simp [s1, h]
  split
  · cases hr : releaseNow s1 with
    | none => exact h1
    | some z => exact safe_of_some (releaseNow_safe h1) hr
  · exact h1

@[simp] theorem actSpawn_safe {t : Word} {s : State} (h : s.safe = true) : (actSpawn t s).Safe := by
  unfold actSpawn
  split
  · trivial
  · split
    · trivial
    · extract_lets th die
      split
      · simp [h]
      · extract_lets free
        split
        next x z hz =>
          have hd : z.safe = true := State.safe_of_draw h hz
          split
          · simp [hd]
          · extract_lets bytes s1 s2 s3 s4 s5
            have h1 : s1.safe = true := by
              unfold s1
              split
              · next hw => exact writeLines_safe hd hw
              · exact hd
            clear_value s1
            have h3 : s3.safe = true := by simp [s3, s2, h1]
            have h5 : s5.safe = true := by simp [s5, s4, h3]
            simp [hd, h5]

@[simp] theorem actSpawna_safe {t : Word} {s : State} (h : s.safe = true) : (actSpawna t s).Safe := by
  unfold actSpawna
  extract_lets th die own ctl ctl' s1 s2 s3
  have h1 : s1.safe = true := recPut_safe h
  have h3 : s3.safe = true := by simp [s3, s2, h1]
  clear_value s3
  split
  · trivial
  · split
    · trivial
    · split
      · trivial
      · split
        · trivial
        · split
          · trivial
          · split
            · trivial
            · split
              · trivial
              · split <;> simp [h, h3]

@[simp] theorem leaveGroup_safe {s : State} {grp : Nat} (h : s.safe = true) : (leaveGroup s grp).safe = true := by
  unfold leaveGroup
  (repeat' split) <;> simp [h]

@[simp] theorem actGbar_safe {t : Word} {s : State} (h : s.safe = true) : (actGbar t s).Safe := by
  unfold actGbar
  split
  · trivial
  · extract_lets grp ph
    split
    · simp [h]
    · split
      · next hw => exact State.releaseWait_safe hw
      · simp [h]

@[simp] theorem actGarrive_safe {t : Word} {s : State} (h : s.safe = true) : (actGarrive t s).Safe := by
  unfold actGarrive
  split <;> simp [h]

@[simp] theorem successor_safe {s : State} {ctx : Nat} {die : Nat} {entry : Word} (h : s.safe = true) :
    (successor s ctx die entry).safe = true := by
  unfold successor
  simp [h]

@[simp] theorem successors_safe {ctx die n : Nat} {e : Word} {s : State} (h : s.safe = true) :
    (successors ctx die n e s).safe = true := by
  induction n generalizing e s with
  | zero => exact h
  | succ n ih => exact ih (successor_safe h)

@[simp] theorem clearPushes_safe {s : State} (h : s.safe = true) : (clearPushes s).safe = true := by
  unfold clearPushes
  extract_lets mine s1
  have h1 : s1.safe = true := by
    refine foldl_safe (fun z b hz => ?_) h _
    split <;> simp [hz]
  simp [h1]

@[simp] theorem packetRetire_safe {s : State} {t : Thread} : (packetRetire s t).safe = s.safe := rfl

@[simp] theorem endPipe_safe {s : State} {t : Thread} (h : s.safe = true) : (endPipe s t).safe = true := by
  unfold endPipe
  split <;> simp [h]

@[simp] theorem retire_safe {s : State} (h : s.safe = true) : (retire s).safe = true := by
  unfold retire
  extract_lets t stage link s1 s2 s3 s4 s5
  have h1 : s1.safe = true := by simp [s1, h]
  have h2 : s2.safe = true := successors_safe h1
  have h3 : s3.safe = true := by
    unfold s3
    split
    · exact foldl_safe (fun _ _ hz => leaveGroup_safe hz) h2 _
    · exact h2
  have h5 : s5.safe = true := by simp [s5, s4, h3]
  simp [h5]

@[simp] theorem actDone_safe {w : Word} {s : State} (h : s.safe = true) : (actDone w s).Safe := by
  unfold actDone
  split
  · trivial
  · split
    · trivial
    · next hw => exact State.releaseWait_safe hw
    · split
      · trivial
      · exact ⟨h, fun _ hz => retire_safe hz⟩

theorem suspendWait_safe {s : State} {a : Act} (ha : suspendWait s = some a) : a.Safe := by
  unfold suspendWait at ha
  split at ha
  · cases ha; trivial
  · split at ha
    · cases ha; trivial
    · exact State.releaseWait_safe ha

@[simp] theorem State.quiet_safe {s : State} (h : s.safe = true) : (State.quiet s).safe = true := by
  unfold State.quiet
  simp [h]

@[simp] theorem actYield_safe {w : Word} {s : State} (h : s.safe = true) : (actYield w s).Safe := by
  unfold actYield
  extract_lets t
  split
  · exact h
  · split
    · next hw => exact suspendWait_safe hw
    · refine ⟨h, fun z hz => ?_⟩
      have h1 : (suspendTask z.quiet 1 none).safe = true := by simp [hz]
      simp [h1]

@[simp] theorem actJoin_safe {w : Word} {s : State} (h : s.safe = true) : (actJoin w s).Safe := by
  unfold actJoin
  extract_lets t
  split
  · simp [h]
  · split
    · split
      · next hw => exact State.releaseWait_safe hw
      · simp [h]
    · split
      · next hw => exact suspendWait_safe hw
      · exact ⟨h, fun z hz => by simp [hz]⟩

@[simp] theorem actPark_safe {t : Word} {s : State} (h : s.safe = true) : (actPark t s).Safe := by
  unfold actPark
  extract_lets th
  split
  · trivial
  · split
    · trivial
    · extract_lets ok
      split
      · trivial
      · split
        · trivial
        · split
          · trivial
          · split
            · simp [h]
            · split
              extract_lets reg
              have hreg : ∀ z : State, (reg z).safe = z.safe := fun z => by simp [reg]
              split
              · split
                · next hw => exact State.releaseWait_safe hw
                · simp [hreg, h]
              · split
                · next hw => exact suspendWait_safe hw
                · refine ⟨h, fun z hz => ?_⟩
                  beta_reduce
                  extract_lets z1
                  have h1 : z1.safe = true := by simp [z1, hz]
                  split
                  · rw [hreg]; exact h1
                  · exact h1

@[simp] theorem actPyield_safe {w : Word} {s : State} (h : s.safe = true) : (actPyield w s).Safe := by
  unfold actPyield
  split
  · exact h
  · split
    · next hw => exact suspendWait_safe hw
    · exact ⟨h, fun z hz => by simp [hz]⟩

@[simp] theorem actSleep_safe {t : Word} {s : State} (h : s.safe = true) : (actSleep t s).Safe := by
  unfold actSleep
  simp [h]

end Sys2Proof.Machine
end

section
/-! Proof of O58: signals, the system operations, events of the core and of memory, dispatch units, and the mailbox. -/

namespace Sys2Proof.Machine

@[simp] theorem State.mapQueue_safe {s : State} {n : Nat} {f : SwQueue → SwQueue} :
    (State.mapQueue s n f).safe = s.safe := rfl

@[simp] theorem actSigAdd_safe {l : BitVec 4} {t : Word} {s : State} (h : s.safe = true) :
    (actSigAdd l t s).Safe := by
  unfold actSigAdd
  dsimp only
  split
  · trivial
  · split
    · trivial
    · split
      · trivial
      · split
        · next ha => exact State.releaseWait_ite_safe ha
        · simp [h]

@[simp] theorem actSigWait_safe {t : Word} {s : State} (h : s.safe = true) : (actSigWait t s).Safe := by
  unfold actSigWait
  dsimp only
  split
  · trivial
  · split
    · trivial
    · split
      · split
        · exact ⟨h, fun z hz => takeTrap_safe hz⟩
        · simp [h]
      · split <;> simp [h]

@[simp] theorem State.answerL_safe {s : State} {k : SlotKey} {f : Pend → Pend} :
    (State.answerL s k f).safe = s.safe := rfl

@[simp] theorem wakeParked_safe {s : State} {n : Nat} {t : Word} : (wakeParked s n t).safe = s.safe := rfl

@[simp] theorem addTimeline_safe {s : State} {n : Nat} {u : Word} (h : s.safe = true) :
    (addTimeline s n u).safe = true := by
  simp only [addTimeline]
  (repeat' split) <;> simp [h]

@[simp] theorem execSignalUnitAdd_safe {s : State} (h : s.safe = true) : SafeOut (execSignalUnitAdd s) := by
  simp only [execSignalUnitAdd]
  (repeat' split) <;> simp [h]

@[simp] theorem sigWaitEnd_safe {late : Bool} {s : State} (h : s.safe = true) :
    (sigWaitEnd late s).all State.safe = true := by
  unfold sigWaitEnd
  split <;> simp [h]

theorem execSigWaitWake_safe {s : State} (h : s.safe = true) : SafeOut (execSigWaitWake s) :=
  onSlot_safe (fun _ hz => sigWaitEnd_safe hz) h

theorem execSigWaitTimeout_safe {s : State} (h : s.safe = true) : SafeOut (execSigWaitTimeout s) :=
  onSlot_safe (fun _ hz => sigWaitEnd_safe hz) h

@[simp] theorem actTrap_safe {t : Word} {s : State} : (actTrap t s).Safe := by
  unfold actTrap
  simp

@[simp] theorem actTret_safe {w : Word} {s : State} (h : s.safe = true) : (actTret w s).Safe := by
  unfold actTret
  split
  · trivial
  · split
    · trivial
    · exact ⟨h, fun z hz => returnFromTrap_safe hz⟩

@[simp] theorem actTfence_safe {w : Word} {s : State} (h : s.safe = true) : (actTfence w s).Safe := by
  unfold actTfence
  simp [h]

@[simp] theorem actIdle_safe {t : Word} {s : State} (h : s.safe = true) : (actIdle t s).Safe := by
  unfold actIdle
  simp [h]

theorem execIdleWake_safe {s : State} (h : s.safe = true) : SafeOut (execIdleWake s) := by
  refine onSlot_safe (fun z hz => ?_) h
  split
  · dsimp only
    split <;> simp [hz]
  · rfl

@[simp] theorem fillThread_safe {s : State} {r : Retry} {v : Word} {data : List Byte} (h : s.safe = true) :
    (fillThread s r v data).safe = true := by
  simp only [fillThread]
  (repeat' split) <;> simp [h]

/-- Back in focus, a thread that no longer stands leaves the state as it is. -/
@[simp] theorem State.refocus_safe {z : State} {k : SlotKey} (h : z.safe = true) :
    ((z.focus k).getD z).safe = true := by
  cases hf : z.focus k with
  | none => exact h
  | some y => exact safe_of_some (State.focus_safe h) hf

@[simp] theorem fillSlot_safe {s : State} {ctx : Nat} {slot : W32} {v : Word} {data : List Byte}
    (h : s.safe = true) : (fillSlot s ctx slot v data).safe = true := by
  unfold fillSlot
  split
  · simp [h]
  · split
    · exact h
    · extract_lets me
      split
      · next s1 r hs _ =>
        have h1 : s1.safe = true := safe_of_some (State.focus_safe h) hs
        have h2 : (fillThread s1 r v data).safe = true := fillThread_safe h1
        cases hf : (fillThread s1 r v data).focus me with
        | none => exact h
        | some y => exact safe_of_some (State.focus_safe h2) hf
      · exact h

@[simp] theorem mfillAct_safe {v : Word} {s : State} (h : s.safe = true) : (mfillAct v s).Safe := by
  unfold mfillAct
  extract_lets ctx
  split
  · exact h
  · next l slot entry _ =>
    split
    · exact h
    · split
      · next hw => exact State.releaseWait_safe hw
      · extract_lets put s1 bytes ring s2
        have hput : ∀ (z : State) (off : Nat) (w : Word), z.safe = true → (put z off w).safe = true := by
          intro z off w hz
          simp only [put]
          split
          · exact writeVA_safe hz ‹_›
          · exact hz
        have h1 : s1.safe = true := hput _ _ _ (hput _ _ _ h)
        simp [s2, h1]

theorem execRepetitionSequenceIssue_safe {s : State} (h : s.safe = true) : SafeOut (execRepetitionSequenceIssue s) :=
  onSlot_safe (fun z hz => by split <;> simp [hz]) h

theorem execResultVisible_safe {s : State} (h : s.safe = true) : SafeOut (execResultVisible s) := by
  refine onSlot_safe (fun z hz => ?_) h
  dsimp only
  split
  · rfl
  · split
    · simp [hz]
    · simp [hz]

@[simp] theorem demandFill_safe {s : State} {va : Word} (h : s.safe = true) : (demandFill s va).safe = true := by
  unfold demandFill
  split <;> simp [h]

theorem execInstructionLineArrival_safe {s : State} (h : s.safe = true) : SafeOut (execInstructionLineArrival s) := by
  refine onSlot_safe (fun z hz => ?_) h
  split
  · split <;> simp [hz]
  · rfl

@[simp] theorem serveWalk_safe {s : State} {w : Walk} (h : s.safe = true) : (serveWalk s w).safe = true := by
  unfold serveWalk
  refine foldl_safe (fun z k hz => ?_) h _
  dsimp only
  split
  · exact hz
  · next s1 hs =>
    have h1 : s1.safe = true := safe_of_some (State.focus_safe hz) hs
    apply State.refocus_safe
    split <;> simp [h1]

@[simp] theorem startWalk_safe {s : State} {die : Nat} (h : s.safe = true) : (startWalk s die).safe = true := by
  unfold startWalk
  split <;> simp [h]

@[simp] theorem execPageWalkComplete_safe {s : State} (h : s.safe = true) : SafeOut (execPageWalkComplete s) := by
  unfold execPageWalkComplete
  split <;> simp [h]

@[simp] theorem execL2Prefetch_safe {s : State} (h : s.safe = true) : SafeOut (execL2Prefetch s) := by
  unfold execL2Prefetch
  split <;> simp [h]

@[simp] theorem execL2LineArrival_safe {s : State} (h : s.safe = true) : SafeOut (execL2LineArrival s) := by
  unfold execL2LineArrival
  simp [h]

theorem execQueueBlockResume_safe {s : State} (h : s.safe = true) : SafeOut (execQueueBlockResume s) :=
  onSlot_safe (fun z hz => by split <;> simp [hz]) h

theorem execPostedStoreAcknowledgement_safe {s : State} (h : s.safe = true) :
    SafeOut (execPostedStoreAcknowledgement s) := by
  refine onSlot_safe (fun z hz => ?_) h
  split
  · split
    · extract_lets s1 rest
      have h1 : s1.safe = true := State.writeAs_safe hz
      split <;> simp [h1]
    · rfl
  · rfl

@[simp] theorem State.reported_safe {s : State} {k : SlotKey} {addr : BitVec 48} {kind : Nat} :
    (State.reported s k addr kind).safe = s.safe := rfl

theorem execRemoteFaultReport_safe {s : State} (h : s.safe = true) : SafeOut (execRemoteFaultReport s) := by
  unfold execRemoteFaultReport
  simp only [orNone_safe, all_safe_bind]
  intro t _
  split
  · simp [h]
  · simp only [all_safe_bind]
    intro i _
    simp [h]

@[simp] theorem execWriteCombiningTimeout_safe {s : State} (h : s.safe = true) :
    SafeOut (execWriteCombiningTimeout s) := by
  unfold execWriteCombiningTimeout
  simp [h]

@[simp] theorem lateFault_safe {s : State} {a : Amo} (h : s.safe = true) : (lateFault s a).safe = true := by
  unfold lateFault
  simp [h]

@[simp] theorem reportAmo_safe {s : State} {a : Amo} (h : s.safe = true) : (reportAmo s a).all State.safe = true := by
  unfold reportAmo
  extract_lets me s1
  have h1 : s1.safe = true := by simp [s1, h]
  clear_value s1
  split
  · exact h1
  · next z hz =>
    have h2 : z.safe = true := safe_of_some (State.focus_safe h1) hz
    split
    · exact State.refocus_safe (lateFault_safe h2)
    · rfl

@[simp] theorem execAtomicAtHome_safe {s : State} (h : s.safe = true) : SafeOut (execAtomicAtHome s) := by
  simp only [execAtomicAtHome]
  (repeat' split) <;> simp [h]

@[simp] theorem waitFault_safe {s : State} {trig : Nat} {kind : Nat} {a : Word} (h : s.safe = true) :
    (waitFault s trig kind a).safe = true := by
  unfold waitFault
  simp [h]

theorem execWaitWake_safe {s : State} (h : s.safe = true) : SafeOut (execWaitWake s) := by
  refine onSlot_safe (fun z hz => ?_) h
  split
  · split
    · rfl
    · split <;> simp [hz]
  · rfl

theorem execWatchUnitRead_safe {s : State} (h : s.safe = true) : SafeOut (execWatchUnitRead s) := by
  refine onSlot_safe (fun z hz => ?_) h
  split
  · split
    · rfl
    · split
      · simp [hz]
      · split
        · simp [hz]
        · split
          · simp [hz]
          · rfl
  · rfl

theorem execWaitTimeout_safe {s : State} (h : s.safe = true) : SafeOut (execWaitTimeout s) := by
  refine onSlot_safe (fun z hz => ?_) h
  split
  · split
    · rfl
    · split <;> simp [hz]
  · rfl

@[simp] theorem snoopWait_safe {line : Nat} {s : State} (h : s.safe = true) : (snoopWait line s).safe = true := by
  unfold snoopWait
  (repeat' split) <;> simp [h]

@[simp] theorem eachSlot_safe {f : State → State} {s : State} (hf : ∀ z : State, z.safe = true → (f z).safe = true)
    (h : s.safe = true) : (eachSlot f s).safe = true := by
  unfold eachSlot
  refine foldl_safe (fun z k hz => ?_) h _
  dsimp only
  split
  · exact hz
  · next hs => exact State.refocus_safe (hf _ (safe_of_some (State.focus_safe hz) hs))

theorem execSnoopOrBackInvalidate_safe {s : State} (h : s.safe = true) : SafeOut (execSnoopOrBackInvalidate s) := by
  unfold execSnoopOrBackInvalidate
  refine eachSlot_safe (fun z hz => snoopWait_safe hz) ?_
  split <;> simp [h]

@[simp] theorem setSavedSr_safe {s : State} {ctx : Nat} {rec w : Word} (h : s.safe = true) :
    (setSavedSr s ctx rec w).safe = true := by
  unfold setSavedSr
  split
  · exact writeVA_safe h ‹_›
  · exact h

theorem execParkWake_safe {s : State} (h : s.safe = true) : SafeOut (execParkWake s) := by
  unfold execParkWake
  simp only [orNone_safe, all_safe_bind]
  intro i _ p _
  split <;> simp [h]

theorem execSleepExpiry_safe {s : State} (h : s.safe = true) : SafeOut (execSleepExpiry s) := by
  refine onSlot_safe (fun z hz => ?_) h
  split
  · split <;> simp [hz]
  · rfl

theorem execTrapEntry_safe {s : State} (h : s.safe = true) : SafeOut (execTrapEntry s) := by
  refine onSlot_safe (fun z hz => ?_) h
  split
  · split <;> simp [hz]
  · rfl

@[simp] theorem popInto_safe {s : State} {k : SlotKey} {q : Queued} (h : s.safe = true) :
    (popInto s k q).safe = true := by
  unfold popInto
  extract_lets s1 waits s2 me s3
  have h2 : s2.safe = true := by simp [s2, s1, h]
  have h3 : s3.safe = true := recSetStatus_safe h2
  clear_value s3
  split
  · simp [h2]
  · split
    next at_ z hz =>
    have hz : z.safe = true := State.safe_of_after h3 hz
    extract_lets s4 s5
    have h4 : s4.safe = true := by unfold s4; split <;> simp [hz]
    have h5 : s5.safe = true := by simp [s5, h4]
    exact State.refocus_safe h5

@[simp] theorem execRunQueuePop_safe {s : State} (h : s.safe = true) : SafeOut (execRunQueuePop s) := by
  unfold execRunQueuePop
  simp [h]

@[simp] theorem execPriorityRise_safe {s : State} (h : s.safe = true) : SafeOut (execPriorityRise s) := by
  unfold execPriorityRise
  simp [h]

@[simp] theorem execMigrationAdvertisement_safe {s : State} (h : s.safe = true) :
    SafeOut (execMigrationAdvertisement s) := by
  unfold execMigrationAdvertisement
  simp [h]

@[simp] theorem execMigrationAnswer_safe {s : State} (h : s.safe = true) : SafeOut (execMigrationAnswer s) := by
  unfold execMigrationAnswer
  simp [h]

theorem execMigrationMessage_safe {s : State} (h : s.safe = true) : SafeOut (execMigrationMessage s) := by
  unfold execMigrationMessage
  simp only [orNone_safe, all_safe_bind]
  intro m _
  exact foldl_safe (fun z q hz => appendRecord_safe hz) (by simp [h]) _

@[simp] theorem writeEvent_safe {s : State} {e : HostEvent} (h : s.safe = true) : (writeEvent s e).safe = true := by
  unfold writeEvent
  split <;> simp [h]

@[simp] theorem flushEvents_safe {n : Nat} {s : State} (h : s.safe = true) : (flushEvents n s).safe = true := by
  induction n generalizing s with
  | zero => exact h
  | succ n ih =>
    unfold flushEvents
    split
    · exact h
    · split
      · exact ih (writeEvent_safe (by simp [h]))
      · exact h

@[simp] theorem report_safe {s : State} {e : HostEvent} (h : s.safe = true) : (report s e).safe = true := by
  unfold report
  simp [h]

@[simp] theorem respond_safe {s : State} {status : Nat} {results : List Word} :
    (respond s status results).safe = s.safe := rfl

@[simp] theorem refuseTiles_safe {tiles : List Nat} {s : State} : (refuseTiles tiles s).safe = s.safe := rfl

@[simp] theorem zeroTile_safe {s : State} {t : Nat} (h : s.safe = true) : (zeroTile s t).safe = true := by
  unfold zeroTile
  extract_lets s1
  have h1 : s1.safe = true := by simp [s1, h]
  clear_value s1
  exact State.safe_setMem h1 (Mem.clear_wf _ _ (Nat.le_add_right _ _) (State.safe_iff.mp h1).1)

@[simp] theorem freeCtx_safe {s : State} {n : Nat} (h : s.safe = true) : (freeCtx s n).safe = true := by
  unfold freeCtx
  simp [h]

@[simp] theorem completeRequest_safe {s : State} (h : s.safe = true) : (completeRequest s).safe = true := by
  unfold completeRequest
  split
  · exact h
  · split
    · exact h
    · split
      · extract_lets s1
        have h1 : s1.safe = true := foldl_safe (fun _ _ hz => zeroTile_safe hz) h _
        clear_value s1
        split <;> simp [h1]
      · exact h
    · split <;> simp [h]
    · split
      · split <;> simp [h]
      · exact h

theorem serve_safe {op : Nat} {named : Bool} {fmt : Request → Bool} {f : Request → State → Answer} {s : State}
    (hf : ∀ (r : Request) (z : State), z.safe = true → (f r z).Safe) (h : s.safe = true) :
    SafeOut (serve op named fmt f s) := by
  unfold serve
  extract_lets r head mail s1
  have h1 : s1.safe = true := by simp [s1, h]
  clear_value s1
  split
  · exact h
  · rw [safeOut_next]
    split
    · simp [h1]
    · split
      · simp [h1]
      · have hr := hf r s1 h1
        split
        · simp [h1]
        · next hs => rw [hs] at hr; simpa using hr
        · next hs =>
          rw [hs, Answer.safe_later] at hr
          exact completeRequest_safe (by simp [hr])

@[simp] theorem withBuffer_safe {s : State} {w : Word} {n : Nat} {f : List Byte → Answer} (hf : ∀ bs, (f bs).Safe) :
    (withBuffer s w n f).Safe := by
  unfold withBuffer
  split
  · trivial
  · exact hf _

@[simp] theorem setBindery_safe {s : State} {a w : Nat} (h : s.safe = true) : (setBindery s a w).safe = true :=
  State.safe_setMem h (Mem.write_wf _ _ (State.safe_iff.mp h).1)

@[simp] theorem allocTable_safe {s : State} : (allocTable s).2.safe = s.safe := rfl

@[simp] theorem putLeaf_safe {leaf lv va n table : Nat} {s : State} (h : s.safe = true) :
    (putLeaf leaf lv va n table s).all State.safe = true := by
  induction n generalizing table s with
  | zero => rfl
  | succ n ih =>
    unfold putLeaf
    dsimp only
    split
    · exact setBindery_safe h
    · split
      · exact ih (setBindery_safe (allocTable_safe ▸ h))
      · split
        · rfl
        · exact ih h

@[simp] theorem dropLeaf_safe {lv va n table : Nat} {s : State} (h : s.safe = true) :
    (dropLeaf lv va n table s).safe = true := by
  induction n generalizing table s with
  | zero => exact h
  | succ n ih =>
    unfold dropLeaf
    dsimp only
    split
    · exact h
    · split
      · split <;> simp [h]
      · split
        · exact h
        · exact ih h

@[simp] theorem purge_safe {s : State} {ctx : Nat} : (purge s ctx).safe = s.safe := rfl

/-- A fold of a step that may fail and keeps a state safe. -/
theorem foldl_bind_safe {α : Type} {f : State → α → Option State}
    (hf : ∀ (z : State) (x : α), z.safe = true → (f z x).all State.safe = true) {s : State} (h : s.safe = true)
    (l : List α) : (l.foldl (fun o x => o.bind fun z => f z x) (some s)).all State.safe = true := by
  have hl : ∀ o : Option State, o.all State.safe = true →
      (l.foldl (fun o x => o.bind fun z => f z x) o).all State.safe = true := by
    induction l with
    | nil => exact fun _ ho => ho
    | cons x l ih => exact fun o ho => ih _ (all_safe_optionBind.mpr fun z hz => hf z x (safe_of_some ho hz))
  exact hl (some s) h

@[simp] theorem putLeaves_safe {root template lv va count : Nat} {s : State} (h : s.safe = true) :
    (putLeaves root template lv va count s).all State.safe = true :=
  foldl_bind_safe (fun _ _ hz => putLeaf_safe hz) h _

@[simp] theorem withQueue_safe {r : Request} {s : State} {f : SwQueue → Answer} (hf : ∀ q, (f q).Safe) :
    (withQueue r s f).Safe := by
  unfold withQueue
  split
  · trivial
  · split
    · trivial
    · exact hf _

@[simp] theorem State.putRecord_safe {s : State} {q : SwQueue} {off : Nat} {bs : List Byte} (h : s.safe = true) :
    (State.putRecord s q off bs).safe = true := by
  unfold State.putRecord
  simp [h]

@[simp] theorem mapPools_safe {root slots : Nat} {s : State} (h : s.safe = true) :
    (mapPools root slots s).all State.safe = true := by
  unfold mapPools
  refine foldl_bind_safe (fun z die hz => ?_) h _
  dsimp only
  split
  · rfl
  · refine putLeaves_safe ?_
    rw [State.safe_mk]
    exact hz

@[simp] theorem createCtx_safe {r : Request} {s : State} (h : s.safe = true) : (createCtx r s).Safe := by
  unfold createCtx
  -- the mapping of the pools is a variable here: a check that would run it over its 2 MiB pages does not end
  obtain ⟨pools, hm⟩ : ∃ pools, mapPools = pools := ⟨_, rfl⟩
  have hp := @mapPools_safe
  rw [hm] at hp ⊢
  split
  · trivial
  · refine withBuffer_safe fun b => ?_
    split
    · trivial
    · split
      next root s1 hs =>
      have h1 : s1.safe = true := by cases hs; simp [h]
      extract_lets n slots
      split
      · trivial
      · next z hz =>
        have h2 : z.safe = true := safe_of_some (hp h1) hz
        simp [h2]

@[simp] theorem destroyCtx_safe {r : Request} {s : State} (h : s.safe = true) : (destroyCtx r s).Safe := by
  unfold destroyCtx
  simp [h]

@[simp] theorem grantTiles_safe {r : Request} {s : State} (h : s.safe = true) : (grantTiles r s).Safe := by
  unfold grantTiles
  dsimp only
  split
  · trivial
  · split
    · trivial
    · split
      · trivial
      · rw [Answer.safe_yes, State.mapCtx_safe]
        exact foldl_safe (fun _ _ hz => zeroTile_safe hz) (by simp [h]) _

@[simp] theorem revokeTiles_safe {r : Request} {s : State} (h : s.safe = true) : (revokeTiles r s).Safe := by
  unfold revokeTiles
  split <;> simp [h]

@[simp] theorem mapPages_safe {r : Request} {s : State} (h : s.safe = true) : (mapPages r s).Safe := by
  unfold mapPages
  dsimp only
  split
  · trivial
  · split
    · trivial
    · split
      · trivial
      · next z hz =>
        have h1 : z.safe = true := safe_of_some (putLeaves_safe h) hz
        simp [h1]

@[simp] theorem unmapPages_safe {r : Request} {s : State} (h : s.safe = true) : (unmapPages r s).Safe := by
  unfold unmapPages
  dsimp only
  split
  · trivial
  · rw [Answer.safe_later, purge_safe]
    exact foldl_safe (fun _ _ hz => dropLeaf_safe hz) h _

@[simp] theorem loadKey_safe {r : Request} {s : State} (h : s.safe = true) : (loadKey r s).Safe := by
  unfold loadKey
  simp [h]

@[simp] theorem freeKey_safe {r : Request} {s : State} (h : s.safe = true) : (freeKey r s).Safe := by
  unfold freeKey
  dsimp only
  split
  · trivial
  · trivial
  · split
    · trivial
    · generalize usesKey _ _ _ _ = b
      split <;> simp [h]

@[simp] theorem dropWindow_safe {s : State} {r : Request} (h : s.safe = true) : (dropWindow s r).safe = true := by
  unfold dropWindow
  simp [h]

@[simp] theorem writeWindow_safe {r : Request} {s : State} (h : s.safe = true) : (writeWindow r s).Safe := by
  unfold writeWindow
  simp [h]

@[simp] theorem clearWindow_safe {r : Request} {s : State} (h : s.safe = true) : (clearWindow r s).Safe := by
  unfold clearWindow
  simp [h]

@[simp] theorem allocateQueue_safe {r : Request} {s : State} (h : s.safe = true) : (allocateQueue r s).Safe := by
  unfold allocateQueue
  split <;> simp [h]

@[simp] theorem destroyQueue_safe {r : Request} {s : State} (h : s.safe = true) : (destroyQueue r s).Safe := by
  unfold destroyQueue
  simp [h]

@[simp] theorem restartQueue_safe {r : Request} {s : State} (h : s.safe = true) : (restartQueue r s).Safe := by
  refine withQueue_safe fun q => ?_
  dsimp only
  split
  · trivial
  · split
    · trivial
    · have h1 : (s.putRecord q 0x18 (leBytes 8 0)).safe = true := State.putRecord_safe h
      simp [h1]

@[simp] theorem markQueue_safe {r : Request} {s : State} (h : s.safe = true) : (markQueue r s).Safe := by
  unfold markQueue
  simp [h]

@[simp] theorem pauseQueue_safe {r : Request} {s : State} (h : s.safe = true) : (pauseQueue r s).Safe := by
  unfold pauseQueue
  simp [h]

@[simp] theorem allotGroups_safe {r : Request} {s : State} (h : s.safe = true) : (allotGroups r s).Safe := by
  unfold allotGroups
  simp [h]

@[simp] theorem allotExperts_safe {r : Request} {s : State} (h : s.safe = true) : (allotExperts r s).Safe := by
  simp only [allotExperts]
  (repeat' split) <;> simp [h]

end Sys2Proof.Machine
end

section
/-! Proof of O58: the host queues, their packets, and the binding of a pipeline. -/

namespace Sys2Proof.Machine

@[simp] theorem registerKey_safe {r : Request} {s : State} (h : s.safe = true) : (registerKey r s).Safe := by
  unfold registerKey
  split <;> simp [h]

@[simp] theorem setFaultMode_safe {r : Request} {s : State} (h : s.safe = true) : (setFaultMode r s).Safe := by
  unfold setFaultMode
  simp [h]

@[simp] theorem setVector_safe {r : Request} {s : State} (h : s.safe = true) : (setVector r s).Safe := by
  unfold setVector
  simp [h]

@[simp] theorem setDeadline_safe {r : Request} {s : State} (h : s.safe = true) : (setDeadline r s).Safe := by
  unfold setDeadline
  simp [h]

@[simp] theorem setRank_safe {r : Request} {s : State} (h : s.safe = true) : (setRank r s).Safe := by
  unfold setRank
  simp [h]

@[simp] theorem registerTier_safe {r : Request} {s : State} (h : s.safe = true) : (registerTier r s).Safe := by
  unfold registerTier
  split <;> simp [h]

@[simp] theorem reserveBuddy_safe {r : Request} {s : State} (h : s.safe = true) : (reserveBuddy r s).Safe := by
  unfold reserveBuddy
  split <;> simp [h]

@[simp] theorem setVisible_safe {r : Request} {s : State} (h : s.safe = true) : (setVisible r s).Safe := by
  unfold setVisible
  split <;> simp [h]

@[simp] theorem registerSet_safe {r : Request} {s : State} (h : s.safe = true) : (registerSet r s).Safe := by
  unfold registerSet
  simp [h]

@[simp] theorem setEventRing_safe {r : Request} {s : State} (h : s.safe = true) : (setEventRing r s).Safe := by
  unfold setEventRing
  simp [h]

@[simp] theorem faultAnswer_safe {r : Request} {s : State} (h : s.safe = true) : (faultAnswer r s).Safe := by
  unfold faultAnswer
  split <;> simp [h]

theorem execCreateContext_safe {s : State} (h : s.safe = true) : SafeOut (execCreateContext s) :=
  serve_safe (fun _ _ hz => createCtx_safe hz) h

theorem execDestroyContext_safe {s : State} (h : s.safe = true) : SafeOut (execDestroyContext s) :=
  serve_safe (fun _ _ hz => destroyCtx_safe hz) h

theorem execGrantTiles_safe {s : State} (h : s.safe = true) : SafeOut (execGrantTiles s) :=
  serve_safe (fun _ _ hz => grantTiles_safe hz) h

theorem execRevokeTiles_safe {s : State} (h : s.safe = true) : SafeOut (execRevokeTiles s) :=
  serve_safe (fun _ _ hz => revokeTiles_safe hz) h

theorem execMapPages_safe {s : State} (h : s.safe = true) : SafeOut (execMapPages s) :=
  serve_safe (fun _ _ hz => mapPages_safe hz) h

theorem execUnmapPages_safe {s : State} (h : s.safe = true) : SafeOut (execUnmapPages s) :=
  serve_safe (fun _ _ hz => unmapPages_safe hz) h

theorem execLoadKey_safe {s : State} (h : s.safe = true) : SafeOut (execLoadKey s) :=
  serve_safe (fun _ _ hz => loadKey_safe hz) h

theorem execFreeKey_safe {s : State} (h : s.safe = true) : SafeOut (execFreeKey s) :=
  serve_safe (fun _ _ hz => freeKey_safe hz) h

theorem execWriteWindow_safe {s : State} (h : s.safe = true) : SafeOut (execWriteWindow s) :=
  serve_safe (fun _ _ hz => writeWindow_safe hz) h

theorem execClearWindow_safe {s : State} (h : s.safe = true) : SafeOut (execClearWindow s) :=
  serve_safe (fun _ _ hz => clearWindow_safe hz) h

theorem execAllocateQueue_safe {s : State} (h : s.safe = true) : SafeOut (execAllocateQueue s) :=
  serve_safe (fun _ _ hz => allocateQueue_safe hz) h

theorem execDestroyQueue_safe {s : State} (h : s.safe = true) : SafeOut (execDestroyQueue s) :=
  serve_safe (fun _ _ hz => destroyQueue_safe hz) h

theorem execRestartQueue_safe {s : State} (h : s.safe = true) : SafeOut (execRestartQueue s) :=
  serve_safe (fun _ _ hz => restartQueue_safe hz) h

theorem execMarkCheckpointQueue_safe {s : State} (h : s.safe = true) : SafeOut (execMarkCheckpointQueue s) :=
  serve_safe (fun _ _ hz => markQueue_safe hz) h

theorem execAllotGroups_safe {s : State} (h : s.safe = true) : SafeOut (execAllotGroups s) :=
  serve_safe (fun _ _ hz => allotGroups_safe hz) h

theorem execAllotExperts_safe {s : State} (h : s.safe = true) : SafeOut (execAllotExperts s) :=
  serve_safe (fun _ _ hz => allotExperts_safe hz) h

theorem execRegisterImageKey_safe {s : State} (h : s.safe = true) : SafeOut (execRegisterImageKey s) :=
  serve_safe (fun _ _ hz => registerKey_safe hz) h

theorem execSetFaultMode_safe {s : State} (h : s.safe = true) : SafeOut (execSetFaultMode s) :=
  serve_safe (fun _ _ hz => setFaultMode_safe hz) h

theorem execSetMonitorVector_safe {s : State} (h : s.safe = true) : SafeOut (execSetMonitorVector s) :=
  serve_safe (fun _ _ hz => setVector_safe hz) h

theorem execSetDeadline_safe {s : State} (h : s.safe = true) : SafeOut (execSetDeadline s) :=
  serve_safe (fun _ _ hz => setDeadline_safe hz) h

theorem execSetPowerRank_safe {s : State} (h : s.safe = true) : SafeOut (execSetPowerRank s) :=
  serve_safe (fun _ _ hz => setRank_safe hz) h

theorem execRegisterSafeTier_safe {s : State} (h : s.safe = true) : SafeOut (execRegisterSafeTier s) :=
  serve_safe (fun _ _ hz => registerTier_safe hz) h

theorem execReserveBuddyRegion_safe {s : State} (h : s.safe = true) : SafeOut (execReserveBuddyRegion s) :=
  serve_safe (fun _ _ hz => reserveBuddy_safe hz) h

theorem execSetHostVisible_safe {s : State} (h : s.safe = true) : SafeOut (execSetHostVisible s) :=
  serve_safe (fun _ _ hz => setVisible_safe hz) h

theorem execRegisterCollectiveSet_safe {s : State} (h : s.safe = true) : SafeOut (execRegisterCollectiveSet s) :=
  serve_safe (fun _ _ hz => registerSet_safe hz) h

theorem execSetEventRing_safe {s : State} (h : s.safe = true) : SafeOut (execSetEventRing s) :=
  serve_safe (fun _ _ hz => setEventRing_safe hz) h

theorem execFaultAnswer_safe {s : State} (h : s.safe = true) : SafeOut (execFaultAnswer s) :=
  serve_safe (fun _ _ hz => faultAnswer_safe hz) h

theorem execPauseQueue_safe {s : State} (h : s.safe = true) : SafeOut (execPauseQueue s) :=
  serve_safe (fun _ _ hz => pauseQueue_safe hz) h

theorem execReservedOpRequest_safe {s : State} (h : s.safe = true) : SafeOut (execReservedOpRequest s) := by
  unfold execReservedOpRequest
  split
  · exact serve_safe (fun _ _ _ => trivial) h
  · trivial

@[simp] theorem failQueue_safe {s : State} {q : SwQueue} {idx : Nat} {tag : W32} {cause : Nat} (h : s.safe = true) :
    (failQueue s q idx tag cause).safe = true := by
  unfold failQueue
  have h1 : (s.putRecord q 0x18 (leBytes 8 (tag.toNat * 2 ^ 32 + cause))).safe = true := State.putRecord_safe h
  rw [State.mapQueue_safe]
  exact State.putRecord_safe h1

@[simp] theorem execDoorbell_safe {s : State} (h : s.safe = true) : SafeOut (execDoorbell s) := by
  simp only [execDoorbell]
  (repeat' split) <;> simp [h]

@[simp] theorem startPacket_safe {s : State} {q : SwQueue} (h : s.safe = true) : (startPacket s q).safe = true := by
  unfold startPacket
  simp [h]

@[simp] theorem completePacket_safe {s : State} {q : Nat} {cinc : Bool} (h : s.safe = true) :
    (completePacket s q cinc).safe = true := by
  unfold completePacket
  simp [h]

@[simp] theorem execQueueMap_safe {s : State} (h : s.safe = true) : SafeOut (execQueueMap s) := by
  unfold execQueueMap
  simp [h]

@[simp] theorem execQueueQuantumExpiry_safe {s : State} (h : s.safe = true) : SafeOut (execQueueQuantumExpiry s) := by
  unfold execQueueQuantumExpiry
  simp [h]

@[simp] theorem packet_safe {op : Nat} {fmt : List Byte → Bool} {act : SwQueue → List Byte → State → Option State}
    {s : State}
    (hact : ∀ (y1 : SwQueue) (y2 : List Byte) (y3 : State), y3.safe = true → (act y1 y2 y3).all State.safe = true)
    (h : s.safe = true) : SafeOut (packet op fmt act s) := by
  unfold packet
  simp [hact, h]

@[simp] theorem launchPacket_safe {s : State} {q : SwQueue} {b : List Byte} {f : Started → Started}
    (h : s.safe = true) : (launchPacket s q b f).safe = true := by
  unfold launchPacket
  simp [h]

@[simp] theorem oncePacket_safe {s : State} {q : SwQueue} {b : List Byte} (h : s.safe = true) :
    (oncePacket s q b).safe = true := by
  unfold oncePacket
  simp [h]

theorem execNopCommand_safe {s : State} (h : s.safe = true) : SafeOut (execNopCommand s) :=
  packet_safe (fun _ _ _ hz => oncePacket_safe hz) h

theorem execLaunchTask_safe {s : State} (h : s.safe = true) : SafeOut (execLaunchTask s) := by
  refine packet_safe (fun q b z hz => ?_) h
  rw [all_safe_bind]
  intro c _
  split
  · rfl
  · split
    · rw [all_safe_pure]
      exact failQueue_safe (recSetStatus_safe hz)
    · dsimp only
      rw [all_safe_pure]
      refine appendRecord_safe ?_
      rw [State.mapCtx_safe]
      exact launchPacket_safe hz

theorem execWait_safe {s : State} (h : s.safe = true) : SafeOut (execWait s) := by
  refine packet_safe (fun q b z hz => ?_) h
  dsimp only
  split
  · exact failQueue_safe hz
  · split
    · exact oncePacket_safe hz
    · simp [hz]

theorem execSignal_safe {s : State} (h : s.safe = true) : SafeOut (execSignal s) := by
  refine packet_safe (fun q b z hz => ?_) h
  dsimp only
  split
  · rfl
  · split
    · exact failQueue_safe hz
    · split
      · exact failQueue_safe hz
      · exact oncePacket_safe (addTimeline_safe hz)

theorem execBarrier_safe {s : State} (h : s.safe = true) : SafeOut (execBarrier s) := by
  refine packet_safe (fun q b z hz => ?_) h
  split
  · exact oncePacket_safe hz
  · rfl

@[simp] theorem State.sumOver_safe {s : State} {x : CollSet} {n : Nat} : (State.sumOver s x n).safe = s.safe := rfl

theorem execCopy_safe {s : State} (h : s.safe = true) : SafeOut (execCopy s) := by
  refine packet_safe (fun q b z hz => ?_) h
  dsimp only
  split
  · split
    · exact failQueue_safe hz
    · split
      · exact failQueue_safe (by simp [hz])
      · split
        · rfl
        · exact launchPacket_safe (by simp [hz])
  · split
    · exact failQueue_safe hz
    · split
      · exact failQueue_safe hz
      · split
        · rfl
        · exact launchPacket_safe (by simp [hz])

@[simp] theorem finishSum_safe {s : State} {q : SwQueue} {p : Started} {c : Collective} (h : s.safe = true) :
    (finishSum s q p c).all State.safe = true := by
  unfold finishSum
  extract_lets ag
  rw [all_safe_bind]
  intro x _
  have h1 : (s.sumOver x c.ord).safe = true := by simp [h]
  split
  · exact failQueue_safe h1
  · rw [all_safe_bind]
    intro all _
    dsimp only
    split
    · exact failQueue_safe h1
    · split
      · exact failQueue_safe h1
      · next hw => exact completePacket_safe (State.poke_safe (writeLines_safe h1 hw))

@[simp] theorem execReservedOpPacket_safe {s : State} (h : s.safe = true) : SafeOut (execReservedOpPacket s) := by
  unfold execReservedOpPacket
  simp [h]

@[simp] theorem finishPacket_safe {s : State} {q : SwQueue} {p : Started} (h : s.safe = true) :
    (finishPacket s q p).all State.safe = true := by
  unfold finishPacket
  extract_lets drop s1
  have h1 : s1.safe = true := by unfold s1; split <;> simp [h]
  have hdrop : ∀ z : State, z.safe = true → (drop z).safe = true := fun z hz => by simp [drop, hz]
  clear_value drop
  split
  · exact hdrop _ (failQueue_safe h)
  · rw [all_safe_map]
    exact fun z hz => hdrop z (safe_of_some (finishSum_safe h) hz)
  · split
    · rfl
    · exact hdrop _ (completePacket_safe h1)

theorem execQueueFreed_safe {s : State} (h : s.safe = true) : SafeOut (execQueueFreed s) := by
  unfold execQueueFreed
  rw [orNone_safe, all_safe_bind]
  intro q _
  split
  · rfl
  · extract_lets s1 stuck s2
    have h1 : s1.safe = true := by simp [s1, h]
    clear_value s1
    have h2 : s2.safe = true := foldl_safe (fun _ _ hz => failQueue_safe hz) h1 _
    exact completeRequest_safe (report_safe h2)

@[simp] theorem placeHome_safe {im : Image} {n : Nat} {s : State} {c : Chan} (h : s.safe = true) :
    (placeHome im n s c).all State.safe = true := by
  unfold placeHome
  extract_lets put pages pa va s1
  have h1 : s1.safe = true := by simp [s1, h]
  have hput : ∀ (x : Option ChanHome) (z : State), z.safe = true → (put x z).safe = true := fun x z hz => by simp [put, hz]
  clear_value put
  split
  · exact hput _ _ h
  · dsimp only
    split
    · rw [all_safe_map]
      exact fun _ _ => hput _ _ h
    · split
      · rfl
      · rw [all_safe_map]
        intro z hz
        exact hput _ _ (safe_of_some (putLeaves_safe h1) hz)
  · rfl

@[simp] theorem bindPatch_safe {c : Ctx} {im : Image} {s : State} {p : PatchEnt} (h : s.safe = true) :
    (bindPatch c im s p).safe = true := by
  unfold bindPatch
  split <;> simp [h]

@[simp] theorem bindStage_safe {c : Ctx} {pipe : Nat × Nat} {arg0 arg1 : Word} {binds : List (Nat × Nat × Binding)}
    {hs : List Nat} {s : State} {x : Nat × StageEnt} (h : s.safe = true) :
    (bindStage c pipe arg0 arg1 binds hs s x).safe = true := by
  unfold bindStage
  split
  · exact h
  · extract_lets rec_ s1 t
    have h1 : s1.safe = true := by
      unfold s1
      split
      · exact writeVA_safe h ‹_›
      · exact h
    clear_value s1
    simp [h1]

/-- A fold in `Option` of a step that may fail and keeps a state safe. -/
theorem foldlM_safe {α : Type} {f : State → α → Option State}
    (hf : ∀ (z : State) (x : α), z.safe = true → (f z x).all State.safe = true) {s : State} (h : s.safe = true)
    (l : List α) : (l.foldlM f s).all State.safe = true := by
  induction l generalizing s with
  | nil => exact h
  | cons x l ih =>
    rw [List.foldlM_cons, all_safe_bind]
    exact fun z hz => ih (safe_of_some (hf s x h) hz)

@[simp] theorem placeChans_safe {s : State} {c : Ctx} {im : Image} {pipe : Nat × Nat} (h : s.safe = true) :
    (placeChans s c im pipe).all State.safe = true :=
  foldlM_safe (fun _ _ hz => placeHome_safe hz) h _

@[simp] theorem bindImage_safe {s s1 : State} {c : Ctx} {im : Image} {pipe : Nat × Nat} {arg0 arg1 : Word}
    (h1 : s1.safe = true) : (bindImage s s1 c im pipe arg0 arg1).safe = true := by
  unfold bindImage
  extract_lets placed binds s2 s3 s4 hs s5
  have h2 : s2.safe = true := by simp [s2, h1]
  clear_value s2
  have h3 : s3.safe = true := foldl_safe (fun z g hz => by simp [hz]) h2 _
  clear_value s3
  have h4 : s4.safe = true := foldl_safe (fun z p hz => bindPatch_safe hz) h3 _
  clear_value s4
  have h5 : s5.safe = true := foldl_safe (fun z x hz => bindStage_safe hz) h4 _
  rw [State.mapCtx_safe]
  exact h5

theorem execLaunchPipeline_safe {s : State} (h : s.safe = true) : SafeOut (execLaunchPipeline s) := by
  refine packet_safe (fun q b z hz => ?_) h
  rw [all_safe_bind]
  intro c _
  split
  · exact failQueue_safe hz
  · split
    · exact failQueue_safe hz
    · extract_lets im
      split
      · exact failQueue_safe hz
      · next s1 hs =>
        exact launchPacket_safe (bindImage_safe (safe_of_some (placeChans_safe hz) hs))

@[simp] theorem State.putBalancer_safe {s : State} {n : Nat} {b : Balancer} :
    (State.putBalancer s n b).safe = s.safe := rfl

@[simp] theorem State.distributed_safe {s : State} {b : Balancer} {x : Option Nat} :
    (State.distributed s b x).safe = s.safe := rfl

@[simp] theorem balanceNow_safe {s : State} {n : Nat} {b : Balancer} (h : s.safe = true) :
    (balanceNow s n b).all State.safe = true := by
  unfold balanceNow
  rw [all_safe_bind]
  rintro ⟨p, e⟩ _
  dsimp only
  split
  · split
    · have h1 := foldl_safe (f := fun s o => s.enqueueAt o e.word e.tag e.sync) (fun z o hz => by simp [hz])
        (State.dequeueAt_safe (p := p) (id := b.src) h) b.outs
      simp [h1]
    · rfl
  · split
    · split
      · simp [h]
      · rfl
    · split
      · rfl
      · simp [h]

end Sys2Proof.Machine
end

section
/-! Proof of O58: merges and the press. -/

namespace Sys2Proof.Machine

@[simp] theorem execBalancerDistribute_safe {s : State} (h : s.safe = true) : SafeOut (execBalancerDistribute s) := by
  unfold execBalancerDistribute
  simp [h]

@[simp] theorem State.putMerge_safe {s : State} {n : Nat} {m : Merge} : (State.putMerge s n m).safe = s.safe := rfl

@[simp] theorem mergeFrom_safe {s : State} {n : Nat} {m : Merge} {i : Nat} (h : s.safe = true) :
    (mergeFrom s n m i).all State.safe = true := by
  unfold mergeFrom
  simp [h]

@[simp] theorem mergeBroadcast_safe {s : State} {n : Nat} {m : Merge} (h : s.safe = true) :
    (mergeBroadcast s n m).all State.safe = true := by
  unfold mergeBroadcast
  rw [all_safe_bind]
  intro heads _
  rw [all_safe_bind]
  rintro ⟨p, e⟩ _
  dsimp only
  split
  · have h1 := foldl_safe (f := fun s (x : Nat × Port × Elem) => s.dequeueAt x.2.1 x.1) (fun z x hz => State.dequeueAt_safe hz)
      h (m.ins.zip heads)
    simp [h1]
  · rfl

@[simp] theorem mergeNow_safe {s : State} {n : Nat} {m : Merge} (h : s.safe = true) :
    (mergeNow s n m).all State.safe = true := by
  unfold mergeNow
  (repeat' split) <;> simp [h]

@[simp] theorem execMergeEmit_safe {s : State} (h : s.safe = true) : SafeOut (execMergeEmit s) := by
  unfold execMergeEmit
  simp [h]

@[simp] theorem State.setPress_safe {s : State} {tile : Nat} {p : Press} : (State.setPress s tile p).safe = s.safe := rfl
@[simp] theorem State.setMyPress_safe {s : State} {c : PressCtx} : (State.setMyPress s c).safe = s.safe := rfl

@[simp] theorem State.mapPress_safe {s : State} {tile : Nat} {core : Nat} {f : PressCtx → PressCtx} :
    (State.mapPress s tile core f).safe = s.safe := rfl

@[simp] theorem actPctx_safe {t : Word} {s : State} (h : s.safe = true) : (actPctx t s).Safe := by
  unfold actPctx
  simp [h]

@[simp] theorem actPscaleA_safe {t : Word} {s : State} (h : s.safe = true) : (actPscaleA t s).Safe := by
  unfold actPscaleA
  simp [h]

@[simp] theorem actPscaleB_safe {t : Word} {s : State} (h : s.safe = true) : (actPscaleB t s).Safe := by
  unfold actPscaleB
  simp [h]

@[simp] theorem actPld_safe {t : Word} {s : State} (h : s.safe = true) : (actPld t s).Safe := by
  simp only [actPld]
  (repeat' split) <;> simp [h]

@[simp] theorem enqueuePress_safe {s : State} {op : PressOp} {hold : Bool} (h : s.safe = true) :
    (enqueuePress s op hold).safe = true := by
  unfold enqueuePress
  simp [h]

@[simp] theorem mmaAct_safe {sparse : Bool} {t : Word} {s : State} (h : s.safe = true) :
    (mmaAct sparse t s).Safe := by
  unfold mmaAct
  simp [h]

@[simp] theorem actPmma_safe {w : Word} {s : State} (h : s.safe = true) : (actPmma w s).Safe := by
  unfold actPmma
  simp [h]

@[simp] theorem actPmmas_safe {w : Word} {s : State} (h : s.safe = true) : (actPmmas w s).Safe := by
  unfold actPmmas
  simp [h]

@[simp] theorem actPdrain_safe {t : Word} {s : State} : (actPdrain t s).Safe := by
  unfold actPdrain
  dsimp only
  split
  · trivial
  · split
    · trivial
    · rw [Act.safe_hold]
      exact fun z hz => by simp [hz]

@[simp] theorem actPclr_safe {t : Word} {s : State} (h : s.safe = true) : (actPclr t s).Safe := by
  unfold actPclr
  simp [h]

@[simp] theorem actPflags_safe {t : Word} {s : State} (h : s.safe = true) : (actPflags t s).Safe := by
  unfold actPflags
  simp [h]

@[simp] theorem wakeJoined_safe {s : State} {reg : BitVec 8} {ctx : Nat} {tile : Nat} :
    (wakeJoined s reg ctx tile).safe = s.safe := rfl

@[simp] theorem dissolve_safe {s : State} {reg : BitVec 8} {ctx : Nat} {tile : Nat} :
    (dissolve s reg ctx tile).safe = s.safe := rfl

@[simp] theorem actPjoin_safe {t : Word} {s : State} (h : s.safe = true) : (actPjoin t s).Safe := by
  unfold actPjoin
  extract_lets key reg c s1 s2 s3
  have h1 : s1.safe = true := by unfold s1; split <;> simp [h]
  split
  · trivial
  · split
    · split
      · trivial
      · simp [h1]
    · split
      · trivial
      · split
        · simp [h]
        · rw [Act.safe_done]
          split <;> simp [s3, s2, h]

@[simp] theorem groupBusy_safe {ms : List (Nat × Nat)} {n : Nat} {s : State} (h : s.safe = true) :
    (groupBusy ms n s).2.safe = true := by
  induction ms generalizing n s with
  | nil => exact h
  | cons m ms ih => exact ih (State.draw_safe ▸ h)

@[simp] theorem startMember_safe {s : State} {m : Nat × Nat} {b? : Option (List Byte)} {busy : Nat}
    (h : s.safe = true) : (startMember s m b? busy).safe = true := by
  unfold startMember
  dsimp only
  split <;> simp [h]

@[simp] theorem freeBytes_safe {n : Nat} {s : State} (h : s.safe = true) : (freeBytes n s).2.safe = true := by
  induction n generalizing s with
  | zero => exact h
  | succ n ih => exact ih (State.draw_safe ▸ h)

@[simp] theorem leaderB_safe {s : State} {ms : List (Nat × Nat)} (h : s.safe = true) :
    (leaderB s ms).2.safe = true := by
  unfold leaderB
  dsimp only
  split <;> simp [h]

@[simp] theorem loseAcc_safe {s : State} {m : Nat × Nat} (h : s.safe = true) : (loseAcc s m).safe = true := by
  unfold loseAcc
  split <;> simp [h]

@[simp] theorem grant_safe {s : State} {ms : List (Nat × Nat)} (h : s.safe = true) : (grant s ms).safe = true := by
  unfold grant
  extract_lets s1
  have h1 : s1.safe = true := foldl_safe (fun _ _ hz => loseAcc_safe hz) h _
  clear_value s1
  dsimp only
  have h2 : (groupBusy ms 0 s1).2.safe = true := groupBusy_safe h1
  refine foldl_safe (fun _ _ hz => startMember_safe hz) ?_ _
  split
  · exact leaderB_safe h2
  · exact h2

@[simp] theorem drainWrite_safe {l : List Word} {bs : List Byte} {s : State} (h : s.safe = true) :
    (drainWrite l bs s).safe = true := by
  induction l generalizing bs s with
  | nil => exact h
  | cons a l ih =>
    refine ih ?_
    split
    · exact writeVA_safe h ‹_›
    · exact h

@[simp] theorem serveDrain_safe {s : State} {t dst pitch x : Word} (h : s.safe = true) :
    (serveDrain s t dst pitch x).safe = true := by
  unfold serveDrain
  dsimp only
  split
  · exact raiseFault_safe (by simp [h])
  · split <;> simp [h]

@[simp] theorem clearLost_safe {s : State} {tile : Nat} {core : Nat} {accs : BitVec 2} :
    (clearLost s tile core accs).safe = s.safe := rfl

@[simp] theorem execPressGrant_safe {s : State} (h : s.safe = true) : SafeOut (execPressGrant s) := by
  unfold execPressGrant
  simp [h]

@[simp] theorem releasePress_safe {s : State} {k : SlotKey} : (releasePress s k).safe = s.safe := rfl

@[simp] theorem execPressOperationComplete_safe {s : State} (h : s.safe = true) :
    SafeOut (execPressOperationComplete s) := by
  unfold execPressOperationComplete
  simp [h]

@[simp] theorem serveEntry_safe {s : State} {tile core : Nat} {e : PressEntry} (h : s.safe = true) :
    (serveEntry s tile core e).all State.safe = true := by
  unfold serveEntry
  split
  · rfl
  · simp [h]
  · simp [h]
  · split
    · next z hz =>
      split
      · rfl
      · exact serveDrain_safe (safe_of_some (State.focus_safe h) hz)
    · rfl

theorem execPressQueueEntryServed_safe {s : State} (h : s.safe = true) : SafeOut (execPressQueueEntryServed s) := by
  unfold execPressQueueEntryServed
  simp only [orNone_safe, all_safe_bind]
  intro e _ z hz
  have h1 : z.safe = true := safe_of_some (serveEntry_safe h) hz
  simp [h1]

@[simp] theorem execRampLimiterWindow_safe {s : State} (h : s.safe = true) : SafeOut (execRampLimiterWindow s) := by
  unfold execRampLimiterWindow
  simp [h]

theorem execPjoinTimeout_safe {s : State} (h : s.safe = true) : SafeOut (execPjoinTimeout s) := by
  refine onSlot_safe (fun z hz => ?_) h
  split
  · split <;> simp [hz]
  · rfl

@[simp] theorem dropPressEntry_safe {s : State} {k : SlotKey} : (dropPressEntry s k).safe = s.safe := rfl
@[simp] theorem withdrawPress_safe {s : State} {k : SlotKey} : (withdrawPress s k).safe = s.safe := rfl

@[simp] theorem replayLatch_safe {s : State} {l : Retry} (h : s.safe = true) : (replayLatch s l).safe = true := by
  unfold replayLatch
  simp [h]

end Sys2Proof.Machine
end

section
/-! Proof of O58: the answers to faults, pre-emption, the tile image and checkpoints. -/

namespace Sys2Proof.Machine

@[simp] theorem dropDrain_safe {s : State} (h : s.safe = true) : (dropDrain s).safe = true := by
  unfold dropDrain
  split <;> simp [h]

@[simp] theorem raiseLatch_safe {s : State} {l : Retry} (h : s.safe = true) : (raiseLatch s l).safe = true := by
  unfold raiseLatch
  simp [h]

@[simp] theorem applyAnswer_safe {s : State} {r : Report} {replay : Bool} (h : s.safe = true) :
    (applyAnswer s r replay).safe = true := by
  unfold applyAnswer
  extract_lets s1 me
  have h1 : s1.safe = true := by simp [s1, h]
  clear_value s1
  split
  · split
    · split <;> simp [h1]
    · exact h1
  · split
    · exact h1
    · split
      · next z l hz _ =>
        have h2 : z.safe = true := safe_of_some (State.focus_safe h1) hz
        refine State.refocus_safe ?_
        split <;> simp [h2]
      · exact h1

theorem execPolicyCoreAnswer_safe {s : State} (h : s.safe = true) : SafeOut (execPolicyCoreAnswer s) := by
  unfold execPolicyCoreAnswer
  rw [orNone_safe, all_safe_bind]
  intro r _
  extract_lets e
  split
  · rfl
  · split
    · split
      · rw [all_safe_pure]
        exact applyAnswer_safe h
      · split
        · rw [all_safe_pure]
          exact applyAnswer_safe h
        · split
          · rfl
          · split
            · rw [all_safe_pure]
              exact report_safe (by simp [h])
            · rfl
    · rw [all_safe_pure]
      exact report_safe (by simp [h])

@[simp] theorem beginPreempt_safe {s : State} {n : Nat} {d : Nat} : (beginPreempt s n d).safe = s.safe := rfl

@[simp] theorem preemptRequest_safe {r : Request} {s : State} (h : s.safe = true) : (preemptRequest r s).Safe := by
  unfold preemptRequest
  split <;> simp [h]

@[simp] theorem forget_safe {s : State} (h : s.safe = true) : (forget s).safe = true := by
  unfold forget
  dsimp only
  generalize s.th.hold = hold
  cases hold with
  | park => simp [h]
  | press => simp [h]
  | pjoin => simp [h]
  | latch =>
    generalize Option.map Retry.trig s.th.latch = trig
    generalize Option.map PressEntry.op _ = op
    rcases trig with _ | n
    · exact h
    · by_cases hn : n = 0x1EB
      · subst hn
        rcases op with _ | op
        · exact h
        · cases op with
          | drain => simp [h]
          | _ => exact h
      · simp [hn, h]
  | _ => exact h

@[simp] theorem saveNow_safe {s : State} {c : Option Copy} (h : s.safe = true) :
    (saveNow s c).all State.safe = true := by
  unfold saveNow
  split
  · rfl
  · have h1 : (forget s).quiet.safe = true := by simp [h]
    rw [all_safe_map]
    rintro ⟨pc, wd⟩ _
    dsimp only
    split
    · exact savePreempted_safe h1
    · split <;> exact savePreempted_safe h1

@[simp] theorem forceSave_safe {s : State} (h : s.safe = true) : (forceSave s).all State.safe = true := by
  simp only [forceSave]
  (repeat' split) <;> simp [h]

/-- A fold that keeps a state safe beside what it has found. -/
theorem foldl_fst_safe {α β : Type} {f : State × β → α → State × β}
    (hf : ∀ (z : State × β) (x : α), z.1.safe = true → (f z x).1.safe = true) {z : State × β} (h : z.1.safe = true)
    (l : List α) : (l.foldl f z).1.safe = true := by
  induction l generalizing z with
  | nil => exact h
  | cons x l ih => exact ih (hf z x h)

theorem execPreemptionDeadline_safe {s : State} (h : s.safe = true) : SafeOut (execPreemptionDeadline s) := by
  unfold execPreemptionDeadline
  rw [orNone_safe, all_safe_bind]
  intro c _
  split
  · rfl
  · dsimp only
    split
    · rw [all_safe_pure]
      refine State.refocus_safe (foldl_fst_safe (fun z k hz => ?_) h _)
      split
      · exact hz
      · next s1 hs =>
        split
        · next s2 hs2 => exact safe_of_some (forceSave_safe (safe_of_some (State.focus_safe hz) hs)) hs2
        · exact hz
    · rfl

@[simp] theorem channelState_safe {s : State} {k : CoreKey} (h : s.safe = true) :
    (channelState s k).2.safe = true := by
  unfold channelState
  split <;> simp [h]

@[simp] theorem putPart_safe {s : State} {a : Nat} {bs : List Byte} (h : s.safe = true) :
    (putPart s a bs).safe = true :=
  State.safe_setMem h (Mem.write_wf _ _ (State.safe_iff.mp h).1)

@[simp] theorem saveTile_safe {n k t : Nat} {s : State} (h : s.safe = true) : (saveTile n k t s).safe = true := by
  unfold saveTile
  extract_lets at_ s1 p s2 cores masks s3 s4 s5 s6
  have h1 : s1.safe = true :=
    State.safe_setMem h (Mem.copy_wf _ _ _ (Mem.clear_wf _ _ (Nat.le_add_right _ _) (State.safe_iff.mp h).1))
  clear_value s1
  have h2 : s2.safe = true := foldl_safe (fun _ _ hz => putPart_safe hz) h1 _
  clear_value s2
  have h3 : s3.safe = true := by
    refine foldl_safe (fun z x hz => ?_) h2 _
    dsimp only
    split <;> simp [hz]
  clear_value s3
  have h5 : s5.safe = true := putPart_safe (putPart_safe h3)
  clear_value s5
  have h6 : s6.safe = true := foldl_safe (fun z i hz => putPart_safe (channelState_safe hz)) h5 _
  exact foldl_safe (fun _ _ hz => putPart_safe hz) h6 _

@[simp] theorem restoreTile_safe {n k t : Nat} {s : State} (h : s.safe = true) :
    (restoreTile n k t s).safe = true := by
  unfold restoreTile
  extract_lets at_ bytes s1 p s2 s3 s4
  have h1 : s1.safe = true := State.safe_setMem h (Mem.copy_wf _ _ _ (State.safe_iff.mp h).1)
  clear_value s1
  have h2 : s2.safe = true := by simp [s2, h1]
  clear_value s2
  have h3 : s3.safe = true := by simp [s3, h2]
  clear_value s3
  have h4 : s4.safe = true := by
    refine foldl_safe (fun z i hz => ?_) h3 _
    dsimp only
    split <;> simp [hz]
  clear_value s4
  simp [h4]

@[simp] theorem retile_safe {n : Nat} {f : Nat → Nat} {s : State} : (retile n f s).safe = s.safe := rfl

@[simp] theorem moveTiles_safe {s : State} {c : Ctx} {new : List Nat} (h : s.safe = true) :
    (moveTiles s c new).safe = true := by
  unfold moveTiles
  dsimp only
  split
  · refine foldl_safe (fun _ _ hz => zeroTile_safe hz) ?_ _
    rw [retile_safe]
    exact h
  · exact h

@[simp] theorem replayDrain_safe {s : State} (h : s.safe = true) : (replayDrain s).safe = true := by
  unfold replayDrain
  split <;> simp [h]

@[simp] theorem takeFilled_safe {s : State} (h : s.safe = true) : (takeFilled s).safe = true := by
  unfold takeFilled
  (repeat' split) <;> simp [h]

@[simp] theorem reissueCopy_safe {s : State} {x : Saved} {d : Nat → Word} (h : s.safe = true) :
    (reissueCopy s x d).safe = true := by
  unfold reissueCopy
  simp [h]

@[simp] theorem reissue_safe {s : State} {x : Saved} {bs : List Byte} (h : s.safe = true) :
    (reissue s x bs).safe = true := by
  simp only [reissue]
  (repeat' split) <;> simp [h]

@[simp] theorem resumeSaved_safe {n : Nat} {s : State} {x : Saved} (h : s.safe = true) :
    (resumeSaved n s x).safe = true := by
  unfold resumeSaved
  extract_lets wd s1 s2 s3
  have h1 : s1.safe = true := by unfold s1; split <;> simp [h]
  clear_value s1
  have h2 : s2.safe = true := by simp [s2, h1]
  clear_value s2
  have h3 : s3.safe = true := takeFilled_safe (reissue_safe h2)
  clear_value s3
  split
  · exact h2
  · refine replayDrain_safe ?_
    split <;> simp [h3]

@[simp] theorem restartStreams_safe {n : Nat} {s : State} : (restartStreams n s).safe = s.safe := rfl

@[simp] theorem resumeCtx_safe {s : State} {c : Ctx} {new : List Nat} (h : s.safe = true) :
    (resumeCtx s c new).safe = true := by
  unfold resumeCtx
  extract_lets me s1
  have h1 : s1.safe = true := moveTiles_safe h
  clear_value s1
  split
  · exact h1
  · split
    · exact h1
    · extract_lets s2 s3 power s4 s5 s6 s7 s8
      have h2 : s2.safe = true := foldl_safe (fun _ _ hz => restoreTile_safe hz) h1 _
      clear_value s2
      have h6 : s6.safe = true := by simp [s6, s5, s4, s3, h2]
      clear_value s6
      have h7 : s7.safe = true := by
        refine foldl_safe (fun _ _ hz => resumeSaved_safe hz) ?_ _
        rw [restartStreams_safe]
        exact h6
      clear_value s7
      refine State.refocus_safe ?_
      unfold s8
      split <;> simp [h7]

@[simp] theorem replaceTile_safe {s : State} {n : Nat} {t : Nat} (h : s.safe = true) :
    (replaceTile s n t).all State.safe = true := by
  unfold replaceTile
  simp [h]

@[simp] theorem finishRetire_safe {s : State} {r : Retiring} (h : s.safe = true) :
    (finishRetire s r).safe = true := by
  unfold finishRetire
  extract_lets s1 e
  have h1 : s1.safe = true := by simp [s1, h]
  clear_value s1
  split
  · exact report_safe h1
  · next z hz =>
    have h2 : z.safe = true := safe_of_some (replaceTile_safe h1) hz
    extract_lets s2
    have h3 : s2.safe = true := report_safe h2
    clear_value s2
    split
    · split <;> simp [h3]
    · exact h3

@[simp] theorem finishRetires_safe {s : State} {n : Nat} (h : s.safe = true) : (finishRetires s n).safe = true :=
  foldl_safe (fun _ _ hz => finishRetire_safe hz) h _

@[simp] theorem retireTile_safe {s : State} {t : Nat} (h : s.safe = true) : (retireTile s t).safe = true := by
  simp only [retireTile]
  (repeat' split) <;> simp [h]

theorem execContextQuiesce_safe {s : State} (h : s.safe = true) : SafeOut (execContextQuiesce s) := by
  unfold execContextQuiesce
  rw [orNone_safe, all_safe_bind]
  intro c _
  split
  · rfl
  · extract_lets s1 left
    have h1 : s1.safe = true := foldl_safe (fun _ _ hz => saveTile_safe hz) h _
    clear_value s1
    rw [all_safe_pure]
    exact finishRetires_safe (completeRequest_safe (by simp [h1]))

@[simp] theorem resumeRequest_safe {r : Request} {s : State} (h : s.safe = true) : (resumeRequest r s).Safe := by
  unfold resumeRequest
  split
  · trivial
  · next c _ =>
    split
    · trivial
    · extract_lets new s1 s2
      have h1 : s1.safe = true := moveTiles_safe h
      clear_value s1
      have h2 : s2.safe = true := by
        refine foldl_safe (fun z t hz => ?_) h1 _
        split
        · cases hr : replaceTile z c.num t with
          | none => exact hz
          | some y => exact safe_of_some (replaceTile_safe hz) hr
        · exact hz
      clear_value s2
      split
      · trivial
      · split
        · exact resumeCtx_safe h2
        · trivial

@[simp] theorem execPowerPolicyCheck_safe {s : State} (h : s.safe = true) : SafeOut (execPowerPolicyCheck s) := by
  simp only [execPowerPolicyCheck]
  (repeat' split) <;> simp [h]

theorem execPreemptContext_safe {s : State} (h : s.safe = true) : SafeOut (execPreemptContext s) :=
  serve_safe (fun _ _ hz => preemptRequest_safe hz) h

theorem execResumeContext_safe {s : State} (h : s.safe = true) : SafeOut (execResumeContext s) :=
  serve_safe (fun _ _ hz => resumeRequest_safe hz) h

theorem execCheckpoint_safe {s : State} (h : s.safe = true) : SafeOut (execCheckpoint s) := by
  refine packet_safe (fun q b z hz => ?_) h
  split
  · exact failQueue_safe hz
  · split
    · rfl
    · split
      · exact failQueue_safe hz
      · extract_lets s1 s2
        have h2 : s2.safe = true := by
          refine foldl_safe (fun y c hy => ?_) (launchPacket_safe hz) _
          split <;> simp [hy]
        clear_value s2
        simp [h2]

/-- What an image stores is canonical. -/
theorem storedOf_wf {s : State} (h : s.safe = true) : (storedOf s).wf = true := by
  have hm := Mem.filter_wf (fun c => decide (binderyCell 0 ≤ c.1 ∧ c.1 < buddyCell 0 0)) (State.safe_iff.mp h).1
  simp only [Stored.wf, storedOf, Bool.and_eq_true, List.all_eq_true]
  exact ⟨hm, fun c hc => (List.mem_filter.mp hc).2⟩

@[simp] theorem writeImage_safe {s : State} {at_ : Nat} (h : s.safe = true) : (writeImage s at_).safe = true := by
  unfold writeImage
  extract_lets head body s1 s2 s3 s4
  have h1 : s1.safe = true :=
    State.safe_setMem h (Mem.copy_wf _ _ _ (Mem.clear_wf _ _ (Nat.le_add_right _ _) (State.safe_iff.mp h).1))
  clear_value s1
  have h2 : s2.safe = true := foldl_safe (fun _ _ hz => putPart_safe hz) h1 _
  clear_value s2
  have h4 : s4.safe = true := putPart_safe (putPart_safe h2)
  clear_value s4
  rw [State.safe_mk, Bool.and_eq_true, List.all_eq_true]
  refine ⟨(State.safe_iff.mp h4).1, fun x hx => ?_⟩
  rcases List.mem_cons.mp hx with rfl | hx
  · exact storedOf_wf h
  · exact List.all_eq_true.mp (State.safe_iff.mp h).2 x (List.mem_filter.mp hx).1

@[simp] theorem resumeAll_safe {s : State} (h : s.safe = true) : (resumeAll s).safe = true := by
  refine foldl_safe (fun z c hz => ?_) h _
  split
  · exact resumeCtx_safe hz
  · exact hz

@[simp] theorem finishCheckpoint_safe {s : State} {q : SwQueue} {p : Started} (h : s.safe = true) :
    (finishCheckpoint s q p).all State.safe = true := by
  unfold finishCheckpoint
  rw [all_safe_bind]
  intro run _
  split
  · rfl
  · extract_lets s1 s2
    have h2 : s2.safe = true := by simp [s2, s1, h]
    split
    · rw [all_safe_pure]
      exact failQueue_safe (resumeAll_safe h2)
    · rw [all_safe_pure]
      exact completePacket_safe (resumeAll_safe (writeImage_safe h2))

@[simp] theorem execPacketComplete_safe {s : State} (h : s.safe = true) : SafeOut (execPacketComplete s) := by
  unfold execPacketComplete
  simp [h]

@[simp] theorem readImage_safe {s : State} {at_ : Nat} {x : Stored} (h : s.safe = true) (hx : x.wf = true) :
    (readImage s at_ x).safe = true := by
  obtain ⟨hm, -⟩ := State.safe_iff.mp h
  rw [Stored.wf, Bool.and_eq_true, List.all_eq_true] at hx
  obtain ⟨hc, hin⟩ := hx
  have hcopy := Mem.copy_wf (at_ + 0x1001000) hbmEnd 0 hm
  refine State.safe_setMem h (Mem.append_wf (Mem.append_wf (Mem.filter_wf _ hcopy) hc ?_) (Mem.filter_wf _ hcopy) ?_)
  · intro c hc d hd
    have h1 := of_decide_eq_true (List.mem_filter.mp hc).2
    have h2 := of_decide_eq_true (hin d hd)
    exact Nat.lt_of_lt_of_le h1 h2.1
  · intro c hc d hd
    have h1 := of_decide_eq_true (List.mem_filter.mp hd).2
    rcases List.mem_append.mp hc with hc | hc
    · have h2 := of_decide_eq_true (List.mem_filter.mp hc).2
      have hb : binderyCell 0 ≤ buddyCell 0 0 := by decide
      exact Nat.lt_of_lt_of_le h2 (Nat.le_trans hb h1)
    · have h2 := of_decide_eq_true (hin c hc)
      exact Nat.lt_of_lt_of_le h2.2 h1

/-- What an association list gives stands in it. -/
theorem mem_of_assoc {β : Type} {l : List (Nat × β)} {k : Nat} {x : β} (h : assoc l k = some x) : (k, x) ∈ l := by
  obtain ⟨p, hp, rfl⟩ := Option.map_eq_some_iff.mp h
  have hk : p.1 = k := by simpa using List.find?_some hp
  exact hk ▸ List.mem_of_find?_eq_some hp

@[simp] theorem loadRequest_safe {r : Request} {s : State} (h : s.safe = true) : (loadRequest r s).Safe := by
  unfold loadRequest
  extract_lets at_
  split
  · trivial
  · split
    · trivial
    · split
      · trivial
      · split
        · trivial
        · next x hx =>
          exact readImage_safe h (List.all_eq_true.mp (State.safe_iff.mp h).2 _ (mem_of_assoc hx))

theorem execLoadCheckpoint_safe {s : State} (h : s.safe = true) : SafeOut (execLoadCheckpoint s) :=
  serve_safe (fun _ _ hz => loadRequest_safe hz) h

end Sys2Proof.Machine
end

section
/-! Proof of O58: the links, the host and attestation, and every instruction. -/

namespace Sys2Proof.Machine

@[simp] theorem remoteOffer_safe {s : State} {q : RemoteReq} {packet : Option (Nat × Nat × Nat × Nat)}
    (h : s.safe = true) : (remoteOffer s q packet).1.safe = true := by
  simp only [remoteOffer]
  (repeat' split) <;> simp [h]

@[simp] theorem remoteAmo_safe {s : State} {q : RemoteReq} {l : Loc} (h : s.safe = true) :
    (remoteAmo s q l).1.safe = true := by
  simp only [remoteAmo]
  (repeat' split) <;> simp [h]

@[simp] theorem serveRemote_safe {s : State} {q : RemoteReq} {data : List Byte}
    {packet : Option (Nat × Nat × Nat × Nat)} (h : s.safe = true) : (serveRemote s q data packet).1.safe = true := by
  simp only [serveRemote]
  (repeat' split) <;> simp [h]

@[simp] theorem execRemoteRequestArrival_safe {s : State} (h : s.safe = true) :
    SafeOut (execRemoteRequestArrival s) := by
  unfold execRemoteRequestArrival
  simp [h]

@[simp] theorem peerReplyDue_safe {s : State} (h : s.safe = true) : (peerReplyDue s).all State.safe = true := by
  unfold peerReplyDue
  simp [h]

@[simp] theorem execFlitCrcError_safe {s : State} (h : s.safe = true) : SafeOut (execFlitCrcError s) := by
  unfold execFlitCrcError
  simp [h]

@[simp] theorem State.setLink_safe {s : State} {l : Link} : (State.setLink s l).safe = s.safe := rfl
@[simp] theorem retrainReads_safe {s : State} {d : Nat} : (retrainReads s d).safe = s.safe := rfl

@[simp] theorem execLinkRetrain_safe {s : State} (h : s.safe = true) : SafeOut (execLinkRetrain s) := by
  unfold execLinkRetrain
  simp [h]

@[simp] theorem execRetrainComplete_safe {s : State} (h : s.safe = true) : SafeOut (execRetrainComplete s) := by
  unfold execRetrainComplete
  split <;> simp [h]

@[simp] theorem buddyWrite_safe {s : State} {dev : Nat} {off : Nat} {bs : List Byte} (h : s.safe = true) :
    (buddyWrite s dev off bs).1.safe = true := by
  unfold buddyWrite
  split <;> simp [h]

@[simp] theorem deliverPacket_safe {s : State} {x : Nat × Nat × Nat × Nat} {urgent : Bool} (h : s.safe = true) :
    (deliverPacket s x urgent).safe = true := by
  simp only [deliverPacket]
  (repeat' split) <;> simp [h]

@[simp] theorem execLinkPacketReceived_safe {s : State} (h : s.safe = true) : SafeOut (execLinkPacketReceived s) := by
  simp only [execLinkPacketReceived]
  (repeat' split) <;> simp [h]

@[simp] theorem execEventTailWrite_safe {s : State} (h : s.safe = true) : SafeOut (execEventTailWrite s) := by
  unfold execEventTailWrite
  simp [h]

@[simp] theorem barWrite_safe {s : State} {off : Nat} {n : Nat} {w : Word} (h : s.safe = true) :
    (barWrite s off n w).safe = true := by
  unfold barWrite
  simp [h]

@[simp] theorem execBarRegisterWrite_safe {s : State} (h : s.safe = true) : SafeOut (execBarRegisterWrite s) := by
  unfold execBarRegisterWrite
  simp [h]

@[simp] theorem execHostMemoryAccess_safe {s : State} (h : s.safe = true) : SafeOut (execHostMemoryAccess s) := by
  unfold execHostMemoryAccess
  simp [h]

@[simp] theorem execModuleReset_safe {s : State} (h : s.safe = true) : SafeOut (execModuleReset s) := by
  obtain ⟨hm, hc⟩ := State.safe_iff.mp h
  exact State.safe_iff.mpr ⟨Mem.filter_wf _ hm, hc⟩

@[simp] theorem execGetVersion_safe {s : State} (h : s.safe = true) : SafeOut (execGetVersion s) := by
  unfold execGetVersion
  simp [h]

@[simp] theorem execGetCapabilities_safe {s : State} (h : s.safe = true) : SafeOut (execGetCapabilities s) := by
  unfold execGetCapabilities
  simp [h]

@[simp] theorem execVendorDefinedRequest_safe {s : State} (h : s.safe = true) :
    SafeOut (execVendorDefinedRequest s) := by
  unfold execVendorDefinedRequest
  simp [h]

@[simp] theorem trigAct_safe {t : Trig} {l : BitVec 4} {w : Word} {s : State} (h : s.safe = true) :
    (trigAct t l w s).Safe := by
  unfold trigAct
  split <;> simp [h]

@[simp] theorem enqueueMine_safe {s : State} {q : BitVec 3} {id : Nat} {w : Word} {tag : Bool} {sync : Bool}
    (h : s.safe = true) : (enqueueMine s q id w tag sync).safe = true := by
  unfold enqueueMine
  simp [h]

@[simp] theorem enqueueAct_safe {q : BitVec 3} {w : Word} {tag : Bool} {sync : Bool} {s : State}
    (h : s.safe = true) : (enqueueAct q w tag sync s).Safe := by
  unfold enqueueAct
  split <;> simp [h]

@[simp] theorem tokenAct_safe {q : BitVec 3} {w : Word} {s : State} (h : s.safe = true) : (tokenAct q w s).Safe := by
  unfold tokenAct
  split
  · trivial
  · split
    · next ha => exact State.releaseWait_safe ha
    · exact enqueueAct_safe h

@[simp] theorem xrndAct_safe {w : Word} {s : State} (h : s.safe = true) : (xrndAct w s).Safe := by
  unfold xrndAct
  simp [h]

@[simp] theorem xflagsAct_safe {w : Word} {s : State} (h : s.safe = true) : (xflagsAct w s).Safe := by
  unfold xflagsAct
  simp [h]

@[simp] theorem xtenAct_safe {w : Word} {s : State} (h : s.safe = true) : (xtenAct w s).Safe := by
  unfold xtenAct
  simp [h]

@[simp] theorem preqAct_safe {w : Word} {s : State} (h : s.safe = true) : (preqAct w s).Safe := by
  unfold preqAct
  simp [h]

@[simp] theorem rfqAct_safe {w : Word} {s : State} (h : s.safe = true) : (rfqAct w s).Safe := by
  unfold rfqAct
  simp [h]

@[simp] theorem mvecAct_safe {w : Word} {s : State} (h : s.safe = true) : (mvecAct w s).Safe := by
  unfold mvecAct
  simp [h]

@[simp] theorem specialAct_safe {p : Special} {w : Word} {s : State} (h : s.safe = true) :
    (specialAct p w s).Safe := by
  unfold specialAct
  split <;> simp [h]

@[simp] theorem guardAct_safe {n : BitVec 3} {w : Word} {s : State} (h : s.safe = true) : (guardAct n w s).Safe := by
  unfold guardAct
  simp [h]

@[simp] theorem writeDst_safe {d : SDst} {look : BitVec 4} {w : Word} {s : State} (h : s.safe = true) :
    (writeDst d look w s).Safe := by
  unfold writeDst
  split <;> simp [h]

@[simp] theorem writeWord_safe {d : SDst} {look : BitVec 4} {w : Word} {rs : List RegRef} {s : State}
    (h : s.safe = true) : (writeWord d look w rs s).safe = true :=
  endWindow_safe (fun _ hz => checked_safe (fun _ hu => conclude_safe hu (writeDst_safe (by simp [hu]))) hz) h

@[simp] theorem execMove_safe {g : Guard} {d : SDst} {src : Src} {s : State} (h : s.safe = true) :
    SafeOut (execMove g d src s) :=
  moveTo_safe (fun _ _ hz => writeDst_safe hz) h

@[simp] theorem execDequeue_safe {g : Guard} {d : SDst} {n : BitVec 3} {s : State} (h : s.safe = true) :
    SafeOut (execDequeue g d n s) :=
  moveTo_safe (fun _ _ hz => writeDst_safe hz) h

@[simp] theorem execPeek_safe {g : Guard} {d : SDst} {n : BitVec 3} {s : State} (h : s.safe = true) :
    SafeOut (execPeek g d n s) :=
  moveTo_safe (fun _ _ hz => writeDst_safe hz) h

@[simp] theorem execEnqueue_safe {g : Guard} {n : BitVec 3} {src : Src} {s : State} (h : s.safe = true) :
    SafeOut (execEnqueue g n src s) :=
  moveTo_safe (fun _ _ hz => enqueueAct_safe hz) h

@[simp] theorem execTokenEnqueue_safe {g : Guard} {n : BitVec 3} {src : Src} {s : State} (h : s.safe = true) :
    SafeOut (execTokenEnqueue g n src s) :=
  moveTo_safe (fun _ _ hz => tokenAct_safe hz) h

@[simp] theorem execGuardWrite_safe {g : Guard} {k : BitVec 3} {src : Src} {s : State} (h : s.safe = true) :
    SafeOut (execGuardWrite g k src s) :=
  moveTo_safe (fun _ _ hz => guardAct_safe hz) h

@[simp] theorem execXrndWrite_safe {g : Guard} {src : Src} {s : State} (h : s.safe = true) :
    SafeOut (execXrndWrite g src s) :=
  moveTo_safe (fun _ _ hz => xrndAct_safe hz) h

@[simp] theorem execXflagsWrite_safe {g : Guard} {src : Src} {s : State} (h : s.safe = true) :
    SafeOut (execXflagsWrite g src s) :=
  moveTo_safe (fun _ _ hz => xflagsAct_safe hz) h

@[simp] theorem execXtenWrite_safe {g : Guard} {src : Src} {s : State} (h : s.safe = true) :
    SafeOut (execXtenWrite g src s) :=
  moveTo_safe (fun _ _ hz => xtenAct_safe hz) h

@[simp] theorem execPreqWrite_safe {g : Guard} {src : Src} {s : State} (h : s.safe = true) :
    SafeOut (execPreqWrite g src s) :=
  moveTo_safe (fun _ _ hz => preqAct_safe hz) h

@[simp] theorem execRfqWrite_safe {g : Guard} {src : Src} {s : State} (h : s.safe = true) :
    SafeOut (execRfqWrite g src s) :=
  moveTo_safe (fun _ _ hz => rfqAct_safe hz) h

@[simp] theorem execMvecWrite_safe {g : Guard} {src : Src} {s : State} (h : s.safe = true) :
    SafeOut (execMvecWrite g src s) :=
  moveTo_safe (fun _ _ hz => mvecAct_safe hz) h

@[simp] theorem execMfillWrite_safe {g : Guard} {src : Src} {s : State} (h : s.safe = true) :
    SafeOut (execMfillWrite g src s) :=
  moveTo_safe (fun _ _ hz => mfillAct_safe hz) h

@[simp] theorem execLi_safe {g : Guard} {d : SDst} {i : BitVec 16} {s : State} (h : s.safe = true) :
    SafeOut (execLi g d i s) :=
  issue_safe (fun _ hz => writeWord_safe hz) h

@[simp] theorem execLiShiftInsert_safe {g : Guard} {d : SDst} {i : BitVec 16} {s : State} (h : s.safe = true) :
    SafeOut (execLiShiftInsert g d i s) :=
  issue_safe (fun _ hz => writeWord_safe hz) h

@[simp] theorem writeVDst_safe {d : VDst} {v : Vec} {s : State} (h : s.safe = true) : (writeVDst d v s).Safe := by
  unfold writeVDst
  split <;> simp [h]

@[simp] theorem execVectorTransport_safe {g : Guard} {m : VMove} {s : State} (h : s.safe = true) :
    SafeOut (execVectorTransport g m s) := by
  have h1 : s.takeV.safe = true := by simp [h]
  unfold execVectorTransport
  split
  · exact issue_safe (fun _ hz => endWindow_safe (fun _ hu => withVSrc_safe (fun _ _ hv => writeVDst_safe hv) hu) hz) h1
  · refine issue_safe (fun _ hz => endWindow_safe (fun u hu => ?_) hz) h1
    split
    · exact checked_safe (fun _ hv => conclude_safe hv (writeDst_safe (by simp [hv]))) hu
    · exact conclude_safe hu trivial
    · exact conclude_safe hu trivial
    · exact conclude_safe hu trivial

@[simp] theorem execEncodingNotAnInstruction_safe {l : BitVec 32} {s : State} (h : s.safe = true) :
    SafeOut (execEncodingNotAnInstruction l s) := by
  unfold execEncodingNotAnInstruction
  simp [h]

@[simp] theorem exec_safe {i : Instr} {s : State} (h : s.safe = true) : SafeOut (exec i s) := by
  cases i
  case move => exact execMove_safe h
  case vectorTransport => exact execVectorTransport_safe h
  case enqueue => exact execEnqueue_safe h
  case tokenEnqueue => exact execTokenEnqueue_safe h
  case dequeue => exact execDequeue_safe h
  case peek => exact execPeek_safe h
  case guardWrite => exact execGuardWrite_safe h
  case xrndWrite => exact execXrndWrite_safe h
  case xflagsWrite => exact execXflagsWrite_safe h
  case xtenWrite => exact execXtenWrite_safe h
  case preqWrite => exact execPreqWrite_safe h
  case rfqWrite => exact execRfqWrite_safe h
  case mvecWrite => exact execMvecWrite_safe h
  case mfillWrite => exact execMfillWrite_safe h
  case li => exact execLi_safe h
  case liShiftInsert => exact execLiShiftInsert_safe h
  case br => exact execBr_safe h
  case brl => exact execBrl_safe h
  case rep => exact execRep_safe h
  case nop => exact execNop_safe h
  case encodingNotAnInstruction w => exact execEncodingNotAnInstruction_safe (l := w) h
  case add | sub | addw | subw | and | or | xor | andn | shl | shr | sra | shlw | shrw | sraw | rotl | min | max
      | minu | maxu | mov | sext | zext | bfx | clz | ctz | popc | ceq | cne | clt | cltu | cle | cleu | shl16or
      | mul | mulw | mulh | mulhu | div | divu | rem | remu | fadd | fsub | fmul | fma | fmin | fmax | fneg |
      fceq | fclt | fcle | fsqrt | fdiv | fcvtI | fcvtF | fcvtBf | fcvtE4 | fcvtE5 | fexpBf | fexpE4 | fexpE5 |
      fclass | ld8 | ld8u | ld16 | ld16u | ld32 | ld32u | ld64 | ld128 | st8 | st16 | st32 | st64 | st128 |
      amoAddW | amoAddD | amoAndW | amoAndD | amoOrW | amoOrD | amoXorW | amoXorD | amoMinW | amoMinD | amoMaxW
      | amoMaxD | amoMinuW | amoMinuD | amoMaxuW | amoMaxuD | amoSwapW | amoSwapD | amoCasW | amoCasD | amoCasQ
      | amoFadd | waddrW | waddrD | waddrGeW | waddrGeD | fence | ddisc | dclean | dinval | sigAdd | sigWait |
      jr | jrl | spawn | spawna | done | yield | park | join | gbar | garrive | pyield | sleep | xgo | xstop |
      xwait | ycopy | ycopyAdd | ymcast | yring | yawait | yrel | ypush | ydesc | pctx | pscaleA | pscaleB | pld
      | pmma | pmmas | pdrain | pclr | pflags | pjoin | dpatch | dsety | dsetr | dgety | dgetr | dclk | drun |
      dhalt | dsave | drest | dstat | hinit | hoffer | hdrain | hroute | trap | tret | tfence | idle =>
    exact trigger_safe (fun _ _ hz => by simp [hz]) h
  case vaddF | vsubF | vmulF | vfmaF | vmaxF | vminF | vexp2F | vrcpF | vrsqF | vcvtBf | vcvtE4 | vcvtE5 |
      vunpBf | vunpE4 | vunpE5 | vaddI | vsubI | vmulI | vand | vor | vxor | vshl | vshr | vsra | vceqF | vcltF
      | vsel | vbc | vrot | vperm | vsumF | vmaxR =>
    exact vtrigger_safe (fun _ _ hz => vectorAct_safe hz) h
  case vld => exact vtrigger_safe (fun _ _ hz => actVld_safe hz) h
  case vst => exact vtrigger_safe (fun _ _ hz => actVst_safe hz) h
  case repetitionSequenceIssue => exact execRepetitionSequenceIssue_safe h
  case resultVisible => exact execResultVisible_safe h
  case instructionLineArrival => exact execInstructionLineArrival_safe h
  case queueBlockResume => exact execQueueBlockResume_safe h
  case postedStoreAcknowledgement => exact execPostedStoreAcknowledgement_safe h
  case offerAcknowledgement => exact execOfferAcknowledgement_safe h
  case remoteFaultReport => exact execRemoteFaultReport_safe h
  case writeCombiningTimeout => exact execWriteCombiningTimeout_safe h
  case remoteRequestArrival => exact execRemoteRequestArrival_safe h
  case atomicAtHome => exact execAtomicAtHome_safe h
  case l2LineArrival => exact execL2LineArrival_safe h
  case l2Prefetch => exact execL2Prefetch_safe h
  case waitWake => exact execWaitWake_safe h
  case watchUnitRead => exact execWatchUnitRead_safe h
  case waitTimeout => exact execWaitTimeout_safe h
  case signalUnitAdd => exact execSignalUnitAdd_safe h
  case sigWaitWake => exact execSigWaitWake_safe h
  case sigWaitTimeout => exact execSigWaitTimeout_safe h
  case pressGrant => exact execPressGrant_safe h
  case pressOperationComplete => exact execPressOperationComplete_safe h
  case pressQueueEntryServed => exact execPressQueueEntryServed_safe h
  case rampLimiterWindow => exact execRampLimiterWindow_safe h
  case pjoinTimeout => exact execPjoinTimeout_safe h
  case domainTick => exact execDomainTick_safe h
  case integratorFaultTrap => exact execIntegratorFaultTrap_safe h
  case runQueuePop => exact execRunQueuePop_safe h
  case priorityRise => exact execPriorityRise_safe h
  case migrationAdvertisement => exact execMigrationAdvertisement_safe h
  case migrationMessage => exact execMigrationMessage_safe h
  case migrationAnswer => exact execMigrationAnswer_safe h
  case parkWake => exact execParkWake_safe h
  case sleepExpiry => exact execSleepExpiry_safe h
  case idleWake => exact execIdleWake_safe h
  case referenceStreamDequeue => exact execReferenceStreamDequeue_safe h
  case referenceFetchReturn => exact execReferenceFetchReturn_safe h
  case referenceDemandFetch => exact execReferenceDemandFetch_safe h
  case ringClaim => exact execRingClaim_safe h
  case copyPiece => exact execCopyPiece_safe h
  case copyComplete => exact execCopyComplete_safe h
  case ringPush => exact execRingPush_safe h
  case heapOfferArrival => exact execHeapOfferArrival_safe h
  case heapCountPublish => exact execHeapCountPublish_safe h
  case balancerDistribute => exact execBalancerDistribute_safe h
  case mergeEmit => exact execMergeEmit_safe h
  case trapEntry => exact execTrapEntry_safe h
  case policyCoreAnswer => exact execPolicyCoreAnswer_safe h
  case preemptionDeadline => exact execPreemptionDeadline_safe h
  case contextQuiesce => exact execContextQuiesce_safe h
  case powerPolicyCheck => exact execPowerPolicyCheck_safe h
  case flitCrcError => exact execFlitCrcError_safe h
  case linkRetrain => exact execLinkRetrain_safe h
  case linkPacketReceived => exact execLinkPacketReceived_safe h
  case pageWalkComplete => exact execPageWalkComplete_safe h
  case doorbell => exact execDoorbell_safe h
  case queueMap => exact execQueueMap_safe h
  case queueQuantumExpiry => exact execQueueQuantumExpiry_safe h
  case nopCommand => exact execNopCommand_safe h
  case launchPipeline => exact execLaunchPipeline_safe h
  case launchTask => exact execLaunchTask_safe h
  case wait => exact execWait_safe h
  case signal => exact execSignal_safe h
  case copy => exact execCopy_safe h
  case barrier => exact execBarrier_safe h
  case checkpoint => exact execCheckpoint_safe h
  case packetComplete => exact execPacketComplete_safe h
  case queueFreed => exact execQueueFreed_safe h
  case createContext => exact execCreateContext_safe h
  case destroyContext => exact execDestroyContext_safe h
  case grantTiles => exact execGrantTiles_safe h
  case revokeTiles => exact execRevokeTiles_safe h
  case mapPages => exact execMapPages_safe h
  case unmapPages => exact execUnmapPages_safe h
  case loadKey => exact execLoadKey_safe h
  case freeKey => exact execFreeKey_safe h
  case writeWindow => exact execWriteWindow_safe h
  case clearWindow => exact execClearWindow_safe h
  case allocateQueue => exact execAllocateQueue_safe h
  case destroyQueue => exact execDestroyQueue_safe h
  case restartQueue => exact execRestartQueue_safe h
  case markCheckpointQueue => exact execMarkCheckpointQueue_safe h
  case allotGroups => exact execAllotGroups_safe h
  case allotExperts => exact execAllotExperts_safe h
  case registerImageKey => exact execRegisterImageKey_safe h
  case setFaultMode => exact execSetFaultMode_safe h
  case setMonitorVector => exact execSetMonitorVector_safe h
  case setDeadline => exact execSetDeadline_safe h
  case setPowerRank => exact execSetPowerRank_safe h
  case registerSafeTier => exact execRegisterSafeTier_safe h
  case reserveBuddyRegion => exact execReserveBuddyRegion_safe h
  case setHostVisible => exact execSetHostVisible_safe h
  case registerCollectiveSet => exact execRegisterCollectiveSet_safe h
  case setEventRing => exact execSetEventRing_safe h
  case faultAnswer => exact execFaultAnswer_safe h
  case preemptContext => exact execPreemptContext_safe h
  case resumeContext => exact execResumeContext_safe h
  case loadCheckpoint => exact execLoadCheckpoint_safe h
  case pauseQueue => exact execPauseQueue_safe h
  case eventTailWrite => exact execEventTailWrite_safe h
  case barRegisterWrite => exact execBarRegisterWrite_safe h
  case hostMemoryAccess => exact execHostMemoryAccess_safe h
  case moduleReset => exact execModuleReset_safe h
  case getVersion => exact execGetVersion_safe h
  case getCapabilities => exact execGetCapabilities_safe h
  case vendorDefinedRequest => exact execVendorDefinedRequest_safe h
  case reservedOpPacket => exact execReservedOpPacket_safe h
  case reservedOpRequest => exact execReservedOpRequest_safe h
  case snoopOrBackInvalidate => exact execSnoopOrBackInvalidate_safe h
  case retrainComplete => exact execRetrainComplete_safe h

end Sys2Proof.Machine
end

section
/-! Proof of O58: soft errors, the fetch, and the step. -/

namespace Sys2Proof.Machine

@[simp] theorem logError_safe {s : State} {row : Nat} {loc : Nat} {lasts : Bool} :
    (logError s row loc lasts).safe = s.safe := rfl

@[simp] theorem lasting_safe {s : State} {ctx : Nat} {row : Nat} {loc : Nat} (h : s.safe = true) :
    (lasting s ctx row loc).safe = true := by
  unfold lasting
  simp [h]

@[simp] theorem lose_safe {s : State} {x : Lost} {lost : Bool} (h : s.safe = true) : (lose s x lost).safe = true := by
  unfold lose
  simp [h]

@[simp] theorem loseDword_safe {s : State} {cell : Nat} {lost : Bool} (h : s.safe = true) :
    (loseDword s cell lost).safe = true := by
  unfold loseDword
  simp [h]

@[simp] theorem failChan_safe {s : State} {id : Nat} : (failChan s id).safe = s.safe := rfl

@[simp] theorem retireBank_safe {s : State} {t : Nat} {off : Nat} {lost : Bool} (h : s.safe = true) :
    (retireBank s t off lost).safe = true := by
  unfold retireBank
  simp [h]

@[simp] theorem loseArray_safe {s : State} {k : CoreKey} {lost : Bool} (h : s.safe = true) :
    (loseArray s k lost).safe = true := by
  unfold loseArray
  simp [h]

@[simp] theorem strikeAt_safe {s : State} {x : Strike} (h : s.safe = true) : (strikeAt s x).safe = true := by
  have hl : ∀ ctx row loc, (lasting s ctx row loc).safe = true := fun _ _ _ => lasting_safe h
  cases x with
  | reg k r =>
    simp only [strikeAt]
    split <;> simp [h]
  | bank t off lost => exact retireBank_safe (hl _ _ _)
  | cache cell lost => exact loseDword_safe (hl _ _ _)
  | press t c p lost => exact retireTile_safe (lose_safe (hl _ _ _))
  | heap t loc lost => exact retireTile_safe (lose_safe (hl _ _ _))
  | array k loc lost => exact retireTile_safe (loseArray_safe (hl _ _ _))
  | transient row loc => exact h
  | queueFile k chan lost =>
    simp only [strikeAt]
    split <;> simp [hl]
  | hbm cell lost => exact loseDword_safe (hl _ _ _)
  | lane k n =>
    simp only [strikeAt]
    split <;> simp [hl]

@[simp] theorem strikeNow_safe {s : State} {x : Strike} (h : s.safe = true) : (strikeNow s x).safe = true := by
  unfold strikeNow
  simp [h]

/-- What a search for a step that keeps the state safe finds is safe. -/
theorem findSome_safe {α : Type} {f : α → Option State} (hf : ∀ x, (f x).all State.safe = true) (l : List α) :
    (l.findSome? f).all State.safe = true := by
  cases hl : l.findSome? f with
  | none => rfl
  | some z =>
    obtain ⟨x, -, hx⟩ := List.exists_of_findSome?_eq_some hl
    exact safe_of_some (hf x) hx

@[simp] theorem performDue_safe {s : State} (h : s.safe = true) : (performDue s).all State.safe = true := by
  refine findSome_safe (fun t => findSome_safe (fun n => ?_) _) _
  split
  · rw [all_safe_optionBind]
    exact fun z hz => performNow_safe (safe_of_some (State.focus_safe h) hz)
  · rfl

@[simp] theorem releaseDue_safe {s : State} (h : s.safe = true) : (releaseDue s).all State.safe = true := by
  refine findSome_safe (fun t => ?_) _
  split
  · rfl
  · rw [all_safe_optionBind]
    exact fun z hz => releaseNow_safe (safe_of_some (State.focus_safe h) hz)

@[simp] theorem stopDue_safe {s : State} (h : s.safe = true) : (stopDue s).all State.safe = true := by
  refine findSome_safe (fun t => ?_) _
  split
  · rw [all_safe_map]
    exact fun z hz => State.reportStop_safe (safe_of_some (State.focus_safe h) hz)
  · rfl

@[simp] theorem runEvent_safe {e : Event} {s : State} (h : s.safe = true) : SafeOut (runEvent e s) :=
  exec_safe (by simp [h])

@[simp] theorem State.holdFetch_safe {s : State} {h : Hold} : (State.holdFetch s h).safe = s.safe := rfl

@[simp] theorem missTlb_safe {s : State} {page : Nat} (h : s.safe = true) : (missTlb s page).safe = true := by
  unfold missTlb
  simp [h]

@[simp] theorem fetchAndRun_safe {s : State} (h : s.safe = true) : SafeOut (fetchAndRun s) := by
  unfold fetchAndRun
  extract_lets pc page
  split
  · exact missTlb_safe h
  · split
    · exact raiseFault_safe h
    · split
      · simp [h]
      · split
        · exact raiseFault_safe h
        · split
          · simp [h]
          · exact exec_safe (by simp [h])

@[simp] theorem State.served_safe {s : State} {k : SlotKey} (h : s.safe = true) : (State.served s k).safe = true := by
  unfold State.served
  simp [h]

@[simp] theorem takeOwed_safe {s : State} (h : s.safe = true) : (takeOwed s).all State.safe = true := by
  unfold takeOwed
  split
  · split
    · exact takeTrap_safe (by simp [h])
    · rfl
  · rfl

@[simp] theorem owedDue_safe {s : State} (h : s.safe = true) : (owedDue s).all State.safe = true := by
  refine findSome_safe (fun t => ?_) _
  split
  · rw [all_safe_optionBind]
    intro z hz
    rw [all_safe_map]
    exact fun y hy => State.refocus_safe (safe_of_some (takeOwed_safe (safe_of_some (State.focus_safe h) hz)) hy)
  · rfl

/-- The first of two computations that gives a state gives a safe one where both do. -/
theorem all_safe_or {o u : Option State} (ho : o.all State.safe = true) (hu : u.all State.safe = true) :
    (o.or u).all State.safe = true := by
  cases o with
  | none => exact hu
  | some z => exact ho

@[simp] theorem ownMove_safe {s : State} (h : s.safe = true) : (ownMove s).all State.safe = true :=
  all_safe_or (performDue_safe h) (all_safe_or (releaseDue_safe h) (all_safe_or (ringOpDue_safe h)
    (all_safe_or (peerReplyDue_safe h) (all_safe_or (stopDue_safe h) (owedDue_safe h)))))

@[simp] theorem issueSlot_safe {k : SlotKey} {s : State} (h : s.safe = true) : SafeOut (issueSlot k s) := by
  unfold issueSlot
  split
  · trivial
  · next z hz =>
    have h1 : z.safe = true := safe_of_some (State.focus_safe h) hz
    split
    · next y hy => exact safe_of_some (takeOwed_safe h1) hy
    · have h2 : SafeOut (fetchAndRun { z.map (fun t => { t with hold := .none }) with issued := k.coreKey :: z.issued }) :=
        fetchAndRun_safe (by simp [h1])
      split
      · next y hy =>
        rw [hy] at h2
        exact State.served_safe h2
      · exact h2

@[simp] theorem nextCycle_safe {s : State} (h : s.safe = true) : (nextCycle s).safe = true := by
  unfold nextCycle
  simp [h]

@[simp] theorem ordinary_safe {s : State} (h : s.safe = true) : SafeOut (ordinary s) := by
  unfold ordinary
  split
  · next z hz => exact safe_of_some (ownMove_safe h) hz
  · split
    · exact runEvent_safe h
    · split
      · exact issueSlot_safe h
      · split
        · exact runEvent_safe h
        · exact nextCycle_safe h

@[simp] theorem nextStep_safe {s : State} (h : s.safe = true) : SafeOut (nextStep s) := by
  have hrest : ∀ rest, ({ s with agenda := rest } : State).safe = true := fun rest => by simp [h]
  unfold nextStep
  split
  · exact ordinary_safe h
  · split
    · exact hrest _
    · have he := fun e rest => runEvent_safe (e := e) (hrest rest)
      split
      · exact hrest _
      · exact he _ _
  · split
    · exact issueSlot_safe (hrest _)
    · exact hrest _
  · next k n rest _ =>
    rw [safeOut_next]
    cases hp : (s.focus k).bind (fun s => performNow s n) with
    | none => exact hrest _
    | some z =>
      have hb : ((s.focus k).bind fun s => performNow s n).all State.safe = true := by
        rw [all_safe_optionBind]
        exact fun y hy => performNow_safe (safe_of_some (State.focus_safe h) hy)
      have hz : z.safe = true := safe_of_some hb hp
      simp [hz]
  · exact strikeNow_safe (hrest _)

/-- Settles O58: whatever a step does, it keeps memory and checkpoint images in canonical form. -/
theorem stepKeepsMemoryCanonical : Obligations.StepKeepsMemoryCanonical := by
  intro s z h hz
  have hs : SafeOut (nextStep s) := nextStep_safe h
  change nextStep s = .next z at hz
  rw [hz] at hs
  exact hs

end Sys2Proof.Machine
end

section
/-! Proof of O54: what a step is, for each head of the agenda and where the agenda is empty. -/

namespace Sys2Proof.Machine

/-! ### The slot in focus -/

theorem State.focus_self {s : State} (h : s.th.life ≠ .idle) : s.focus s.th.key = some s := by
  unfold State.focus
  rw [if_pos ⟨rfl, h⟩]

theorem takeOwed_none {s : State} (h : s.th.owed = []) : takeOwed s = none := by
  unfold takeOwed
  rw [h]

/-! ### A trap is taken whatever the thread held for -/

/-- A thread that holds for nothing. -/
def Thread.unheld (t : Thread) : Thread := { t with hold := .none }

theorem Thread.deliver_unheld (t : Thread) (f : Flight) : t.unheld.deliver f = (t.deliver f).unheld := by
  unfold Thread.deliver
  cases f.port <;> rfl

theorem Thread.settle_unheld (t : Thread) (now : Nat) : t.unheld.settle now = (t.settle now).unheld := by
  unfold Thread.settle
  have h := List.foldl_hom (l := t.flight.filter (fun f => decide (f.due ≤ now))) Thread.unheld
    (init := { t with flight := t.flight.filter (fun f => decide (now < f.due)) }) Thread.deliver_unheld
  exact congrArg (fun x : Thread => x.note now _) h

theorem Thread.closeWin_unheld (t : Thread) (u : Win) : t.unheld.closeWin u = (t.closeWin u).unheld := by
  have hu : t.unheld.win u = t.win u := rfl
  unfold Thread.closeWin
  rw [hu]
  dsimp only
  split
  · split
    · rfl
    · split <;> rfl
  · rfl

theorem Thread.closeDone_unheld (t : Thread) (now : Nat) : t.unheld.closeDone now = (t.closeDone now).unheld := by
  unfold Thread.closeDone
  refine List.foldl_hom Thread.unheld (fun x u => ?_)
  rw [Thread.closeWin_unheld]
  symm
  exact apply_ite Thread.unheld _ _ _

/-- The thread at its trap's entry (R346). -/
def Thread.atEntry (now : Nat) (t : Thread) : Thread :=
  { (t.settle now).closeDone now with trapWait := none, hold := .none, unperformed := none, again := false }

theorem Thread.atEntry_unheld (now : Nat) (t : Thread) : t.unheld.atEntry now = t.atEntry now := by
  unfold Thread.atEntry
  rw [Thread.settle_unheld, Thread.closeDone_unheld]
  generalize (t.settle now).closeDone now = x
  rfl

theorem enterTrap_unheld (s : State) (ti : TrapInfo) : enterTrap (s.map Thread.unheld) ti = enterTrap s ti := by
  have h : (s.map Thread.unheld).map (Thread.atEntry s.cyc) = s.map (Thread.atEntry s.cyc) :=
    congrArg (fun t => ({ s with th := t } : State)) (Thread.atEntry_unheld s.cyc s.th)
  unfold enterTrap
  extract_lets s1 s2
  have h' : s1 = s2 := h
  rw [h']

theorem takeTrap_unheld {s : State} (ti : TrapInfo) (h : s.th.mode = .user) :
    takeTrap (s.map Thread.unheld) ti = takeTrap s ti := by
  have h' : (s.map Thread.unheld).th.mode = .user := h
  have hd : (s.map Thread.unheld).th.drained s.cyc = s.th.drained s.cyc := rfl
  unfold takeTrap
  rw [h, h', State.map_cyc, hd, enterTrap_unheld]
  rfl

theorem takeOwed_user {s : State} {ti : TrapInfo} {more : List TrapInfo} (ho : s.th.owed = ti :: more) (hm : s.th.mode = .user) :
    takeOwed s = some (takeTrap (s.map (fun t => { t with owed := more }))
      (if ti.here then { ti with mtpc := s.th.pc } else ti)) := by
  unfold takeOwed
  rw [ho]
  dsimp only
  rw [if_pos hm, ← takeTrap_unheld (s := s.map (fun t => { t with owed := more })) _ hm]
  rfl

/-! ### Fetch and issue -/

/-- A word that is present is run (R45, R316). -/
theorem fetchAndRun_present {u : State} {loc : Loc} {w : BitVec 32}
    (ht : (u.th.key.coreKey, u.th.ctx, u.th.pc.toNat / 4096) ∈ u.tlb)
    (hl : (u.th.key.coreKey, u.th.ctx, u.th.pc.toNat / 64) ∈ u.ilines)
    (hx : translate u u.self u.th.pc .code = .ok loc) (hw : fetchWord u u.th.pc = .ok w) (hb : codeBusy u loc.cell = false) :
    fetchAndRun u = exec (decode w) (if loc.viewed then u.evict u.th.key.coreKey loc.cell else u) := by
  unfold fetchAndRun
  simp only [List.contains_iff_mem.mpr ht, hx, List.contains_iff_mem.mpr hl, hw, hb, Bool.not_true, Bool.false_eq_true, if_false]

/-- The slot in focus, which owes nothing, issues. -/
theorem issueSlot_self {s : State} (hi : s.th.life ≠ .idle) (ho : s.th.owed = []) :
    issueSlot s.th.key s
      = match fetchAndRun { s.map (fun t => { t with hold := .none }) with issued := s.th.key.coreKey :: s.issued } with
        | .next z => .next (z.served s.th.key)
        | o => o := by
  unfold issueSlot
  rw [State.focus_self hi]
  dsimp only
  rw [takeOwed_none ho] <;> rfl

/-- The slot in focus, which owes a trap, takes it (R39). -/
theorem issueSlot_owes {s : State} {ti : TrapInfo} {more : List TrapInfo} (hi : s.th.life ≠ .idle) (ho : s.th.owed = ti :: more)
    (hm : s.th.mode = .user) :
    issueSlot s.th.key s
      = .next (takeTrap (s.map (fun t => { t with owed := more })) (if ti.here then { ti with mtpc := s.th.pc } else ti)) := by
  unfold issueSlot
  rw [State.focus_self hi]
  dsimp only
  rw [takeOwed_user ho hm]

/-- A slot that can issue is a ready slot, and no ready slot of its core comes before it in the rotation (R20, R244). -/
theorem mem_nextSlots {s : State} {k : SlotKey} (h : k ∈ nextSlots s) : ∃ t ∈ s.threads, t.key = k ∧ slotReady s t = true
    ∧ ∀ u ∈ s.threads, slotReady s u = true → u.key.coreKey = k.coreKey →
      (k.slot + 7 - servedLast s k.coreKey) % 8 ≤ (u.key.slot + 7 - servedLast s k.coreKey) % 8 := by
  obtain ⟨t, ht, rfl⟩ := List.mem_map.mp h
  obtain ⟨hr, hfirst⟩ := List.mem_filter.mp ht
  obtain ⟨hm, hready⟩ := List.mem_filter.mp hr
  refine ⟨t, hm, rfl, hready, fun u hu hur hk => ?_⟩
  have hu' := List.all_eq_true.mp hfirst u (List.mem_filter.mpr ⟨hu, hur⟩)
  simpa [hk] using hu'

/-! ### The step, by the head of the agenda -/

theorem step_ordinary {s : State} (h : s.agenda = []) : step s = ordinary s := by
  unfold step nextStep
  rw [h]

theorem step_issue {s : State} {k : SlotKey} {rest : List Turn} (h : s.agenda = .issue k :: rest) :
    step s = if k ∈ nextSlots s then issueSlot k { s with agenda := rest } else .next { s with agenda := rest } := by
  unfold step nextStep
  rw [h]
  dsimp only
  simp only [List.contains_iff_mem]

/-- The turn of an event that its rule admits. -/
theorem step_event {s z : State} {i : Instr} {e : EvArg} {rest : List Turn} (h : s.agenda = .event i e :: rest)
    (hm : mayTurn s i e = true) (hz : exec i { s with agenda := rest, ev := e } = .next z) : step s = .next z := by
  have hr : runEvent (i, e) { s with agenda := rest } = .next z := hz
  unfold step nextStep
  rw [h]
  dsimp only
  rw [hm, hr]
  rfl

/-- Where nothing is due, the first slot of the rotation issues. -/
theorem ordinary_issue {s : State} {k : SlotKey} (ho : ownMove s = none) (hp : pickEvent s = none)
    (hn : (nextSlots s).head? = some k) : ordinary s = issueSlot k s := by
  obtain ⟨rest, hn⟩ : ∃ rest, nextSlots s = k :: rest := by
    cases hc : nextSlots s with
    | nil => simp [hc] at hn
    | cons x xs => simp only [hc, List.head?_cons, Option.some.injEq] at hn; exact ⟨xs, by rw [hn]⟩
  unfold ordinary
  rw [ho, hp, hn]

theorem ordinary_cycle {s : State} (ho : ownMove s = none) (hp : pickEvent s = none) (hn : nextSlots s = [])
    (hl : lateEvent s = none) : ordinary s = .next (nextCycle s) := by
  unfold ordinary
  rw [ho, hp, hn, hl]

theorem ordinary_boot {s : State} (ho : ownMove s = none) (hb : s.booted = false) :
    ordinary s = exec .moduleReset { s with ev := {} } := by
  have hp : pickEvent s = some (.moduleReset, {}) := by simp [pickEvent, hb]
  unfold ordinary
  rw [ho, hp]
  rfl

theorem ordinary_ownMove {s z : State} (h : ownMove s = some z) : ordinary s = .next z := by
  unfold ordinary
  rw [h]

/-! ### The end of a cycle -/

/-- What the end of a cycle sets. -/
structure SameCycle (s z : State) : Prop where
  cyc : z.cyc = s.cyc
  issued : z.issued = s.issued
  vUsed : z.vUsed = s.vUsed

theorem SameCycle.trans {s t u : State} (h : SameCycle s t) (k : SameCycle t u) : SameCycle s u :=
  ⟨k.cyc.trans h.cyc, k.issued.trans h.issued, k.vUsed.trans h.vUsed⟩

theorem leaveHome_sameCycle (s : State) (c : Chan) : SameCycle s (s.leaveHome c) := by
  unfold State.leaveHome
  split <;> exact ⟨rfl, rfl, rfl⟩

theorem leaveHomes_sameCycle (cs : List Chan) (s : State) : SameCycle s (cs.foldl State.leaveHome s) := by
  induction cs generalizing s with
  | nil => exact ⟨rfl, rfl, rfl⟩
  | cons c cs ih => exact (leaveHome_sameCycle s c).trans (ih _)

theorem dropChans_sameCycle (s : State) (p : Chan → Bool) : SameCycle s (s.dropChans p) := by
  obtain ⟨hc, hi, hv⟩ := leaveHomes_sameCycle (s.chans.filter p) s
  exact ⟨hc, hi, hv⟩

theorem zeroTile_sameCycle (s : State) (t : Nat) : SameCycle s (zeroTile s t) := by
  obtain ⟨hc, hi, hv⟩ := dropChans_sameCycle s (fun c => c.onTile t)
  exact ⟨hc, hi, hv⟩

theorem freeCtx_sameCycle (s : State) (n : Nat) : SameCycle s (freeCtx s n) := by
  obtain ⟨hc, hi, hv⟩ := dropChans_sameCycle s (fun c => c.ctx == n)
  exact ⟨hc, hi, hv⟩

theorem respond_sameCycle (s : State) (status : Nat) (rs : List Word) : SameCycle s (respond s status rs) := ⟨rfl, rfl, rfl⟩

theorem zeroTiles_sameCycle (ts : List Nat) (s : State) : SameCycle s (ts.foldl zeroTile s) := by
  induction ts generalizing s with
  | nil => exact ⟨rfl, rfl, rfl⟩
  | cons t ts ih => exact (zeroTile_sameCycle s t).trans (ih _)

/-- A request that completes changes neither the cycle nor what has issued in it. -/
theorem completeRequest_sameCycle (s : State) : SameCycle s (completeRequest s) := by
  have hs : SameCycle s s := ⟨rfl, rfl, rfl⟩
  unfold completeRequest
  split
  case isTrue => exact hs
  case isFalse =>
    split
    case h_1 => exact hs
    case h_2 ctx tiles gone _ =>
      split
      case isTrue =>
        refine SameCycle.trans (zeroTiles_sameCycle tiles s) ?_
        cases gone
        · exact respond_sameCycle _ 0 []
        · exact (freeCtx_sameCycle _ ctx).trans (respond_sameCycle _ 0 [])
      case isFalse => exact hs
    case h_3 =>
      split
      · exact hs
      · exact respond_sameCycle s 0 []
    case h_4 =>
      split
      · split
        · exact respond_sameCycle s 0 []
        · exact hs
      · exact hs

theorem completeRequest_idle {s : State} (h : s.mail.busy = false) : completeRequest s = s := by
  simp [completeRequest, h]

theorem nextCycle_idle {s : State} (h : s.mail.busy = false) :
    nextCycle s = { s with cyc := s.cyc + 1, issued := [], vUsed := [] } := completeRequest_idle h

/-! ### O54 -/

/-- Settles O54, by the head of the agenda: each clause is the equation of that case of the step. -/
theorem stepRunsTheDecodedWord : Obligations.StepRunsTheDecodedWord := by
  unfold Obligations.StepRunsTheDecodedWord
  refine ⟨?issues, ?dropped, fun s k hk => mem_nextSlots hk, ?event, ?owes, ?own, ?cycle, ?boot⟩
  case issues =>
    intro s rest loc w hturn hi ho u ht hl hx hw hb
    have hstep : step s = issueSlot s.th.key { s with agenda := rest } := by
      rcases hturn with ⟨ha, hn⟩ | ⟨ha, rfl, hown, hp, hn⟩
      · rw [step_issue ha, if_pos hn]
      · rw [step_ordinary ha, ordinary_issue hown hp hn, ← ha]
    have hrun : fetchAndRun u = exec (decode w) (if loc.viewed then u.evict s.th.key.coreKey loc.cell else u) :=
      fetchAndRun_present ht hl hx hw hb
    rw [hstep, ← hrun]
    exact issueSlot_self (s := { s with agenda := rest }) hi ho
  case dropped =>
    intro s k rest ha hn
    rw [step_issue ha, if_neg hn]
  case event =>
    intro s z i e rest ha hm hz
    exact step_event ha hm hz
  case owes =>
    intro s rest ti more ha hi hn ho hm
    rw [step_issue ha, if_pos hn]
    exact issueSlot_owes (s := { s with agenda := rest }) hi ho hm
  case own =>
    intro s z ha hz
    rw [step_ordinary ha, ordinary_ownMove hz]
  case cycle =>
    intro s ha hown hp hn hl
    obtain ⟨hc, hi, hv⟩ := completeRequest_sameCycle { s with cyc := s.cyc + 1, issued := [], vUsed := [] }
    refine ⟨nextCycle s, by rw [step_ordinary ha, ordinary_cycle hown hp hn hl], hc, hi, hv, fun hb => ?_⟩
    rw [nextCycle_idle hb]
  case boot =>
    intro s ha hown hb
    rw [step_ordinary ha, ordinary_boot hown hb]

end Sys2Proof.Machine
end

section
/-! Proof of O35: what the checks of a word do before its body, whatever the trigger's own act. -/

namespace Sys2Proof.Machine

/-! ### Every trigger's instruction is a trigger of its port -/

/-- A scalar trigger runs some act behind the checks of its port (R33, R50). -/
theorem exec_trigInstr (t : Trig) (g : Guard) (l : BitVec 4) (src : Src) (s : State) :
    ∃ look act, exec (t.instr g l src) s = trigger t look g src act s := by
  cases t <;> exact ⟨_, _, rfl⟩

/-- A vector trigger runs some act behind the checks of its port (R47). -/
theorem exec_vtrigInstr (t : VTrig) (g : Guard) (l : BitVec 4) (src : VSource) (s : State) :
    ∃ look act, exec (t.instr g l src) s = vtrigger t look g src act s := by
  cases t <;> exact ⟨_, _, rfl⟩

/-! ### The checks of the word -/

theorem trapIllegal_seen (s : State) : trapIllegal s.seen = takeTrap s.seen { cause := 2, mtpc := s.th.pc } := by
  rw [trapIllegal, trapHere, State.seen_pc]

theorem trapPrivilege_seen (s : State) : trapPrivilege s.seen = takeTrap s.seen { cause := 3, mtpc := s.th.pc } := by
  rw [trapPrivilege, trapHere, State.seen_pc]

section
variable {t : Trig} {vt : VTrig} {g : Guard} {l : BitVec 4} {src : Src} {vsrc : VSource} {s : State}

/-- A scalar trigger whose guard is false only moves on (R34). -/
theorem exec_trigInstr_skip (hf : (srcFate s.th.key s.th.mode src).and (trigFate s.th.key s.th.mode t) = .ok)
    (hg : s.seen.th.holds g = false) : exec (t.instr g l src) s = .next s.passed := by
  obtain ⟨look, act, h⟩ := exec_trigInstr t g l src s
  rw [h, trigger, issue_skip hf hg]

theorem exec_trigInstr_illegal (hf : (srcFate s.th.key s.th.mode src).and (trigFate s.th.key s.th.mode t) = .illegal) :
    exec (t.instr g l src) s = .next (takeTrap s.seen { cause := 2, mtpc := s.th.pc }) := by
  obtain ⟨look, act, h⟩ := exec_trigInstr t g l src s
  rw [h, trigger, issue_illegal hf, trapIllegal_seen]

theorem exec_trigInstr_privilege (hf : (srcFate s.th.key s.th.mode src).and (trigFate s.th.key s.th.mode t) = .privilege) :
    exec (t.instr g l src) s = .next (takeTrap s.seen { cause := 3, mtpc := s.th.pc }) := by
  obtain ⟨look, act, h⟩ := exec_trigInstr t g l src s
  rw [h, trigger, issue_privilege hf, trapPrivilege_seen]

/-- A vector trigger whose guard is false has taken V in its cycle and only moves on (R34, R101). -/
theorem exec_vtrigInstr_skip (hf : vsourceFate s.th.key s.th.mode vsrc = .ok) (hg : s.seen.th.holds g = false) :
    exec (vt.instr g l vsrc) s = .next s.vseen.advance := by
  obtain ⟨look, act, h⟩ := exec_vtrigInstr vt g l vsrc s
  have hf' : vsourceFate s.takeV.th.key s.takeV.th.mode vsrc = .ok := hf
  have hg' : s.takeV.seen.th.holds g = false := hg
  rw [h, vtrigger, issue_skip (fate := fun k m => vsourceFate k m vsrc) hf' hg']
  rfl

theorem exec_vtrigInstr_illegal (hf : vsourceFate s.th.key s.th.mode vsrc = .illegal) :
    exec (vt.instr g l vsrc) s = .next (takeTrap s.vseen { cause := 2, mtpc := s.th.pc }) := by
  obtain ⟨look, act, h⟩ := exec_vtrigInstr vt g l vsrc s
  have hf' : vsourceFate s.takeV.th.key s.takeV.th.mode vsrc = .illegal := hf
  rw [h, vtrigger, issue_illegal (fate := fun k m => vsourceFate k m vsrc) hf', trapIllegal_seen]
  rfl

/-! ### Register data errors -/

/-- A source whose read gives a value, where a register it or its operands name has a parity error: the trap (R368). -/
theorem withSrc_bad {trig look : Nat} {ops : List RegRef} {act : Word → State → Act} {w : Word}
    {d : Option (BitVec 3 × Nat × Elem)} {r : RegRef} (h : s.readSrc src = .val w d)
    (hb : (srcRegs src ++ ops).find? (fun r => s.th.bad.contains r) = some r) :
    withSrc trig look ops src act s = dataError s r := by
  unfold withSrc
  rw [h]
  exact checked_bad hb

theorem withVSrc_bad {trig look : Nat} {ops : List RegRef} {act : Vec → State → Act} {v : Vec}
    {d : Option (BitVec 3 × Nat × Elem)} {r : RegRef} (h : s.readVSource vsrc = .val v d)
    (hb : (vsrcRegs vsrc ++ ops).find? (fun r => s.th.bad.contains r) = some r) :
    withVSrc trig look ops vsrc act s = dataError s r := by
  unfold withVSrc
  rw [h]
  exact checked_bad hb

theorem exec_trigInstr_bad {w : Word} {d : Option (BitVec 3 × Nat × Elem)} {r : RegRef}
    (hf : (srcFate s.th.key s.th.mode src).and (trigFate s.th.key s.th.mode t) = .ok) (hg : s.seen.th.holds g = true)
    (hw : s.seen.closed (trigWins t) = true) (hs : s.seen.readSrc src = .val w d)
    (hb : (srcRegs src ++ operandRegs t).find? (fun r => s.seen.th.bad.contains r) = some r) :
    exec (t.instr g l src) s = .next (dataError s.seen r) := by
  obtain ⟨look, act, h⟩ := exec_trigInstr t g l src s
  rw [h, trigger, issue_body hf hg, endWindow_closed hw, withSrc_bad hs hb]

theorem exec_move_bad {dst : SDst} {w : Word} {d : Option (BitVec 3 × Nat × Elem)} {r : RegRef}
    (hf : (srcFate s.th.key s.th.mode src).and (dstFate s.th.key s.th.mode dst) = .ok) (hg : s.seen.th.holds g = true)
    (hs : s.seen.readSrc src = .val w d) (hb : (srcRegs src).find? (fun r => s.seen.th.bad.contains r) = some r) :
    execMove g dst src s = .next (dataError s.seen r) := by
  unfold execMove
  rw [moveTo, issue_body (fate := fun k m => (srcFate k m src).and (dstFate k m dst)) hf hg,
    withSrc_bad hs (by rwa [List.append_nil])]

theorem exec_vtrigInstr_bad {v : Vec} {d : Option (BitVec 3 × Nat × Elem)} {r : RegRef}
    (hf : vsourceFate s.th.key s.th.mode vsrc = .ok) (hg : s.seen.th.holds g = true) (hw : s.seen.closed [.v] = true)
    (hs : s.vseen.readVSource vsrc = .val v d)
    (hb : (vsrcRegs vsrc ++ vOperandRegs vt).find? (fun r => s.vseen.th.bad.contains r) = some r) :
    exec (vt.instr g l vsrc) s = .next (dataError s.vseen r) := by
  obtain ⟨look, act, h⟩ := exec_vtrigInstr vt g l vsrc s
  have hf' : vsourceFate s.takeV.th.key s.takeV.th.mode vsrc = .ok := hf
  have hg' : s.takeV.seen.th.holds g = true := hg
  have hw' : s.takeV.seen.closed [.v] = true := hw
  rw [h, vtrigger, issue_body (fate := fun k m => vsourceFate k m vsrc) hf' hg', endWindow_closed hw']
  exact congrArg _ (withVSrc_bad hs hb)

end

/-- A register whose error has ended is not among those in error. -/
theorem Thread.not_mem_mend (t : Thread) (r : RegRef) : r ∉ t.mend r := by
  simp [Thread.mend]

theorem Thread.getG_setG_zero (t : Thread) (n : BitVec 5) : (t.setG n 0).getG n = 0 := by
  by_cases h : n = 0
  · simp [Thread.getG, h]
  · rw [Thread.setG, if_neg h]
    simp [Thread.getG]

/-! ### O35 -/

/-- R33, R34, R55: a false guard. -/
theorem falseGuardSkips : Rules.FalseGuardSkips := by
  refine ⟨fun t g l src s hf hg => exec_trigInstr_skip hf hg, fun t g l src s hf hg => exec_vtrigInstr_skip hf hg,
    fun g dst src s hg => ⟨fun hf => ?move, fun off => ⟨?br, ?brl⟩⟩⟩
  case move =>
    show execMove g dst src s = _
    rw [execMove, moveTo, issue_skip (fate := fun k m => (srcFate k m src).and (dstFate k m dst)) hf hg]
  case br =>
    show execBr g off s = _
    rw [execBr, issue_skip rfl hg]
  case brl =>
    show execBrl g off s = _
    rw [execBrl, issue_skip rfl hg]

/-- R17, R18, R53: the triggers that a core lacks, and those of monitor mode. -/
theorem trigFate_forbidden (k : SlotKey) (m : Mode) :
    (∀ t ∈ [Trig.pmma, .dpatch, .xgo, .hinit], 4 ≤ k.core → trigFate k m t = .illegal)
    ∧ (∀ t ∈ [Trig.ycopy, .yring, .ypush, .ydesc], k.core < 4 → trigFate k m t = .illegal)
    ∧ (k.core ≠ 6 → trigFate k m .ymcast = .illegal)
    ∧ (∀ t ∈ [Trig.tret, .idle], trigFate k .user t = .privilege) := by
  have stage : ∀ t, blockOf t = .p ∨ blockOf t = .d ∨ blockOf t = .x ∨ blockOf t = .h →
      4 ≤ k.core → trigFate k m t = .illegal := by
    intro t ht hk
    have hs : isStage k = false := by simp [isStage, hk]
    rcases ht with h | h | h | h <;> simp [trigFate, h, hs]
  have streamer : ∀ t, blockOf t = .y → ¬(t = .yawait ∨ t = .yrel) → k.core < 4 → trigFate k m t = .illegal := by
    intro t ht hne hk
    have hs : isStage k = true := by simp [isStage, hk]
    simp [trigFate, ht, hne, hs]
  have monitor : ∀ t, blockOf t = .z → (t = .tret ∨ t = .idle) → trigFate k .user t = .privilege := by
    intro t ht hm
    simp [trigFate, ht, hm]
  refine ⟨fun t ht => stage t ?_, fun t ht => streamer t ?_ ?_, fun hk => ?_, fun t ht => monitor t ?_ ?_⟩
  · revert t; decide
  · revert t; decide
  · revert t; decide
  · by_cases hs : isStage k = true
    · exact streamer .ymcast rfl (by decide) (by simpa [isStage] using hs)
    · simp [trigFate, show blockOf .ymcast = .y from rfl, hs, hk]
  · revert t; decide
  · revert t; decide

/-- R18, R53, R55: ports that a core lacks, monitor ports, and words that are no instruction. -/
theorem forbiddenPortsTrap : Rules.ForbiddenPortsTrap := by
  refine ⟨fun t g l src s => ⟨exec_trigInstr_illegal, exec_trigInstr_privilege⟩,
    fun t g l src s => exec_vtrigInstr_illegal, fun w s => ?noInstruction, trigFate_forbidden⟩
  case noInstruction =>
    show Host.Outcome.next (trapIllegal s.seen) = _
    rw [trapIllegal_seen]

/-- R344, R366, R368: register data errors. -/
theorem registerDataErrors : Rules.RegisterDataErrors := by
  refine ⟨fun t g l src s w d r hf hg hw hs hb => ?trig, fun g dst src s w d r hf hg hs hb => ?move,
    fun t g l src s v d r hf hg hw hs hb => ?vtrig, fun t n m l w v => ?ends⟩
  case trig => rw [exec_trigInstr_bad hf hg hw hs hb]; cases r <;> rfl
  case move =>
    show execMove g dst src s = _
    rw [exec_move_bad hf hg hs hb]; cases r <;> rfl
  case vtrig => rw [exec_vtrigInstr_bad hf hg hw hs hb]; cases r <;> rfl
  case ends =>
    refine ⟨t.getG_setG_zero n, ?_, ?_, rfl, fun hn => ?_, t.not_mem_mend _, t.not_mem_mend _⟩
    · simp [Thread.zero, Thread.getV, Thread.setV]
    · simp [Thread.zero, Thread.get, Thread.set]
    · rw [Thread.setG, if_neg hn]
      exact t.not_mem_mend _

/-- Settles O35: the checks come before the act of every trigger, whatever it is. -/
theorem wordChecks : Obligations.WordChecks := ⟨falseGuardSkips, forbiddenPortsTrap, registerDataErrors⟩

end Sys2Proof.Machine
end

section
/-! Proof of O18: what ends each hold, and the miss registers of a slice. -/

namespace Sys2Proof.Machine

/-! ### The slot brought into focus -/

/-- The cycle and memory do not depend on the slot in focus. -/
theorem State.focus_keeps {s t : State} {k : SlotKey} (h : s.focus k = some t) : t.cyc = s.cyc ∧ t.mem = s.mem := by
  unfold State.focus at h
  split at h
  · cases h
    exact ⟨rfl, rfl⟩
  · split at h
    · cases h
    · cases h
      exact ⟨rfl, rfl⟩

/-- Where no other thread passes a filter that the thread in focus passes, that thread alone does. -/
theorem State.threads_filter_self {s : State} {p : Thread → Bool} (hi : s.th.life ≠ .idle) (hs : p s.th = true)
    (ho : ∀ t ∈ s.others, p t = false) : s.threads.filter p = [s.th] := by
  have hn : s.others.filter p = [] := List.filter_eq_nil_iff.mpr (fun t ht => by simp [ho t ht])
  simp [State.threads, hi, hs, hn]

/-! ### Lines, queues, sleep and traps -/

/-- A line is in the core's instruction cache once it has entered it. -/
theorem mem_fillIline (l : List (CoreKey × Nat × Nat)) (c : CoreKey) (ctx line : Nat) :
    (c, ctx, line) ∈ fillIline l c ctx line := by
  obtain ⟨n, hn⟩ : ∃ n, ilineMax c = n + 1 := by
    unfold ilineMax
    split <;> exact ⟨_, rfl⟩
  simp [fillIline, hn]

/-- Filling the slice of a missed line changes the slice alone. -/
theorem demandFill_keeps (s : State) (va : Word) :
    (demandFill s va).th = s.th ∧ (demandFill s va).cyc = s.cyc ∧ (demandFill s va).mem = s.mem := by
  unfold demandFill
  split
  · split <;> exact ⟨rfl, rfl, rfl⟩
  · exact ⟨rfl, rfl, rfl⟩

/-- R45: the line's arrival. -/
theorem instructionLineArrival_arrives {s t : State} {va : Word} {due : Nat} (hf : s.focus s.ev.key = some t)
    (hh : t.th.hold = .line va due) (hd : due ≤ s.cyc) :
    ∃ z, exec .instructionLineArrival s = .next z ∧ z.th = { t.th with hold := .none, readyAt := s.cyc } ∧ z.mem = s.mem
      ∧ (t.th.key.coreKey, t.th.ctx, va.toNat / 64) ∈ z.ilines := by
  obtain ⟨hc, hm⟩ := State.focus_keeps hf
  obtain ⟨hfth, hfc, hfm⟩ := demandFill_keeps t va
  generalize hfill : demandFill t va = f at hfth hfc hfm
  refine ⟨({ f with ilines := fillIline f.ilines f.th.key.coreKey f.th.ctx (va.toNat / 64) } : State).map
    (fun x => { x with hold := .none, readyAt := s.cyc }), onSlot_some hf ?_, ?_, hfm.trans hm, ?_⟩
  · simp only [hh]
    rw [if_pos (hc ▸ hd), hfill, hfc, hc]
  · exact congrArg (fun x : Thread => { x with hold := .none, readyAt := s.cyc }) hfth
  · rw [← hfth]
    exact mem_fillIline ..

/-- R240: a blocked transport whose queue now has its element or room, or an error. -/
theorem unblocked_queue {t : State} {q : BitVec 3} {deq : Bool} (hh : t.th.hold = .queue q.toNat deq)
    (h : if deq then t.queueRead q ≠ .empty else t.queueWrite q ≠ .full) : unblocked t = true := by
  unfold unblocked
  cases deq <;> simpa [hh] using h

theorem queueBlockResume_resumes {s t : State} {q : BitVec 3} {deq : Bool} (hf : s.focus s.ev.key = some t)
    (hh : t.th.hold = .queue q.toNat deq) (h : if deq then t.queueRead q ≠ .empty else t.queueWrite q ≠ .full) :
    exec .queueBlockResume s = .next (t.map (fun x => { x with hold := .none, readyAt := s.cyc + 1 })) := by
  refine onSlot_some hf ?_
  rw [if_pos (unblocked_queue hh h), State.rejoin, (State.focus_keeps hf).1]

/-- R263: the sleep's end. -/
theorem sleepExpiry_expires {s t : State} {u : Nat} (hf : s.focus s.ev.key = some t) (hh : t.th.hold = .sleep u)
    (hd : u ≤ s.cyc) : exec .sleepExpiry s = .next (t.map (fun x => { x with hold := .none, readyAt := s.cyc })) := by
  refine onSlot_some hf ?_
  simp only [hh, (State.focus_keeps hf).1, hd, if_true]

/-- R346: the trap that waited for the thread's operations. -/
theorem trapEntry_enters {s t : State} {ti : TrapInfo} (hf : s.focus s.ev.key = some t) (hw : t.th.trapWait = some ti)
    (hd : t.th.drained s.cyc = true) : exec .trapEntry s = .next (enterTrap t ti) := by
  refine onSlot_some hf ?_
  simp only [hw, (State.focus_keeps hf).1, hd, if_true]

/-! ### Page walks -/

theorem mem_fillTlb (l : List (CoreKey × Nat × Nat)) (c : CoreKey) (ctx page : Nat) :
    (c, ctx, page) ∈ fillTlb l c ctx page := by
  simp [fillTlb]

/-- What translation reads of a state (R311 to R315, R318). -/
theorem translate_congr {s u : State} (hc : u.ctxs = s.ctxs) (hm : u.mem = s.mem) (ho : u.keyOwner = s.keyOwner)
    (hk : u.keyIds = s.keyIds) (hi : u.imports = s.imports) (ag : Agent) (va : Word) (n : Need) :
    translate u ag va n = translate s ag va n := by
  have hctx : u.ctx? ag.ctx = s.ctx? ag.ctx := by rw [State.ctx?, State.ctx?, hc]
  have himp : ∀ win, u.importFor ag.ctx win = s.importFor ag.ctx win := fun win => by
    rw [State.importFor, State.importFor, hi]
  unfold translate
  simp only [hctx, hm, ho, hk, himp]

/-- Translation for the thread in focus reads its context, mode and tile. -/
theorem translate_self_congr {s u : State} (hc : u.ctxs = s.ctxs) (hm : u.mem = s.mem) (ho : u.keyOwner = s.keyOwner)
    (hk : u.keyIds = s.keyIds) (hi : u.imports = s.imports) (hs : u.self = s.self) (va : Word) (n : Need) :
    translate u u.self va n = translate s s.self va n := by
  rw [hs, translate_congr hc hm ho hk hi]

/-- The thread in focus once the walk of its page is complete: it goes on, and its core's TLB holds the page (R316). -/
def State.walked (s : State) (w : Walk) : State :=
  { s.map (fun t => { t with hold := .none, readyAt := s.cyc }) with tlb := fillTlb s.tlb s.th.key.coreKey w.ctx w.page }

/-- The threads that a walk serves, where the thread in focus alone waits for it. -/
theorem serveWalk_self {s : State} {w : Walk} {loc : Loc} (hi : s.th.life ≠ .idle) (hh : s.th.hold = .walk w.page)
    (hc : s.th.ctx = w.ctx) (hd : dieOf s.th.key.tile = w.die) (hx : translate s s.self s.th.pc .code = .ok loc)
    (ho : ∀ t ∈ s.others, t.hold ≠ .walk w.page ∨ t.ctx ≠ w.ctx ∨ dieOf t.key.tile ≠ w.die) :
    serveWalk s w = s.walked w := by
  have hserved : s.threads.filter (fun t => t.hold == .walk w.page && t.ctx == w.ctx && dieOf t.key.tile == w.die) = [s.th] := by
    refine State.threads_filter_self hi (by simp [hh, hc, hd]) (fun t ht => ?_)
    rcases ho t ht with h | h | h <;> simp [h]
  have hx' : translate (s.map (fun t => { t with hold := .none, readyAt := s.cyc }))
      (s.map (fun t => { t with hold := .none, readyAt := s.cyc })).self s.th.pc .code = .ok loc :=
    (translate_self_congr (s := s) (u := s.map (fun t => { t with hold := .none, readyAt := s.cyc }))
      rfl rfl rfl rfl rfl rfl s.th.pc .code).trans hx
  unfold serveWalk
  dsimp only
  rw [hserved]
  simp only [List.map_cons, List.map_nil, List.foldl_cons, List.foldl_nil, State.focus_self hi]
  rw [State.map_th, hx']
  dsimp only
  have hfocus : (s.walked w).focus s.th.key = some (s.walked w) := State.focus_self (s := s.walked w) hi
  show ((s.walked w).focus s.th.key).getD _ = s.walked w
  rw [hfocus]
  rfl

/-- What starting a walk leaves, and the walk it starts (R316). -/
theorem startWalk_starts (s : State) (die : Nat) :
    (startWalk s die).th = s.th ∧ (startWalk s die).tlb = s.tlb ∧ (startWalk s die).mem = s.mem
      ∧ (s.walkQ.find? (fun x => x.1 = die) = none → (startWalk s die).walks = s.walks)
      ∧ ∀ x, s.walkQ.find? (fun x => x.1 = die) = some x → (startWalk s die).walkQ = s.walkQ.erase x
        ∧ ∃ due, (startWalk s die).walks = s.walks ++ [⟨die, x.2.1, x.2.2, due⟩] := by
  unfold startWalk
  cases hq : s.walkQ.find? (fun x => x.1 = die) with
  | none => exact ⟨rfl, rfl, rfl, fun _ => rfl, fun x hx => by cases hx⟩
  | some y => exact ⟨rfl, rfl, rfl, fun h => (by cases h), fun x hx => by cases hx; exact ⟨rfl, _, rfl⟩⟩

/-- R316: a completed walk for which the thread in focus alone waits. -/
theorem pageWalkComplete_serves {s : State} {w : Walk} {loc : Loc} (hw : s.walks[s.ev.n]? = some w) (hdue : w.due ≤ s.cyc)
    (hi : s.th.life ≠ .idle) (hh : s.th.hold = .walk w.page) (hc : s.th.ctx = w.ctx) (hd : dieOf s.th.key.tile = w.die)
    (hx : translate s s.self s.th.pc .code = .ok loc)
    (ho : ∀ t ∈ s.others, t.hold ≠ .walk w.page ∨ t.ctx ≠ w.ctx ∨ dieOf t.key.tile ≠ w.die) :
    exec .pageWalkComplete s = .next (startWalk (State.walked { s with walks := s.walks.eraseIdx s.ev.n } w) w.die) := by
  show execPageWalkComplete s = _
  unfold execPageWalkComplete
  rw [hw]
  dsimp only
  have hx' : translate { s with walks := s.walks.eraseIdx s.ev.n } s.self s.th.pc .code = .ok loc :=
    (translate_congr (s := s) (u := { s with walks := s.walks.eraseIdx s.ev.n }) rfl rfl rfl rfl rfl _ _ _).trans hx
  rw [if_pos hdue, serveWalk_self (s := { s with walks := s.walks.eraseIdx s.ev.n }) hi hh hc hd hx' ho]

theorem fetchAndQueueHolds : Rules.FetchAndQueueHolds := by
  refine ⟨fun s t va due hf hh hd => instructionLineArrival_arrives hf hh hd,
    fun s t q deq hf hh h => queueBlockResume_resumes hf hh h, fun s t u hf hh hd => sleepExpiry_expires hf hh hd,
    fun s t ti hf hw hd => trapEntry_enters hf hw hd, fun s w loc hw hdue hi hh hc hd hx ho => ?_⟩
  obtain ⟨hth, htlb, hmem, hnone, hsome⟩ :=
    startWalk_starts (State.walked { s with walks := s.walks.eraseIdx s.ev.n } w) w.die
  exact ⟨_, pageWalkComplete_serves hw hdue hi hh hc hd hx ho, hth, htlb ▸ mem_fillTlb .., hmem, hnone, hsome⟩

/-! ### Idle threads -/

/-- R356: the events of an idle thread as a number. -/
theorem idleEvents_toNat (t : State) (d : Option Nat) :
    let late := (d.map (fun x => decide (x ≤ t.cyc))).getD false
    let held := ((retryHead t t.th.ctx).map (fun x => entryHeld t t.th.ctx x.2.2)).getD false
    (idleEvents t d).toNat = (if late then 1 else 0) + (if held then 2 else 0) + (if t.th.preq then 4 else 0) := by
  intro late held
  have hbits : idleEvents t d = BitVec.ofBool t.th.preq ++ BitVec.ofBool held ++ BitVec.ofBool late := by
    unfold idleEvents
    simp only [held]
    cases retryHead t t.th.ctx <;> rfl
  rw [hbits]
  cases late <;> cases held <;> cases t.th.preq <;> rfl

theorem idleWakes : Rules.IdleWakes := by
  intro s t d hf hh late held e he hready
  have hn : (idleEvents t d).toNat = e := idleEvents_toNat t d
  have hne : ¬(idleEvents t d = 0 ∨ t.cyc < t.th.readyAt) := by
    rintro (h | h)
    · exact he (by rw [← hn, h]; rfl)
    · omega
  have hw : (idleEvents t d).setWidth 64 = BitVec.ofNat 64 e := by
    rw [← hn]
    exact (BitVec.ofNat_toNat 64 (idleEvents t d)).symm
  refine onSlot_some hf ?_
  simp only [hh]
  rw [if_neg hne, hw]
  rfl

/-! ### The lines of a slice -/

theorem mem_fillSlice (l : List (Nat × Nat × Nat)) (x : Nat × Nat × Nat) : x ∈ fillSlice l x := by
  simp [fillSlice]

/-- A slice holds 16,384 lines (R17, R22). -/
theorem countP_fillSlice_le (l : List (Nat × Nat × Nat)) (x : Nat × Nat × Nat) :
    (fillSlice l x).countP (fun y => y.1 == x.1 && y.2.1 == x.2.1) ≤ 16384 := by
  have hrest : (l.filter (fun y => !(y.1 == x.1 && y.2.1 == x.2.1))).countP (fun y => y.1 == x.1 && y.2.1 == x.2.1) = 0 :=
    List.countP_eq_zero.mpr (fun y hy => Bool.not_eq_true _ ▸ Bool.not_eq_true' _ ▸ (List.mem_filter.mp hy).2)
  unfold fillSlice
  rw [List.countP_append, hrest]
  exact List.countP_le_length.trans (List.length_take_le _ _)

theorem mem_of_mem_fillSlice {l : List (Nat × Nat × Nat)} {x y : Nat × Nat × Nat} (h : y ∈ fillSlice l x) :
    y = x ∨ y ∈ l := by
  rcases List.mem_append.mp h with h | h
  · rcases List.mem_cons.mp (List.mem_of_mem_take h) with h | h
    · exact .inl h
    · exact .inr (List.mem_filter.mp h).1
  · exact .inr (List.mem_filter.mp h).1

/-- Other slices keep their lines. -/
theorem mem_fillSlice_other {l : List (Nat × Nat × Nat)} {x y : Nat × Nat × Nat} (hy : (y.1 == x.1 && y.2.1 == x.2.1) = false) :
    y ∈ fillSlice l x ↔ y ∈ l := by
  constructor
  · intro h
    rcases mem_of_mem_fillSlice h with rfl | h
    · simp at hy
    · exact h
  · intro h
    exact List.mem_append_right _ (List.mem_filter.mpr ⟨h, Bool.not_eq_true' _ ▸ hy⟩)

theorem sliceLines : Rules.SliceLines := by
  intro s x here at_
  have hhere : here = fun y => y.1 == x.1 && y.2.1 == x.2.1 := by
    funext y
    simp [here, x, Bool.decide_and, beq_eq_decide]
  refine ⟨fun l hl hs hcell hroom hpage hnew => ?taken, fun e he => ?dropped, fun hx => ?arrives⟩
  case taken =>
    show execL2Prefetch s = _
    unfold execL2Prefetch
    rw [show translate s ⟨s.ev.n, false, none, false⟩ s.ev.w .load = .ok l from hl]
    dsimp only
    exact if_pos ⟨hs, hcell, hroom, hpage, fun h => hnew (List.contains_iff_mem.mp h)⟩
  case dropped =>
    show execL2Prefetch s = _
    unfold execL2Prefetch
    rw [show translate s ⟨s.ev.n, false, none, false⟩ s.ev.w .load = .error e from he]
  case arrives =>
    refine ⟨{ s with l2miss := s.l2miss.erase x, l2 := fillSlice s.l2 x }, if_pos (List.contains_iff_mem.mpr hx), rfl,
      mem_fillSlice s.l2 x, hhere ▸ countP_fillSlice_le s.l2 x, fun y hy => mem_of_mem_fillSlice hy, fun y hy => ?_⟩
    exact mem_fillSlice_other (by rw [hhere] at hy; exact hy)

/-- Settles O18: each event ends its own hold, and a slice's prefetches take and free its miss registers. -/
theorem holdsEnd : Obligations.HoldsEnd := ⟨fetchAndQueueHolds, idleWakes, sliceLines⟩

end Sys2Proof.Machine
end

section
/-! Proof of O27: the press of a tile, what its events serve, and how pjoin joins a group. -/

namespace Sys2Proof.Machine

/-! ### The press of a tile -/

theorem State.press_setPress (s : State) (n : Nat) (p : Press) : (s.setPress n p).press n = p := by
  simp [State.press, State.setPress, assoc]

/-- The press of a tile is read from the presses and the cycle alone. -/
theorem State.press_congr {s u : State} (hp : u.presses = s.presses) (hc : u.cyc = s.cyc) (n : Nat) :
    u.press n = s.press n := by
  rw [State.press, State.press, hp, hc]

theorem Press.at_put {p : Press} {core : Nat} {c : PressCtx} (h : core < 4) : (p.put core c).at_ core = c := by
  simp [Press.at_, Press.put, h]

theorem formed_congr {s u : State} (hp : u.presses = s.presses) (hc : u.cyc = s.cyc) (reg : BitVec 8) (ctx tile : Nat) :
    formed u reg ctx tile = formed s reg ctx tile := by
  unfold formed
  simp only [State.press_congr hp hc]

/-! ### Joining (R129) -/

section
variable {t : Word} {s : State}

/-- A leave with nothing queued or running. -/
theorem actPjoin_leaves (h7 : fld t 63 7 = 0) (h6 : fld t 6 6 = 0) (hq : s.myPress.queue = [])
    (hr : ∀ r ∈ (s.press s.th.key.tile).run, r.core ≠ s.th.key.core) :
    actPjoin t s = .done ((if formed s s.myPress.reg s.myPress.regCtx s.th.key.tile then
      dissolve s s.myPress.reg s.myPress.regCtx s.th.key.tile else s.setMyPress { s.myPress with reg := 0 }).map
        (fun th => th.set .pr 1)) := by
  have hidle : ¬((!s.myPress.queue.isEmpty) = true
      ∨ (s.press s.th.key.tile).run.any (fun r => decide (r.core = s.th.key.core)) = true) := by
    simpa [hq] using hr
  unfold actPjoin
  dsimp only
  rw [if_neg (not_not.mpr h7), if_pos h6, if_neg hidle]

/-- A join that names its own tile and a named leader, while another context of the press is registered. -/
theorem actPjoin_refused (h7 : fld t 63 7 = 0) (h6 : fld t 6 6 = 1) (hself : t.getLsbD (s.th.key.tile % 4) = true)
    (hlead : t.getLsbD (fld t 5 4) = true)
    (hother : ∃ n < 4, n ≠ s.th.key.core ∧ ((s.press s.th.key.tile).at_ n).reg ≠ 0) :
    actPjoin t s = .done (s.map (fun th => th.set .pr 0)) := by
  have hany : (List.range 4).any (fun n => n ≠ s.th.key.core ∧ ((s.press s.th.key.tile).at_ n).reg ≠ 0) = true := by
    obtain ⟨n, hn, h⟩ := hother
    exact List.any_eq_true.mpr ⟨n, List.mem_range.mpr hn, decide_eq_true h⟩
  unfold actPjoin
  dsimp only
  rw [if_neg (not_not.mpr h7), if_neg (by rw [h6]; decide), if_neg (by simp [hself, hlead]), if_pos hany]

/-- A join that registers its context: its thread holds until the group is formed. -/
theorem actPjoin_registers (h7 : fld t 63 7 = 0) (h6 : fld t 6 6 = 1) (hself : t.getLsbD (s.th.key.tile % 4) = true)
    (hlead : t.getLsbD (fld t 5 4) = true)
    (hother : ∀ n < 4, n ≠ s.th.key.core → ((s.press s.th.key.tile).at_ n).reg = 0) :
    let x := s.setMyPress { s.myPress with reg := t.setWidth 8, regCtx := s.th.ctx }
    let y := x.map (fun th => { th with hold := .pjoin (t.setWidth 8) (s.cyc + 65536) })
    actPjoin t s = .done (if formed x (t.setWidth 8) s.th.ctx s.th.key.tile then
      wakeJoined y (t.setWidth 8) s.th.ctx s.th.key.tile else y) := by
  intro x y
  have hany : ¬(List.range 4).any (fun n => n ≠ s.th.key.core ∧ ((s.press s.th.key.tile).at_ n).reg ≠ 0) = true := by
    simpa using hother
  have hformed : formed y (t.setWidth 8) s.th.ctx s.th.key.tile = formed x (t.setWidth 8) s.th.ctx s.th.key.tile :=
    formed_congr rfl rfl _ _ _
  unfold actPjoin
  dsimp only
  rw [if_neg (not_not.mpr h7), if_neg (by rw [h6]; decide), if_neg (by simp [hself, hlead]), if_neg hany, ← hformed]
  rfl

end

/-- The thread in focus that waits for its group goes on when the group is formed. -/
theorem wakeJoined_th {s : State} {reg : BitVec 8} {due : Nat} (h : s.th.hold = .pjoin reg due) :
    (wakeJoined s reg s.th.ctx s.th.key.tile).th = { s.th.set .pr 1 with hold := .none, readyAt := s.cyc + 1 } := by
  unfold wakeJoined State.mapAll
  simp [h]

theorem pressJoins : Rules.PressJoins := by
  refine ⟨fun g src s t d hfire => ?_, fun s t reg due hf hh hd => ?timeout⟩
  case timeout =>
    have hc : t.cyc = s.cyc := (State.focus_keeps hf).1
    refine onSlot_some hf ?_
    simp only [hh]
    rw [if_pos (hc ▸ hd), ← hc]
    rfl
  have hrun : exec (.pjoin g src) s = .next (conclude false Trig.pjoin.num 0 s.seen d (actPjoin t s.passed)) :=
    trigger_fires hfire
  intro u key
  have hkey : key = u.th.key := (State.passed_key s).symm
  rw [hrun, hkey]
  refine ⟨fun h7 h6 hq hr => ?_, fun h7 h6 hself hlead ho => ?_,
    fun h7 h6 hself hlead ho => ⟨fun hform => ?_, fun hform => ?_⟩⟩
  · rw [actPjoin_leaves h7 h6 hq hr, conclude_done]
  · rw [actPjoin_refused h7 h6 hself hlead ho, conclude_done]
  · rw [actPjoin_registers h7 h6 hself hlead ho, if_neg (by rw [hform]; decide), conclude_done]
  · rw [actPjoin_registers h7 h6 hself hlead ho, if_pos hform, conclude_done]
    exact ⟨_, rfl, rfl, wakeJoined_th rfl⟩

/-! ### Grants (R30, R106, R107, R113) -/

/-- What a grant changes of a state before its members start: the words lost, and the free values taken. -/
structure Granting (s u : State) : Prop where
  same : u = { s with lost := u.lost, draws := u.draws }

theorem Granting.th {s u : State} (h : Granting s u) : u.th = s.th := by rw [h.same]

theorem Granting.mem {s u : State} (h : Granting s u) : u.mem = s.mem := by rw [h.same]

theorem Granting.press {s u : State} (h : Granting s u) (n : Nat) : u.press n = s.press n :=
  State.press_congr (congrArg State.presses h.same) (congrArg State.cyc h.same) n

theorem Granting.tileBytes {s u : State} (h : Granting s u) (tile off n : Nat) :
    tileBytes u tile off n = tileBytes s tile off n := by
  rw [h.same]
  rfl

theorem Granting.descRead {s u : State} (h : Granting s u) (tile : Nat) (w0 w1 : Word) (n rows rowBytes : Nat) :
    descRead u tile w0 w1 n rows rowBytes = descRead s tile w0 w1 n rows rowBytes := by
  unfold Machine.descRead
  simp only [h.tileBytes]

theorem Granting.mmaOwn {s u : State} (h : Granting s u) (tile core : Nat) (sp : Bool) (t f a0 a1 c : Word) :
    mmaOwn u tile core sp t f a0 a1 c = mmaOwn s tile core sp t f a0 a1 c := by
  unfold Machine.mmaOwn
  simp only [h.press, h.descRead, h.tileBytes]

theorem Granting.mmaB {s u : State} (h : Granting s u) (tile core : Nat) (sp : Bool) (t f b0 b1 : Word) :
    mmaB u tile core sp t f b0 b1 = mmaB s tile core sp t f b0 b1 := by
  unfold Machine.mmaB
  simp only [h.press, h.descRead]

/-- A context once the operation at its head, which takes its own B, has left the queue and is accumulated (R113). -/
def mmaResult (s : State) (n core : Nat) (sp : Bool) (t f : Word) (sa : List W32) (sb : W32) (a0 a1 b0 b1 c : Word) :
    PressCtx :=
  let pc := (s.press n).at_ core
  let own := mmaOwn s n core sp t f a0 a1 c
  { accumulate pc t f sa sb (products f sp (fld t 7 2 + 1) own.1 own.2.1 (mmaB s n core sp t f b0 b1) own.2.2) with
    queue := pc.queue.drop 1 }

theorem accumulate_queue (c : PressCtx) (t f : Word) (sa : List W32) (sb : W32) (ps : List (List (FVal × Bool))) :
    (accumulate c t f sa sb ps).queue = c.queue := by
  unfold accumulate
  dsimp only
  split <;> rfl

/-- A member that starts with its own B. -/
theorem startMember_own {s u : State} (h : Granting s u) {n core busy : Nat} {e : PressEntry} {sp : Bool} {t f : Word}
    {sa : List W32} {sb : W32} {a0 a1 b0 b1 c : Word} (he : headMma ((s.press n).at_ core) = some e)
    (hop : e.op = .mma sp t f sa sb a0 a1 b0 b1 c) (hcore : core < 4) :
    ∃ p v, startMember u (n, core) none busy = State.setPress v n p ∧ Granting s v ∧ v.lost = u.lost
      ∧ p.at_ core = mmaResult s n core sp t f sa sb a0 a1 b0 b1 c ∧ p.last = core := by
  obtain ⟨op, key, ctx, held, gone, since, part⟩ := e
  obtain rfl : op = _ := hop
  have hv : Granting s u.draw.2 := ⟨by rw [h.same]; rfl⟩
  have hlost : u.draw.2.lost = u.lost := rfl
  unfold startMember
  rcases hdraw : u.draw with ⟨k, v⟩
  rw [hdraw] at hv hlost
  dsimp only at hv hlost ⊢
  rw [hv.press, he]
  dsimp only
  rw [hv.mmaOwn, hv.mmaB]
  refine ⟨_, v, rfl, hv, hlost, ?_, rfl⟩
  unfold mmaResult
  exact (Press.at_put hcore).trans (by rw [accumulate_queue]; rfl)

theorem loseAcc_granting (s : State) (m : Nat × Nat) : Granting s (loseAcc s m) := by
  unfold loseAcc
  split <;> exact ⟨rfl⟩

/-- A press that grants alone starts its own operation; where that consumes no lost word, nothing more is lost. -/
theorem grant_single (s : State) (m : Nat × Nat) :
    ∃ u busy, grant s [m] = startMember u m none busy ∧ Granting s u
      ∧ (consumesLost s [m] m = false → u.lost = s.lost) := by
  cases hlost : consumesLost s [m] m with
  | false =>
    have hnone : [m].filter (consumesLost s [m]) = [] := by simp [hlost]
    refine ⟨s.draw.2, max 0 (memberBusy s.draw.2 m s.draw.1), ?_, ⟨rfl⟩, fun _ => rfl⟩
    rw [grant, hnone]
    rfl
  | true =>
    have hone : [m].filter (consumesLost s [m]) = [m] := by simp [hlost]
    refine ⟨(loseAcc s m).draw.2, max 0 (memberBusy (loseAcc s m).draw.2 m (loseAcc s m).draw.1), ?_, ?_, nofun⟩
    · rw [grant, hone]
      rfl
    · exact ⟨congrArg (fun x : State => { x with draws := (loseAcc s m).draws + 1 }) (loseAcc_granting s m).same⟩

theorem pressGrant_grants {s : State} {n core : Nat} {e : PressEntry} {sp : Bool} {t f : Word} {sa : List W32}
    {sb : W32} {a0 a1 b0 b1 c : Word} (hn : s.ev.n = n) (hg : grantable s n = some [(n, core)])
    (he : headMma ((s.press n).at_ core) = some e) (hop : e.op = .mma sp t f sa sb a0 a1 b0 b1 c) (hcore : core < 4) :
    ∃ z, exec .pressGrant s = .next z ∧ z.th = s.th ∧ z.mem = s.mem
      ∧ (consumesLost s [(n, core)] (n, core) = false → z.lost = s.lost)
      ∧ (z.press n).at_ core = mmaResult s n core sp t f sa sb a0 a1 b0 b1 c ∧ (z.press n).last = core := by
  obtain ⟨u, busy, hstart, hu, hlost⟩ := grant_single s (n, core)
  obtain ⟨p, v, hz, hv, hvlost, hctx, hlast⟩ := startMember_own hu he hop hcore
  have hrun : exec .pressGrant s = .next (v.setPress n p) := by
    show execPressGrant s = _
    rw [execPressGrant, hn, hg, ← hz, ← hstart]
    rfl
  refine ⟨_, hrun, hv.th, hv.mem, fun h => hvlost.trans (hlost h), ?_, ?_⟩
  · rw [State.press_setPress, hctx]
  · rw [State.press_setPress, hlast]

/-! ### Completion and service (R105 to R107, R126 to R128) -/

theorem State.mapSlot_th (s : State) (f : Thread → Thread) : (s.mapSlot s.th.key f).th = f s.th := by
  simp [State.mapSlot, State.mapAll]

/-- The thread in focus goes on when its held entry has been served. -/
theorem releasePress_th {s : State} (h : s.th.hold = .press) :
    (releasePress s s.th.key).th = { s.th with hold := .none, readyAt := s.cyc + 1 } := by
  rw [releasePress, State.mapSlot_th, if_pos h]

theorem pressOperationComplete_completes {s : State} {r : PressRun} (hr : pressDone (s.press s.ev.n) s.cyc = some r)
    (hk : r.entry.key = s.th.key) (hh : s.th.hold = .press) :
    ∃ z, exec .pressOperationComplete s = .next z ∧ (z.press s.ev.n).run = (s.press s.ev.n).run.erase r
      ∧ z.th = { s.th with hold := .none, readyAt := s.cyc + 1 } ∧ z.mem = s.mem := by
  obtain ⟨u, hu⟩ : ∃ u, u = s.setPress s.ev.n { s.press s.ev.n with run := (s.press s.ev.n).run.erase r } := ⟨_, rfl⟩
  have hth : u.th = s.th := by rw [hu]; rfl
  have hrun : exec .pressOperationComplete s = .next (releasePress u s.th.key) := by
    show execPressOperationComplete s = _
    unfold execPressOperationComplete
    dsimp only
    rw [hr, ← hk, hu]
    rfl
  refine ⟨_, hrun, ?_, ?_, by rw [hu]; rfl⟩
  · rw [State.press_congr (u := releasePress u s.th.key) (s := u) rfl rfl, hu, State.press_setPress]
  · rw [← hth]
    have hcyc : u.cyc = s.cyc := by rw [hu]; rfl
    rw [releasePress_th (hth ▸ hh), hcyc]

/-- An entry that is served: its press has served its context last. -/
theorem pressQueueEntryServed_serves {s z : State} {e : PressEntry} (he : headPlain (s.press s.ev.n) s.ev.m = some e)
    (hz : serveEntry s s.ev.n s.ev.m e = some z) :
    exec .pressQueueEntryServed s = .next (z.setPress s.ev.n { z.press s.ev.n with last := s.ev.m }) := by
  show execPressQueueEntryServed s = _
  unfold execPressQueueEntryServed
  rw [he]
  show orNone ((serveEntry s s.ev.n s.ev.m e).bind _) = _
  rw [hz]
  rfl

theorem State.press_mapPress (s : State) (n core : Nat) (f : PressCtx → PressCtx) :
    (s.mapPress n core f).press n = (s.press n).put core (f ((s.press n).at_ core)) := State.press_setPress ..

/-- R127: what clearing leaves of a context, by accumulator. -/
theorem clearAcc_fields (c : PressCtx) (accs : BitVec 2) :
    (clearAcc c accs).queue = c.queue.drop 1 ∧ (clearAcc c accs).flags = c.flags
      ∧ (clearAcc c accs).acc0 = (if accs.getLsbD 0 then [] else c.acc0)
      ∧ (clearAcc c accs).part0 = (if accs.getLsbD 0 then [] else c.part0)
      ∧ (clearAcc c accs).acc1 = (if accs.getLsbD 1 then [] else c.acc1)
      ∧ (clearAcc c accs).part1 = (if accs.getLsbD 1 then [] else c.part1) := by
  unfold clearAcc
  cases accs.getLsbD 0 <;> cases accs.getLsbD 1 <;> exact ⟨rfl, rfl, rfl, rfl, rfl, rfl⟩

/-- R127: accumulators cleared. -/
theorem pressQueueEntryServed_clear {s : State} {e : PressEntry} {accs : BitVec 2}
    (he : headPlain (s.press s.ev.n) s.ev.m = some e) (hm : s.ev.m < 4) (hop : e.op = .clr accs) :
    ∃ z, exec .pressQueueEntryServed s = .next z ∧ z.th = s.th
      ∧ let x := (s.press s.ev.n).at_ s.ev.m
        let y := (z.press s.ev.n).at_ s.ev.m
        y.queue = x.queue.drop 1 ∧ y.flags = x.flags
          ∧ z.lost = s.lost.filter (fun l => ¬((accs.getLsbD 0 ∧ l = .press s.ev.n s.ev.m 8)
            ∨ (accs.getLsbD 1 ∧ l = .press s.ev.n s.ev.m 9)))
          ∧ y.acc0 = (if accs.getLsbD 0 then [] else x.acc0) ∧ y.part0 = (if accs.getLsbD 0 then [] else x.part0)
          ∧ y.acc1 = (if accs.getLsbD 1 then [] else x.acc1) ∧ y.part1 = (if accs.getLsbD 1 then [] else x.part1) := by
  obtain ⟨u, hu⟩ : ∃ u, u = (clearLost s s.ev.n s.ev.m accs).mapPress s.ev.n s.ev.m (fun c => clearAcc c accs) := ⟨_, rfl⟩
  have hz : serveEntry s s.ev.n s.ev.m e = some u := by rw [serveEntry, hop, hu]
  have hctx : ((u.setPress s.ev.n { u.press s.ev.n with last := s.ev.m }).press s.ev.n).at_ s.ev.m
      = clearAcc ((s.press s.ev.n).at_ s.ev.m) accs := by
    rw [State.press_setPress, hu, State.press_mapPress]
    exact Press.at_put hm
  obtain ⟨hq, hfl, ha0, hp0, ha1, hp1⟩ := clearAcc_fields ((s.press s.ev.n).at_ s.ev.m) accs
  refine ⟨_, pressQueueEntryServed_serves he hz, by rw [hu]; rfl, ?_⟩
  rw [hctx]
  exact ⟨hq, hfl, by rw [hu]; rfl, ha0, hp0, ha1, hp1⟩

/-- R128: the flags read and cleared. -/
theorem pressQueueEntryServed_flags {s : State} {e : PressEntry} (he : headPlain (s.press s.ev.n) s.ev.m = some e)
    (hm : s.ev.m < 4) (hop : e.op = .flags) (hk : e.key = s.th.key) (hh : s.th.hold = .press) :
    ∃ z, exec .pressQueueEntryServed s = .next z
      ∧ z.th = { s.th.set .pr (((s.press s.ev.n).at_ s.ev.m).flags.setWidth 64) with hold := .none, readyAt := s.cyc + 1 }
      ∧ ((z.press s.ev.n).at_ s.ev.m).flags = 0 ∧ (z.press s.ev.n).last = s.ev.m := by
  obtain ⟨u, hu⟩ : ∃ u, u = s.mapPress s.ev.n s.ev.m (fun c => { c with flags := 0, queue := c.queue.drop 1 }) := ⟨_, rfl⟩
  obtain ⟨v, hv⟩ : ∃ v, v = u.mapSlot u.th.key (fun t => t.set .pr (((s.press s.ev.n).at_ s.ev.m).flags.setWidth 64)) :=
    ⟨_, rfl⟩
  have huth : u.th = s.th := by rw [hu]; rfl
  have hvth : v.th = s.th.set .pr (((s.press s.ev.n).at_ s.ev.m).flags.setWidth 64) := by rw [hv, State.mapSlot_th, huth]
  have hvkey : v.th.key = s.th.key := by rw [hvth]; rfl
  have hvcyc : v.cyc = s.cyc := by rw [hv, hu]; rfl
  have hz : serveEntry s s.ev.n s.ev.m e = some (releasePress v v.th.key) := by
    rw [serveEntry, hop, hvkey, hv, huth, hk, hu]
  have hpress : (releasePress v v.th.key).press s.ev.n = (s.press s.ev.n).put s.ev.m
      { (s.press s.ev.n).at_ s.ev.m with flags := 0, queue := ((s.press s.ev.n).at_ s.ev.m).queue.drop 1 } := by
    rw [State.press_congr (u := releasePress v v.th.key) (s := u) (by rw [hv]; rfl) (by rw [hv]; rfl), hu,
      State.press_mapPress]
  refine ⟨_, pressQueueEntryServed_serves he hz, ?_, ?_, ?_⟩
  · show (releasePress v v.th.key).th = _
    rw [releasePress_th (by rw [hvth]; exact hh), hvth, hvcyc]
  · rw [State.press_setPress, hpress]
    exact congrArg PressCtx.flags (Press.at_put hm)
  · rw [State.press_setPress]

theorem pressServes : Rules.PressServes := by
  refine ⟨?grants, fun s r hr hk hh => pressOperationComplete_completes hr hk hh,
    fun s e he hm => ⟨fun accs hop => ?clear, fun hop hk hh => ?flags, fun t dst pitch x y hop hf hb => ?drain⟩,
    fun s hwin => ?window⟩
  case grants =>
    intro s core e sp t f sa sb a0 a1 b0 b1 c hg he hop hcore
    exact pressGrant_grants rfl hg he hop hcore
  case clear => exact pressQueueEntryServed_clear he hm hop
  case flags => exact pressQueueEntryServed_flags he hm hop hk hh
  case drain =>
    refine pressQueueEntryServed_serves he ?_
    rw [serveEntry, hop]
    simp only [hf, hb]
    rfl
  case window =>
    exact ⟨s.setPress s.ev.n (s.press s.ev.n).roll, if_pos hwin, rfl, State.press_setPress ..⟩

/-- Settles O27: each event of the press by the context that it serves, and pjoin by the branches of its trigger. -/
theorem pressEvents : Obligations.PressEvents := ⟨pressServes, pressJoins⟩

end Sys2Proof.Machine
end

section
/-! Proof of O56 and O57: decoding and encoding undo each other. For O56 the lemma per constructor is enough. For O57 each
field that is decoded is shown to be well formed and to have the bits it was decoded from, and the word is put together
from its fields again. -/

namespace Sys2Proof.Laws.RoundTrip

/-- The lemma of every constructor, in the order of the constructors. -/
theorem statement (i : Instr) : Statement i :=
  Instr.rec (motive := Statement)
    move vectorTransport enqueue tokenEnqueue dequeue peek guardWrite xrndWrite xflagsWrite xtenWrite preqWrite
    rfqWrite mvecWrite mfillWrite li liShiftInsert br brl rep nop add sub addw subw and or xor andn shl shr sra shlw
    shrw sraw rotl min max minu maxu mov sext zext bfx clz ctz popc ceq cne clt cltu cle cleu shl16or mul mulw mulh
    mulhu div divu rem remu fadd fsub fmul fma fmin fmax fneg fceq fclt fcle fsqrt fdiv fcvtI fcvtF fcvtBf fcvtE4
    fcvtE5 fexpBf fexpE4 fexpE5 fclass ld8 ld8u ld16 ld16u ld32 ld32u ld64 ld128 st8 st16 st32 st64 st128 amoAddW
    amoAddD amoAndW amoAndD amoOrW amoOrD amoXorW amoXorD amoMinW amoMinD amoMaxW amoMaxD amoMinuW amoMinuD amoMaxuW
    amoMaxuD amoSwapW amoSwapD amoCasW amoCasD amoCasQ amoFadd waddrW waddrD waddrGeW waddrGeD fence ddisc dclean
    dinval sigAdd sigWait jr jrl spawn spawna done yield park join gbar garrive pyield sleep xgo xstop xwait ycopy
    ycopyAdd ymcast yring yawait yrel ypush ydesc pctx pscaleA pscaleB pld pmma pmmas pdrain pclr pflags pjoin dpatch
    dsety dsetr dgety dgetr dclk drun dhalt dsave drest dstat hinit hoffer hdrain hroute trap tret tfence idle vaddF
    vsubF vmulF vfmaF vmaxF vminF vexp2F vrcpF vrsqF vcvtBf vcvtE4 vcvtE5 vunpBf vunpE4 vunpE5 vaddI vsubI vmulI vand
    vor vxor vshl vshr vsra vceqF vcltF vsel vbc vrot vperm vsumF vmaxR vld vst encodingNotAnInstruction
    repetitionSequenceIssue resultVisible instructionLineArrival queueBlockResume postedStoreAcknowledgement
    offerAcknowledgement remoteFaultReport writeCombiningTimeout remoteRequestArrival atomicAtHome l2LineArrival
    l2Prefetch waitWake watchUnitRead waitTimeout signalUnitAdd sigWaitWake sigWaitTimeout pressGrant
    pressOperationComplete pressQueueEntryServed rampLimiterWindow pjoinTimeout domainTick integratorFaultTrap
    runQueuePop priorityRise migrationAdvertisement migrationMessage migrationAnswer parkWake sleepExpiry idleWake
    referenceStreamDequeue referenceFetchReturn referenceDemandFetch ringClaim copyPiece copyComplete ringPush
    heapOfferArrival heapCountPublish balancerDistribute mergeEmit trapEntry policyCoreAnswer preemptionDeadline
    contextQuiesce powerPolicyCheck flitCrcError linkRetrain linkPacketReceived pageWalkComplete doorbell queueMap
    queueQuantumExpiry nopCommand launchPipeline launchTask wait signal copy barrier checkpoint packetComplete
    queueFreed createContext destroyContext grantTiles revokeTiles mapPages unmapPages loadKey freeKey writeWindow
    clearWindow allocateQueue destroyQueue restartQueue markCheckpointQueue allotGroups allotExperts registerImageKey
    setFaultMode setMonitorVector setDeadline setPowerRank registerSafeTier reserveBuddyRegion setHostVisible
    registerCollectiveSet setEventRing faultAnswer preemptContext resumeContext loadCheckpoint pauseQueue
    eventTailWrite barRegisterWrite hostMemoryAccess moduleReset getVersion getCapabilities vendorDefinedRequest
    reservedOpPacket reservedOpRequest snoopOrBackInvalidate retrainComplete
    i

end Sys2Proof.Laws.RoundTrip

namespace Sys2Proof.Laws

/-! ### Well-formed instructions -/

/-- A term for a word that is none is well formed where the word decodes to nothing (R55). -/
theorem wf_notAnInstruction {w : BitVec 32} :
    (Instr.encodingNotAnInstruction w).wf = true ↔ ∃ e, decodeWord w = .error e := by
  cases h : decodeWord w <;> simp [Instr.wf, Instr.fieldsWf, h]

theorem decode_error {w : BitVec 32} {e : Illegal} (h : decodeWord w = .error e) :
    decode w = .encodingNotAnInstruction w := by
  rw [decode, h]

/-- Any other term is well formed where its fields are and its word is not one of the two that R55 excludes. -/
theorem wf_iff_of_encode {i : Instr} {w : BitVec 32} (hi : ∀ v, i ≠ .encodingNotAnInstruction v)
    (he : encode i = some w) : i.wf = true ↔ i.fieldsWf = true ∧ w ≠ 0 ∧ w ≠ 0xFFFFFFFF := by
  have hw : i.wf = (i.fieldsWf && notExcluded i) := by
    unfold Instr.wf
    split
    · exact absurd rfl (hi _)
    · rfl
  simp [hw, notExcluded, he]

/-- Settles O56: the lemma of every constructor, and the words that are no instruction. -/
theorem encodeThenDecode : Obligations.EncodeThenDecode := by
  intro i w hwf he
  by_cases hi : ∃ v, i = .encodingNotAnInstruction v
  · obtain ⟨v, rfl⟩ := hi
    obtain rfl : v = w := Option.some.inj he
    obtain ⟨e, herr⟩ := wf_notAnInstruction.mp hwf
    exact decode_error herr
  · obtain ⟨hf, h0, h1⟩ := (wf_iff_of_encode (fun v hv => hi ⟨v, hv⟩) he).mp hwf
    exact RoundTrip.statement i hf w he h0 h1

/-! ### What a decoded field says of its bits -/

/-- A check of the decoder that has passed. -/
theorem of_ite_ok {c : Prop} [Decidable c] {α : Type} {x : Except Illegal α} {e : Illegal} {a : α}
    (h : (if c then x else .error e) = .ok a) : c ∧ x = .ok a := by
  split at h
  · exact ⟨‹c›, h⟩
  · cases h

theorem of_error_ite_ok {c : Prop} [Decidable c] {α : Type} {x : Except Illegal α} {e : Illegal} {a : α}
    (h : (if c then .error e else x) = .ok a) : ¬c ∧ x = .ok a := by
  split at h
  · cases h
  · exact ⟨‹¬c›, h⟩

/-- A field of the decoder that has been read. -/
theorem of_bind_ok {α β : Type} {x : Except Illegal α} {f : α → Except Illegal β} {b : β} (h : (x >>= f) = .ok b) :
    ∃ a, x = .ok a ∧ f a = .ok b := by
  cases x with
  | ok a => exact ⟨a, rfl, h⟩
  | error e => cases h

theorem guard_ofBits {b : BitVec 4} {g : Guard} (h : Guard.ofBits b = .ok g) : g.wf = true ∧ g.bits = b := by
  have hbits : ∀ b : BitVec 4, BitVec.ofBool (b.getLsbD 3) ++ b.extractLsb' 0 3 = b := by decide
  simp only [Guard.ofBits] at h
  split at h
  · cases h
  · rename_i hwf
    obtain rfl := Except.ok.inj h
    exact ⟨by simpa [Guard.wf, imp_iff_not_or] using hwf, hbits b⟩

theorem special_ofNum {n : Nat} {p : Special} (h : Special.ofNum n = some p) : p.num = n := by
  unfold Special.ofNum at h
  split at h <;> cases h <;> rfl

theorem resOf_num {n : Nat} {l : Latch} (h : Latch.resOf n = some l) : l.isRes = true ∧ l.resNum = n := by
  unfold Latch.resOf at h
  split at h <;> cases h <;> exact ⟨rfl, rfl⟩

theorem opndOf_num {n : Nat} {l : Latch} (h : Latch.opndOf n = some l) : l.isOpnd = true ∧ l.opndNum = n := by
  unfold Latch.opndOf at h
  split at h <;> cases h <;> exact ⟨rfl, rfl⟩

theorem trig_ofNum {n : Nat} {t : Trig} (h : Trig.ofNum n = some t) : t.num = n := by
  unfold Trig.ofNum at h
  split at h <;> cases h <;> rfl

theorem vtrig_ofNum {n : Nat} {t : VTrig} (h : VTrig.ofNum n = some t) : t.num = n := by
  unfold VTrig.ofNum at h
  split at h <;> cases h <;> rfl

/-- A port number read within the range of its kind. -/
theorem range_num {n a k : Nat} (ha : a ≤ n) (hn : n < a + 2 ^ k) (hd : 2 ^ k ∣ a) : a + (BitVec.ofNat k n).toNat = n := by
  obtain ⟨c, rfl⟩ := hd
  obtain ⟨m, rfl⟩ := Nat.exists_eq_add_of_le ha
  rw [BitVec.toNat_ofNat, Nat.mul_add_mod, Nat.mod_eq_of_lt (by omega)]

theorem sport_ofNum {n : Nat} {p : SPort} (h : SPort.ofNum n = some p) : p.wf = true ∧ p.num = n := by
  unfold SPort.ofNum at h
  split_ifs at h with hg hk hd hp ht hc hi
  iterate 7 rotate_left
  · split at h
    · obtain ⟨hr, h⟩ := Option.ite_none_right_eq_some.mp h
      obtain rfl := Option.some.inj h
      exact ⟨hr, special_ofNum ‹_›⟩
    · obtain ⟨l, hl, rfl⟩ := Option.map_eq_some_iff.mp h
      exact resOf_num hl
  all_goals
    obtain rfl := Option.some.inj h
    refine ⟨rfl, ?_⟩
  · exact Nat.mod_eq_of_lt hg
  · exact range_num (k := 3) (by omega) hk (by decide)
  · exact range_num (k := 3) (by omega) hd (by decide)
  · exact range_num (k := 3) (by omega) hp (by decide)
  · exact ht.symm
  · exact hc.symm
  · exact hi.symm

theorem sdst_ofNum {n : Nat} {d : SDst} (h : SDst.ofNum n = .ok d) : d.wf = true ∧ d.num = n := by
  unfold SDst.ofNum at h
  split_ifs at h with hg h0 hk he ht
  · obtain rfl := Except.ok.inj h
    exact ⟨rfl, Nat.mod_eq_of_lt hg⟩
  · obtain rfl := Except.ok.inj h
    have hnum : 0x020 + (BitVec.ofNat 3 n).toNat = n := range_num (by omega) hk (by decide)
    have hne : BitVec.ofNat 3 n ≠ 0 := fun hz => by rw [hz] at hnum; exact h0 hnum.symm
    exact ⟨by simpa [SDst.wf] using hne, hnum⟩
  · obtain rfl := Except.ok.inj h
    exact ⟨rfl, range_num (k := 3) (by omega) he (by decide)⟩
  · obtain rfl := Except.ok.inj h
    exact ⟨rfl, range_num (k := 3) (by omega) ht (by decide)⟩
  · split at h
    · obtain ⟨hw, h⟩ := of_ite_ok h
      obtain rfl := Except.ok.inj h
      exact ⟨hw, special_ofNum ‹_›⟩
    · split at h
      · obtain rfl := Except.ok.inj h
        exact opndOf_num ‹_›
      · split at h
        · obtain rfl := Except.ok.inj h
          exact ⟨rfl, trig_ofNum ‹_›⟩
        · cases h

theorem vport_ofNum {n : Nat} {p : VPort} (h : VPort.ofNum n = some p) : p.num = n := by
  unfold VPort.ofNum at h
  split_ifs at h with h1 h2
  · obtain rfl := Option.some.inj h
    simp only [VPort.num, BitVec.toNat_ofNat]; omega
  · obtain rfl := Option.some.inj h
    exact h2.symm

theorem vdst_ofNum {n : Nat} {d : VDst} (h : VDst.ofNum n = some d) : d.num = n := by
  unfold VDst.ofNum at h
  split_ifs at h with h1 h2 h3
  · obtain rfl := Option.some.inj h
    simp only [VDst.num, BitVec.toNat_ofNat]; omega
  · obtain rfl := Option.some.inj h
    exact h2.symm
  · obtain rfl := Option.some.inj h
    exact h3.symm

/-- A bit of a field, in place. -/
theorem getLsbD_field {n : Nat} (w : BitVec n) {i a k : Nat} (ha : a ≤ i) (hk : i < a + k) :
    (w.extractLsb' a k).getLsbD (i - a) = w.getLsbD i := by
  rw [BitVec.getLsbD_extractLsb', Nat.add_sub_cancel' ha, decide_eq_true (by omega), Bool.true_and]

/-- A source field is its top bit and its number. -/
theorem source_split (b : BitVec 11) : BitVec.ofBool (b.getLsbD 10) ++ b.extractLsb' 0 10 = b := by
  apply BitVec.eq_of_getLsbD_eq
  intro n hn
  rw [BitVec.getLsbD_append]
  split
  · exact getLsbD_field b (Nat.zero_le _) (by omega)
  · obtain rfl : n = 10 := by omega
    exact BitVec.getLsbD_ofBool ..

theorem src_ofBits {b : BitVec 11} {s : Src} (h : Src.ofBits b = .ok s) : s.wf = true ∧ s.bits = b := by
  unfold Src.ofBits at h
  have hsplit := source_split b
  split at h
  · rename_i hb
    rw [hb] at hsplit
    obtain rfl := Except.ok.inj h
    exact ⟨rfl, hsplit⟩
  · rename_i hb
    rw [Bool.not_eq_true] at hb
    rw [hb] at hsplit
    split at h
    · obtain rfl := Except.ok.inj h
      obtain ⟨hwf, hnum⟩ := sport_ofNum ‹_›
      exact ⟨hwf, by rw [Src.bits, hnum, BitVec.ofNat_toNat, BitVec.setWidth_eq]; exact hsplit⟩
    · cases h

theorem vsource_ofBits {b : BitVec 11} {s : VSource} (h : VSource.ofBits b = .ok s) : s.wf = true ∧ s.bits = b := by
  simp only [VSource.ofBits] at h
  have hsplit := source_split b
  split at h
  · rename_i hb
    rw [hb] at hsplit
    split at h
    · obtain rfl := Except.ok.inj h
      obtain ⟨hwf, hnum⟩ := sport_ofNum ‹_›
      exact ⟨hwf, by rw [VSource.bits, hnum, BitVec.ofNat_toNat, BitVec.setWidth_eq]; exact hsplit⟩
    · cases h
  · rename_i hb
    rw [Bool.not_eq_true] at hb
    rw [hb] at hsplit
    split at h
    · obtain rfl := Except.ok.inj h
      exact ⟨rfl, by rw [VSource.bits, vport_ofNum ‹_›, BitVec.ofNat_toNat, BitVec.setWidth_eq]; exact hsplit⟩
    · cases h

/-! ### A word is its fields -/

theorem word_scalar (w : BitVec 32) : w.extractLsb' 30 2 ++ w.extractLsb' 26 4 ++ w.extractLsb' 22 4
    ++ w.extractLsb' 11 11 ++ w.extractLsb' 0 11 = w := by
  apply BitVec.eq_of_getLsbD_eq
  intro n hn
  rw [bits_scalar]
  split_ifs <;> exact getLsbD_field w (by omega) (by omega)

theorem word_toVec (w : BitVec 32) : w.extractLsb' 30 2 ++ w.extractLsb' 26 4 ++ w.extractLsb' 22 4
    ++ w.extractLsb' 21 1 ++ w.extractLsb' 11 10 ++ w.extractLsb' 0 11 = w := by
  apply BitVec.eq_of_getLsbD_eq
  intro n hn
  rw [bits_toVec]
  split_ifs <;> exact getLsbD_field w (by omega) (by omega)

theorem word_vector (w : BitVec 32) : w.extractLsb' 30 2 ++ w.extractLsb' 26 4 ++ w.extractLsb' 22 4
    ++ w.extractLsb' 21 1 ++ w.extractLsb' 11 10 ++ w.extractLsb' 10 1 ++ w.extractLsb' 0 10 = w := by
  apply BitVec.eq_of_getLsbD_eq
  intro n hn
  rw [bits_vector]
  split_ifs <;> exact getLsbD_field w (by omega) (by omega)

theorem word_immediate (w : BitVec 32) : w.extractLsb' 30 2 ++ w.extractLsb' 26 4 ++ w.extractLsb' 25 1
    ++ w.extractLsb' 16 9 ++ w.extractLsb' 0 16 = w := by
  apply BitVec.eq_of_getLsbD_eq
  intro n hn
  rw [bits_immediate]
  split_ifs <;> exact getLsbD_field w (by omega) (by omega)

theorem word_control (w : BitVec 32) : w.extractLsb' 30 2 ++ w.extractLsb' 26 4 ++ w.extractLsb' 22 4
    ++ w.extractLsb' 0 22 = w := by
  apply BitVec.eq_of_getLsbD_eq
  intro n hn
  rw [bits_control]
  split_ifs <;> exact getLsbD_field w (by omega) (by omega)

theorem word_repeat (f : BitVec 22) : f.extractLsb' 16 6 ++ f.extractLsb' 12 4 ++ f.extractLsb' 9 3 ++ f.extractLsb' 5 4
    ++ f.extractLsb' 0 5 = f := by
  apply BitVec.eq_of_getLsbD_eq
  intro n hn
  rw [bits_repeat]
  split_ifs <;> exact getLsbD_field f (by omega) (by omega)

/-- A field of one bit is that bit. -/
theorem bit_field {n : Nat} (w : BitVec n) (i : Nat) : w.extractLsb' i 1 = BitVec.ofBool (w.getLsbD i) := by
  apply BitVec.eq_of_getLsbD_eq
  intro k hk
  obtain rfl : k = 0 := by omega
  simp

/-! ### What a decoded word says of its bits -/

/-- The instruction has well-formed fields and this word. -/
abbrev Encodes (i : Instr) (w : BitVec 32) : Prop := i.fieldsWf = true ∧ encode i = some w

theorem trig_encodes (t : Trig) (g : Guard) (l : BitVec 4) (s : Src) :
    encode (t.instr g l s) = some (word00 g (if t.long then l else 0) t.num s)
      ∧ (t.instr g l s).fieldsWf = (g.wf && s.wf) := by
  cases t <;> exact ⟨rfl, rfl⟩

theorem vtrig_encodes (t : VTrig) (g : Guard) (l : BitVec 4) (s : VSource) :
    encode (t.instr g l s) = some (word01 g (if t.long then l else 0) t.num s)
      ∧ (t.instr g l s).fieldsWf = (g.wf && s.wf) := by
  cases t <;> exact ⟨rfl, rfl⟩

/-- The lookahead that a trigger takes is the one its word has (R41). -/
theorem lookahead_eq {l : BitVec 4} {long : Bool} (h : l = 0 ∨ long = true) : (if long then l else 0) = l := by
  rcases h with rfl | rfl <;> simp

section
variable {g : Guard} {l : BitVec 4} {d : SDst} {s : Src} {w : BitVec 32} {i : Instr}

/-- Only a long-latency trigger takes a lookahead (R41). -/
theorem decodeScalar_lookahead (hl : l ≠ 0) (hd : d.long = false) : decodeScalar g l d s = .error .lookahead := by
  cases d with
  | trig t => exact if_neg (not_or.mpr ⟨hl, Bool.eq_false_iff.mp hd⟩)
  | special p => cases p <;> exact if_neg hl
  | g r => exact if_neg hl
  | k n => exact if_neg hl
  | enq n => exact if_neg hl
  | tok n => exact if_neg hl
  | opnd p => exact if_neg hl

/-- A destination without a row of its own: a dequeue, a peek or a move. -/
theorem decodeScalar_plain_encodes (hp : d.plain = true) (hg : g.wf = true) (hs : s.wf = true)
    (h : decodeScalar g 0 d s = .ok i) : Encodes i (word00 g 0 d.num s) := by
  by_cases hq : s.noQueue = true
  · rw [RoundTrip.decode_plain g d s hp hq] at h
    obtain rfl := Except.ok.inj h
    exact ⟨by simp [Instr.fieldsWf, hg, hp, hs, hq], rfl⟩
  · obtain ⟨n, rfl | rfl⟩ : ∃ n, s = .port (.deq n) ∨ s = .port (.peek n) := by
      unfold Src.noQueue at hq
      split at hq <;> simp_all
    · rw [RoundTrip.decode_queue_deq g d n hp] at h
      obtain rfl := Except.ok.inj h
      exact ⟨by simp [Instr.fieldsWf, hg, hp], rfl⟩
    · rw [RoundTrip.decode_queue_peek g d n hp] at h
      obtain rfl := Except.ok.inj h
      exact ⟨by simp [Instr.fieldsWf, hg, hp], rfl⟩

theorem decodeScalar_encodes (hg : g.wf = true) (hd : d.wf = true) (hs : s.wf = true)
    (h : decodeScalar g l d s = .ok i) : Encodes i (word00 g l d.num s) := by
  by_cases hlong : d.long = true
  case pos =>
    cases d with
    | trig t =>
      obtain ⟨he, hf⟩ := trig_encodes t g l s
      obtain rfl := Except.ok.inj (of_ite_ok h).2
      exact ⟨hf.trans (by simp [hg, hs]), by rw [he, if_pos (show t.long = true from hlong)]; rfl⟩
    | _ => cases hlong
  case neg =>
    obtain rfl : l = 0 := by
      by_contra hl
      rw [decodeScalar_lookahead hl (by simpa using hlong)] at h
      cases h
    cases d with
    | trig t =>
      obtain ⟨he, hf⟩ := trig_encodes t g 0 s
      obtain rfl := Except.ok.inj h
      exact ⟨hf.trans (by simp [hg, hs]), by rw [he, ite_self]; rfl⟩
    | g r => exact decodeScalar_plain_encodes rfl hg hs h
    | opnd p => exact decodeScalar_plain_encodes hd hg hs h
    | k n =>
      have hn : n ≠ 0 := by simpa [SDst.wf] using hd
      obtain rfl := Except.ok.inj h
      exact ⟨by simpa [Instr.fieldsWf, hg, hs] using hn, rfl⟩
    | enq n =>
      obtain rfl := Except.ok.inj h
      exact ⟨by simp [Instr.fieldsWf, hg, hs], rfl⟩
    | tok n =>
      obtain rfl := Except.ok.inj h
      exact ⟨by simp [Instr.fieldsWf, hg, hs], rfl⟩
    | special p =>
      cases p
      case mctx => cases hd
      case mcause | maddr | mtpc => exact decodeScalar_plain_encodes rfl hg hs h
      all_goals
        obtain rfl := Except.ok.inj h
        exact ⟨by simp [Instr.fieldsWf, hg, hs], rfl⟩

theorem decodeVector_encodes (hg : g.wf = true) (hb : g.bits = w.extractLsb' 26 4) (hc : w.extractLsb' 30 2 = 1)
    (h : decodeVector w g = .ok i) : Encodes i w := by
  simp only [decodeVector] at h
  split at h
  case isTrue hd =>
    split at h
    case isTrue => cases h
    case isFalse hs =>
      split at h
      case h_1 => cases h
      case h_2 p hp =>
        obtain ⟨d, hdst, h⟩ := of_bind_ok h
        obtain ⟨hl, h⟩ := of_ite_ok h
        obtain rfl := Except.ok.inj h
        obtain ⟨hwf, hnum⟩ := sdst_ofNum hdst
        refine ⟨by simpa [Instr.fieldsWf, hg, hwf] using hl, congrArg some ?_⟩
        rw [hb, hnum, vport_ofNum hp, BitVec.ofNat_toNat, BitVec.setWidth_eq, BitVec.ofNat_toNat, BitVec.setWidth_eq]
        conv_rhs => rw [← word_vector w, hc, bit_field w 21, hd, bit_field w 10, Bool.eq_false_of_not_eq_true hs]
        rfl
  case isFalse hd =>
    obtain ⟨s, hsrc, h⟩ := of_bind_ok h
    obtain ⟨hs, hbits⟩ := vsource_ofBits hsrc
    have hw {n : Nat} (hn : n = (w.extractLsb' 11 10).toNat) : word01 g (w.extractLsb' 22 4) n s = w := by
      rw [word01, hb, hn, hbits, BitVec.ofNat_toNat, BitVec.setWidth_eq]
      conv_rhs => rw [← word_toVec w, hc, bit_field w 21, Bool.eq_false_of_not_eq_true hd]
      rfl
    split at h
    case h_1 d hdst =>
      obtain ⟨hl, h⟩ := of_ite_ok h
      obtain rfl := Except.ok.inj h
      have hword := hw (vdst_ofNum hdst)
      rw [hl] at hword
      exact ⟨by simp [Instr.fieldsWf, hg, hs], congrArg some hword⟩
    case h_2 =>
      split at h
      case h_1 t ht =>
        obtain ⟨hl, h⟩ := of_ite_ok h
        obtain rfl := Except.ok.inj h
        obtain ⟨he, hf⟩ := vtrig_encodes t g (w.extractLsb' 22 4) s
        exact ⟨by simp [hf, hg, hs], by rw [he, lookahead_eq hl, hw (vtrig_ofNum ht)]⟩
      case h_2 => cases h

theorem decodeImmediate_encodes (hg : g.wf = true) (hb : g.bits = w.extractLsb' 26 4) (hc : w.extractLsb' 30 2 = 2)
    (h : decodeImmediate w g = .ok i) : Encodes i w := by
  obtain ⟨d, hdst, h⟩ := of_bind_ok h
  obtain ⟨hd, hnum⟩ := sdst_ofNum hdst
  have hshort : d.short = true := decide_eq_true (hnum ▸ BitVec.isLt _)
  have hw {b : BitVec 1} (hbit : BitVec.ofBool (w.getLsbD 25) = b) : word10 g b d (w.extractLsb' 0 16) = w := by
    rw [word10, hb, hnum, BitVec.ofNat_toNat, BitVec.setWidth_eq, ← hbit, ← bit_field]
    conv_rhs => rw [← word_immediate w, hc]
    rfl
  simp only at h
  split at h
  case isTrue h1 =>
    obtain ⟨hsh, h⟩ := of_ite_ok h
    obtain rfl := Except.ok.inj h
    exact ⟨by simp [Instr.fieldsWf, hg, hd, hsh, hshort], congrArg some (hw (by rw [h1]; rfl))⟩
  case isFalse h1 =>
    obtain rfl := Except.ok.inj h
    exact ⟨by simp [Instr.fieldsWf, hg, hd, hshort], congrArg some (hw (by rw [Bool.eq_false_of_not_eq_true h1]; rfl))⟩

theorem decodeControl_encodes (hg : g.wf = true) (hb : g.bits = w.extractLsb' 26 4) (hc : w.extractLsb' 30 2 = 3)
    (h : decodeControl w g = .ok i) : Encodes i w := by
  have hw {o : BitVec 4} {n : Nat} (ho : (w.extractLsb' 22 4).toNat = n) (hn : o.toNat = n) :
      word11 g o (w.extractLsb' 0 22) = w := by
    obtain rfl : o = w.extractLsb' 22 4 := BitVec.eq_of_toNat_eq (hn.trans ho.symm)
    rw [word11, hb]
    conv_rhs => rw [← word_control w, hc]
    rfl
  simp only [decodeControl] at h
  split at h
  case h_1 ho =>
    obtain rfl := Except.ok.inj h
    exact ⟨hg, congrArg some (hw ho rfl)⟩
  case h_2 ho =>
    obtain rfl := Except.ok.inj h
    exact ⟨hg, congrArg some (hw ho rfl)⟩
  case h_3 ho =>
    obtain ⟨hz, h⟩ := of_ite_ok h
    obtain rfl := Except.ok.inj h
    refine ⟨hg, congrArg some ?_⟩
    rw [show 0#5 = _ from hz.symm, word_repeat]
    exact hw ho rfl
  case h_4 ho =>
    obtain ⟨hz, h⟩ := of_ite_ok h
    obtain rfl := Except.ok.inj h
    have hword := hw (o := 3) ho rfl
    rw [hz] at hword
    exact ⟨hg, congrArg some hword⟩
  case h_5 => cases h

end

/-- Every decoded word: the class names the decoder, and the fields are those of the word. -/
theorem decodeWord_encodes {w : BitVec 32} {i : Instr} (h : decodeWord w = .ok i) :
    Encodes i w ∧ w ≠ 0 ∧ w ≠ 0xFFFFFFFF := by
  simp only [decodeWord] at h
  obtain ⟨hne, h⟩ := of_error_ite_ok h
  refine ⟨?_, not_or.mp hne⟩
  obtain ⟨g, hguard, h⟩ := of_bind_ok h
  obtain ⟨hg, hb⟩ := guard_ofBits hguard
  split at h
  case h_1 hc =>
    obtain ⟨d, hdst, h⟩ := of_bind_ok h
    obtain ⟨s, hsrc, h⟩ := of_bind_ok h
    obtain ⟨hd, hnum⟩ := sdst_ofNum hdst
    obtain ⟨hs, hbits⟩ := src_ofBits hsrc
    have hw : word00 g (w.extractLsb' 22 4) d.num s = w := by
      rw [word00, hb, hnum, hbits, BitVec.ofNat_toNat, BitVec.setWidth_eq]
      conv_rhs => rw [← word_scalar w, show w.extractLsb' 30 2 = 0 from BitVec.eq_of_toNat_eq hc]
      rfl
    rw [← hw]
    exact decodeScalar_encodes hg hd hs h
  case h_2 hc => exact decodeVector_encodes hg hb (BitVec.eq_of_toNat_eq hc) h
  case h_3 hc => exact decodeImmediate_encodes hg hb (BitVec.eq_of_toNat_eq hc) h
  case h_4 h0 h1 h2 =>
    have hlast {c : Nat} (hlt : c < 4) (h0 : c ≠ 0) (h1 : c ≠ 1) (h2 : c ≠ 2) : c = 3 := by omega
    have hc : (w.extractLsb' 30 2).toNat = 3 := hlast (BitVec.isLt _) h0 h1 h2
    exact decodeControl_encodes hg hb (BitVec.eq_of_toNat_eq hc) h

/-- Settles O57: a word that decodes to an instruction is that instruction's own, field by field, and a word that decodes to
none is carried whole. -/
theorem decodeThenEncode : Obligations.DecodeThenEncode := by
  intro w
  cases h : decodeWord w with
  | error e =>
    rw [decode_error h]
    exact ⟨wf_notAnInstruction.mpr ⟨e, h⟩, rfl⟩
  | ok i =>
    obtain ⟨⟨hf, he⟩, hne⟩ := decodeWord_encodes h
    rw [decode_of h]
    have hi : ∀ v, i ≠ .encodingNotAnInstruction v := by
      rintro v rfl
      obtain rfl : v = w := Option.some.inj he
      simp [Instr.fieldsWf, h] at hf
    exact ⟨(wf_iff_of_encode hi he).mpr ⟨hf, hne⟩, he⟩

end Sys2Proof.Laws
end

section
/-! Proof of O55: the words that the statement writes out. -/

namespace Sys2Proof.Laws

/-- Settles O55: each word is read by the decoder. -/
theorem wordsDecode : Obligations.WordsDecode := by
  refine ⟨rfl, rfl, rfl, rfl, rfl, rfl, rfl, rfl, rfl, rfl, ?_⟩
  decide

end Sys2Proof.Laws
end

section
/-! Proof of O12: branches, jumps and nop by what the shared operations of a transport do, and a long immediate to a trigger
by comparing it with the trigger's own word at the state that both find. -/

namespace Sys2Proof.Machine

/-! ### The state after a jump -/

theorem State.map_congr {s : State} {f h : Thread → Thread} (e : f s.th = h s.th) : s.map f = s.map h :=
  congrArg (fun t => { s with th := t }) e

theorem State.passed_pc (s : State) : s.passed.th.pc = s.th.pc + 4 := congrArg (· + 4) (State.seen_pc s)

/-- A thread changed before a jump (R45). -/
theorem State.map_jump (s : State) (f : Thread → Thread) (pc : Word) :
    (s.map f).jump pc = s.map (fun t => { f t with pc := pc, readyAt := s.cyc + 2 }) := by
  rw [State.jump, State.map_map, State.map_cyc]

/-! ### Branches and nop -/

section
variable {g : Guard} {s : State}

/-- A branch that is taken (R45). -/
theorem exec_br (off : BitVec 22) (hg : s.seen.th.holds g = true) : exec (.br g off) s =
    .next (s.passed.map (fun t => { t with pc := s.th.pc + off.signExtend 64 * 4, readyAt := s.cyc + 2 })) := by
  change issue (fun _ _ => .ok) g (fun s => s.advance.jump (s.th.pc + branchOffset off)) s = _
  rw [issue_body rfl hg, State.seen_pc]
  rfl

/-- A branch with a link that is taken (R45). -/
theorem exec_brl (off : BitVec 22) (hg : s.seen.th.holds g = true) : exec (.brl g off) s =
    .next (s.passed.map (fun t =>
      { t.setG 31 (s.th.pc + 4) with pc := s.th.pc + off.signExtend 64 * 4, readyAt := s.cyc + 2 })) := by
  change issue (fun _ _ => .ok) g
    (fun s => (s.advance.map (fun t => t.setG 31 (s.th.pc + 4))).jump (s.th.pc + branchOffset off)) s = _
  rw [issue_body rfl hg, State.seen_pc, State.map_jump]
  rfl

/-- A nop only counts as a transport, whatever its guard (R46). -/
theorem exec_nop (g : Guard) (s : State) : exec (.nop g) s = .next s.passed := by
  cases hg : s.seen.th.holds g with
  | true => exact issue_body (fate := fun _ _ => .ok) rfl hg
  | false => exact issue_skip (fate := fun _ _ => .ok) rfl hg

end

/-- A nop with a field is no instruction (R46). -/
theorem decode_nop_field {w : BitVec 32} (hc : w.extractLsb' 30 2 = 3) (ho : w.extractLsb' 22 4 = 3)
    (hf : w.extractLsb' 0 22 ≠ 0) : decode w = .encodingNotAnInstruction w := by
  cases h : decodeWord w with
  | error e => exact Laws.decode_error h
  | ok i =>
    simp only [decodeWord, hc] at h
    obtain ⟨-, h⟩ := Laws.of_error_ite_ok h
    obtain ⟨g, -, h⟩ := Laws.of_bind_ok h
    change decodeControl w g = .ok i at h
    simp only [decodeControl, ho] at h
    exact absurd (Laws.of_ite_ok h).1 hf

/-! ### Jumps -/

section
variable {g : Guard} {src : Src} {s : State} {w : Word} {d : Option (BitVec 3 × Nat × Elem)}

/-- The low two bits of a jump's target (R48). -/
theorem low_two_bits (w : Word) : w.extractLsb' 0 2 = 0 ↔ w.toNat % 4 = 0 := by
  rw [← BitVec.toNat_inj, BitVec.extractLsb'_toNat]
  simp

/-- A jump to a misaligned target traps. -/
theorem jumpAct_misaligned (link : Bool) (h : w.toNat % 4 ≠ 0) : jumpAct link w s = .illegal :=
  if_pos (mt (low_two_bits w).mp h)

theorem jumpAct_aligned (link : Bool) (h : w.toNat % 4 = 0) :
    jumpAct link w s = .done ((if link then s.map (fun t => t.setG 31 t.pc) else s).jump w) :=
  if_neg (not_not.mpr ((low_two_bits w).mpr h))

/-- R55: an act refused at its trigger is the illegal-transport trap there. -/
theorem conclude_illegal {isV : Bool} {trig look : Nat} : conclude isV trig look s d .illegal = trapIllegal s := rfl

theorem exec_jr (h : Fires .jr g src s w d) :
    (w.toNat % 4 = 0 → exec (.jr g src) s = .next ((s.passed.map (fun t => { t with pc := w, readyAt := s.cyc + 2 })).taken d))
    ∧ (w.toNat % 4 ≠ 0 → exec (.jr g src) s = .next (trapIllegal s.seen)) := by
  have hexec : exec (.jr g src) s = _ := trigger_fires (look := 0) (act := actJr) h
  rw [hexec, actJr]
  refine ⟨fun ha => ?_, fun hm => ?_⟩
  · rw [jumpAct_aligned _ ha, conclude_done]
    rfl
  · rw [jumpAct_misaligned _ hm, conclude_illegal]

theorem exec_jrl (h : Fires .jrl g src s w d) :
    (w.toNat % 4 = 0 → exec (.jrl g src) s =
      .next ((s.passed.map (fun t => { t.setG 31 (s.th.pc + 4) with pc := w, readyAt := s.cyc + 2 })).taken d))
    ∧ (w.toNat % 4 ≠ 0 → exec (.jrl g src) s = .next (trapIllegal s.seen)) := by
  have hexec : exec (.jrl g src) s = _ := trigger_fires (look := 0) (act := actJrl) h
  rw [hexec, actJrl]
  refine ⟨fun ha => ?_, fun hm => ?_⟩
  · rw [jumpAct_aligned _ ha, conclude_done, if_pos rfl, State.map_jump]
    refine congrArg (fun z => Host.Outcome.next (State.taken z d)) (State.map_congr ?_)
    rw [State.passed_pc, State.passed_cyc]
  · rw [jumpAct_misaligned _ hm, conclude_illegal]

end

theorem controlWords : Rules.ControlWords :=
  ⟨fun _ off _ hg => ⟨exec_br off hg, exec_brl off hg⟩, exec_nop, rfl, fun _ => decode_nop_field,
    fun _ _ _ _ _ => exec_jr, fun _ _ _ _ _ => exec_jrl⟩

/-! ### Long immediates to triggers -/

/-- A scalar trigger's word performs the trigger's act (R33, R50). -/
theorem exec_trigInstr_act (t : Trig) (g : Guard) (l : BitVec 4) (src : Src) (s : State) :
    exec (t.instr g l src) s = trigger t (if t.long then l else 0) g src (trigAct t l) s := by
  cases t <;> rfl

/-- Two words with the same checks that do the same where the guard holds. -/
theorem issue_congr {fate fate' : SlotKey → Mode → Fate} {g : Guard} {body body' : State → State} {s : State}
    (hf : fate = fate') (hb : body s.seen = body' s.seen) : issue fate g body s = issue fate' g body' s := by
  subst hf
  unfold issue
  change Host.Outcome.next (match fate s.seen.th.key s.seen.th.mode with
    | .illegal => trapIllegal s.seen
    | .privilege => trapPrivilege s.seen
    | .ok => if s.seen.th.holds g then body s.seen else s.seen.advance) = _
  rw [hb]
  rfl

theorem endWindow_congr {us : List Win} {body body' : State → State} {s : State} (h : body s = body' s) :
    endWindow us body s = endWindow us body' s := by
  rw [endWindow, endWindow, h]

/-- A register without a parity error is read for nothing (R368). -/
theorem checked_append_sound {rs ops : List RegRef} {body : State → State} {s : State} (h : s.th.sound rs = true) :
    checked (rs ++ ops) body s = checked ops body s := by
  have hnone : rs.find? (fun r => s.th.bad.contains r) = none :=
    List.find?_eq_none.mpr fun r hr => by simpa using List.all_eq_true.mp h r hr
  rw [checked, checked, List.find?_append, hnone, Option.none_or]

/-- A long immediate to a trigger is the trigger's word from any source that delivers its value without a dequeue. -/
theorem exec_li_trig {t : Trig} {g : Guard} {s : State} {x : BitVec 16} {src : Src} (hsrc : ∀ k m, srcFate k m src = .ok)
    (hread : s.seen.readSrc src = .val (x.signExtend 64) none) (hs : s.seen.th.sound (srcRegs src) = true) :
    exec (.li g (.trig t) x) s = exec (t.instr g 0 src) s := by
  rw [exec_trigInstr_act, ite_self, trigger]
  change issue (fun k m => trigFate k m t) g (writeWord (.trig t) 0 (x.signExtend 64) []) s = _
  refine issue_congr ?_ (endWindow_congr ?_)
  · funext k m
    rw [hsrc, Fate.ok_and]
  · simp only [withSrc, hread, checked_append_sound hs]
    rfl

/-- A short immediate is the same word whether it is widened at once or first to a long one (R32, R44). -/
theorem signExtend_short_long (j : BitVec 10) : (j.signExtend 16).signExtend 64 = j.signExtend 64 := by
  refine BitVec.eq_of_toInt_eq ?_
  rw [BitVec.toInt_signExtend_of_le (by decide), BitVec.toInt_signExtend_of_le (by decide),
    BitVec.toInt_signExtend_of_le (by decide)]

theorem longImmediateTriggers : Rules.LongImmediateTriggers := by
  intro t g s
  constructor
  case left =>
    intro j
    refine exec_li_trig (fun _ _ => rfl) ?_ rfl
    rw [State.readSrc, signExtend_short_long]
  case right =>
    intro x r hr hs
    refine exec_li_trig (fun _ _ => rfl) ?_ hs
    rw [State.readSrc, State.readPort, hr]
    rfl

/-- Settles O12: the control words one by one, and a long immediate to a trigger by the trigger's own word. -/
theorem controlTransfers : Obligations.ControlTransfers := ⟨controlWords, longImmediateTriggers⟩

end Sys2Proof.Machine
end

section
/-! Proof of O16: the writes of the special ports, each by the act of its port; mfill by the checks of its slot. -/

namespace Sys2Proof.Machine

/-! ### The fields that a written value must leave 0 -/

/-- The bits from `k` up are 0. -/
theorem fld_above {w : Word} {k : Nat} (hk : k ≤ 63) : fld w 63 k = 0 ↔ w.toNat < 2 ^ k := by
  have hbits : w.toNat / 2 ^ k < 2 ^ (63 - k + 1) := by
    rw [Nat.div_lt_iff_lt_mul (by positivity), ← Nat.pow_add, show 63 - k + 1 + k = 64 by omega]
    exact w.isLt
  rw [fld, BitVec.extractLsb'_toNat, Nat.shiftRight_eq_div_pow, Nat.mod_eq_of_lt hbits, Nat.div_eq_zero_iff]
  exact or_iff_right (by positivity)

theorem xrndOk_iff {w : Word} : xrndOk w = true ↔ fld w 2 0 < 6 ∧ fld w 31 4 = 0 := by
  simp [xrndOk]

theorem flagsOk_iff {w : Word} : flagsOk w = true ↔ w.toNat < 2 ^ 7 := by
  rw [flagsOk, beq_iff_eq, fld_above (by decide)]

/-! ### The context of a thread that has been passed -/

theorem Thread.deliver_ctx (t : Thread) (f : Flight) : (t.deliver f).ctx = t.ctx := by
  unfold Thread.deliver
  cases f.port <;> rfl

theorem State.seen_ctx (s : State) : s.seen.th.ctx = s.th.ctx := by
  change (List.foldl Thread.deliver _ _).ctx = _
  exact List.foldlRecOn (motive := fun x : Thread => x.ctx = s.th.ctx) _ _ rfl
    (fun x hx f _ => (Thread.deliver_ctx x f).trans hx)

theorem State.passed_myCtx (s : State) : s.passed.myCtx = s.myCtx := congrArg s.ctx? (State.seen_ctx s)

/-! ### What each port's act does -/

section
variable {w : Word} {s : State}

theorem xrndAct_ok (h : fld w 2 0 < 6 ∧ fld w 31 4 = 0) : xrndAct w s = .done (s.map (fun t => t.set .xrnd w)) :=
  if_pos (xrndOk_iff.mpr h)

theorem xrndAct_reserved (h : ¬(fld w 2 0 < 6 ∧ fld w 31 4 = 0)) : xrndAct w s = .illegal :=
  if_neg (mt xrndOk_iff.mp h)

theorem xflagsAct_ok (h : w.toNat < 2 ^ 7) : xflagsAct w s = .done (s.map (fun t =>
    t.set .xflags (w ||| if t.fresh.1 = s.cyc then t.fresh.2.setWidth 64 else 0))) :=
  if_pos (flagsOk_iff.mpr h)

theorem xflagsAct_reserved (h : ¬w.toNat < 2 ^ 7) : xflagsAct w s = .illegal := if_neg (mt flagsOk_iff.mp h)

theorem xtenAct_ok (h : w.toNat < 2 ^ 7) : xtenAct w s = .done (s.map (fun t => t.set .xten w)) :=
  if_pos (flagsOk_iff.mpr h)

theorem xtenAct_reserved (h : ¬w.toNat < 2 ^ 7) : xtenAct w s = .illegal := if_neg (mt flagsOk_iff.mp h)

theorem preqAct_ok (h : w.toNat < 2) : preqAct w s = .done (s.map (fun t =>
    { t with preq := w.getLsbD 0 && ((s.myCtx.map Ctx.preq).getD false) })) :=
  if_neg (not_not.mpr ((fld_above (k := 1) (by decide)).mpr h))

theorem preqAct_reserved (h : 2 ≤ w.toNat) : preqAct w s = .illegal :=
  if_pos (mt (fld_above (k := 1) (by decide)).mp (Nat.not_lt.mpr h))

theorem mvecAct_aligned (h : w.toNat % 4 = 0) : mvecAct w s = .done (s.map (fun t => { t with mvec := w })) :=
  if_neg (not_not.mpr ((fld_low w 1).trans h))

theorem mvecAct_misaligned (h : w.toNat % 4 ≠ 0) : mvecAct w s = .double :=
  if_pos (fun e => h ((fld_low w 1).symm.trans e))

end

/-! ### The words that write a special port -/

/-- A port that only the monitor writes (R53). -/
theorem specialWriteFate_monitor {p : Special} (hw : p.writable = true) (hp : monitorOnly p ∨ p = .preq ∨ p = .rfq) (m : Mode) :
    specialWriteFate m p = if m = .user then .privilege else .ok := by
  simp [specialWriteFate, hw, hp]

section
variable {i : Instr} {fate : Fate} {g : Guard} {src : Src} {act : Word → State → Act} {s z : State} {w : Word}
  {d : Option (BitVec 3 × Nat × Elem)}

theorem specialWord_done (p : Special) (hi : exec i s = moveTo (fun _ m => specialWriteFate m p) g src act s)
    (hp : specialWriteFate s.th.mode p = fate) (h : Moves fate g src s w d) (ha : act w s.passed = .done z) :
    exec i s = .next (z.taken d) := by
  rw [hi, moveTo_moves (by rwa [hp]), ha, conclude_done]

theorem specialWord_illegal (p : Special) (hi : exec i s = moveTo (fun _ m => specialWriteFate m p) g src act s)
    (hp : specialWriteFate s.th.mode p = fate) (h : Moves fate g src s w d) (ha : act w s.passed = .illegal) :
    exec i s = .next (trapIllegal s.seen) := by
  rw [hi, moveTo_moves (by rwa [hp]), ha, conclude_illegal]

/-- A mvec at which no handler can start is a double fault (R357). -/
theorem specialWord_double (p : Special) (hi : exec i s = moveTo (fun _ m => specialWriteFate m p) g src act s)
    (hp : specialWriteFate s.th.mode p = fate) (h : Moves fate g src s w d) (ha : act w s.passed = .double) :
    exec i s = .next s.seen.doubleFault := by
  rw [hi, moveTo_moves (by rwa [hp]), ha]
  rfl

end

theorem specialPorts : Rules.SpecialPorts := by
  intro g src s w d
  constructor
  case left =>
    intro h
    exact ⟨fun ok => specialWord_done .xrnd rfl rfl h (xrndAct_ok ok),
      fun bad => specialWord_illegal .xrnd rfl rfl h (xrndAct_reserved bad),
      fun ok => ⟨specialWord_done .xflags rfl rfl h (xflagsAct_ok ok), specialWord_done .xten rfl rfl h (xtenAct_ok ok)⟩,
      fun bad => ⟨specialWord_illegal .xflags rfl rfl h (xflagsAct_reserved bad),
        specialWord_illegal .xten rfl rfl h (xtenAct_reserved bad)⟩⟩
  case right =>
    intro h
    have fate (p : Special) (hw : p.writable = true) (hp : monitorOnly p ∨ p = .preq ∨ p = .rfq) :=
      specialWriteFate_monitor hw hp s.th.mode
    exact ⟨fun ok => specialWord_done .preq rfl (fate _ rfl (by decide)) h (by rw [preqAct_ok ok, State.passed_myCtx]),
      fun bad => specialWord_illegal .preq rfl (fate _ rfl (by decide)) h (preqAct_reserved bad),
      specialWord_done .rfq rfl (fate _ rfl (by decide)) h rfl,
      specialWord_done .mcause rfl (fate _ rfl (by decide)) h rfl,
      specialWord_done .maddr rfl (fate _ rfl (by decide)) h rfl,
      specialWord_done .mtpc rfl (fate _ rfl (by decide)) h rfl,
      fun ha => specialWord_done .mvec rfl (fate _ rfl (by decide)) h (mvecAct_aligned ha),
      fun hm => specialWord_double .mvec rfl (fate _ rfl (by decide)) h (mvecAct_misaligned hm)⟩

/-! ### mfill -/

section
variable {v : Word} {s : State}

theorem dwords_single (w : Word) : dwords [w] = leBytes 8 w.toNat := by
  simp [dwords]

/-- With nothing to complete a write of mfill has no effect (R343). -/
theorem mfillAct_empty (h : retryHead s s.th.ctx = none) : mfillAct v s = .done s := by
  simp only [mfillAct, h]

variable {l : Loc} {slot : W32} {e : Word}

theorem mfillAct_free (h : retryHead s s.th.ctx = some (l, slot, e)) (hheld : entryHeld s s.th.ctx e = false) :
    mfillAct v s = .done s := by
  simp only [mfillAct, h, hheld, Bool.not_false, if_true]

/-- The held entry at the ring's slot is completed, and what waits on it goes on (R343). -/
theorem mfillAct_fills {s1 s2 : State} (h : retryHead s s.th.ctx = some (l, slot, e)) (hheld : entryHeld s s.th.ctx e = true)
    (hr : Released s 2) (hvalue : writeVA s (devAgent s.th.ctx) (e + 0x38) (leBytes 8 v.toNat) = .ok s1)
    (hstate : writeVA s1 (devAgent s.th.ctx) (e + 0x30) (leBytes 8 2) = .ok s2) :
    mfillAct v s = .done (fillSlot (ringPut s2 l { ringAt s2 l with rp := (ringAt s2 l).rp + 1 }) s.th.ctx slot v
      (entryBytes s2 s.th.ctx e 0x40 64)) := by
  have hstate' : writeVA s1 (devAgent s.th.ctx) (e + BitVec.ofNat 64 0x30) (dwords [2]) = .ok s2 := by
    rw [dwords_single]
    exact hstate
  have hvalue' : writeVA s (devAgent s.th.ctx) (e + BitVec.ofNat 64 0x38) (dwords [v]) = .ok s1 := by
    rw [dwords_single]
    exact hvalue
  simp only [mfillAct, h, hheld, Bool.not_true, Bool.false_eq_true, if_false, releaseWait_released hr, hvalue', hstate']

end

theorem retryFill : Rules.RetryFill := by
  intro g src s v d h
  have fate : specialWriteFate s.th.mode .mfill = _ := specialWriteFate_monitor rfl (by decide) _
  exact ⟨fun he => specialWord_done .mfill rfl fate h (mfillAct_empty he), fun l slot e hl =>
    ⟨fun hfree => specialWord_done .mfill rfl fate h (mfillAct_free hl hfree),
      fun hheld hr t1 t2 h1 h2 => specialWord_done .mfill rfl fate h (mfillAct_fills hl hheld hr h1 h2)⟩⟩

/-- Settles O16: each write runs its port's act on a value that the port takes or refuses. -/
theorem specialPortWrites : Obligations.SpecialPortWrites := ⟨specialPorts, retryFill⟩

end Sys2Proof.Machine
end

section
/-! Proof of O17: a window that closes delivers its result and merges its flags, and a trap in the result's place is taken
or owed. -/

namespace Sys2Proof.Machine

/-! ### Closing a window -/

/-- The result ports of a unit written with the result of its window (R37). -/
def Thread.withResult (t : Thread) (u : Win) (p : Pend) : Thread :=
  match winPort u with
  | none => t.setVr p.v
  | some l => if u = .l then (t.set l p.r).set .lr2 p.r2 else t.set l p.r

section
variable (t : Thread) (u : Win) (p : Pend)

/-- Closing a window in steps: the window, its result where it has one, its flags. -/
theorem Thread.closeWin_eq : t.closeWin u =
    (if (t.win u).hasRes then (t.setWin u {}).withResult u (t.win u) else t.setWin u {}).merge (t.win u).flags := rfl

theorem Thread.withResult_keeps : (t.withResult u p).g = t.g ∧ (t.withResult u p).v = t.v ∧ (t.withResult u p).k = t.k
    ∧ (t.withResult u p).pc = t.pc ∧ (t.withResult u p).pend = t.pend := by
  unfold Thread.withResult
  split
  · exact ⟨rfl, rfl, rfl, rfl, rfl⟩
  · split <;> exact ⟨rfl, rfl, rfl, rfl, rfl⟩

theorem Thread.closeWin_keeps : (t.closeWin u).g = t.g ∧ (t.closeWin u).v = t.v ∧ (t.closeWin u).k = t.k
    ∧ (t.closeWin u).pc = t.pc := by
  obtain ⟨hg, hv, hk, hpc, -⟩ := (t.setWin u {}).withResult_keeps u (t.win u)
  rw [Thread.closeWin_eq]
  split
  · exact ⟨hg, hv, hk, hpc⟩
  · exact ⟨rfl, rfl, rfl, rfl⟩

/-- A closed window is not open. -/
theorem Thread.closeWin_win : (t.closeWin u).win u = {} := by
  have hpend : ((t.setWin u {}).withResult u (t.win u)).pend = (t.setWin u {}).pend := (Thread.withResult_keeps _ _ _).2.2.2.2
  have hclosed : ((t.setWin u {}).withResult u (t.win u)).win u = {} := by
    rw [Thread.win, hpend]
    exact Thread.win_setWin _ _ _
  rw [Thread.closeWin_eq, Thread.merge, Thread.win_set]
  split
  · exact hclosed
  · exact Thread.win_setWin _ _ _

variable {u}

/-- No result port is xflags, which takes the flags. -/
theorem winPort_ne_xflags {l : Latch} (h : winPort u = some l) : .xflags ≠ l := by
  rintro rfl
  cases u <;> cases h

theorem winPort_ne_lr2 {l : Latch} (h : winPort u = some l) : l ≠ .lr2 := by
  rintro rfl
  cases u <;> cases h

theorem Thread.get_withResult {l : Latch} (h : winPort u = some l) : (t.withResult u p).get l = p.r := by
  simp only [Thread.withResult, h]
  split
  · rw [Thread.get_set_ne _ _ _ (winPort_ne_lr2 h), Thread.get_set]
  · exact Thread.get_set _ _ _

theorem Thread.get_withResult_xflags : (t.withResult u p).get .xflags = t.get .xflags := by
  unfold Thread.withResult
  split
  · rfl
  next l h =>
    split
    · rw [Thread.get_set_ne _ _ _ (by decide), Thread.get_set_ne _ _ _ (winPort_ne_xflags h)]
    · exact Thread.get_set_ne _ _ _ (winPort_ne_xflags h)

/-- The result ports of the unit hold the window's result (R37). -/
theorem Thread.closeWin_result (h : (t.win u).hasRes = true) :
    (∀ l, winPort u = some l → (t.closeWin u).get l = (t.win u).r) ∧ (u = .l → (t.closeWin u).get .lr2 = (t.win u).r2)
      ∧ (u = .v → (t.closeWin u).vr = (t.win u).v) := by
  rw [Thread.closeWin_eq, if_pos h]
  refine ⟨fun l hl => ?_, ?_, ?_⟩
  · rw [Thread.merge, Thread.get_set_ne _ _ _ (winPort_ne_xflags hl).symm, Thread.get_withResult _ _ hl]
  · rintro rfl
    rw [Thread.merge, Thread.get_set_ne _ _ _ (by decide)]
    exact Thread.get_set _ _ _
  · rintro rfl
    rfl

/-- The window's flags merge into xflags (R73). -/
theorem Thread.closeWin_xflags : (t.closeWin u).get .xflags = t.get .xflags ||| (t.win u).flags.setWidth 64 := by
  rw [Thread.closeWin_eq, Thread.merge, Thread.get_set]
  split
  · rw [Thread.get_withResult_xflags]
    rfl
  · rfl

end

/-! ### The event -/

/-- The event that the slot is asked for is the same whatever slot is in focus. -/
theorem State.focus_ev {s t : State} {k : SlotKey} (h : s.focus k = some t) : t.ev = s.ev := by
  unfold State.focus at h
  split at h
  · cases h
    rfl
  · split at h <;> cases h
    rfl

section
variable {s t : State} (hf : s.focus s.ev.key = some t) (hd : resultDue t t.th s.ev.win = true)
include hf hd

theorem exec_resultVisible (ht : (t.th.win s.ev.win).trap = none) : exec .resultVisible s =
    .next (t.map (fun x => ((x.settle t.cyc).closeWin s.ev.win).note t.cyc (x.win s.ev.win).flags)) :=
  onSlot_some hf (by simp [State.focus_ev hf, hd, ht])

theorem exec_resultVisible_trap {ti : TrapInfo} (ht : (t.th.win s.ev.win).trap = some ti) : exec .resultVisible s =
    .next (if t.th.trapWait.isSome then t.map (fun x => { x.setWin s.ev.win {} with owed := x.owed ++ [ti] })
      else takeTrap (t.map (fun x => x.setWin s.ev.win {})) ti) :=
  onSlot_some hf (by simp [State.focus_ev hf, hd, ht])

end

/-- Settles O17: the window that closes is the one that results on their way have left alone. -/
theorem resultVisible : Obligations.ResultVisible := by
  intro s t hf hd
  constructor
  case left =>
    intro ht
    refine ⟨_, exec_resultVisible hf hd ht, ?_⟩
    have hwin : t.seen.th.win s.ev.win = t.th.win s.ev.win := congrArg (·[winIx s.ev.win]) t.seen_pend
    obtain ⟨hg, hv, hk, hpc⟩ := t.seen.th.closeWin_keeps s.ev.win
    refine ⟨congrArg Pend.isOpen (t.seen.th.closeWin_win s.ev.win), fun hr => ?_, ?_, hg.trans t.seen_g, hv.trans t.seen_v,
      hk.trans t.seen_k, hpc.trans t.seen_pc, (State.focus_keeps hf).2⟩
    · rw [← hwin] at hr ⊢
      exact Thread.closeWin_result _ hr
    · rw [← hwin]
      exact t.seen.th.closeWin_xflags
  case right =>
    intro ti ht
    refine ⟨fun hw => ?_, fun tw hw => ?_⟩
    · rw [exec_resultVisible_trap hf hd ht, hw]
      rfl
    · rw [exec_resultVisible_trap hf hd ht, hw]
      rfl

end Sys2Proof.Machine
end

section
/-! Proof of O53: an operation of A, M, F or V changes ports, windows and results on their way of its own thread, and draws;
a load or an atomic its window and its access. -/

namespace Sys2Proof.Machine

/-! ### What an operation may change -/

/-- `u` is `p` with other results, ports, windows and results on their way of the thread in focus; of its latches only those
of `allowed` differ. -/
def Computed (allowed : Latch → Prop) (p u : State) : Prop :=
  u = p.map (fun t => { t with port := u.th.port, bad := u.th.bad, pend := u.th.pend, flight := u.th.flight })
    ∧ ∀ x, allowed x ∨ u.th.get x = p.th.get x

section
variable {allowed more : Latch → Prop} {p q u : State}

theorem Computed.mono (h : Computed allowed p u) (hm : ∀ x, allowed x → more x) : Computed more p u :=
  ⟨h.1, fun x => (h.2 x).imp_left (hm x)⟩

theorem Computed.trans (h : Computed allowed p q) (k : Computed allowed q u) : Computed allowed p u := by
  obtain ⟨hq, hlatch⟩ := h
  obtain ⟨hu, klatch⟩ := k
  refine ⟨?_, fun x => ?_⟩
  · rw [hu, hq]
    rfl
  · rcases klatch x with kx | kx
    · exact .inl kx
    · exact (hlatch x).imp_right kx.trans

/-- A latch written. -/
theorem computed_set (p : State) (l : Latch) (w : Word) : Computed (· = l) p (p.map (fun t => t.set l w)) :=
  ⟨rfl, fun x => (em (x = l)).imp_right (fun h => Thread.get_set_ne _ _ _ h)⟩

/-- A result on its way. -/
theorem computed_launch (p : State) (port : Option Latch) (lat : Nat) (r : Word) (v : Vec) (fl : Flags) :
    Computed allowed p (p.launch port lat r v fl) := ⟨rfl, fun _ => .inr rfl⟩

/-- A window opened. -/
theorem computed_openWin (p : State) (n : Win) (l : BitVec 4) (w : Pend) : Computed allowed p (p.openWin n l w) :=
  ⟨rfl, fun _ => .inr rfl⟩

/-- A call of Round takes its draw (R70). -/
theorem computed_round1 (p : State) : Computed (· = .xrnd) p p.round1.2.2 := computed_set _ _ _

end

/-! ### The operations by their shape -/

/-- A trigger that fires and whose act is performed. -/
theorem exec_trigInstr_done {t : Trig} {g : Guard} {l : BitVec 4} {src : Src} {s u : State} {w : Word}
    {d : Option (BitVec 3 × Nat × Elem)} (hf : Fires t g src s w d) (ha : trigAct t l w s.passed = .done u) :
    exec (t.instr g l src) s = .next (u.taken d) := by
  rw [exec_trigInstr_act, trigger_fires hf, ha, conclude_done]

/-- An act that always computes. -/
def Computes (allowed : Latch → Prop) (act : Word → State → Act) : Prop :=
  ∀ w s, ∃ u, act w s = .done u ∧ Computed allowed s u

section
variable {allowed : Latch → Prop}

theorem fDone_computed (s : State) (r : Word) (fl : Flags) : ∃ u, fDone s r fl = .done u ∧ Computed allowed s u :=
  ⟨_, rfl, computed_launch _ _ _ _ _ _⟩

theorem mulDone_computes (f : Word → Word → Word) : Computes allowed (mulDone f) :=
  fun _ _ => ⟨_, rfl, computed_launch _ _ _ _ _ _⟩

theorem divDone_computes (f : Word → Word → Word) (l : BitVec 4) : Computes allowed (divDone f l) :=
  fun _ _ => ⟨_, rfl, computed_openWin _ _ _ _⟩

theorem alu2_computes (f : Word → Word → Word) : Computes (· = .ar) (alu2 f) := fun _ _ => ⟨_, rfl, computed_set _ _ _⟩

theorem fRound_computes (f : Rm → Nat → Thread → Word → FRes) : Computes (· = .xrnd) (fRound f) :=
  fun _ s => ⟨_, rfl, (computed_round1 s).trans (computed_launch _ _ _ _ _ _)⟩

theorem fLong_computes (f : Rm → Nat → Thread → Word → FRes) (l : BitVec 4) : Computes (· = .xrnd) (fLong f l) :=
  fun _ s => ⟨_, rfl, (computed_round1 s).trans (computed_openWin _ _ _ _)⟩

theorem actFcvtI_computes : Computes (· = .xrnd) actFcvtI :=
  fun _ s => ⟨_, rfl, (computed_round1 s).trans (computed_launch _ _ _ _ _ _)⟩

end

/-- bfx with a control word of 13 bits computes (R81). -/
theorem actBfx_computes {w : Word} (s : State) (h : w.toNat < 2 ^ 13) :
    ∃ u, actBfx w s = .done u ∧ Computed (· = .ar) s u := by
  have hfield : ∃ r, bitField (s.th.get .ao) w = some r := ⟨_, if_neg (not_not.mpr ((fld_above (by decide)).mpr h))⟩
  obtain ⟨r, hr⟩ := hfield
  exact ⟨_, by rw [actBfx, hr]; rfl, computed_set _ _ _⟩

/-- Every A trigger but bfx has an operation on a.o and its value (R80). -/
theorem trigAct_of_a {t : Trig} (h : blockOf t = .a) (hb : t ≠ .bfx) (l : BitVec 4) : ∃ f, trigAct t l = alu2 f := by
  cases t
  case add | sub | addw | subw | and | or | xor | andn | shl | shr | sra | shlw | shrw | sraw | rotl | min | max | minu
    | maxu | mov | sext | zext | clz | ctz | popc | ceq | cne | clt | cltu | cle | cleu | shl16or =>
    rw [trigAct]
    exact ⟨_, rfl⟩
  case bfx => exact absurd rfl hb
  all_goals exact absurd h (by decide)

/-- Every M trigger multiplies or divides (R82, R83). -/
theorem trigAct_of_m {t : Trig} (h : blockOf t = .m) (l : BitVec 4) : Computes (fun _ => False) (trigAct t l) := by
  cases t
  case mul | mulw | mulh | mulhu =>
    rw [trigAct]
    exact mulDone_computes _
  case div | divu | rem | remu =>
    rw [trigAct]
    exact divDone_computes _ _
  all_goals exact absurd h (by decide)

/-- Every F trigger delivers a result, and changes xrnd at most (R84 to R91). -/
theorem trigAct_of_f {t : Trig} (h : blockOf t = .f) (l : BitVec 4) : Computes (· = .xrnd) (trigAct t l) := by
  cases t
  case fadd | fsub | fmul | fma | fcvtF | fcvtBf | fcvtE4 | fcvtE5 =>
    rw [trigAct]
    exact fRound_computes _
  case fsqrt | fdiv =>
    rw [trigAct]
    exact fLong_computes _ _
  case fcvtI => exact actFcvtI_computes
  case fmin | fmax | fneg | fceq | fclt | fcle | fexpBf | fexpE4 | fexpE5 | fclass =>
    rw [trigAct]
    exact fun _ s => fDone_computed s _ _
  all_goals exact absurd h (by decide)

/-- The latches that a trigger of a block may change in its own transport. -/
def mayChange (b : Block) (x : Latch) : Prop := (x = .ar ∧ b = .a) ∨ (x = .xrnd ∧ b = .f)

theorem trigAct_computed {t : Trig} (h : blockOf t ∈ [Block.a, .m, .f]) (l : BitVec 4) (s : State) {w : Word}
    (hw : t = .bfx → w.toNat < 2 ^ 13) : ∃ u, trigAct t l w s = .done u ∧ Computed (mayChange (blockOf t)) s u := by
  have hblock : blockOf t = .a ∨ blockOf t = .m ∨ blockOf t = .f := by simpa using h
  rcases hblock with hb | hb | hb
  case inl =>
    have hx (x : Latch) (e : x = .ar) : mayChange (blockOf t) x := .inl ⟨e, hb⟩
    by_cases hbfx : t = .bfx
    · obtain ⟨u, hu, hc⟩ := actBfx_computes s (hw hbfx)
      subst hbfx
      exact ⟨u, hu, hc.mono hx⟩
    · obtain ⟨f, hf⟩ := trigAct_of_a hb hbfx l
      obtain ⟨u, hu, hc⟩ := alu2_computes f w s
      exact ⟨u, hf ▸ hu, hc.mono hx⟩
  case inr.inl =>
    obtain ⟨u, hu, hc⟩ := trigAct_of_m hb l w s
    exact ⟨u, hu, hc.mono (fun _ => False.elim)⟩
  case inr.inr =>
    obtain ⟨u, hu, hc⟩ := trigAct_of_f hb l w s
    exact ⟨u, hu, hc.mono (fun _ e => .inr ⟨e, hb⟩)⟩

/-! ### Vector triggers -/

theorem vectorAct_computed (op : VTrig) (v : Vec) (s : State) : ∃ u, vectorAct op v s = .done u ∧ Computed (· = .xrnd) s u :=
  ⟨_, rfl, (computed_set s _ _).trans (computed_launch _ _ _ _ _ _)⟩

/-- A vector trigger but vld and vst is a fixed-latency operation (R92 to R98). -/
theorem exec_vtrigInstr_act {t : VTrig} (hld : t ≠ .vld) (hst : t ≠ .vst) (g : Guard) (l : BitVec 4) (src : VSource)
    (s : State) : ∃ look, exec (t.instr g l src) s = vtrigger t look g src (vectorAct t) s := by
  cases t
  case vld => exact absurd rfl hld
  case vst => exact absurd rfl hst
  all_goals exact ⟨_, rfl⟩

/-! ### Loads and atomics -/

theorem trigAct_of_load {r : Trig × Nat × Bool} (hr : r ∈ loadRows) (l : BitVec 4) :
    trigAct r.1 l = loadAct r.2.1 r.2.2 l := by
  have hrows : loadRows.map (fun r => trigAct r.1 l) = loadRows.map (fun r => loadAct r.2.1 r.2.2 l) := rfl
  exact List.map_inj_left.mp hrows r hr

section
variable {r : Trig × Nat × (Nat → Nat → Nat → Option Nat)} (hr : r ∈ amoRows)
include hr

theorem trigAct_of_amo (l : BitVec 4) : trigAct r.1 l = amoAct r.1 l := by
  have hrows : amoRows.map (fun r => trigAct r.1 l) = amoRows.map (fun r => amoAct r.1 l) := rfl
  exact List.map_inj_left.mp hrows r hr

theorem amoBytes_of_row : amoBytes r.1 = r.2.1 := by
  have hrows : amoRows.map (fun r => amoBytes r.1) = amoRows.map (fun r => r.2.1) := rfl
  exact List.map_inj_left.mp hrows r hr

end

/-! ### The frame -/

/-- The registers, guards, special registers, channels and bytes of memory that the frame speaks of. -/
def Kept (p u : State) : Prop :=
  u.th.g = p.th.g ∧ u.th.v = p.th.v ∧ u.th.k = p.th.k ∧ u.th.tlev = p.th.tlev
    ∧ u.th.rfq = p.th.rfq ∧ u.th.mvec = p.th.mvec ∧ u.th.mcause = p.th.mcause ∧ u.th.maddr = p.th.maddr ∧ u.th.mtpc = p.th.mtpc
    ∧ u.th.bind = p.th.bind ∧ u.th.vo = p.th.vo ∧ u.th.vo2 = p.th.vo2 ∧ u.th.mode = p.th.mode ∧ u.chans = p.chans
    ∧ (∀ a, Mem.byte u.mem a = Mem.byte p.mem a)

theorem Kept.of_results {p u : State} (port : Vector Word 40) (bad : List RegRef) (pend : Vector Pend 8) (flight : List Flight)
    (mem : List Access) (hth : u.th = { p.th with port := port, bad := bad, pend := pend, flight := flight, mem := mem })
    (hchans : u.chans = p.chans) (hmem : u.mem = p.mem) : Kept p u := by
  unfold Kept
  rw [hth, hchans, hmem]
  exact ⟨rfl, rfl, rfl, rfl, rfl, rfl, rfl, rfl, rfl, rfl, rfl, rfl, rfl, rfl, fun _ => rfl⟩

theorem Computed.kept {allowed : Latch → Prop} {p u : State} (h : Computed allowed p u) : Kept p u :=
  .of_results u.th.port u.th.bad u.th.pend u.th.flight p.th.mem (congrArg State.th h.1)
    (Eq.trans (congrArg State.chans h.1) rfl) (Eq.trans (congrArg State.mem h.1) rfl)

/-- The rest of the machine is as before. -/
theorem Computed.frame {allowed : Latch → Prop} {p u : State} (h : Computed allowed p u) :
    u = { p with th := u.th, draws := u.draws } := by
  have hth := congrArg State.th h.1
  have hdraws := congrArg State.draws h.1
  rw [hth, hdraws]
  exact h.1

/-- Settles O53: every operation by its shape, a load and an atomic by what their access leaves. -/
theorem computingWordsFrame : Obligations.ComputingWordsFrame := by
  refine ⟨?computing, ?vector, ?load, ?amo⟩
  case computing =>
    intro t g l src s w d hf hb hw
    obtain ⟨u, hu, hc⟩ := trigAct_computed hb l s.passed hw
    exact ⟨u, exec_trigInstr_done hf hu, hc.kept, fun x => or_assoc.mp (hc.2 x), hc.frame⟩
  case vector =>
    intro t g l src s v d hf hld hst
    obtain ⟨u, hu, hc⟩ := vectorAct_computed t v s.vseen.advance
    obtain ⟨look, hexec⟩ := exec_vtrigInstr_act hld hst g l src s
    refine ⟨u, ?_, hc.kept, hc.2, hc.frame⟩
    rw [hexec, vtrigger_fires hf, hu, conclude_done]
  case load =>
    intro r hr g l src s a d loc hf hreach
    have hact := (congrFun₂ (trigAct_of_load hr l) a s.passed).trans (loadAct_reaches hreach)
    exact ⟨_, exec_trigInstr_done hf hact, Kept.of_results _ _ _ _ _ rfl rfl rfl, rfl⟩
  case amo =>
    intro r hr g l src s a d loc hf hreach hrel hbehind hadmit hsib
    have hreach' : Reaches ordAll (amoBytes r.1) .amo 2 none a s.passed loc := amoBytes_of_row hr ▸ hreach
    have hsib' : loc.viewed = true → s.passed.siblingPosts s.passed.th.key.coreKey s.passed.th.key loc.cell 16 = false := by
      rwa [State.passed_key]
    have hact := (congrFun₂ (trigAct_of_amo hr l) a s.passed).trans (amoAct_reaches hreach' hadmit hrel hbehind hsib')
    exact ⟨_, exec_trigInstr_done hf hact, Kept.of_results _ _ _ _ _ rfl rfl rfl, rfl⟩

end Sys2Proof.Machine
end

section
/-! Proof of O14: what each destination of a move leaves, what each source delivers, and the wait for a result on its way. -/

namespace Sys2Proof.Machine

/-! ### Scalar moves -/

section
variable {g : Guard} {dst : SDst} {src : Src} {s z : State} {w : Word} {d : Option (BitVec 3 × Nat × Elem)}

/-- A move, and the words that dequeue, peek or write a guard, are one transport to its destination (R49). -/
theorem exec_moveWord {i : Instr} (hi : i = .move g dst src ∨ (∃ n, src = .port (.deq n) ∧ i = .dequeue g dst n)
      ∨ (∃ n, src = .port (.peek n) ∧ i = .peek g dst n) ∨ (∃ n, dst = .k n ∧ i = .guardWrite g n src)) :
    exec i s = moveTo (fun k m => dstFate k m dst) g src (writeDst dst 0) s := by
  rcases hi with rfl | ⟨n, rfl, rfl⟩ | ⟨n, rfl, rfl⟩ | ⟨n, rfl, rfl⟩ <;> rfl

/-- A move whose destination takes its value. -/
theorem moveWord_done (h : Moves (dstFate s.th.key s.th.mode dst) g src s w d)
    (hw : writeDst dst 0 w s.passed = .done z) :
    moveTo (fun k m => dstFate k m dst) g src (writeDst dst 0) s = .next (z.taken d) := by
  rw [moveTo_moves h, hw, conclude_done]

/-- A value that needs no source is written to a destination that ends no window. -/
theorem writeWord_done {look : BitVec 4} {rs : List RegRef} (hwins : dstWins dst = [])
    (hs : s.th.sound (rs ++ dstRegs dst) = true) (hw : writeDst dst look w s.advance = .done z) :
    writeWord dst look w rs s = z := by
  rw [writeWord, hwins, endWindow_closed rfl, checked_sound hs, hw, conclude_done, State.taken_none]

section
variable {x : BitVec 16} (hf : dstFate s.th.key s.th.mode dst = .ok) (hg : s.seen.th.holds g = true) (hwins : dstWins dst = [])
include hf hg hwins

/-- A long immediate (R44). -/
theorem exec_li_done (hregs : dstRegs dst = []) (hw : writeDst dst 0 (x.signExtend 64) s.passed = .done z) :
    exec (.li g dst x) s = .next z := by
  change issue (fun k m => dstFate k m dst) g (writeWord dst 0 (x.signExtend 64) []) s = _
  rw [issue_body (fate := fun k m => dstFate k m dst) hf hg]
  exact congrArg _ (writeWord_done hwins (by rw [hregs]; rfl) hw)

/-- The old value moved up, with the immediate in its place (R44). -/
theorem exec_liShiftInsert_done (hold : oldValue s.seen dst = oldValue s.passed dst)
    (hs : s.seen.th.sound (oldRegs dst ++ dstRegs dst) = true)
    (hw : writeDst dst 0 ((oldValue s.passed dst <<< 16) ||| x.setWidth 64) s.passed = .done z) :
    exec (.liShiftInsert g dst x) s = .next z := by
  change issue (fun k m => dstFate k m dst) g
    (fun s => writeWord dst 0 ((oldValue s dst <<< 16) ||| x.setWidth 64) (oldRegs dst) s) s = _
  rw [issue_body (fate := fun k m => dstFate k m dst) hf hg, hold]
  exact congrArg _ (writeWord_done hwins hs hw)

end

end

theorem State.advance_g (s : State) : s.advance.th.g = s.th.g := rfl

theorem State.advance_port (s : State) : s.advance.th.port = s.th.port := rfl

/-- Issuing changes no register and no latch. -/
theorem State.advance_getG (s : State) (r : BitVec 5) : s.advance.th.getG r = s.th.getG r := by
  rw [Thread.getG, Thread.getG, State.advance_g]

theorem State.advance_get (s : State) (l : Latch) : s.advance.th.get l = s.th.get l := by
  rw [Thread.get, Thread.get, State.advance_port]

theorem scalarMoves : Rules.ScalarMoves := by
  constructor
  case left =>
    intro i g dst src s w d hi h
    rw [exec_moveWord hi]
    refine ⟨fun r hr => ?_, fun p hp => ?_, fun n hn => ?_⟩
    · subst hr
      exact moveWord_done h rfl
    · subst hp
      exact moveWord_done h rfl
    · subst hn
      exact moveWord_done h rfl
  case right =>
    intro g dst x s hf hg
    refine ⟨fun r hr => ?_, fun p hp => ?_⟩
    · subst hr
      have hold : oldValue s.seen (.g r) = oldValue s.passed (.g r) := (State.advance_getG s.seen r).symm
      exact ⟨exec_li_done hf hg rfl rfl rfl, fun hs =>
        exec_liShiftInsert_done hf hg rfl hold hs (congrArg Act.done (State.map_congr rfl))⟩
    · subst hp
      have hold : oldValue s.seen (.opnd p) = oldValue s.passed (.opnd p) := (State.advance_get s.seen p).symm
      exact ⟨exec_li_done hf hg rfl rfl rfl, fun hs =>
        exec_liShiftInsert_done hf hg rfl hold hs (congrArg Act.done (State.map_congr rfl))⟩

theorem hardwiredRegisters : Rules.HardwiredRegisters := fun t w b =>
  ⟨t.getG_zero, rfl, if_pos rfl, if_pos rfl, fun r hr => t.getG_setG w r hr, fun _ hn => t.getK_setK b hn⟩

/-! ### Class 01 moves -/

section
variable {g : Guard} {s z : State} {v : Vec} {d : Option (BitVec 3 × Nat × Elem)}

/-- No window is ended where V's is not open (R47). -/
theorem closed_repWins (h : (s.th.win .v).isOpen = false) : s.vseen.closed (repWins s.vseen) = true := by
  have hv : (s.vseen.th.win .v).isOpen = false := by
    have hpend : s.vseen.th.pend = s.th.pend := s.seen_pend
    rw [Thread.win, hpend]
    exact h
  unfold repWins
  split
  · simp [State.closed, hv]
  · rfl

/-- A class 01 word to a vector destination that takes its value. -/
theorem exec_toVec {dst : VDst} {src : VSource} (hf : vsourceFate s.th.key s.th.mode src = .ok)
    (hg : s.seen.th.holds g = true) (hclosed : (s.th.win .v).isOpen = false) (hr : s.vseen.readVSource src = .val v d)
    (hs : s.seen.th.sound (vsrcRegs src) = true) (hw : writeVDst dst v s.vseen.advance = .done z) :
    exec (.vectorTransport g (.toVec dst src)) s = .next (z.taken d) := by
  have hg' : s.takeV.seen.th.holds g = true := hg
  have hf' : vsourceFate s.takeV.th.key s.takeV.th.mode src = .ok := hf
  have hs' : s.vseen.th.sound (vsrcRegs src ++ []) = true := by
    rw [List.append_nil]
    exact hs
  change issue (fun k m => vsourceFate k m src) g
    (fun s => endWindow (repWins s) (withVSrc 0 0 [] src (writeVDst dst)) s) s.takeV = _
  rw [issue_body (fate := fun k m => vsourceFate k m src) hf' hg']
  change Host.Outcome.next (endWindow (repWins s.vseen) (withVSrc 0 0 [] src (writeVDst dst)) s.vseen) = _
  rw [endWindow_closed (closed_repWins hclosed), withVSrc_val hr hs', hw, conclude_done]

/-- One to a scalar destination: lanes 1 and 0 (R33). -/
theorem exec_toScalar {l : BitVec 4} {dst : SDst} {p : VPort} (hstage : isStage s.th.key = true)
    (hf : dstFate s.th.key s.th.mode dst = .ok) (hg : s.seen.th.holds g = true) (hclosed : (s.th.win .v).isOpen = false)
    (hwins : dstWins dst = []) (hregs : dstRegs dst = []) (hr : s.vseen.readVPort p = .val v none)
    (hs : s.seen.th.sound [vportReg p] = true) (hw : writeDst dst l (v.setWidth 64) s.vseen.advance = .done z) :
    exec (.vectorTransport g (.toScalar l dst p)) s = .next z := by
  have hf' : (vsourceFate s.takeV.th.key s.takeV.th.mode (.vec p)).and (dstFate s.takeV.th.key s.takeV.th.mode dst) = .ok := by
    change Fate.and (if isStage s.th.key then .ok else .illegal) (dstFate s.th.key s.th.mode dst) = .ok
    rw [if_pos hstage, hf]
    rfl
  have hg' : s.takeV.seen.th.holds g = true := hg
  have hs' : s.vseen.th.sound [vportReg p] = true := hs
  have hc : s.vseen.closed (repWins s.vseen ++ []) = true := by
    rw [List.append_nil]
    exact closed_repWins hclosed
  change execVectorTransport g (.toScalar l dst p) s = _
  rw [execVectorTransport, hwins, hregs]
  rw [issue_body (fate := fun k m => (vsourceFate k m (.vec p)).and (dstFate k m dst)) hf' hg']
  change Host.Outcome.next (endWindow (repWins s.vseen ++ []) _ s.vseen) = _
  rw [endWindow_closed hc]
  simp only [hr, checked_sound hs', hw, conclude_done, State.taken_none]

end

/-- Lanes 1 and 0 of a vector. -/
theorem setWidth_eq_lanes (v : Vec) : v.setWidth 64 = v.extractLsb' 0 64 := BitVec.setWidth_eq_extractLsb' (by decide)

theorem vectorMoves : Rules.VectorMoves := by
  constructor
  case left =>
    intro g dst src s v d hf hg hclosed hr hs
    cases dst <;> exact exec_toVec hf hg hclosed hr hs rfl
  case right =>
    intro g l p s v hstage hg hclosed hr hs
    refine ⟨fun r => ?_, fun q hq => ?_⟩
    · rw [← setWidth_eq_lanes]
      exact exec_toScalar hstage rfl hg hclosed rfl rfl hr hs rfl
    · rw [← setWidth_eq_lanes]
      exact exec_toScalar hstage hq hg hclosed rfl rfl hr hs rfl

/-! ### A result on its way -/

section
variable {t : Thread} {p : Option Latch} {now : Nat}

theorem le_foldl_due (l : List Flight) (n : Nat) : n ≤ l.foldl (fun n f => max n f.due) n := by
  induction l generalizing n with
  | nil => exact le_rfl
  | cons f l ih => exact (le_max_left n f.due).trans (ih _)

theorem due_le_foldl {l : List Flight} {f : Flight} (h : f ∈ l) (n : Nat) : f.due ≤ l.foldl (fun n f => max n f.due) n := by
  induction l generalizing n with
  | nil => cases h
  | cons x l ih =>
    rcases List.mem_cons.mp h with rfl | hl
    · exact (le_max_right n _).trans (le_foldl_due l _)
    · exact ih hl _

theorem Thread.due_le_flightDue {f : Flight} (h : f ∈ t.flight) (hp : f.port = p) : f.due ≤ t.flightDue p now :=
  due_le_foldl (List.mem_filter.mpr ⟨h, by simpa using hp⟩) now

/-- With every result of a port visible there is nothing to wait for. -/
theorem Thread.flightDue_visible (h : ∀ f ∈ t.flight, f.port = p → f.due ≤ now) : t.flightDue p now = now := by
  have hdue : ∀ f ∈ t.flight.filter (fun f => f.port = p), f.due ≤ now := fun f hf => by
    obtain ⟨hm, hp⟩ := List.mem_filter.mp hf
    exact h f hm (of_decide_eq_true hp)
  exact List.foldlRecOn (motive := fun n => n = now) _ _ rfl (fun n hn f hf => by rw [hn, max_eq_left (hdue f hf)])

end

section
variable {s : State} {l : Latch}

/-- The result port of S waits for the phase of a group barrier besides (R262). -/
theorem readSrc_res (h : l ≠ .sr ∨ (∀ r ∈ s.th.rels, r.group = none)) : s.readSrc (.port (.res l)) =
    if s.cyc < s.th.flightDue (some l) s.cyc then .due (s.th.flightDue (some l) s.cyc) else .val (s.th.get l) none := by
  have hfree : ¬(l = .sr ∧ (s.th.rels.any (fun r => r.group.isSome)) = true) := by
    rintro ⟨hl, hr⟩
    rcases h with h | h
    · exact h hl
    · obtain ⟨r, hm, hsome⟩ := List.any_eq_true.mp hr
      simp [h r hm] at hsome
  exact if_neg hfree

end

/-! ### The fields of tid and mctx -/

/-- A field of a number. -/
theorem fld_ofNat (n hi lo : Nat) (h : n < 2 ^ 64) : fld (BitVec.ofNat 64 n) hi lo = n / 2 ^ lo % 2 ^ (hi - lo + 1) := by
  rw [fld, BitVec.extractLsb'_toNat, BitVec.toNat_ofNat, Nat.mod_eq_of_lt h, Nat.shiftRight_eq_div_pow]

/-- tid packs slot, core and logical tile (R52). -/
theorem tid_fields {slot core tile : Nat} (hs : slot < 8) (hc : core < 8) (ht : tile < 2048) :
    let w := BitVec.ofNat 64 (slot + 8 * core + 64 * tile)
    fld w 2 0 = slot ∧ fld w 5 3 = core ∧ fld w 16 6 = tile ∧ fld w 63 17 = 0 := by
  intro w
  have hw : slot + 8 * core + 64 * tile < 2 ^ 64 := by omega
  refine ⟨?_, ?_, ?_, ?_⟩ <;> rw [fld_ofNat _ _ _ hw] <;> omega

/-- mctx packs the record's address and the context (R357). -/
theorem mctx_fields (r : Word) {ctx : Nat} (h : ctx < 2 ^ 16) :
    let w : Word := (r.extractLsb' 6 42 ++ 0#6) ++ BitVec.ofNat 16 ctx
    fld w 63 22 = fld r 47 6 ∧ fld w 21 16 = 0 ∧ fld w 15 0 = ctx := by
  intro w
  have hrec : fld r 47 6 < 2 ^ 42 := (r.extractLsb' 6 42).isLt
  have hw : w = BitVec.ofNat 64 (fld r 47 6 * 2 ^ 22 + ctx) := by
    refine BitVec.eq_of_toNat_eq ?_
    have hctx : (BitVec.ofNat 16 ctx).toNat < 2 ^ 16 := BitVec.isLt _
    have hrec' : (r.extractLsb' 6 42).toNat = fld r 47 6 := rfl
    rw [BitVec.toNat_append, ← Nat.shiftLeft_add_eq_or_of_lt hctx, BitVec.toNat_append, BitVec.toNat_zero, Nat.or_zero,
      hrec', BitVec.toNat_ofNat, BitVec.toNat_ofNat, Nat.shiftLeft_eq, Nat.shiftLeft_eq]
    omega
  have hlt : fld r 47 6 * 2 ^ 22 + ctx < 2 ^ 64 := by omega
  rw [hw]
  refine ⟨?_, ?_, ?_⟩ <;> rw [fld_ofNat _ _ _ hlt] <;> omega

/-! ### Broadcast -/

section
variable (v : Vec) (w : W32)

/-- A lane put in below the others. -/
theorem lane_push_zero : lane ((v <<< 32) ||| w.setWidth 512) 0 = w := by
  refine BitVec.eq_of_getLsbD_eq fun j hj => ?_
  simp [lane, hj]
  omega

/-- The others move up by one. -/
theorem lane_push_succ {i : Nat} (h : i + 1 < 16) : lane ((v <<< 32) ||| w.setWidth 512) (i + 1) = lane v i := by
  refine BitVec.eq_of_getLsbD_eq fun j hj => ?_
  have hin : 32 * (i + 1) + j < 512 := by omega
  have hout : 32 ≤ 32 * (i + 1) + j := by omega
  have hdown : 32 * (i + 1) + j - 32 = 32 * i + j := by omega
  simp [lane, hj, hin, hdown, BitVec.getLsbD_of_ge w _ hout, Nat.not_lt.mpr hout, -BitVec.getLsbD_eq_getElem]

/-- The lanes filled so far hold the value. -/
theorem lane_fill {n : Nat} (hn : n ≤ 16) {i : Nat} (hi : i < n) :
    lane ((List.range n).foldl (fun v _ => (v <<< 32) ||| w.setWidth 512) 0) i = w := by
  induction n generalizing i with
  | zero => cases hi
  | succ n ih =>
    rw [List.range_succ, List.foldl_append]
    cases i with
    | zero => exact lane_push_zero _ _
    | succ i => exact (lane_push_succ _ _ (by omega)).trans (ih (by omega) (by omega))

/-- bc() delivers its value in every lane (R33). -/
theorem lane_broadcast {i : Nat} (hi : i < 16) : lane (broadcast w) i = w := lane_fill w le_rfl hi

end

/-! ### What the sources deliver -/

theorem sourcesRead : Rules.SourcesRead := by
  intro s
  refine ⟨fun _ => rfl, fun r => ?greg, fun n => ?guard, rfl, rfl, fun c hc hs hk ht => ?tid,
    fun hx => ⟨_, rfl, mctx_fields _ hx⟩, ?special, fun n c e hq => ?queue,
    fun l hl => ⟨fun hv => ?visible, fun f hf hp hd => ?waits⟩, fun r => ?vreg,
    fun hv => ?vvisible, fun f hf hp hd => ?vwaits, fun p w d hp => ?bc⟩
  case greg =>
    have hr : r.toNat < 32 := r.isLt
    simp [State.readSrc, State.readPort, Thread.getG, List.getD, hr]
  case guard => simp [State.readSrc, State.readPort, Thread.getK]
  case tid =>
    refine ⟨_, rfl, ?_⟩
    rw [State.tid, hc]
    exact tid_fields hs hk ht
  case special =>
    simp only [List.forall_mem_cons]
    exact ⟨rfl, rfl, rfl, rfl, rfl, rfl, rfl, rfl, rfl, fun _ h => absurd h List.not_mem_nil⟩
  case queue => simp [State.readSrc, State.readPort, hq]
  case visible => rw [readSrc_res hl, Thread.flightDue_visible hv, if_neg (lt_irrefl _)]
  case waits =>
    have hdue := Thread.due_le_flightDue (now := s.cyc) hf hp
    exact ⟨_, by rw [readSrc_res hl, if_pos (hd.trans_le hdue)], hdue⟩
  case vreg =>
    have hr : r.toNat < 16 := r.isLt
    simp [State.readVSource, State.readVPort, Thread.getV, List.getD, hr]
  case vvisible => simp [State.readVSource, State.readVPort, Thread.flightDue_visible hv]
  case vwaits =>
    have hdue := Thread.due_le_flightDue (now := s.cyc) hf hp
    exact ⟨_, if_pos (hd.trans_le hdue), hdue⟩
  case bc =>
    have hp' : s.readPort p = .val w d := hp
    exact ⟨broadcast (w.setWidth 32), by rw [State.readVSource, hp'], fun i hi => lane_broadcast _ hi⟩

/-! ### A source that is not visible yet -/

theorem resultInterlock : Rules.ResultInterlock := by
  intro g dst src s c hf hg hr
  change issue (fun k m => (srcFate k m src).and (dstFate k m dst)) g (withSrc 0 0 [] src (writeDst dst 0)) s = _
  rw [issue_body (fate := fun k m => (srcFate k m src).and (dstFate k m dst)) hf hg, withSrc, hr]
  rfl

/-- Settles O14: destination by destination and source by source. -/
theorem movesWrite : Obligations.MovesWrite :=
  ⟨scalarMoves, vectorMoves, hardwiredRegisters, sourcesRead, resultInterlock⟩

end Sys2Proof.Machine
end

section
/-! Refutation of O13: a rep whose block a store of its own thread is still to write (R183) issues again later, with its
checks passed and its guard true. -/

namespace Sys2Proof.Machine

/-! ### A rep waits for a store to its block -/

/-- A rep whose block is still to be written by an earlier store of the thread is not performed (R183). -/
theorem exec_rep_busy {g : Guard} {cm1 : BitVec 6} {stride : BitVec 4} {bm1 : BitVec 3} {la : BitVec 4} {s : State}
    (hg : s.seen.th.holds g = true) (hc : s.seen.closed [.v] = true)
    (hbusy : blockBusy s.seen s.seen.th.pc (bm1.toNat + 1) = true) : exec (.rep g cm1 stride bm1 la) s =
      .next ((s.seen.map (fun t => { t with readyAt := s.cyc + 1, again := true })).unissue) := by
  change (if s.seen.th.holds g then Host.Outcome.next (endWindow [.v] (repAct cm1 stride bm1 la) s.seen) else _) = _
  rw [if_pos hg, endWindow_closed hc, repAct, if_pos hbusy]
  rfl

/-! ### A rep with a store to its block on its way -/

/-- A context with one table of 1 GiB pages: its first page lies in HBM, and can be read, written and executed. -/
def repContext : Ctx := { num := 1, root := 2 ^ 50 }

/-- The tables of the context, and the block's word at 0x1004, a move between v registers. -/
def repMemory : List Host.Cell :=
  let tables := Mem.write (Mem.write [] (binderyCell (2 ^ 50)) (leBytes 8 (2 ^ 50 + 0x1001)))
    (binderyCell (2 ^ 50 + 0x1000)) (leBytes 8 (2 ^ 32 + 0x4F))
  Mem.write tables (2 ^ 32 + 0x1004) (leBytes 4 0x40001001)

/-- A store of the block's word still to be performed. -/
def repStore : Access :=
  { u := .l, load := false, cell := 2 ^ 32 + 0x1004, n := 4, grain := 4, bytes := leBytes 4 0x40001001, due := 9, done := 9 }

/-- A thread of a stage core at a rep, with the store on its way. -/
def repThread : Thread := { key := ⟨0, 0, 0⟩, ctx := 1, life := .running, pc := 0x1000, mem := [repStore] }

def repState : State := { State.reset with booted := true, ctxs := [repContext], mem := repMemory, th := repThread }

/-- The words of a block that passes its checks. -/
def Block47.words? : Block47 → Option (List BlockWord)
  | .ok bs => some bs
  | .fault _ _ | .trap _ => none

theorem Block47.eq_of_words? {x : Block47} {bs : List BlockWord} (h : x.words? = some bs) : x = .ok bs := by
  cases x <;> cases h
  rfl

/-- The block's word as it stands in memory. -/
def repBlock : BlockWord := ⟨⟨false, 0⟩, .vec (.v 1), .vec (.v 2)⟩

theorem repBlock_passes : checkBlock repState.seen repState.th.pc 0 0 0 = .ok [repBlock] :=
  Block47.eq_of_words? rfl

theorem repBlock_busy : blockBusy repState.seen repState.seen.th.pc 1 = true := rfl

/-- Refutes O13: the rep of `repState` passes every check and leaves its thread where it stands. -/
theorem not_repetition : ¬ Obligations.Repetition := by
  intro h
  obtain ⟨hstarts, -⟩ := h
  obtain ⟨-, hperformed⟩ := hstarts ⟨false, 0⟩ 0 0 0 0 repState
  obtain ⟨-, hok⟩ := hperformed rfl rfl
  obtain ⟨z, hz, hpc, -⟩ := hok [repBlock] [0] repState.seen repBlock_passes rfl rfl
  rw [exec_rep_busy rfl rfl repBlock_busy] at hz
  cases hz
  exact absurd hpc (by decide)

end Sys2Proof.Machine
end

section
/-! O3: every trigger of F by its shape. -/

namespace Sys2Proof.Machine

/-! ### What a trigger of F leaves -/

section
variable {t : Trig} {look l : BitVec 4} {g : Guard} {src : Src} {s : State} {w : Word} {d : Option (BitVec 3 × Nat × Elem)}

/-- An operation that calls Round once (R70, R84). -/
theorem trigger_fRound {f : Rm → Nat → Thread → Word → FRes} (h : Fires t g src s w d) :
    trigger t look g src (fRound f) s =
      let x := takeDraw (s.passed.th.get .xrnd)
      let y := f (rmOf (s.passed.th.get .xrnd)) x.1 s.passed.th w
      .next (((s.passed.map (fun t => t.set .xrnd x.2)).pending (some .fr) 4 (y.code.setWidth 64) 0 y.flags).taken d) := by
  rw [trigger_fires h]
  exact congrArg _ conclude_done

/-- An operation that takes no draw. -/
theorem trigger_fDone {f : Word → Word → Word × Flags} (h : Fires t g src s w d) :
    trigger t look g src (fun w s => fDone s (f (s.th.get .fo) w).1 (f (s.th.get .fo) w).2) s =
      let y := f (s.passed.th.get .fo) w
      .next ((s.passed.pending (some .fr) 4 y.1 0 y.2).taken d) := by
  rw [trigger_fires h]
  exact congrArg _ conclude_done

/-- fdiv and fsqrt open their window for 24 cycles (R85). -/
theorem trigger_fLong {f : Rm → Nat → Thread → Word → FRes} (h : Fires t g src s w d) :
    trigger t look g src (fLong f l) s =
      let x := takeDraw (s.passed.th.get .xrnd)
      let y := f (rmOf (s.passed.th.get .xrnd)) x.1 s.passed.th w
      .next (((s.passed.map (fun t => t.set .xrnd x.2)).opened .f l
        { doneAt := s.cyc + 24, hasRes := true, r := y.code.setWidth 64, flags := y.flags }).taken d) := by
  rw [trigger_fires h]
  exact congrArg _ conclude_done

/-- fcvt.i calls Round once and answers in 64 bits (R89). -/
theorem trigger_fcvtI (h : Fires t g src s w d) :
    trigger t look g src actFcvtI s =
      let x := takeDraw (s.passed.th.get .xrnd)
      let y := toInt64 (rmOf (s.passed.th.get .xrnd)) x.1 (f32 w)
      .next (((s.passed.map (fun t => t.set .xrnd x.2)).pending (some .fr) 4 y.1 0 y.2).taken d) := by
  rw [trigger_fires h]
  exact congrArg _ conclude_done

end

/-! ### The rows of F -/

/-- A row that rounds is that one call of Round. -/
theorem exec_roundRow : ∀ r ∈ roundRows, ∀ (g : Guard) (src : Src) (s : State), exec (r.1.instr g 0 src) s =
    trigger r.1 0 g src (fRound (fun rm n th w => r.2 rm n (th.get .fo) (th.get .fo2) w)) s := by
  simp only [roundRows, List.forall_mem_cons]
  exact ⟨fun _ _ _ => rfl, fun _ _ _ => rfl, fun _ _ _ => rfl, fun _ _ _ => rfl, fun _ _ _ => rfl, fun _ _ _ => rfl,
    fun _ _ _ => rfl, fun _ _ _ => rfl, by simp⟩

/-- R87's sign flip, bit by bit. -/
theorem flipSign_eq (t : Word) :
    (t.setWidth 32 ^^^ 0x80000000#32).setWidth 64 = (~~~t &&& 0x80000000) ||| (t &&& 0x7FFFFFFF) := by
  have hs : 0x80000000#32 = BitVec.twoPow 32 31 := by decide
  have hs' : 0x80000000#64 = BitVec.twoPow 64 31 := by decide
  have hm : 0x7FFFFFFF#64 = (BitVec.allOnes 31).setWidth 64 := by decide
  change _ = (~~~t &&& 0x80000000#64) ||| (t &&& 0x7FFFFFFF#64)
  rw [hs, hs', hm]
  ext i hi
  simp only [BitVec.getElem_setWidth, BitVec.getLsbD_xor, BitVec.getLsbD_setWidth, BitVec.getLsbD_twoPow,
    BitVec.getElem_or, BitVec.getElem_and, BitVec.getElem_not, BitVec.getElem_twoPow, BitVec.getLsbD_allOnes,
    BitVec.getLsbD_eq_getElem hi]
  rcases Nat.lt_trichotomy i 31 with h | rfl | h
  · simp [h, h.ne, h.ne', show i < 32 by omega]
  · simp
  · simp [h.ne, h.ne', show ¬i < 31 by omega, show ¬i < 32 by omega]

/-- R88's comparison below or equal. -/
theorem bool64_or (a b : Bool) : bool64 (a || b) = if a ∨ b then 1 else 0 := by
  cases a <;> cases b <;> rfl

/-- A row without a draw is its function of f.o and the trigger value. -/
theorem exec_plainRow : ∀ r ∈ plainRows, ∀ (g : Guard) (src : Src) (s : State), exec (r.1.instr g 0 src) s =
    trigger r.1 0 g src (fun w s => fDone s (r.2 (s.th.get .fo) w).1 (r.2 (s.th.get .fo) w).2) s := by
  have hneg : actFneg = fun w s => fDone s ((~~~w &&& 0x80000000) ||| (w &&& 0x7FFFFFFF)) 0 := by
    funext w s
    rw [← flipSign_eq]
    rfl
  have hcle : actFcle = fun w s => fDone s
      (if (f32 (s.th.get .fo)).lt (f32 w) ∨ (f32 (s.th.get .fo)).eq (f32 w) then 1 else 0)
      (cmpFlags true (f32 (s.th.get .fo)) (f32 w)) := by
    funext w s
    rw [← bool64_or]
    rfl
  simp only [plainRows, List.forall_mem_cons]
  exact ⟨fun _ _ _ => rfl, fun _ _ _ => rfl, fun g src s => congrArg (fun act => trigger .fneg 0 g src act s) hneg,
    fun _ _ _ => rfl, fun _ _ _ => rfl, fun g src s => congrArg (fun act => trigger .fcle 0 g src act s) hcle,
    fun _ _ _ => rfl, fun _ _ _ => rfl, fun _ _ _ => rfl, fun _ _ _ => rfl, by simp⟩

/-- Settles O3: every row by the shape of its trigger. -/
theorem scalarFloatResults : Obligations.ScalarFloatResults := by
  refine ⟨fun r hr g src s w d h => ?_, fun r hr g src s w d h => ?_, fun g src s w d h => trigger_fcvtI h, ?_⟩
  · rw [exec_roundRow r hr]
    exact trigger_fRound h
  · rw [exec_plainRow r hr]
    exact trigger_fDone h
  · simp only [List.forall_mem_cons]
    exact ⟨fun _ _ _ _ _ _ h => trigger_fLong h, fun _ _ _ _ _ _ h => trigger_fLong h, by simp⟩

end Sys2Proof.Machine
end

section
/-! Refutation of O4: a V operation that takes no draw writes xrnd back, which ends a parity error of xrnd. -/

namespace Sys2Proof.Machine

/-- A thread of a stage core whose xrnd has a parity error. -/
def xrndErrorState : State := { State.reset with th := { key := ⟨0, 0, 0⟩, life := .running, bad := [.latch .xrnd] } }

theorem xrndErrorState_fires : VFires (vOperandRegs .vaddI) ⟨false, 0⟩ (.vec (.v 1)) xrndErrorState 0 none :=
  ⟨rfl, rfl, rfl, rfl, rfl⟩

/-- A V operation that takes no draw writes xrnd back, which ends its parity error (R366, R368). -/
theorem exec_vaddI_mends : ∃ z, exec (.vaddI ⟨false, 0⟩ (.vec (.v 1))) xrndErrorState = .next z ∧ z.th.bad = [] :=
  ⟨_, vtrigger_fires xrndErrorState_fires, rfl⟩

/-- Refutes O4: vadd.i leaves the result in v.r and, beyond what the statement says it changes, writes xrnd back as it was,
so that a parity error of xrnd, which the operation does not read, is gone. -/
theorem not_vectorResults : ¬ Obligations.VectorResults := by
  intro h
  obtain ⟨hlanes, -⟩ := h
  obtain ⟨x, -, hx⟩ := hlanes _ (.head _) ⟨false, 0⟩ (.vec (.v 1)) xrndErrorState 0 none xrndErrorState_fires
  obtain ⟨z, hz, hbad⟩ := exec_vaddI_mends
  have hsame : z = xrndErrorState.vseen.advance.pending none 4 0 x 0 := Host.Outcome.next.inj (hz.symm.trans hx)
  have hkept : z.th.bad = [.latch .xrnd] := hsame ▸ rfl
  exact absurd (hbad.symm.trans hkept) (by decide)

end Sys2Proof.Machine
end

section
/-! O45: the canonical tree of a collective sum, what its completion leaves, and the bytes of a checkpoint image. -/

namespace Sys2Proof.Machine

/-! ### The canonical tree (R77) -/

theorem powBelow_spec {n : Nat} (h : 2 ≤ n) : powBelow n < n ∧ n ≤ 2 * powBelow n := by
  have hlow : 2 ^ Nat.log2 (n - 1) ≤ n - 1 := Nat.log2_self_le (by omega)
  have hhigh : n - 1 < 2 ^ (Nat.log2 (n - 1) + 1) := Nat.lt_log2_self
  unfold powBelow
  omega

/-- Two or more contributions are the sum of the two parts that the largest power of two below their number leaves. -/
theorem treeSum_split {n : Nat} {l : List (List W32)} (h : 2 ≤ l.length) :
    (treeSum (n + 1) l).1 = (addLists (treeSum n (l.take (powBelow l.length))).1 (treeSum n (l.drop (powBelow l.length))).1).1 := by
  match l, h with
  | _ :: _ :: _, _ => rfl

/-! ### What a sum leaves of the state -/

theorem State.writeAs_contribs (s : State) (aes cell : Nat) (bs : List Byte) : (s.writeAs aes cell bs).contribs = s.contribs := by
  unfold State.writeAs
  split <;> rfl

theorem writeVA_contribs {ag : Agent} {s z : State} {va : Word} {bs : List Byte} (h : writeVA s ag va bs = .ok z) :
    z.contribs = s.contribs := by
  unfold writeVA at h
  split at h
  · cases h
  · split at h <;> cases h
    exact State.writeAs_contribs ..

theorem writeLines_contribs {ag : Agent} {n : Nat} {s z : State} {va : Word} {bs : List Byte}
    (h : writeLines ag n s va bs = .ok z) : z.contribs = s.contribs := by
  induction n generalizing s va bs with
  | zero => cases h; rfl
  | succ n ih =>
    unfold writeLines at h
    split at h
    · cases h; rfl
    · dsimp only at h
      split at h
      · cases h
      · exact (ih h).trans (writeVA_contribs ‹_›)

/-- A completion counts on its queue's timeline, and leaves memory and contributions alone. -/
theorem completePacket_keeps (s : State) (q : Nat) (b : Bool) :
    (completePacket s q b).mem = s.mem ∧ (completePacket s q b).contribs = s.contribs := by
  unfold completePacket addTimeline
  split
  · dsimp only
    split <;> exact ⟨rfl, rfl⟩
  · exact ⟨rfl, rfl⟩

/-! ### The completion of a packet -/

theorem exec_packetComplete {s : State} {q : SwQueue} {p : Started} (hq : s.queue? s.ev.n = some q)
    (hp : q.started.find? (fun p => p.idx = s.ev.m) = some p) :
    exec .packetComplete s = orNone (if p.op = 7 then finishCheckpoint s q p else finishPacket s q p) := by
  change execPacketComplete s = _
  simp only [execPacketComplete, hq, hp, Option.bind_eq_bind, Option.bind_some]

/-- A sum whose contributions are all there is performed: its result stored, its flags merged into the queue's record, what
arrived for it gone. -/
theorem finishSum_stored {s y : State} {q : SwQueue} {p : Started} {c : Collective} {x : CollSet} {own : List Byte}
    {all : List (List Byte)} (hx : s.sets.find? (fun x => x.ctx = q.ctx ∧ x.num = c.set) = some x)
    (hown : readLines s ⟨q.ctx, false, none, false⟩ (c.len / 64 + 2) c.src c.len = .ok own)
    (hall : gathered s x c.ord own = some all) (hlen : ∀ b ∈ all, b.length = c.len) :
    let wide := all.map (widenList c.sfmt (c.len / sumSize c.sfmt))
    let sum := treeSum (all.length + 1) (wide.map Prod.fst)
    let out := narrowList c.dfmt sum.1
    let flags := (wide.map Prod.snd).foldl (fun x y => x ||| y) (sum.2 ||| out.2)
    let at_ := hostCell (q.recAddr + 0x20)
    writeLines ⟨q.ctx, false, none, false⟩ (out.1.length / 64 + 2) (s.sumOver x c.ord) c.dst out.1 = .ok y →
      finishSum s q p c = some (completePacket (y.poke at_ (leBytes 8 (Mem.num y.mem at_ 8 ||| flags.toNat))) q.num p.cinc) := by
  intro wide sum out flags at_ hy
  have hany : (all.any fun b => b.length != c.len) = false := by
    rw [List.any_eq_false]
    exact fun b hb => by simp [hlen b hb]
  simp only [finishSum, hx, hown, hall, Option.bind_eq_bind, Option.bind_some, hany, Bool.false_eq_true, if_false]
  rw [show writeLines _ _ (s.sumOver x c.ord) c.dst _ = Except.ok y from hy]
  rfl

/-- A packet that is a sum completes with it, and leaves the queue's started packets. -/
theorem finishPacket_sum {s z : State} {q : SwQueue} {p : Started} {c : Collective} (hfail : p.fail = none)
    (hsum : p.sum = some c) (hz : finishSum s q p c = some z) : ∃ f, finishPacket s q p = some (z.mapQueue q.num f) := by
  unfold finishPacket
  rw [hfail, hsum]
  dsimp only
  rw [hz]
  exact ⟨_, rfl⟩

/-- A checkpoint whose contexts are all quiet writes its image and resumes them, or fails where the write is refused. -/
theorem finishCheckpoint_quiet {s : State} {q : SwQueue} {p : Started} {r : CkptRun} (hr : s.ckpt = some r)
    (hquiet : s.ctxs.all Ctx.quiet = true) :
    let u : State := { s.mapQueue q.num (fun x => { x with started := x.started.filter (fun y => y.idx ≠ p.idx) }) with
      ckpt := none }
    finishCheckpoint s q p = some (if s.denied r.cell 1 imageLen = 0 then
      completePacket (resumeAll (writeImage u r.cell)) q.num p.cinc else failQueue (resumeAll u) q p.idx p.tag 6) := by
  intro u
  have hdenied : u.denied r.cell 1 imageLen = s.denied r.cell 1 imageLen := rfl
  simp only [finishCheckpoint, hr, Option.bind_eq_bind, Option.bind_some, hquiet]
  by_cases h : s.denied r.cell 1 imageLen = 0
  · rw [if_pos h]
    exact if_neg (not_not.mpr (hdenied.trans h))
  · rw [if_neg h]
    exact if_pos (hdenied ▸ h)

/-! ### Bytes and numbers in memory -/

@[simp] theorem leBytes_length (n v : Nat) : (leBytes n v).length = n := by
  induction n generalizing v with
  | zero => rfl
  | succ n ih => simp [leBytes, ih]

/-- A number written in bytes reads back, modulo what they hold. -/
theorem leNat_leBytes (n v : Nat) : leNat (leBytes n v) = v % 256 ^ n := by
  induction n generalizing v with
  | zero => simp [leBytes, leNat, Nat.mod_one]
  | succ n ih =>
    have hsplit : v % (256 * 256 ^ n) = v % 256 + 256 * (v / 256 % 256 ^ n) := Nat.mod_mul
    rw [leBytes, leNat, ih, BitVec.toNat_ofNat, show 256 ^ (n + 1) = 256 * 256 ^ n from Nat.pow_succ']
    exact hsplit.symm

@[simp] theorem Mem.bytes_length (m : List Host.Cell) (a n : Nat) : (Mem.bytes m a n).length = n := by
  induction n generalizing a with
  | zero => rfl
  | succ n ih => simp [Mem.bytes, ih]

/-- A run of bytes of a write, read back. -/
theorem Mem.bytes_write (m : List Host.Cell) (a i n : Nat) (bs : List Byte) (h : i + n ≤ bs.length) :
    Mem.bytes (Mem.write m a bs) (a + i) n = (bs.drop i).take n := by
  induction n generalizing i with
  | zero => simp [Mem.bytes]
  | succ n ih =>
    rw [Mem.bytes, Mem.byte_write a bs i (by omega), Nat.add_assoc, ih (i + 1) (by omega),
      List.drop_eq_getElem_cons (by omega : i < bs.length), List.take_succ_cons]

/-- A run of bytes apart from a write reads as before. -/
theorem Mem.bytes_write_ne (m : List Host.Cell) (a b n : Nat) (bs : List Byte) (h : b + n ≤ a ∨ a + bs.length ≤ b) :
    Mem.bytes (Mem.write m a bs) b n = Mem.bytes m b n := by
  induction n generalizing b with
  | zero => rfl
  | succ n ih => rw [Mem.bytes, Mem.bytes, Mem.byte_write_ne (by omega), ih (b + 1) (by omega)]

theorem Mem.byte_clear_ne {m : List Host.Cell} {lo hi x : Nat} (hle : lo ≤ hi) (h : x < lo ∨ hi ≤ x) :
    Mem.byte (Mem.clear m lo hi) x = Mem.byte m x := by
  unfold Mem.clear
  rcases h with h | h
  · rw [Mem.byte_append_left, Mem.byte_filter (p := fun y => decide (y < lo)) (by simpa using h)]
    intro c hc
    have hc := (List.mem_filter.mp hc).2
    simp only [decide_eq_true_eq] at hc
    omega
  · rw [Mem.byte_append, Mem.byte_filter (p := fun y => decide (hi ≤ y)) (by simpa using h)]
    intro c hc
    have hc := (List.mem_filter.mp hc).2
    simp only [decide_eq_true_eq] at hc
    omega

/-- Cells moved by a distance are found at their new places. -/
theorem Mem.byte_moved (m : List Host.Cell) (src n dst i : Nat) (hi : i < n) :
    Mem.byte ((m.filter (fun c => decide (src ≤ c.1 ∧ c.1 < src + n))).map (fun c => (c.1 - src + dst, c.2))) (dst + i)
      = Mem.byte m (src + i) := by
  induction m with
  | nil => rfl
  | cons c m ih =>
    by_cases hc : src ≤ c.1 ∧ c.1 < src + n
    · have hsame : c.1 - src + dst = dst + i ↔ c.1 = src + i := by omega
      rw [List.filter_cons_of_pos (by simpa using hc), List.map_cons, Mem.byte, Mem.byte, ih]
      simp only [hsame]
    · rw [List.filter_cons_of_neg (by simpa using hc), ih, Mem.byte, if_neg (by omega)]

theorem Mem.mem_moved {m : List Host.Cell} {src n dst : Nat} {c : Host.Cell}
    (h : c ∈ (m.filter (fun c => decide (src ≤ c.1 ∧ c.1 < src + n))).map (fun c => (c.1 - src + dst, c.2))) :
    dst ≤ c.1 ∧ c.1 < dst + n := by
  obtain ⟨d, hd, rfl⟩ := List.mem_map.mp h
  have hd := (List.mem_filter.mp hd).2
  simp only [decide_eq_true_eq] at hd
  dsimp only
  omega

/-- A copied cell reads as the one it was copied from. -/
theorem Mem.byte_copy {m : List Host.Cell} {src n dst i : Nat} (hi : i < n) :
    Mem.byte (Mem.copy m src n dst) (dst + i) = Mem.byte m (src + i) := by
  unfold Mem.copy
  rw [Mem.byte_append_left, Mem.byte_append, Mem.byte_moved m src n dst i hi]
  · intro c hc
    have hc := (List.mem_filter.mp hc).2
    simp only [decide_eq_true_eq] at hc
    omega
  · intro c hc
    have hc := (List.mem_filter.mp hc).2
    simp only [decide_eq_true_eq] at hc
    omega

theorem Mem.byte_copy_ne {m : List Host.Cell} {src n dst x : Nat} (h : x < dst ∨ dst + n ≤ x) :
    Mem.byte (Mem.copy m src n dst) x = Mem.byte m x := by
  unfold Mem.copy
  rcases h with h | h
  · rw [Mem.byte_append_left, Mem.byte_append_left, Mem.byte_filter (p := fun y => decide (y < dst)) (by simpa using h)]
    · intro c hc
      have := Mem.mem_moved hc
      omega
    · intro c hc
      have hc := (List.mem_filter.mp hc).2
      simp only [decide_eq_true_eq] at hc
      omega
  · rw [Mem.byte_append, Mem.byte_filter (p := fun y => decide (dst + n ≤ y)) (by simpa using h)]
    intro c hc
    rcases List.mem_append.mp hc with hc | hc
    · have hc := (List.mem_filter.mp hc).2
      simp only [decide_eq_true_eq] at hc
      omega
    · have := Mem.mem_moved hc
      omega

/-! ### The bytes of a checkpoint image (R373) -/

theorem xorBytes_length_le (x y : List Byte) : (xorBytes x y).length ≤ y.length := by
  simp [xorBytes]

theorem xtsLine_length_le (f : List Byte → List Byte) (key : List Byte) (line : Nat) (bs : List Byte) :
    (xtsLine f key line bs).length ≤ 64 := by
  have hblock : ∀ (x : List Byte) (v : Nat), (xorBytes x (leBytes 16 v)).length ≤ 16 := fun x v =>
    (xorBytes_length_le x _).trans_eq (leBytes_length 16 v)
  simp only [xtsLine, show List.range 4 = [0, 1, 2, 3] from rfl, List.flatMap_cons, List.flatMap_nil, List.length_append,
    List.length_nil]
  exact Nat.add_le_add (hblock _ _) (Nat.add_le_add (hblock _ _) (Nat.add_le_add (hblock _ _) (Nat.add_le_add (hblock _ _) le_rfl)))

/-- A line of HBM stays within its 64 bytes, sealed or not (R315). -/
theorem State.sealedLine_length_le (s : State) (line : Nat) : (s.sealedLine line).length ≤ 64 := by
  unfold State.sealedLine sealLine
  split
  · simp
  · exact xtsLine_length_le ..

/-- Parts written one after another leave a byte that none of them reaches. -/
theorem foldl_putPart_byte {α : Type} (at_ : α → Nat) (part : α → List Byte) (l : List α) (s : State) (x : Nat)
    (h : ∀ p ∈ l, x < at_ p ∨ at_ p + (part p).length ≤ x) :
    Mem.byte (l.foldl (fun s p => putPart s (at_ p) (part p)) s).mem x = Mem.byte s.mem x := by
  induction l generalizing s with
  | nil => rfl
  | cons p l ih =>
    rw [List.foldl_cons, ih _ fun q hq => h q (List.mem_cons_of_mem p hq)]
    exact Mem.byte_write_ne (h p List.mem_cons_self)

/-- The first 48 bytes of an image, its status still 0. -/
def imageHead (s : State) : List Byte :=
  leBytes 4 0x504B434B ++ leBytes 2 1 ++ leBytes 2 0 ++ leBytes 16 Config.serial.toNat ++ leBytes 8 s.cyc
    ++ leBytes 8 imageLen ++ leBytes 8 0

/-- Memory with HBM copied to an image at a cell, its keyed lines as the stacks hold them. -/
def imageBody (s : State) (at_ : Nat) : List Host.Cell :=
  (s.lineKeys.foldl (fun z p => putPart z (at_ + 0x1001000 + p.1 * 64) (s.sealedLine p.1))
    { s with mem := Mem.copy (Mem.clear s.mem at_ (at_ + imageLen)) 0 hbmEnd (at_ + 0x1001000) }).mem

/-- A byte that no keyed line reaches is that of the copy. -/
theorem imageBody_byte {s : State} {at_ x : Nat}
    (h : ∀ p ∈ s.lineKeys, x < at_ + 0x1001000 + p.1 * 64 ∨ at_ + 0x1001000 + p.1 * 64 + 64 ≤ x) :
    Mem.byte (imageBody s at_) x
      = Mem.byte (Mem.copy (Mem.clear s.mem at_ (at_ + imageLen)) 0 hbmEnd (at_ + 0x1001000)) x :=
  foldl_putPart_byte (fun p : Nat × Nat => at_ + 0x1001000 + p.1 * 64) (fun p => s.sealedLine p.1) _ _ _ fun p hp =>
    (h p hp).imp_right (le_trans (Nat.add_le_add_left (s.sealedLine_length_le p.1) _))

theorem writeImage_mem (s : State) (at_ : Nat) :
    (writeImage s at_).mem = Mem.write (Mem.write (imageBody s at_) at_ (imageHead s)) (at_ + 0x28) (leBytes 8 1) := rfl

theorem imageHead_length (s : State) : (imageHead s).length = 0x30 := rfl

/-- A number of the image's header before its status. -/
theorem writeImage_head {s : State} {i n v : Nat} (at_ : Nat) (hin : i + n ≤ 0x28) (hv : v < 256 ^ n)
    (h : ((imageHead s).drop i).take n = leBytes n v) : Mem.num (writeImage s at_).mem (at_ + i) n = v := by
  rw [Mem.num, writeImage_mem, Mem.bytes_write_ne _ _ _ _ _ (by omega),
    Mem.bytes_write _ _ _ _ _ (by rw [imageHead_length]; omega), h, leNat_leBytes, Nat.mod_eq_of_lt hv]

theorem writeImage_status (s : State) (at_ : Nat) : Mem.num (writeImage s at_).mem (at_ + 0x28) 8 = 1 := by
  rw [Mem.num, writeImage_mem]
  have h := Mem.bytes_write (Mem.write (imageBody s at_) at_ (imageHead s)) (at_ + 0x28) 0 8 (leBytes 8 1) (by simp)
  rw [Nat.add_zero] at h
  rw [h]
  rfl

/-- Outside the header an image is its body. -/
theorem writeImage_byte {s : State} {at_ x : Nat} (h : x < at_ ∨ at_ + 0x30 ≤ x) :
    Mem.byte (writeImage s at_).mem x = Mem.byte (imageBody s at_) x := by
  rw [writeImage_mem, Mem.byte_write_ne (by rw [leBytes_length]; omega), Mem.byte_write_ne (by rw [imageHead_length]; omega)]

/-- A byte of a line that was stored under no key reads as HBM holds it. -/
theorem writeImage_hbm {s : State} {at_ a : Nat} (hat : hostCell 0 ≤ at_) (ha : a < hbmEnd)
    (hkeys : ∀ p ∈ s.lineKeys, p.1 ≠ a / 64) :
    Mem.byte (writeImage s at_).mem (at_ + 0x1001000 + a) = Mem.byte s.mem a := by
  have hhost : hbmEnd ≤ at_ := le_trans (by decide) hat
  have hapart : ∀ p ∈ s.lineKeys, at_ + 0x1001000 + a < at_ + 0x1001000 + p.1 * 64
      ∨ at_ + 0x1001000 + p.1 * 64 + 64 ≤ at_ + 0x1001000 + a := fun p hp => by
    have hne := hkeys p hp
    omega
  rw [writeImage_byte (by omega), imageBody_byte hapart, Mem.byte_copy ha, Nat.zero_add,
    Mem.byte_clear_ne (by omega) (by omega)]

/-- What lies outside an image is left alone. -/
theorem writeImage_frame {s : State} {at_ a : Nat} (ha : a < at_ ∨ at_ + imageLen ≤ a)
    (hkeys : ∀ p ∈ s.lineKeys, p.1 < hbmEnd / 64) : Mem.byte (writeImage s at_).mem a = Mem.byte s.mem a := by
  have hlen : imageLen = 0x1001000 + hbmEnd := rfl
  have hend : hbmEnd = 64 * (hbmEnd / 64) := rfl
  have hapart : ∀ p ∈ s.lineKeys, a < at_ + 0x1001000 + p.1 * 64 ∨ at_ + 0x1001000 + p.1 * 64 + 64 ≤ a := fun p hp => by
    have hkey := hkeys p hp
    omega
  rw [writeImage_byte (by omega), imageBody_byte hapart, Mem.byte_copy_ne (by omega), Mem.byte_clear_ne (by omega) ha]

/-- The bindery's state of an image holds the contexts without their image keys. -/
theorem writeImage_stored (s : State) (at_ : Nat) :
    ∃ x, assoc (writeImage s at_).checkpoints at_ = some x ∧ x.ctxs.map Ctx.num = s.ctxs.map Ctx.num
      ∧ ∀ c ∈ x.ctxs, c.imageKey = [] := by
  refine ⟨storedOf s, ?_, ?_, ?_⟩
  · simp [writeImage, assoc]
  · simp [storedOf]
  · simp [storedOf]

/-- Settles O45: the tree and the sum by their equations, the checkpoint by its completion and the bytes of its image. -/
theorem sumsAndCheckpoints : Obligations.SumsAndCheckpoints := by
  refine ⟨fun n l hl => ?_, fun _ _ _ _ => rfl, ?_, ?_, ?_⟩
  · obtain ⟨hlow, hhigh⟩ := powBelow_spec hl
    exact ⟨powBelow l.length, ⟨_, rfl⟩, hlow, hhigh, treeSum_split hl⟩
  · intro s y q p c x own all ag hq hp hop hfail hsum hx hown hall hlen wide sum out flags left hy at_
    have hdone := finishSum_stored (p := p) hx hown hall hlen hy
    obtain ⟨f, hf⟩ := finishPacket_sum hfail hsum hdone
    obtain ⟨hmem, hcontribs⟩ := completePacket_keeps
      (y.poke at_ (leBytes 8 (Mem.num y.mem at_ 8 ||| flags.toNat))) q.num p.cinc
    rw [exec_packetComplete hq hp, if_neg (by omega), hf]
    exact ⟨_, rfl, hmem, hcontribs.trans (writeLines_contribs hy)⟩
  · intro s q p r hq hp hop hr hquiet u
    rw [exec_packetComplete hq hp, if_pos hop, finishCheckpoint_quiet hr hquiet]
    rfl
  · intro s at_ hat z
    exact ⟨writeImage_head (i := 0) at_ (by decide) (by decide) rfl, writeImage_head at_ (by decide) (by decide) rfl,
      writeImage_head at_ (by decide) (by decide) rfl, writeImage_status s at_, writeImage_stored s at_,
      fun a ha hkeys => writeImage_hbm hat ha hkeys, fun a ha hkeys => writeImage_frame ha hkeys⟩

end Sys2Proof.Machine
end

section
/-! O28, first part: the codes of a format and the one rounding of R64 to R66, in numbers. -/

namespace Sys2Proof.Machine

/-! ### Powers of two and the codes of a format -/

theorem pow2_eq_zpow (n : Int) : pow2 n = (2 : Rat) ^ n := by
  unfold pow2
  split
  · next h =>
    rw [← zpow_natCast, Int.toNat_of_nonneg h]
  · next h =>
    rw [← zpow_natCast, Int.toNat_of_nonneg (by omega), zpow_neg, one_div, inv_inv]

/-- The magnitude of code `a`, whatever the format's largest. -/
def Fmt.magOf (f : Fmt) (a : Nat) : Rat :=
  if a / 2 ^ f.frac = 0 then (a % 2 ^ f.frac : Nat) * (2 : Rat) ^ f.qmin
  else (a % 2 ^ f.frac + 2 ^ f.frac : Nat) * (2 : Rat) ^ (f.qmin + (a / 2 ^ f.frac : Nat) - 1)

/-- The code of `k` quanta, `j` binades above the lowest. -/
theorem Fmt.magOf_quanta (f : Fmt) {j k : Nat} (hk : k ≤ 2 ^ (f.frac + 1)) (hj : j = 0 ∨ 2 ^ f.frac ≤ k) :
    f.magOf (j * 2 ^ f.frac + k) = k * (2 : Rat) ^ (f.qmin + j) := by
  have hpos : 0 < 2 ^ f.frac := Nat.two_pow_pos _
  have hpow : (2 : Nat) ^ (f.frac + 1) = 2 * 2 ^ f.frac := Nat.pow_succ'
  have hdiv : ∀ i x : Nat, x < 2 ^ f.frac →
      (i * 2 ^ f.frac + x) / 2 ^ f.frac = i ∧ (i * 2 ^ f.frac + x) % 2 ^ f.frac = x := by
    intro i x hx
    rw [Nat.mul_comm, Nat.mul_add_div hpos, Nat.mul_add_mod, Nat.div_eq_of_lt hx, Nat.mod_eq_of_lt hx]
    exact ⟨rfl, rfl⟩
  rcases lt_or_ge k (2 ^ f.frac) with hlow | hlow
  · obtain rfl : j = 0 := by omega
    obtain ⟨h1, h2⟩ := hdiv 0 k hlow
    rw [magOf, h1, h2, if_pos rfl, Nat.cast_zero, add_zero]
  · rcases lt_or_ge k (2 ^ (f.frac + 1)) with hmid | hmid
    · have ha : j * 2 ^ f.frac + k = (j + 1) * 2 ^ f.frac + (k - 2 ^ f.frac) := by rw [Nat.add_mul]; omega
      obtain ⟨h1, h2⟩ := hdiv (j + 1) (k - 2 ^ f.frac) (by omega)
      rw [ha, magOf, h1, h2, if_neg (by omega), Nat.sub_add_cancel hlow]
      congr 2
      push_cast
      ring
    · have ha : j * 2 ^ f.frac + k = (j + 2) * 2 ^ f.frac + 0 := by rw [Nat.add_mul]; omega
      obtain ⟨h1, h2⟩ := hdiv (j + 2) 0 hpos
      have hexp : f.qmin + ((j + 2 : Nat) : Int) - 1 = f.qmin + j + 1 := by push_cast; ring
      rw [ha, magOf, h1, h2, if_neg (by omega), hexp, zpow_add_one₀ two_ne_zero, show k = 2 * 2 ^ f.frac by omega]
      push_cast
      ring

theorem Fmt.magOf_strictMono (f : Fmt) : StrictMono f.magOf := by
  refine strictMono_nat_of_lt_succ fun a => ?_
  have hpow : (2 : Nat) ^ (f.frac + 1) = 2 * 2 ^ f.frac := Nat.pow_succ'
  have hmod : a % 2 ^ f.frac < 2 ^ f.frac := Nat.mod_lt _ (Nat.two_pow_pos _)
  have hsplit : a / 2 ^ f.frac * 2 ^ f.frac + a % 2 ^ f.frac = a := Nat.div_add_mod' _ _
  obtain ⟨j, k, ha, hk, hj⟩ : ∃ j k, a = j * 2 ^ f.frac + k ∧ k + 1 ≤ 2 ^ (f.frac + 1) ∧ (j = 0 ∨ 2 ^ f.frac ≤ k) := by
    rcases hx : a / 2 ^ f.frac with _ | x
    · exact ⟨0, a % 2 ^ f.frac, by rw [hx] at hsplit; exact hsplit.symm, by omega, .inl rfl⟩
    · refine ⟨x, a % 2 ^ f.frac + 2 ^ f.frac, ?_, by omega, .inr (by omega)⟩
      rw [hx, Nat.add_mul] at hsplit
      omega
  rw [ha, Nat.add_assoc, f.magOf_quanta (by omega) hj, f.magOf_quanta hk (by omega)]
  exact mul_lt_mul_of_pos_right (by exact_mod_cast Nat.lt_succ_self k) (by positivity)

/-- A code that is a number is of that sign, magnitude and size. -/
theorem Fmt.value_num {f : Fmt} {c m : Nat} {neg : Bool} {e : Int} (h : f.value c = .num neg m e) :
    neg = c.testBit f.sign ∧ (m : Rat) * 2 ^ e = f.magOf (c % 2 ^ f.sign) ∧ m < 2 ^ (f.frac + 1) := by
  have hmod : c % 2 ^ f.sign % 2 ^ f.frac < 2 ^ f.frac := Nat.mod_lt _ (Nat.two_pow_pos _)
  have hpow : (2 : Nat) ^ (f.frac + 1) = 2 * 2 ^ f.frac := Nat.pow_succ'
  have hsub : c % 2 ^ f.sign / 2 ^ f.frac = 0 → FVal.num (c.testBit f.sign) (c % 2 ^ f.sign % 2 ^ f.frac) f.qmin = .num neg m e →
      neg = c.testBit f.sign ∧ (m : Rat) * 2 ^ e = f.magOf (c % 2 ^ f.sign) ∧ m < 2 ^ (f.frac + 1) := by
    intro hex heq
    cases heq
    exact ⟨rfl, by rw [magOf, if_pos hex], by omega⟩
  have hnormal : ¬c % 2 ^ f.sign / 2 ^ f.frac = 0 → FVal.num (c.testBit f.sign) (c % 2 ^ f.sign % 2 ^ f.frac + 2 ^ f.frac)
      (f.qmin + (c % 2 ^ f.sign / 2 ^ f.frac : Nat) - 1) = .num neg m e →
      neg = c.testBit f.sign ∧ (m : Rat) * 2 ^ e = f.magOf (c % 2 ^ f.sign) ∧ m < 2 ^ (f.frac + 1) := by
    intro hex heq
    cases heq
    exact ⟨rfl, by rw [magOf, if_neg hex], by omega⟩
  unfold value at h
  dsimp only at h
  split at h
  · split at h
    · split at h <;> cases h
    · split at h
      · exact hsub ‹_› h
      · exact hnormal ‹_› h
  · split at h
    · cases h
    · split at h
      · exact hsub ‹_› h
      · exact hnormal ‹_› h

/-- A format's parameters fit together: its codes fit in 32 bits, and every code up to the largest is a number. -/
structure Fmt.Sound (f : Fmt) : Prop where
  word : f.sign < 32
  fits : f.maxCode < 2 ^ f.sign
  inf : f.hasInf = true → f.maxCode < f.infCode
  nan : f.hasInf = false → f.maxCode < f.nanCode

theorem fp32_sound : fp32.Sound := ⟨by decide, by decide, by decide, by decide⟩
theorem bf16_sound : bf16.Sound := ⟨by decide, by decide, by decide, by decide⟩
theorem e4m3_sound : e4m3.Sound := ⟨by decide, by decide, by decide, by decide⟩
theorem e5m2_sound : e5m2.Sound := ⟨by decide, by decide, by decide, by decide⟩

/-- Every code up to the largest is a number. -/
theorem Fmt.value_finite {f : Fmt} (hf : f.Sound) {c : Nat} (h : c % 2 ^ f.sign ≤ f.maxCode) :
    ∃ neg m e, f.value c = .num neg m e := by
  unfold value
  dsimp only
  split
  · next hinf =>
    have hex : ¬c % 2 ^ f.sign / 2 ^ f.frac = 2 ^ f.expo - 1 :=
      (Nat.div_lt_of_lt_mul (by rw [Nat.mul_comm]; exact h.trans_lt (hf.inf hinf))).ne
    rw [if_neg hex]
    split <;> exact ⟨_, _, _, rfl⟩
  · next hinf =>
    have hnan : ¬c % 2 ^ f.sign = f.nanCode := (h.trans_lt (hf.nan (by simpa using hinf))).ne
    rw [if_neg hnan]
    split <;> exact ⟨_, _, _, rfl⟩

theorem Fmt.code_toNat {f : Fmt} (hf : f.Sound) {neg : Bool} {a : Nat} (ha : a ≤ f.maxCode) :
    (f.code neg a).toNat = a + if neg then 2 ^ f.sign else 0 := by
  have hpow : (2 : Nat) ^ (f.sign + 1) ≤ 2 ^ 32 := Nat.pow_le_pow_right (by omega) hf.word
  have hfits := hf.fits
  rw [Nat.pow_succ] at hpow
  rw [code, BitVec.toNat_ofNat, Nat.mod_eq_of_lt]
  split <;> omega

/-- The value of a signed code. -/
theorem Fmt.value_code {f : Fmt} (hf : f.Sound) (neg : Bool) {a : Nat} (ha : a ≤ f.maxCode) :
    ∃ m e, f.value (f.code neg a).toNat = .num neg m e ∧ (m : Rat) * 2 ^ e = f.magOf a := by
  have hlt : a < 2 ^ f.sign := ha.trans_lt hf.fits
  have hmod : (f.code neg a).toNat % 2 ^ f.sign = a := by
    rw [code_toNat hf ha]
    cases neg <;> simp [Nat.mod_eq_of_lt hlt]
  have hbit : (f.code neg a).toNat.testBit f.sign = neg := by
    rw [code_toNat hf ha]
    cases neg
    · simpa using Nat.testBit_lt_two_pow hlt
    · simp [Nat.add_comm a, Nat.testBit_two_pow_add_eq, Nat.testBit_lt_two_pow hlt]
  obtain ⟨n, m, e, h⟩ := value_finite hf (c := (f.code neg a).toNat) (by rw [hmod]; exact ha)
  obtain ⟨hn, hmag, -⟩ := value_num h
  rw [hbit] at hn
  rw [hmod] at hmag
  exact ⟨m, e, hn ▸ h, hmag⟩

/-- The largest finite number. -/
theorem Fmt.value_max {f : Fmt} (hf : f.Sound) : (f.value f.maxCode).rat = f.magOf f.maxCode := by
  obtain ⟨m, e, h, hmag⟩ := value_code hf false le_rfl
  rw [code_toNat hf le_rfl] at h
  simp only [Bool.false_eq_true, if_false, Nat.add_zero] at h
  rw [h, ← hmag, FVal.rat, pow2_eq_zpow]
  simp

/-! ### Where a number lies -/

/-- `lt` and `eq` place a number: it is `v`, or where `sticky` above `v` and below `v + g`. -/
def Locates (lt eq : Rat → Prop) (v g : Rat) (sticky : Bool) : Prop :=
  ∀ x : Rat, 0 ≤ x → (sticky = true → x ≤ v ∨ v + g ≤ x) →
    (lt x ↔ x < v ∨ (sticky = true ∧ x = v)) ∧ (eq x ↔ x = v ∧ sticky = false)

/-- The number whose image under an increasing function is `t`. -/
theorem locates_of_strictMonoOn {φ : Rat → Rat} (hφ : StrictMonoOn φ (Set.Ici 0)) {v g t : Rat} {sticky : Bool} (hv : 0 ≤ v)
    (hg : 0 < g) (h : if sticky then φ v < t ∧ t < φ (v + g) else φ v = t) :
    Locates (fun q => φ q < t) (fun q => φ q = t) v g sticky := by
  intro x hx hgap
  have hle : ∀ y, 0 ≤ y → x ≤ y → φ x ≤ φ y := fun y hy => (hφ.le_iff_le hx hy).mpr
  cases sticky
  · simp only [Bool.false_eq_true, if_false, false_and, or_false, and_true] at h ⊢
    rw [← h]
    exact ⟨hφ.lt_iff_lt hx hv, hφ.eq_iff_eq hx hv⟩
  · simp only [if_true, true_and, and_false, iff_false, Bool.true_eq_false] at h hgap ⊢
    obtain ⟨hlow, hhigh⟩ := h
    rcases hgap trivial with hxv | hxv
    · have hbelow := (hle v hv hxv).trans_lt hlow
      exact ⟨iff_of_true hbelow hxv.lt_or_eq, hbelow.ne⟩
    · have habove := hhigh.trans_le ((hφ.le_iff_le (show (0:Rat) ≤ v + g by positivity) hx).mpr hxv)
      exact ⟨iff_of_false habove.not_gt (by rintro (h | h) <;> linarith), habove.ne'⟩

/-- A multiple of 1 / 65536 of a grain, compared. Where `sticky`, the multiple is one of whole grains. -/
theorem Locates.point {lt eq : Rat → Prop} {n : Nat} {g x : Rat} {sticky : Bool} (h : Locates lt eq (n * g) g sticky) (hg : 0 < g)
    (p : Nat) (hx : x = p * (g / 65536)) (hp : sticky = true → 65536 ∣ p) :
    (lt x ↔ p < 65536 * n ∨ (sticky = true ∧ p = 65536 * n)) ∧ (eq x ↔ p = 65536 * n ∧ sticky = false) := by
  have hg' : 0 < g / 65536 := by positivity
  have hv : (n : Rat) * g = ((65536 * n : Nat) : Rat) * (g / 65536) := by push_cast; ring
  have hlt : x < n * g ↔ p < 65536 * n := by
    rw [hx, hv, mul_lt_mul_iff_left₀ hg', Nat.cast_lt]
  have heq : x = n * g ↔ p = 65536 * n := by
    rw [hx, hv, mul_left_inj' hg'.ne', Nat.cast_inj]
  have hgap : sticky = true → x ≤ n * g ∨ n * g + g ≤ x := by
    intro hs
    obtain ⟨k, hk⟩ := hp hs
    have hxk : x = (k : Rat) * g := by rw [hx, hk]; push_cast; ring
    rcases le_or_gt k n with hkn | hkn
    · exact .inl (by rw [hxk]; exact mul_le_mul_of_nonneg_right (by exact_mod_cast hkn) hg.le)
    · refine .inr ?_
      have hcast : (n : Rat) + 1 ≤ k := by exact_mod_cast hkn
      calc (n : Rat) * g + g = (n + 1) * g := by ring
        _ ≤ k * g := mul_le_mul_of_nonneg_right hcast hg.le
        _ = x := hxk.symm
  rw [← hlt, ← heq]
  exact h x (by rw [hx]; positivity) hgap

/-! ### The scaled number -/

theorem scaleTo_spec (m : Nat) (e q : Int) {lo rem sh : Nat} (h : scaleTo m e q = (lo, rem, sh)) :
    rem < 2 ^ sh ∧ (m : Rat) * 2 ^ e = ((lo * 2 ^ sh + rem : Nat) : Rat) * 2 ^ (q - sh) ∧ (e < q → q - sh = e) := by
  unfold scaleTo at h
  split at h
  · next hge =>
    cases h
    refine ⟨by simp, ?_, fun hlt => absurd hlt (by omega)⟩
    rw [pow_zero, Nat.mul_one, Nat.add_zero, Nat.cast_mul, Nat.cast_pow, Nat.cast_ofNat, Nat.cast_zero, sub_zero, mul_assoc,
      ← zpow_natCast, ← zpow_add₀ two_ne_zero, Int.toNat_of_nonneg (by omega), sub_add_cancel]
  · next hlt =>
    cases h
    have hsh : q - ((q - e).toNat : Int) = e := by omega
    exact ⟨Nat.mod_lt _ (Nat.two_pow_pos _), by rw [Nat.div_add_mod', hsh], fun _ => hsh⟩

/-- The quantum of a number's grid (R64). -/
def Fmt.quantum (f : Fmt) (m : Nat) (e : Int) : Int :=
  (if e + Nat.log2 m < f.emin then f.emin else e + Nat.log2 m) - f.frac

theorem log2_bounds {m : Nat} (hm : m ≠ 0) (e : Int) :
    (2 : Rat) ^ (e + Nat.log2 m) ≤ m * 2 ^ e ∧ (m + 1) * (2 : Rat) ^ e ≤ 2 ^ (e + Nat.log2 m + 1) := by
  have hlow : 2 ^ Nat.log2 m ≤ m := Nat.log2_self_le hm
  have hhigh : m + 1 ≤ 2 ^ (Nat.log2 m + 1) := Nat.lt_log2_self
  have hpos : (0 : Rat) < 2 ^ e := by positivity
  constructor
  · rw [zpow_add₀ two_ne_zero, zpow_natCast, mul_comm]
    exact mul_le_mul_of_nonneg_right (by exact_mod_cast hlow) hpos.le
  · rw [add_assoc, zpow_add₀ two_ne_zero, mul_comm _ ((2 : Rat) ^ _),
      show ((Nat.log2 m : Int) + 1) = ((Nat.log2 m + 1 : Nat) : Int) by rfl,
      zpow_natCast]
    exact mul_le_mul_of_nonneg_left (by exact_mod_cast hhigh) hpos.le

/-- The number as `lo` quanta and `rem` grains: it lies in its quantum's cell of the grid, and keeps at most the format's bits,
and as many as it has unless the quantum is the smallest. -/
theorem Fmt.quantum_spec (f : Fmt) {m : Nat} {e : Int} {lo rem sh : Nat} (hm : m ≠ 0)
    (h : scaleTo m e (f.quantum m e) = (lo, rem, sh)) :
    f.qmin ≤ f.quantum m e ∧ lo < 2 ^ (f.frac + 1) ∧ (f.quantum m e = f.qmin ∨ 2 ^ f.frac ≤ lo) := by
  obtain ⟨hrem, hval, -⟩ := scaleTo_spec m e _ h
  obtain ⟨hlow, hhigh⟩ := log2_bounds hm e
  have hq : (f.quantum m e : Int) = (if e + Nat.log2 m < f.emin then f.emin else e + Nat.log2 m) - f.frac := rfl
  have hmin : f.qmin = f.emin - f.frac := rfl
  have hu : (0 : Rat) < 2 ^ f.quantum m e := by positivity
  have hcell : (2 : Rat) ^ sh * 2 ^ (f.quantum m e - sh) = 2 ^ f.quantum m e := by
    rw [← zpow_natCast, ← zpow_add₀ two_ne_zero, add_sub_cancel]
  have hgrain : (0 : Rat) < 2 ^ (f.quantum m e - sh) := by positivity
  have hremq : (rem : Rat) < 2 ^ sh := by exact_mod_cast hrem
  have hsplit : (m : Rat) * 2 ^ e = lo * 2 ^ f.quantum m e + rem * 2 ^ (f.quantum m e - sh) := by
    rw [hval, ← hcell]
    push_cast
    ring
  have hfloor : (lo : Rat) * 2 ^ f.quantum m e ≤ m * 2 ^ e := by
    rw [hsplit]
    exact le_add_of_nonneg_right (by positivity)
  have hceil : (m : Rat) * 2 ^ e < (lo + 1) * 2 ^ f.quantum m e := by
    rw [hsplit, add_mul, one_mul, ← hcell]
    exact add_lt_add_right (mul_lt_mul_of_pos_right hremq hgrain) _
  refine ⟨by rw [hq, hmin]; split <;> omega, ?_, ?_⟩
  · have htop : (m : Rat) * 2 ^ e < 2 ^ (f.frac + 1) * 2 ^ f.quantum m e := by
      have hmul : (2 : Rat) ^ (f.frac + 1) * 2 ^ f.quantum m e = 2 ^ (f.quantum m e + f.frac + 1) := by
        rw [← zpow_natCast, ← zpow_add₀ two_ne_zero]
        congr 1
        push_cast
        ring
      have hpos : (0 : Rat) < 2 ^ e := by positivity
      calc (m : Rat) * 2 ^ e < (m + 1) * 2 ^ e := mul_lt_mul_of_pos_right (lt_add_one _) hpos
        _ ≤ 2 ^ (e + Nat.log2 m + 1) := hhigh
        _ ≤ 2 ^ (f.quantum m e + f.frac + 1) := zpow_le_zpow_right₀ one_le_two (by rw [hq]; split <;> omega)
        _ = _ := hmul.symm
    exact_mod_cast lt_of_mul_lt_mul_right (hfloor.trans_lt htop) hu.le
  · rcases lt_or_ge (e + Nat.log2 m) f.emin with htiny | hbig
    · exact .inl (by rw [hq, if_pos htiny, hmin])
    · refine .inr (Nat.lt_succ_iff.mp ?_)
      have hmul : (2 : Rat) ^ f.frac * 2 ^ f.quantum m e = 2 ^ (e + Nat.log2 m) := by
        rw [← zpow_natCast, ← zpow_add₀ two_ne_zero]
        congr 1
        rw [hq, if_neg (by omega)]
        ring
      have hlt : (2 : Rat) ^ f.frac * 2 ^ f.quantum m e < (lo + 1) * 2 ^ f.quantum m e := by
        rw [hmul]
        exact hlow.trans_lt hceil
      exact_mod_cast lt_of_mul_lt_mul_right hlt hu.le

/-- A point `t` / 65536 of the way from `lo` quanta to the next, compared with the number. -/
theorem Locates.between {lt eq : Rat → Prop} {m : Nat} {e q : Int} {lo rem sh : Nat} {sticky : Bool}
    (h : Locates lt eq (m * 2 ^ e) (2 ^ e) sticky) (hscale : scaleTo m e q = (lo, rem, sh)) (hs : sticky = true → e + 16 ≤ q)
    (t : Nat) {x : Rat} (hx : x = lo * 2 ^ q + t * 2 ^ q / 65536) :
    (lt x ↔ t * 2 ^ sh < 65536 * rem ∨ (sticky = true ∧ t * 2 ^ sh = 65536 * rem))
      ∧ (eq x ↔ t * 2 ^ sh = 65536 * rem ∧ sticky = false) := by
  obtain ⟨-, hval, hgrain⟩ := scaleTo_spec m e q hscale
  have hcell : (2 : Rat) ^ sh * 2 ^ (q - sh) = 2 ^ q := by
    rw [← zpow_natCast, ← zpow_add₀ two_ne_zero, add_sub_cancel]
  have hloc : Locates lt eq ((lo * 2 ^ sh + rem : Nat) * 2 ^ (q - sh)) (2 ^ (q - sh)) sticky := by
    rw [← hval]
    cases sticky
    · exact fun x hx _ => h x hx (by simp)
    · rw [hgrain (by have := hs rfl; omega)]
      exact h
  have hpoint := hloc.point (by positivity) ((65536 * lo + t) * 2 ^ sh) (x := x) (by
    rw [hx, ← hcell]
    push_cast
    ring) (fun hst => by
    have hsh : 16 ≤ sh := by
      have := hgrain (by have := hs hst; omega)
      have := hs hst
      omega
    exact Dvd.dvd.mul_left (pow_dvd_pow 2 hsh) _)
  have hexpand : (65536 * lo + t) * 2 ^ sh = 65536 * (lo * 2 ^ sh) + t * 2 ^ sh := by ring
  rw [hexpand, Nat.mul_add] at hpoint
  simpa only [Nat.add_lt_add_iff_left, Nat.add_left_cancel_iff] using hpoint

/-- Whether the number is below the format's smallest normal. -/
theorem Locates.tiny {lt eq : Rat → Prop} {m : Nat} {e : Int} {sticky : Bool} (hm : m ≠ 0)
    (h : Locates lt eq (m * 2 ^ e) (2 ^ e) sticky) (emin : Int) :
    (¬lt (2 ^ emin) ∧ ¬eq (2 ^ emin)) ↔ e + Nat.log2 m < emin := by
  obtain ⟨hlow, hhigh⟩ := log2_bounds hm e
  have hgrain : (0 : Rat) < 2 ^ e := by positivity
  have hmin : (0 : Rat) ≤ 2 ^ emin := by positivity
  rcases lt_or_ge (e + Nat.log2 m) emin with htiny | hbig
  · have habove : (m : Rat) * 2 ^ e + 2 ^ e ≤ 2 ^ emin := by
      calc (m : Rat) * 2 ^ e + 2 ^ e = (m + 1) * 2 ^ e := by ring
        _ ≤ 2 ^ (e + Nat.log2 m + 1) := hhigh
        _ ≤ 2 ^ emin := zpow_le_zpow_right₀ one_le_two (by omega)
    obtain ⟨hlt, heq⟩ := h _ hmin fun _ => .inr habove
    rw [hlt, heq]
    refine iff_of_true ⟨?_, ?_⟩ htiny
    · rintro (hx | ⟨-, hx⟩) <;> linarith
    · rintro ⟨hx, -⟩
      linarith
  · have hbelow : (2 : Rat) ^ emin ≤ m * 2 ^ e := (zpow_le_zpow_right₀ one_le_two hbig).trans hlow
    obtain ⟨hlt, heq⟩ := h _ hmin fun _ => .inl hbelow
    rw [hlt, heq]
    refine iff_of_false ?_ (by omega)
    rintro ⟨hx, hy⟩
    rcases hbelow.lt_or_eq with hc | hc
    · exact hx (.inl hc)
    · cases sticky
      · exact hy ⟨hc, rfl⟩
      · exact hx (.inr ⟨rfl, hc⟩)

/-! ### The choice between the neighbours (R64) -/

section
variable {sticky : Bool} {rem sh : Nat}

theorem roundUp_exact (mode r : Nat) (neg odd : Bool) : roundUp mode neg odd 0 sh false r = false := by
  simp [roundUp]

/-- What each mode makes of a number that is not on the grid. -/
theorem roundUp_modes (neg odd : Bool) (r : Nat) (h : 0 < rem ∨ sticky = true) :
    roundUp 0 neg odd rem sh sticky r = (decide (2 * rem > 2 ^ sh) || (decide (2 * rem = 2 ^ sh) && (sticky || odd)))
    ∧ roundUp 1 neg odd rem sh sticky r = false
    ∧ roundUp 2 neg odd rem sh sticky r = !neg
    ∧ roundUp 3 neg odd rem sh sticky r = neg
    ∧ roundUp 4 neg odd rem sh sticky r = decide (2 * rem ≥ 2 ^ sh)
    ∧ roundUp 5 neg odd rem sh sticky r
        = (decide (rem * 65536 > r * 2 ^ sh) || (sticky && decide (rem * 65536 = r * 2 ^ sh))) := by
  have hne : ¬(rem = 0 ∧ (!sticky) = true) := by
    rintro ⟨hrem, hst⟩
    rcases h with h | h
    · omega
    · simp [h] at hst
  simp only [roundUp, if_neg hne, and_self]

end

/-- The neighbour that the mode chooses of `k` and `k + 1` quanta of `u`, as R64 says of a number above `k` quanta. -/
def Chosen (rm : Rm) (r : Nat) (neg : Bool) (lt eq : Rat → Prop) (k c : Nat) (u : Rat) : Prop :=
  let lo := (k : Rat) * u
  let mid := lo + u / 2
  (rm.mode = 0 → (lt mid → c = k + 1) ∧ (eq mid → c = k + k % 2) ∧ (¬lt mid → ¬eq mid → c = k))
    ∧ (rm.mode = 1 → c = k)
    ∧ (rm.mode = 2 → c = if neg then k else k + 1)
    ∧ (rm.mode = 3 → c = if neg then k + 1 else k)
    ∧ (rm.mode = 4 → (lt mid ∨ eq mid → c = k + 1) ∧ (¬lt mid → ¬eq mid → c = k))
    ∧ (rm.mode = 5 → (lt (lo + (r : Rat) * u / 65536) → c = k + 1) ∧ (¬lt (lo + (r : Rat) * u / 65536) → c = k))

/-- `roundUp` chooses as R64 says. -/
theorem Locates.chosen {lt eq : Rat → Prop} {m : Nat} {e q : Int} {lo rem sh : Nat} {sticky : Bool}
    (h : Locates lt eq (m * 2 ^ e) (2 ^ e) sticky) (hscale : scaleTo m e q = (lo, rem, sh)) (hs : sticky = true → e + 16 ≤ q)
    (hup : 0 < rem ∨ sticky = true) (rm : Rm) (r : Nat) (neg : Bool) :
    Chosen rm r neg lt eq lo (if roundUp rm.mode neg (lo % 2 = 1) rem sh sticky r then lo + 1 else lo) (2 ^ q) := by
  obtain ⟨hmidlt, hmideq⟩ := h.between hscale hs 32768 (x := lo * 2 ^ q + 2 ^ q / 2) (by push_cast; ring)
  obtain ⟨hsr, -⟩ := h.between hscale hs r (x := lo * 2 ^ q + r * 2 ^ q / 65536) rfl
  have hparity : lo % 2 = 0 ∨ lo % 2 = 1 := by omega
  obtain ⟨hrne, hrtz, hrup, hrdn, hrna, hsto⟩ := roundUp_modes (sh := sh) neg (lo % 2 = 1) r hup
  refine ⟨fun hmode => ?_, fun hmode => ?_, fun hmode => ?_, fun hmode => ?_, fun hmode => ?_, fun hmode => ?_⟩ <;> rw [hmode]
  · rw [hmidlt, hmideq, hrne]
    refine ⟨fun hlt => ?_, fun heq => ?_, fun hlt heq => ?_⟩
    · rw [if_pos]
      rcases hlt with hlt | ⟨hst, hlt⟩
      · simp [show 2 ^ sh < 2 * rem by omega]
      · simp [show 2 * rem = 2 ^ sh by omega, hst]
    · obtain ⟨heq, hst⟩ := heq
      rcases hparity with hp | hp <;> simp [show 2 * rem = 2 ^ sh by omega, hst, hp]
    · rw [if_neg]
      cases sticky
      · simp only [and_true, false_and, or_false, Bool.false_eq_true] at hlt heq
        simp [show ¬2 ^ sh < 2 * rem by omega, show ¬2 * rem = 2 ^ sh by omega]
      · simp only [true_and] at hlt
        simp [show ¬2 ^ sh < 2 * rem by omega, show ¬2 * rem = 2 ^ sh by omega]
  · rw [hrtz]
    rfl
  · rw [hrup]
    cases neg <;> rfl
  · rw [hrdn]
  · rw [hmidlt, hmideq, hrna]
    refine ⟨fun hle => ?_, fun hlt heq => ?_⟩
    · rw [if_pos]
      have : 2 ^ sh ≤ 2 * rem := by rcases hle with (h | ⟨-, h⟩) | ⟨h, -⟩ <;> omega
      simpa using this
    · rw [if_neg]
      have : ¬2 ^ sh ≤ 2 * rem := by
        cases sticky <;> simp only [and_true, true_and, false_and, or_false, Bool.false_eq_true] at hlt heq <;> omega
      simpa using this
  · rw [hsr, hsto]
    refine ⟨fun hlt => ?_, fun hlt => ?_⟩
    · rw [if_pos]
      rcases hlt with hlt | ⟨hst, hlt⟩
      · simp [show r * 2 ^ sh < rem * 65536 by omega]
      · simp [show rem * 65536 = r * 2 ^ sh by omega, hst]
    · rw [if_neg]
      cases sticky
      · simp only [false_and, or_false, Bool.false_eq_true] at hlt
        simp [show ¬r * 2 ^ sh < rem * 65536 by omega]
      · simp only [true_and] at hlt
        simp [show ¬r * 2 ^ sh < rem * 65536 by omega, show ¬rem * 65536 = r * 2 ^ sh by omega]

/-- The code of `c` quanta of a grid, and whether it is above the largest finite number. -/
theorem Fmt.code_of_quanta {f : Fmt} (hf : f.Sound) {k c : Nat} {q : Int} (hmin : f.qmin ≤ q) (hbits : k < 2 ^ (f.frac + 1))
    (hnormal : q = f.qmin ∨ 2 ^ f.frac ≤ k) (hk : k ≤ c) (hc : c ≤ k + 1) (neg : Bool) :
    let a := (q - f.qmin).toNat * 2 ^ f.frac + c
    (a ≤ f.maxCode ↔ (c : Rat) * 2 ^ q ≤ (f.value f.maxCode).rat)
      ∧ (a ≤ f.maxCode → ∃ m e, f.value (f.code neg a).toNat = .num neg m e ∧ (m : Rat) * 2 ^ e = c * 2 ^ q) := by
  intro a
  have hmag : f.magOf a = c * 2 ^ q := by
    rw [f.magOf_quanta (by omega) (by omega), show f.qmin + ((q - f.qmin).toNat : Int) = q by omega]
  rw [value_max hf, ← hmag]
  exact ⟨f.magOf_strictMono.le_iff_le.symm, value_code hf neg⟩

/-- Round, its cases apart (R64 to R66). -/
theorem Fmt.round_eq (f : Fmt) (rm : Rm) (r : Nat) (neg : Bool) {m : Nat} {e : Int} (sticky : Bool) {lo rem sh : Nat} (hm : m ≠ 0)
    (hscale : scaleTo m e (f.quantum m e) = (lo, rem, sh)) :
    let c := if roundUp rm.mode neg (lo % 2 = 1) rem sh sticky r then lo + 1 else lo
    let a := (f.quantum m e - f.qmin).toNat * 2 ^ f.frac + c
    let exact := rem = 0 ∧ !sticky
    f.round rm r neg m e sticky = if a > f.maxCode then f.overflow rm neg else ⟨f.code neg a,
      (if exact then 0 else flagNX) ||| (if e + Nat.log2 m < f.emin ∧ ¬exact then flagUF else 0)⟩ := by
  have hq : f.quantum m e = (if e + Nat.log2 m < f.emin then f.emin else e + Nat.log2 m) - f.frac := rfl
  rw [round, if_neg hm]
  dsimp only
  rw [← hq, hscale]

/-- Round is the one rounding of the number that its arguments stand for. -/
theorem Fmt.round_rounds {f : Fmt} (hf : f.Sound) (rm : Rm) (r : Nat) (neg : Bool) {m : Nat} {e : Int} {sticky : Bool}
    {lt eq : Rat → Prop} (hm : m ≠ 0) (hs : sticky = true → f.frac + 16 ≤ Nat.log2 m)
    (h : Locates lt eq (m * 2 ^ e) (2 ^ e) sticky) : Rounds f rm r neg lt eq (f.round rm r neg m e sticky) := by
  obtain ⟨lo, rem, sh, hscale⟩ : ∃ lo rem sh, scaleTo m e (f.quantum m e) = (lo, rem, sh) := ⟨_, _, _, rfl⟩
  obtain ⟨hmin, hbits, hnormal⟩ := f.quantum_spec hm hscale
  obtain ⟨hrem, -, -⟩ := scaleTo_spec m e _ hscale
  have hs' : sticky = true → e + 16 ≤ f.quantum m e := fun hst => by
    have := hs hst
    rw [quantum]
    split <;> omega
  obtain ⟨hlolt, hloeq⟩ := h.between hscale hs' 0 (x := lo * 2 ^ f.quantum m e) (by simp)
  obtain ⟨hhilt, hhieq⟩ := h.between hscale hs' 65536 (x := lo * 2 ^ f.quantum m e + 2 ^ f.quantum m e) (by push_cast; ring)
  have htiny := h.tiny hm f.emin
  have hround := f.round_eq rm r neg sticky hm hscale
  set c := if roundUp rm.mode neg (lo % 2 = 1) rem sh sticky r then lo + 1 else lo with hc
  have hlo : lo ≤ c ∧ c ≤ lo + 1 := by rw [hc]; split <;> omega
  obtain ⟨hmost, hcode⟩ := code_of_quanta hf hmin hbits hnormal hlo.1 hlo.2 neg
  have hlt : lt (lo * 2 ^ f.quantum m e) ↔ 0 < rem ∨ sticky = true := by
    rw [hlolt, Nat.zero_mul]
    cases sticky
    · simp
    · simp
      omega
  have heq : eq (lo * 2 ^ f.quantum m e) ↔ rem = 0 ∧ sticky = false := by
    rw [hloeq, Nat.zero_mul]
    cases sticky <;> simp
  have hinexact : 0 < rem ∨ sticky = true → ¬(rem = 0 ∧ (!sticky) = true) := by
    cases sticky
    · simp
      omega
    · simp
  refine ⟨lo, c, f.quantum m e, ?_⟩
  simp only [pow2_eq_zpow]
  refine ⟨hmin, hbits, hnormal, ?_, ?_, ?_, ?_, ?_, ?_, ?_, ?_, ?_⟩
  · rw [hlt, heq]
    cases sticky
    · simp
      omega
    · simp
  · rw [hhilt]
    omega
  · rw [hhieq]
    omega
  · rw [heq]
    rintro ⟨rfl, rfl⟩
    rw [hc, roundUp_exact]
    rfl
  · rw [hlt]
    exact fun hup => h.chosen hscale hs' hup rm r neg
  · intro hw
    rw [hround, if_neg (not_lt.mpr (hmost.mpr hw)), hlt, heq]
    refine ⟨hcode (hmost.mpr hw), ?_, ?_, ?_⟩
    · rintro ⟨rfl, rfl⟩
      simp
    · intro hup hbelow
      rw [if_neg (hinexact hup), if_pos ⟨htiny.mp hbelow, hinexact hup⟩]
    · intro hup hnot
      rw [if_neg (hinexact hup), if_neg (fun hx => hnot (htiny.mpr hx.1))]
      rfl
  · intro hw hinf
    rw [hround, if_pos (not_le.mp (mt hmost.mp (not_le.mpr hw))), overflow, if_pos hinf]
    cases neg <;> simp
  · intro hw hinf hsat
    rw [hround, if_pos (not_le.mp (mt hmost.mp (not_le.mpr hw))), overflow, hinf, hsat]
    rfl
  · intro hw hinf hsat
    rw [hround, if_pos (not_le.mp (mt hmost.mp (not_le.mpr hw))), overflow, hinf, hsat]
    rfl

end Sys2Proof.Machine
end

section
/-! O28, second part: the operations on numbers hand Round their exact results, and one rounding determines its result. -/

namespace Sys2Proof.Machine

/-! ### Exact numbers -/

/-- A number of a sign. -/
def withSign (neg : Bool) (x : Rat) : Rat := if neg then -x else x

theorem mag_withSign {neg : Bool} {x : Rat} (h : 0 ≤ x) : mag (withSign neg x) = x := by
  cases neg
  · simp [mag, withSign, h]
  · rcases h.eq_or_lt with rfl | h
    · simp [mag, withSign]
    · simp [mag, withSign, h]

theorem withSign_neg {neg : Bool} {x : Rat} (h : 0 < x) : decide (withSign neg x < 0) = neg := by
  cases neg <;> simp [withSign, h, h.le]

theorem withSign_mul (na nb : Bool) (x y : Rat) : withSign (na != nb) (x * y) = withSign na x * withSign nb y := by
  cases na <;> cases nb <;> simp [withSign]

theorem withSign_div (na nb : Bool) (x y : Rat) : withSign (na != nb) (x / y) = withSign na x / withSign nb y := by
  cases na <;> cases nb <;> simp [withSign, neg_div, div_neg]

theorem FVal.rat_num (neg : Bool) (m : Nat) (e : Int) : (FVal.num neg m e).rat = withSign neg (m * 2 ^ e) := by
  rw [rat, pow2_eq_zpow, withSign]
  cases neg <;> simp

theorem signed_mul (neg : Bool) (m : Nat) (x : Rat) : (signed neg m : Rat) * x = withSign neg (m * x) := by
  cases neg <;> simp [signed, withSign]

theorem FVal.rat_ne_zero_iff {neg : Bool} {m : Nat} {e : Int} : (FVal.num neg m e).rat ≠ 0 ↔ m ≠ 0 := by
  have hpow : (2 : Rat) ^ e ≠ 0 := by positivity
  rw [rat_num]
  cases neg <;> simp [withSign, hpow]

theorem FVal.exists_num {a : FVal} (h : a.finite = true) : ∃ neg m e, a = .num neg m e := by
  match a, h with
  | .num neg m e, _ => exact ⟨neg, m, e, rfl⟩

/-- Round of a significand, exact or cut off, is the one rounding of the number it stands for. -/
theorem Fmt.round_roundsTo {f : Fmt} (hf : f.Sound) (rm : Rm) (r : Nat) {neg : Bool} {m : Nat} {e : Int} {sticky : Bool} {v : Rat}
    (hm : m ≠ 0) (hs : sticky = true → f.frac + 16 ≤ Nat.log2 m) (hneg : decide (v < 0) = neg)
    (hv : if sticky then m * (2 : Rat) ^ e < mag v ∧ mag v < m * 2 ^ e + 2 ^ e else m * (2 : Rat) ^ e = mag v) :
    RoundsTo f rm r v (f.round rm r neg m e sticky) := by
  rw [RoundsTo, hneg]
  exact round_rounds hf rm r neg hm hs
    (locates_of_strictMonoOn (φ := fun q => q) (fun _ _ _ _ h => h) (by positivity) (by positivity) hv)

/-- The conversion of a number that is not 0 is its one rounding. -/
theorem Fmt.convert_roundsTo {f : Fmt} (hf : f.Sound) (rm : Rm) (r : Nat) {a : FVal} (ha : a.finite = true) (h : a.rat ≠ 0) :
    RoundsTo f rm r a.rat (f.convert rm r a) := by
  obtain ⟨neg, m, e, rfl⟩ := FVal.exists_num ha
  have hm : m ≠ 0 := FVal.rat_ne_zero_iff.mp h
  rw [FVal.rat_num]
  exact round_roundsTo hf rm r hm (by simp) (withSign_neg (by positivity)) (mag_withSign (by positivity)).symm

/-! ### Sums and products -/

theorem ofInt_num (z : Bool) (v e : Int) : (ofInt z v e).finite = true ∧ (ofInt z v e).rat = v * 2 ^ e := by
  unfold ofInt
  split
  · next h => exact ⟨rfl, by rw [FVal.rat_num, h]; cases z <;> simp [withSign]⟩
  · refine ⟨rfl, ?_⟩
    have hsigned : signed (decide (v < 0)) v.natAbs = v := by
      by_cases h : v < 0
      · simp [signed, h, abs_of_neg h]
      · simp [signed, h, abs_of_nonneg (not_lt.mp h)]
    rw [FVal.rat_num, ← signed_mul, hsigned]

/-- The exact sum is the sum. -/
theorem exactAdd_num (mode : Nat) (na : Bool) (ma : Nat) (ea : Int) (nb : Bool) (mb : Nat) (eb : Int) :
    (exactAdd mode na ma ea nb mb eb).finite = true
      ∧ (exactAdd mode na ma ea nb mb eb).rat = (FVal.num na ma ea).rat + (FVal.num nb mb eb).rat := by
  unfold exactAdd
  refine ⟨(ofInt_num _ _ _).1, (ofInt_num _ _ _).2.trans ?_⟩
  have hscale : ∀ (v x y : Int), y ≤ x → (v : Rat) * 2 ^ (x - y).toNat * 2 ^ y = v * 2 ^ x := by
    intro v x y hxy
    rw [mul_assoc, ← zpow_natCast, Int.toNat_of_nonneg (by omega), ← zpow_add₀ two_ne_zero, sub_add_cancel]
  rw [FVal.rat_num, FVal.rat_num, ← signed_mul, ← signed_mul]
  push_cast
  rw [add_mul, hscale _ _ _ (by split <;> omega), hscale _ _ _ (by split <;> omega)]

theorem Fmt.add_num (f : Fmt) (rm : Rm) (r : Nat) (na : Bool) (ma : Nat) (ea : Int) (nb : Bool) (mb : Nat) (eb : Int) :
    f.add rm r (.num na ma ea) (.num nb mb eb) = f.convert rm r (exactAdd rm.mode na ma ea nb mb eb) := by
  obtain ⟨n, m, e, h⟩ := FVal.exists_num (exactAdd_num rm.mode na ma ea nb mb eb).1
  simp only [add, h, convert]

theorem Fmt.fma_num (f : Fmt) (rm : Rm) (r : Nat) (na : Bool) (ma : Nat) (ea : Int) (nb : Bool) (mb : Nat) (eb : Int)
    (nc : Bool) (mc : Nat) (ec : Int) : f.fma rm r (.num na ma ea) (.num nb mb eb) (.num nc mc ec)
      = f.convert rm r (exactAdd rm.mode (na != nb) (ma * mb) (ea + eb) nc mc ec) := by
  obtain ⟨n, m, e, h⟩ := FVal.exists_num (exactAdd_num rm.mode (na != nb) (ma * mb) (ea + eb) nc mc ec).1
  simp only [fma, h, convert]

theorem FVal.rat_mul (na : Bool) (ma : Nat) (ea : Int) (nb : Bool) (mb : Nat) (eb : Int) :
    (FVal.num (na != nb) (ma * mb) (ea + eb)).rat = (FVal.num na ma ea).rat * (FVal.num nb mb eb).rat := by
  rw [rat_num, rat_num, rat_num, ← withSign_mul, zpow_add₀ two_ne_zero]
  congr 1
  push_cast
  ring

section
variable {f : Fmt} (hf : f.Sound) (rm : Rm) (r : Nat) {a b c : FVal} (ha : a.finite = true) (hb : b.finite = true)
include hf ha hb

theorem Fmt.add_roundsTo (h : a.rat + b.rat ≠ 0) : RoundsTo f rm r (a.rat + b.rat) (f.add rm r a b) := by
  obtain ⟨na, ma, ea, rfl⟩ := FVal.exists_num ha
  obtain ⟨nb, mb, eb, rfl⟩ := FVal.exists_num hb
  obtain ⟨hfin, hsum⟩ := exactAdd_num rm.mode na ma ea nb mb eb
  rw [add_num, ← hsum]
  exact convert_roundsTo hf rm r hfin (hsum ▸ h)

theorem Fmt.mul_roundsTo (h : a.rat * b.rat ≠ 0) : RoundsTo f rm r (a.rat * b.rat) (f.mul rm r a b) := by
  obtain ⟨na, ma, ea, rfl⟩ := FVal.exists_num ha
  obtain ⟨nb, mb, eb, rfl⟩ := FVal.exists_num hb
  have hconvert := convert_roundsTo hf rm r (a := .num (na != nb) (ma * mb) (ea + eb)) rfl (by rwa [FVal.rat_mul])
  rw [FVal.rat_mul] at hconvert
  simpa only [mul, convert] using hconvert

theorem Fmt.fma_roundsTo (hc : c.finite = true) (h : a.rat * b.rat + c.rat ≠ 0) :
    RoundsTo f rm r (a.rat * b.rat + c.rat) (f.fma rm r a b c) := by
  obtain ⟨na, ma, ea, rfl⟩ := FVal.exists_num ha
  obtain ⟨nb, mb, eb, rfl⟩ := FVal.exists_num hb
  obtain ⟨nc, mc, ec, rfl⟩ := FVal.exists_num hc
  obtain ⟨hfin, hsum⟩ := exactAdd_num rm.mode (na != nb) (ma * mb) (ea + eb) nc mc ec
  rw [FVal.rat_mul] at hsum
  rw [fma_num, ← hsum]
  exact convert_roundsTo hf rm r hfin (hsum ▸ h)

end

/-! ### Quotients -/

/-- A quotient by a significand of at most 24 bits (R85). -/
theorem div_roundsTo (rm : Rm) (r : Nat) {na nb : Bool} {ma mb : Nat} {ea eb : Int} (ha : ma ≠ 0) (hb : mb ≠ 0)
    (hlt : mb < 2 ^ 24) : RoundsTo fp32 rm r ((FVal.num na ma ea).rat / (FVal.num nb mb eb).rat)
      (fp32.div rm r (.num na ma ea) (.num nb mb eb)) := by
  have hquot : (2 : Nat) ^ 104 ≤ ma * 2 ^ quotBits / mb := by
    rw [Nat.le_div_iff_mul_le (Nat.pos_of_ne_zero hb)]
    calc 2 ^ 104 * mb ≤ 2 ^ 104 * 2 ^ 24 := Nat.mul_le_mul_left _ hlt.le
      _ = 2 ^ quotBits := rfl
      _ ≤ ma * 2 ^ quotBits := Nat.le_mul_of_pos_left _ (Nat.pos_of_ne_zero ha)
  have hne : ma * 2 ^ quotBits / mb ≠ 0 := by omega
  have hbits : 104 ≤ Nat.log2 (ma * 2 ^ quotBits / mb) := (Nat.le_log2 hne).mpr hquot
  have hmb : (0 : Rat) < mb := by exact_mod_cast Nat.pos_of_ne_zero hb
  have hgrain : (0 : Rat) < 2 ^ (ea - eb - quotBits) := by positivity
  have hquotient : (ma : Rat) * 2 ^ ea / (mb * 2 ^ eb) = ((ma * 2 ^ quotBits : Nat) : Rat) / mb * 2 ^ (ea - eb - quotBits) := by
    rw [zpow_sub₀ two_ne_zero, zpow_sub₀ two_ne_zero, zpow_natCast, Nat.cast_mul, Nat.cast_pow, Nat.cast_ofNat]
    field_simp
  have hdiv : fp32.div rm r (.num na ma ea) (.num nb mb eb)
      = fp32.round rm r (na != nb) (ma * 2 ^ quotBits / mb) (ea - eb - quotBits) (ma * 2 ^ quotBits % mb != 0) := by
    simp only [Fmt.div, if_neg hb]
  rw [hdiv, FVal.rat_num, FVal.rat_num, ← withSign_div]
  refine Fmt.round_roundsTo fp32_sound rm r hne (fun _ => le_trans (by decide) hbits) (withSign_neg (by positivity)) ?_
  rw [mag_withSign (by positivity), hquotient]
  have hsplit : ((ma * 2 ^ quotBits : Nat) : Rat) = mb * (ma * 2 ^ quotBits / mb : Nat) + (ma * 2 ^ quotBits % mb : Nat) := by
    exact_mod_cast (Nat.div_add_mod _ _).symm
  have hrem : ((ma * 2 ^ quotBits % mb : Nat) : Rat) < mb := by exact_mod_cast Nat.mod_lt _ (Nat.pos_of_ne_zero hb)
  split
  · next hst =>
    have hpos : (0 : Rat) < (ma * 2 ^ quotBits % mb : Nat) := by exact_mod_cast Nat.pos_of_ne_zero (by simpa using hst)
    rw [← add_one_mul]
    constructor
    · refine mul_lt_mul_of_pos_right ?_ hgrain
      rw [lt_div_iff₀ hmb, hsplit]
      linarith
    · refine mul_lt_mul_of_pos_right ?_ hgrain
      rw [div_lt_iff₀ hmb, hsplit]
      linarith
  · next hst =>
    have hzero : ma * 2 ^ quotBits % mb = 0 := by simpa using hst
    rw [hsplit, hzero, Nat.cast_zero, add_zero, mul_div_cancel_left₀ _ hmb.ne']

/-! ### Roots -/

theorem isqrtGo_spec (k n root : Nat) (hlow : root * root ≤ n) (hhigh : n < (root + 2 ^ k) * (root + 2 ^ k)) :
    isqrtGo k n root * isqrtGo k n root ≤ n ∧ n < (isqrtGo k n root + 1) * (isqrtGo k n root + 1) := by
  induction k generalizing root with
  | zero => exact ⟨hlow, hhigh⟩
  | succ k ih =>
    rw [isqrtGo]
    have hpow : root + 2 ^ (k + 1) = root + 2 ^ k + 2 ^ k := by rw [Nat.pow_succ]; omega
    rw [hpow] at hhigh
    split
    · next h => exact ih _ h hhigh
    · next h => exact ih _ hlow (not_le.mp h)

theorem isqrt_spec (n : Nat) : isqrt n * isqrt n ≤ n ∧ n < (isqrt n + 1) * (isqrt n + 1) := by
  refine isqrtGo_spec _ n 0 (Nat.zero_le _) ?_
  rw [Nat.zero_add, ← Nat.pow_add]
  exact Nat.lt_log2_self.trans_le (Nat.pow_le_pow_right (by omega) (by omega))

/-- A root of a number of at least 128 bits keeps at least 64. -/
theorem isqrt_bits {n : Nat} (h : 2 ^ quotBits ≤ n) : isqrt n ≠ 0 ∧ 64 ≤ Nat.log2 (isqrt n) := by
  have hroot : 2 ^ 64 ≤ isqrt n := by
    by_contra hlt
    have hle : (isqrt n + 1) * (isqrt n + 1) ≤ 2 ^ 64 * 2 ^ 64 := Nat.mul_le_mul (by omega) (by omega)
    have hsquare : 2 ^ 64 * 2 ^ 64 = 2 ^ quotBits := (Nat.pow_add 2 64 64).symm
    have := (isqrt_spec n).2
    omega
  have hne : isqrt n ≠ 0 := by omega
  exact ⟨hne, (Nat.le_log2 hne).mpr hroot⟩

theorem sq_mul_strictMonoOn {a : Rat} (ha : 0 < a) : StrictMonoOn (fun q : Rat => q * q * a) (Set.Ici 0) :=
  fun _ hx _ _ hlt => mul_lt_mul_of_pos_right (mul_self_lt_mul_self hx hlt) ha

theorem sq_strictMonoOn : StrictMonoOn (fun q : Rat => q * q) (Set.Ici 0) := fun _ hx _ _ hlt => mul_self_lt_mul_self hx hlt

theorem zpow_half_sq {E e : Int} (h : 2 * E = e) (x : Rat) : x * 2 ^ E * (x * 2 ^ E) = x * x * 2 ^ e := by
  rw [← h, two_mul, zpow_add₀ two_ne_zero]
  ring

/-- The square root of a positive number (R85). -/
theorem sqrt_rounds (rm : Rm) (r : Nat) {m : Nat} {e : Int} (hm : m ≠ 0) :
    Rounds fp32 rm r false (fun q => q * q < m * 2 ^ e) (fun q => q * q = m * 2 ^ e) (fp32.sqrt rm r (.num false m e)) := by
  obtain ⟨odd, hodd⟩ : ∃ odd, (e % 2).toNat = odd := ⟨_, rfl⟩
  obtain ⟨n, hn⟩ : ∃ n, m * 2 ^ (odd + quotBits) = n := ⟨_, rfl⟩
  have hbig : 2 ^ quotBits ≤ n := by
    rw [← hn]
    exact (Nat.pow_le_pow_right two_pos (Nat.le_add_left _ _)).trans (Nat.le_mul_of_pos_left _ (Nat.pos_of_ne_zero hm))
  obtain ⟨hne, hbits⟩ := isqrt_bits hbig
  obtain ⟨hlow, hhigh⟩ := isqrt_spec n
  have hE : 2 * ((e - odd - quotBits) / 2) = e - odd - (quotBits : Int) := by
    have : (quotBits : Int) = 128 := rfl
    omega
  have hval : (m : Rat) * 2 ^ e = n * 2 ^ (e - odd - (quotBits : Int)) := by
    have hexp : ((odd + quotBits : Nat) : Int) + (e - odd - quotBits) = e := by
      push_cast
      ring
    rw [← hn, Nat.cast_mul, Nat.cast_pow, Nat.cast_ofNat, mul_assoc, ← zpow_natCast, ← zpow_add₀ two_ne_zero, hexp]
  have hsqrt : fp32.sqrt rm r (.num false m e)
      = fp32.round rm r false (isqrt n) ((e - odd - quotBits) / 2) (isqrt n * isqrt n != n) := by
    simp only [Fmt.sqrt, if_neg hm, Bool.false_eq_true, if_false, hodd, hn]
  have hgrain : (0 : Rat) < 2 ^ (e - odd - (quotBits : Int)) := zpow_pos two_pos _
  rw [hsqrt, hval]
  refine Fmt.round_rounds fp32_sound rm r false hne (fun _ => le_trans (by decide) hbits)
    (locates_of_strictMonoOn sq_strictMonoOn (mul_nonneg (Nat.cast_nonneg _) (zpow_pos two_pos _).le) (zpow_pos two_pos _) ?_)
  rw [← add_one_mul, zpow_half_sq hE (isqrt n), zpow_half_sq hE (isqrt n + 1)]
  split
  · next hst =>
    have hlt : isqrt n * isqrt n < n := lt_of_le_of_ne hlow (by simpa using hst)
    exact ⟨mul_lt_mul_of_pos_right (by exact_mod_cast hlt) hgrain, mul_lt_mul_of_pos_right (by exact_mod_cast hhigh) hgrain⟩
  · next hst =>
    have heq : isqrt n * isqrt n = n := by simpa using hst
    rw [← Nat.cast_mul, heq]

/-- The reciprocal square root of a positive number of at most 24 bits (R94). -/
theorem rsqrt_rounds (rm : Rm) (r : Nat) {m : Nat} {e : Int} (hm : m ≠ 0) (hlt : m < 2 ^ 24) :
    Rounds fp32 rm r false (fun q => q * q * (m * 2 ^ e) < 1) (fun q => q * q * (m * 2 ^ e) = 1)
      (fp32.rsqrt rm r (.num false m e)) := by
  obtain ⟨k, hk⟩ : ∃ k, 2 * quotBits + (e % 2).toNat = k := ⟨_, rfl⟩
  obtain ⟨n, hn⟩ : ∃ n, 2 ^ k / m = n := ⟨_, rfl⟩
  have hm' : 0 < m := Nat.pos_of_ne_zero hm
  have hbig : 2 ^ quotBits ≤ n := by
    rw [← hn, Nat.le_div_iff_mul_le hm']
    calc 2 ^ quotBits * m ≤ 2 ^ quotBits * 2 ^ quotBits :=
          Nat.mul_le_mul_left _ (hlt.le.trans (Nat.pow_le_pow_right two_pos (by decide)))
      _ = 2 ^ (2 * quotBits) := by rw [← Nat.pow_add, two_mul]
      _ ≤ 2 ^ k := Nat.pow_le_pow_right two_pos (by omega)
  obtain ⟨hne, hbits⟩ := isqrt_bits hbig
  obtain ⟨hlow, hhigh⟩ := isqrt_spec n
  have hE : 2 * ((-e - k) / 2) = -e - (k : Int) := by
    have : (quotBits : Int) = 128 := rfl
    omega
  have hpos : (0 : Rat) < m * 2 ^ e := by positivity
  have hsquare : ∀ x : Nat, (x : Rat) * x * 2 ^ (-e - (k : Int)) * (m * 2 ^ e) = ((x * x * m : Nat) : Rat) / (2 ^ k : Nat) := by
    intro x
    rw [zpow_sub₀ two_ne_zero, zpow_neg, zpow_natCast]
    push_cast
    field_simp
  have hrsqrt : fp32.rsqrt rm r (.num false m e)
      = fp32.round rm r false (isqrt n) ((-e - k) / 2) (isqrt n * isqrt n * m != 2 ^ k) := by
    simp only [Fmt.rsqrt, if_neg hm, Bool.false_eq_true, if_false, hk, hn]
  have hunit : (0 : Rat) < (2 ^ k : Nat) := by positivity
  have hbelow : isqrt n * isqrt n * m ≤ 2 ^ k := (Nat.mul_le_mul_right m hlow).trans (hn ▸ Nat.div_mul_le_self _ _)
  have habove : 2 ^ k < (isqrt n + 1) * (isqrt n + 1) * m := by
    calc 2 ^ k < (n + 1) * m := Nat.lt_mul_of_div_lt (hn ▸ Nat.lt_succ_self _) hm'
      _ ≤ _ := Nat.mul_le_mul_right m hhigh
  rw [hrsqrt]
  refine Fmt.round_rounds fp32_sound rm r false hne (fun _ => le_trans (by decide) hbits)
    (locates_of_strictMonoOn (sq_mul_strictMonoOn hpos) (by positivity) (by positivity) ?_)
  have hnext := hsquare (isqrt n + 1)
  push_cast at hnext
  rw [← add_one_mul, zpow_half_sq hE (isqrt n), zpow_half_sq hE (isqrt n + 1), hsquare]
  split
  · next hst =>
    have hlt : isqrt n * isqrt n * m < 2 ^ k := lt_of_le_of_ne hbelow (by simpa using hst)
    refine ⟨(div_lt_one hunit).mpr (by exact_mod_cast hlt), ?_⟩
    rw [hnext, one_lt_div (by positivity)]
    exact_mod_cast habove
  · next hst =>
    have heq : isqrt n * isqrt n * m = 2 ^ k := by simpa using hst
    rw [heq, div_self hunit.ne']

/-! ### The operations of F on finite operands -/

/-- A code that is a number, with at most the format's bits. -/
theorem fp32_exists_num {c : Nat} (h : (fp32.value c).finite = true) : ∃ neg m e, fp32.value c = .num neg m e ∧ m < 2 ^ 24 := by
  obtain ⟨neg, m, e, hv⟩ := FVal.exists_num h
  exact ⟨neg, m, e, hv, (Fmt.value_num hv).2.2⟩

theorem FVal.pos_of_rat_pos {neg : Bool} {m : Nat} {e : Int} (h : 0 < (FVal.num neg m e).rat) :
    neg = false ∧ m ≠ 0 ∧ (FVal.num neg m e).rat = m * 2 ^ e := by
  have hm : m ≠ 0 := rat_ne_zero_iff.mp h.ne'
  have hsign : decide ((FVal.num neg m e).rat < 0) = neg := by
    rw [rat_num]
    exact withSign_neg (by positivity)
  have hneg : neg = false := by
    rw [← hsign]
    exact decide_eq_false h.not_gt
  refine ⟨hneg, hm, ?_⟩
  rw [rat_num, hneg]
  rfl

theorem roundedValues : Rules.RoundedValues := by
  intro rm r _ _ ca cb cc a b c ha hb hc
  obtain ⟨na, ma, ea, hva, hma⟩ := fp32_exists_num ha
  obtain ⟨nb, mb, eb, hvb, hmb⟩ := fp32_exists_num hb
  have ha' : a = .num na ma ea := hva
  have hb' : b = .num nb mb eb := hvb
  refine ⟨Fmt.add_roundsTo fp32_sound rm r ha hb, Fmt.mul_roundsTo fp32_sound rm r ha hb,
    Fmt.fma_roundsTo fp32_sound rm r ha hb hc, fun hb0 ha0 => ?_, fun hb0 => ?_, fun ha0 => ?_, fun ha0 => ?_, fun ha0 => ?_,
    fun neg m e hm => ?_⟩
  · rw [ha'] at ha0 ⊢
    rw [hb'] at hb0 ⊢
    exact div_roundsTo rm r (FVal.rat_ne_zero_iff.mp ha0) (FVal.rat_ne_zero_iff.mp hb0) hmb
  · rw [hb'] at hb0 ⊢
    have hone : (FVal.num false 1 0).rat = 1 := by simp [FVal.rat_num, withSign]
    rw [← hone]
    exact div_roundsTo rm r one_ne_zero (FVal.rat_ne_zero_iff.mp hb0) hmb
  · rw [ha'] at ha0 ⊢
    obtain ⟨hneg, hm, hval⟩ := FVal.pos_of_rat_pos ha0
    rw [hval, hneg]
    exact sqrt_rounds rm r hm
  · rw [ha'] at ha0 ⊢
    obtain ⟨hneg, hm, hval⟩ := FVal.pos_of_rat_pos ha0
    rw [hval, hneg]
    exact rsqrt_rounds rm r hm hma
  · simp only [List.forall_mem_cons]
    exact ⟨Fmt.convert_roundsTo bf16_sound rm r ha ha0, Fmt.convert_roundsTo e4m3_sound rm r ha ha0,
      Fmt.convert_roundsTo e5m2_sound rm r ha ha0, by simp⟩
  · exact Fmt.convert_roundsTo fp32_sound rm r (a := .num neg m e) rfl (FVal.rat_ne_zero_iff.mpr hm)

/-! ### One rounding determines its result -/

/-- Two FP32 codes of one sign and magnitude are the same. -/
theorem fp32_code_inj {c c' : W32} {neg : Bool} {m m' : Nat} {e e' : Int} (h : fp32.value c.toNat = .num neg m e)
    (h' : fp32.value c'.toNat = .num neg m' e') (hmag : (m : Rat) * 2 ^ e = m' * 2 ^ e') : c = c' := by
  obtain ⟨hsign, hm, -⟩ := Fmt.value_num h
  obtain ⟨hsign', hm', -⟩ := Fmt.value_num h'
  have hlow : c.toNat % 2 ^ 31 = c'.toNat % 2 ^ 31 := fp32.magOf_strictMono.injective (hm.symm.trans (hmag.trans hm'))
  have hhigh : c.toNat.testBit 31 = c'.toNat.testBit 31 := hsign.symm.trans hsign'
  rw [Nat.testBit_eq_decide_div_mod_eq, Nat.testBit_eq_decide_div_mod_eq, decide_eq_decide] at hhigh
  apply BitVec.eq_of_toNat_eq
  have := c.isLt
  have := c'.isLt
  omega

/-- The cell of the grid that a number lies in has one quantum. -/
theorem quantum_not_lt {f : Fmt} {k k' : Nat} {q q' : Int} {x : Rat} (hmin : f.qmin ≤ q) (hbits : k < 2 ^ (f.frac + 1))
    (hnormal : q' = f.qmin ∨ 2 ^ f.frac ≤ k') (hhigh : x < k * 2 ^ q + 2 ^ q) (hlow : k' * (2 : Rat) ^ q' ≤ x) : ¬q < q' := by
  intro hlt
  have hk' : (2 : Rat) ^ f.frac ≤ k' := by exact_mod_cast hnormal.resolve_left (by omega)
  have hk : (k : Rat) + 1 ≤ 2 ^ (f.frac + 1) := by exact_mod_cast hbits
  have hpos : (0 : Rat) < 2 ^ q := by positivity
  have hdouble : (2 : Rat) ^ (f.frac + 1) * 2 ^ q ≤ 2 ^ f.frac * 2 ^ q' := by
    rw [pow_succ, mul_assoc, ← zpow_one_add₀ two_ne_zero]
    exact mul_le_mul_of_nonneg_left (zpow_le_zpow_right₀ one_le_two (by omega)) (by positivity)
  have hle : (2 : Rat) ^ f.frac * 2 ^ q' ≤ k' * 2 ^ q' := mul_le_mul_of_nonneg_right hk' (by positivity)
  have hge : ((k : Rat) + 1) * 2 ^ q ≤ 2 ^ (f.frac + 1) * 2 ^ q := mul_le_mul_of_nonneg_right hk hpos.le
  linarith

/-- A mode chooses one of the neighbours. -/
theorem Chosen.unique {rm : Rm} {r k c c' : Nat} {neg : Bool} {lt eq : Rat → Prop} {u : Rat} (hmode : rm.mode < 6)
    (h : Chosen rm r neg lt eq k c u) (h' : Chosen rm r neg lt eq k c' u) : c = c' := by
  obtain ⟨h0, h1, h2, h3, h4, h5⟩ := h
  obtain ⟨h0', h1', h2', h3', h4', h5'⟩ := h'
  obtain hm | hm | hm | hm | hm | hm : rm.mode = 0 ∨ rm.mode = 1 ∨ rm.mode = 2 ∨ rm.mode = 3 ∨ rm.mode = 4 ∨ rm.mode = 5 := by
    omega
  · obtain ⟨habove, hat, hbelow⟩ := h0 hm
    obtain ⟨habove', hat', hbelow'⟩ := h0' hm
    by_cases hlt : lt (k * u + u / 2)
    · rw [habove hlt, habove' hlt]
    · by_cases heq : eq (k * u + u / 2)
      · rw [hat heq, hat' heq]
      · rw [hbelow hlt heq, hbelow' hlt heq]
  · rw [h1 hm, h1' hm]
  · rw [h2 hm, h2' hm]
  · rw [h3 hm, h3' hm]
  · by_cases hle : lt (k * u + u / 2) ∨ eq (k * u + u / 2)
    · rw [(h4 hm).1 hle, (h4' hm).1 hle]
    · rw [not_or] at hle
      rw [(h4 hm).2 hle.1 hle.2, (h4' hm).2 hle.1 hle.2]
  · by_cases hlt : lt (k * u + r * u / 65536)
    · rw [(h5 hm).1 hlt, (h5' hm).1 hlt]
    · rw [(h5 hm).2 hlt, (h5' hm).2 hlt]

/-- A number's one rounding in FP32 is one result. -/
theorem roundsTo_unique {rm : Rm} {r : Nat} {v : Rat} {y y' : FRes} (hmode : rm.mode < 6) (h : RoundsTo fp32 rm r v y)
    (h' : RoundsTo fp32 rm r v y') : y = y' := by
  obtain ⟨k, c, q, hmin, hbits, hnormal, hlow, hhigh, hhigh', hon, hoff, hfin, hover, -, -⟩ := h
  obtain ⟨k', c', q', hmin2, hbits2, hnormal2, hlow2, hhigh2, hhigh2', hon2, hoff2, hfin2, hover2, -, -⟩ := h'
  simp only [pow2_eq_zpow] at *
  have hq : q = q' := by
    have := quantum_not_lt hmin hbits hnormal2 (lt_of_le_of_ne (not_lt.mp hhigh) (Ne.symm hhigh')) (le_of_lt_or_eq hlow2)
    have := quantum_not_lt hmin2 hbits2 hnormal (lt_of_le_of_ne (not_lt.mp hhigh2) (Ne.symm hhigh2')) (le_of_lt_or_eq hlow)
    omega
  subst hq
  have hu : (0 : Rat) < 2 ^ q := by positivity
  have hk : k = k' := by
    have hlt : (k : Rat) < k' + 1 := by
      refine lt_of_mul_lt_mul_right ?_ hu.le
      rw [add_one_mul]
      exact (le_of_lt_or_eq hlow).trans_lt (lt_of_le_of_ne (not_lt.mp hhigh2) (Ne.symm hhigh2'))
    have hlt' : (k' : Rat) < k + 1 := by
      refine lt_of_mul_lt_mul_right ?_ hu.le
      rw [add_one_mul]
      exact (le_of_lt_or_eq hlow2).trans_lt (lt_of_le_of_ne (not_lt.mp hhigh) (Ne.symm hhigh'))
    have h1 : k < k' + 1 := by exact_mod_cast hlt
    have h2 : k' < k + 1 := by exact_mod_cast hlt'
    omega
  subst hk
  have hc : c = c' := by
    rcases hlow with hlt | heq
    · exact Chosen.unique (k := k) (u := 2 ^ q) (lt := fun x => x < mag v) (eq := fun x => x = mag v) hmode (hoff hlt) (hoff2 hlt)
    · rw [hon heq, hon2 heq]
  subst hc
  rcases le_or_gt ((c : Rat) * 2 ^ q) (fp32.value fp32.maxCode).rat with hle | hgt
  · obtain ⟨⟨m, e, hval, hmag⟩, hflags, hflagsTiny, hflagsNot⟩ := hfin hle
    obtain ⟨⟨m', e', hval', hmag'⟩, hflags', hflagsTiny', hflagsNot'⟩ := hfin2 hle
    have hcode : y.code = y'.code := fp32_code_inj hval hval' (hmag.trans hmag'.symm)
    have hflag : y.flags = y'.flags := by
      rcases hlow with hlt | heq
      · by_cases htiny : ¬(2 : Rat) ^ fp32.emin < mag v ∧ ¬(2 : Rat) ^ fp32.emin = mag v
        · rw [hflagsTiny hlt htiny, hflagsTiny' hlt htiny]
        · rw [hflagsNot hlt htiny, hflagsNot' hlt htiny]
      · rw [hflags heq, hflags' heq]
    cases y
    cases y'
    cases hcode
    cases hflag
    rfl
  · rw [hover hgt rfl, hover2 hgt rfl]

end Sys2Proof.Machine
end

section
/-! O28, third part: the sums of the press, its operations element by element, and its drains. -/

namespace Sys2Proof.Machine

/-! ### One element of the press (R113) -/

/-- One rounding of a number raises no NV. -/
theorem RoundsTo.not_invalid {f : Fmt} {rm : Rm} {r : Nat} {v : Rat} {y : FRes} (h : RoundsTo f rm r v y) :
    y.flags.getLsbD 4 = false := by
  obtain ⟨k, c, q, -, -, -, hlow, -, -, -, -, hfin, hinf, hsat, hnan⟩ := h
  have hflags : (flagOF ||| flagNX).getLsbD 4 = false := by decide
  have hflags' : (flagOF ||| flagNX ||| flagSAT).getLsbD 4 = false := by decide
  rcases le_or_gt ((c : Rat) * pow2 q) (f.value f.maxCode).rat with hle | hgt
  · obtain ⟨-, hexact, htiny, hnormal⟩ := hfin hle
    rcases hlow with hlt | heq
    · by_cases hsmall : ¬pow2 f.emin < mag v ∧ ¬pow2 f.emin = mag v
      · rw [htiny hlt hsmall]; rfl
      · rw [hnormal hlt hsmall]; rfl
    · rw [hexact heq]; rfl
  · cases hi : f.hasInf
    · cases hs : rm.sat
      · rw [hnan hgt hi hs]; exact hflags
      · rw [hsat hgt hi hs]; exact hflags'
    · rw [hinf hgt hi]; exact hflags

theorem pressElement_add {part acc : W32} {p : FVal} {inv : Bool} {sc : Option FRes} (hx : (fp32.value part.toNat).finite = true)
    (hp : p.finite = true) (h : (fp32.value part.toNat).rat + p.rat ≠ 0) :
    let y := fp32.add Rm.rne 0 (fp32.value part.toNat) p
    RoundsTo fp32 Rm.rne 0 ((fp32.value part.toNat).rat + p.rat) y
      ∧ pressElement false sc false part acc (p, inv) = (y.code, acc, inv, y.flags.getLsbD 2) := by
  intro y
  have hy : RoundsTo fp32 Rm.rne 0 ((fp32.value part.toNat).rat + p.rat) y := Fmt.add_roundsTo fp32_sound Rm.rne 0 hx hp h
  refine ⟨hy, ?_⟩
  have hinv : (inv || y.flags.getLsbD 4) = inv := by rw [hy.not_invalid, Bool.or_false]
  calc pressElement false sc false part acc (p, inv) = (y.code, acc, inv || y.flags.getLsbD 4, y.flags.getLsbD 2) := rfl
    _ = _ := by rw [hinv]

theorem pressElement_promote {part acc : W32} {p : FVal} {inv : Bool} {sc : Option FRes}
    (hx : (fp32.value part.toNat).finite = true) (hp : p.finite = true) (h : (fp32.value part.toNat).rat + p.rat ≠ 0) :
    let y := fp32.add Rm.rne 0 (fp32.value part.toNat) p
    let s := (sc.map (fun z => fp32.value z.code.toNat)).getD (.num false 1 0)
    let v := (fp32.value y.code.toNat).rat * s.rat + (fp32.value acc.toNat).rat
    let z := fp32.fma Rm.rne 0 (fp32.value y.code.toNat) s (fp32.value acc.toNat)
    (fp32.value y.code.toNat).finite = true → s.finite = true → (fp32.value acc.toNat).finite = true → v ≠ 0 →
      RoundsTo fp32 Rm.rne 0 v z
        ∧ pressElement true sc false part acc (p, inv) = (0, z.code, inv, y.flags.getLsbD 2 || z.flags.getLsbD 2) := by
  intro y s v z hyfin hsfin haccfin hv
  have hz : RoundsTo fp32 Rm.rne 0 v z := Fmt.fma_roundsTo fp32_sound Rm.rne 0 hyfin hsfin haccfin hv
  have hy : RoundsTo fp32 Rm.rne 0 ((fp32.value part.toNat).rat + p.rat) y := Fmt.add_roundsTo fp32_sound Rm.rne 0 hx hp h
  refine ⟨hz, ?_⟩
  have hinv : (inv || y.flags.getLsbD 4 || false || z.flags.getLsbD 4) = inv := by
    rw [hy.not_invalid, hz.not_invalid, Bool.or_false, Bool.or_false, Bool.or_false]
  calc pressElement true sc false part acc (p, inv)
      = (0, z.code, inv || y.flags.getLsbD 4 || false || z.flags.getLsbD 4, y.flags.getLsbD 2 || z.flags.getLsbD 2) := by
        cases sc <;> rfl
    _ = _ := by rw [hinv]

/-! ### A whole operation (R113) -/

/-- An element of row `i` updated: its partial sum and its accumulator. -/
def pressUpdate (t f : Word) (sa : List W32) (sb : W32) (i : Nat) (part acc : W32) (p : FVal × Bool) : W32 × W32 :=
  let scale := fp32.mul Rm.rne 0 (fp32.value (sa.getD i 0).toNat) (fp32.value sb.toNat)
  let x := pressElement (t.getLsbD 1) (if f.getLsbD 6 then some scale else none)
    (f.getLsbD 6 && (fp32.value scale.code.toNat).isNaN) part acc p
  (x.1, x.2.1)

/-- The rows of an operation, each with its own products. -/
def pressRows (t f : Word) (sa : List W32) (sb : W32) (part acc : List W32) (ps : List (List (FVal × Bool))) : List (W32 × W32) :=
  ((List.range 64).zip ps).flatMap fun x =>
    (((part.drop (64 * x.1)).take 64).zip (((acc.drop (64 * x.1)).take 64).zip x.2)).map fun y =>
      pressUpdate t f sa sb x.1 y.1 y.2.1 y.2.2

theorem pressRows_map {α : Type} (g : W32 × W32 → α) (t f : Word) (sa : List W32) (sb : W32) (part acc : List W32)
    (ps : List (List (FVal × Bool))) : (pressRows t f sa sb part acc ps).map g =
      ((List.range 64).zip ps).flatMap fun x =>
        (((part.drop (64 * x.1)).take 64).zip (((acc.drop (64 * x.1)).take 64).zip x.2)).map fun y =>
          g (pressUpdate t f sa sb x.1 y.1 y.2.1 y.2.2) := by
  simp only [pressRows, List.map_flatMap, List.map_map]
  rfl

/-! ### Lists of rows -/

/-- Element `j` of row `i`, where every row has `n` elements. -/
theorem getElem?_flatMap_rows {α β : Type} (g : α → List β) (n : Nat) (l : List α) (h : ∀ a ∈ l, (g a).length = n) {i j : Nat}
    (hi : i < l.length) (hj : j < n) : (l.flatMap g)[n * i + j]? = (g l[i])[j]? := by
  induction l generalizing i with
  | nil => simp at hi
  | cons a l ih =>
    have hlen := h a List.mem_cons_self
    rw [List.flatMap_cons]
    cases i with
    | zero =>
      rw [Nat.mul_zero, Nat.zero_add, List.getElem?_append_left (by omega)]
      rfl
    | succ i =>
      rw [List.getElem?_append_right (by rw [hlen, Nat.mul_succ]; omega), hlen,
        show n * (i + 1) + j - n = n * i + j by rw [Nat.mul_succ]; omega]
      exact ih (fun b hb => h b (List.mem_cons_of_mem a hb)) (by simpa using hi)

/-- The accumulator that a control word selects is updated row by row, and the other is left alone. -/
theorem accumulate_parts (c : PressCtx) (t f : Word) (sa : List W32) (sb : W32) (ps : List (List (FVal × Bool))) :
    let x := accumulate c t f sa sb ps
    let rows (part acc : List W32) := pressRows t f sa sb (fullMatrix part) (fullMatrix acc) ps
    (fld t 0 0 = 1 → x.part1 = (rows c.part1 c.acc1).map Prod.fst ∧ x.acc1 = (rows c.part1 c.acc1).map Prod.snd
      ∧ x.part0 = c.part0 ∧ x.acc0 = c.acc0)
    ∧ (fld t 0 0 = 0 → x.part0 = (rows c.part0 c.acc0).map Prod.fst ∧ x.acc0 = (rows c.part0 c.acc0).map Prod.snd
      ∧ x.part1 = c.part1 ∧ x.acc1 = c.acc1) := by
  intro x rows
  constructor <;> intro hsel
  · cases hscaled : f.getLsbD 6 <;>
      simp only [x, rows, pressRows_map, pressUpdate, accumulate, hscaled, hsel, if_true, Bool.false_eq_true, if_false,
        List.map_flatMap, List.map_map, and_self, and_true] <;>
      exact ⟨rfl, rfl⟩
  · have hne : ¬fld t 0 0 = 1 := by omega
    cases hscaled : f.getLsbD 6 <;>
      simp only [x, rows, pressRows_map, pressUpdate, accumulate, hscaled, hne, if_true, Bool.false_eq_true, if_false,
        List.map_flatMap, List.map_map, and_self, and_true] <;>
      exact ⟨rfl, rfl⟩

theorem fullMatrix_length (l : List W32) : 4096 ≤ (fullMatrix l).length := by
  rw [fullMatrix, List.length_append, List.length_replicate]
  omega

/-- Element (i, j) of an operation is updated from its own products. -/
theorem pressRows_getElem? {t f : Word} {sa : List W32} {sb : W32} {part acc : List W32} {ps : List (List (FVal × Bool))}
    (hpart : 4096 ≤ part.length) (hacc : 4096 ≤ acc.length) (hps : ps.length = 64) (hrows : ∀ row ∈ ps, row.length = 64)
    {i j : Nat} (hi : i < 64) (hj : j < 64) :
    (pressRows t f sa sb part acc ps)[64 * i + j]? = some (pressUpdate t f sa sb i (part.getD (64 * i + j) 0)
      (acc.getD (64 * i + j) 0) ((ps.getD i []).getD j (.num false 0 0, false))) := by
  have hzip : ((List.range 64).zip ps).length = 64 := by simp [hps]
  have hrow : ps[i].length = 64 := hrows _ (List.getElem_mem (by omega))
  have hcell (l : List W32) (hl : 4096 ≤ l.length) : ((l.drop (64 * i)).take 64)[j]? = some (l.getD (64 * i + j) 0) := by
    rw [List.getElem?_take_of_lt hj, List.getElem?_drop, List.getElem?_eq_getElem (by omega), List.getD_eq_getElem _ _ (by omega)]
  have hproduct : ps[i][j]? = some ((ps.getD i []).getD j (.num false 0 0, false)) := by
    rw [List.getD_eq_getElem ps _ (by omega), List.getD_eq_getElem _ _ (by omega), List.getElem?_eq_getElem]
  have hgrid : ∀ x ∈ (List.range 64).zip ps, x.1 < 64 ∧ x.2.length = 64 := fun x hx =>
    ⟨List.mem_range.mp (List.of_mem_zip hx).1, hrows _ (List.of_mem_zip hx).2⟩
  have hzipped : (((part.drop (64 * i)).take 64).zip (((acc.drop (64 * i)).take 64).zip ps[i]))[j]?
      = some (part.getD (64 * i + j) 0, acc.getD (64 * i + j) 0, (ps.getD i []).getD j (.num false 0 0, false)) :=
    List.getElem?_zip_eq_some.mpr ⟨hcell part hpart, List.getElem?_zip_eq_some.mpr ⟨hcell acc hacc, hproduct⟩⟩
  rw [pressRows, getElem?_flatMap_rows _ 64 _ (fun x hx => ?_) (by omega) hj]
  · simp only [List.getElem_zip, List.getElem_range]
    rw [List.getElem?_map, hzipped]
    rfl
  · obtain ⟨hx1, hx2⟩ := hgrid x hx
    simp only [List.length_map, List.length_zip, List.length_take, List.length_drop, hx2]
    omega

/-! ### A drain (R125) -/

theorem drainBytes_element (f : Fmt) (vs : List W32) (x : Word) {i : Nat} (hi : i < vs.length) :
    let xi := skipDraws i x
    let w := (f.sign + 1) / 8
    ((drainBytes (some f) vs x).1.drop (i * w)).take w
      = leBytes w (f.convert (rmOf xi) (takeDraw xi).1 (fp32.value (vs.getD i 0).toNat)).code.toNat := by
  induction vs generalizing x i with
  | nil => simp at hi
  | cons v vs ih =>
    intro xi w
    have hcons : (drainBytes (some f) (v :: vs) x).1 =
        leBytes w (f.convert (rmOf x) (takeDraw x).1 (fp32.value v.toNat)).code.toNat
        ++ (drainBytes (some f) vs (takeDraw x).2).1 := rfl
    rw [hcons]
    cases i with
    | zero =>
      rw [Nat.zero_mul, List.drop_zero, List.take_left' (leBytes_length _ _)]
      rfl
    | succ i =>
      rw [Nat.succ_mul, Nat.add_comm (i * w), ← List.drop_drop, List.drop_left' (leBytes_length _ _)]
      exact ih (takeDraw x).2 (by simpa using hi)

/-! ### The sum of a row and a column (R114) -/

/-- The products of finite elements are added exactly. -/
theorem foldl_add_finite (l : List (Elt × Elt))
    (h : ∀ p ∈ l, p.1.nan = false ∧ p.1.inf = false ∧ p.2.nan = false ∧ p.2.inf = false)
    (s : Sum) : l.foldl (fun s p => s.add p.1 p.2) s =
      { s with v := s.v + (l.map (fun p => p.1.v * p.2.v)).sum
               negZero := s.negZero && l.all (fun p => (p.1.v == 0 || p.2.v == 0) && p.1.neg != p.2.neg) } := by
  induction l generalizing s with
  | nil => simp
  | cons p l ih =>
    obtain ⟨hn1, hi1, hn2, hi2⟩ := h p List.mem_cons_self
    have hadd : s.add p.1 p.2 = { s with v := s.v + p.1.v * p.2.v
                                         negZero := s.negZero && (p.1.v == 0 || p.2.v == 0) && p.1.neg != p.2.neg } := by
      simp [Sum.add, hn1, hi1, hn2, hi2]
    rw [List.foldl_cons, ih (fun q hq => h q (List.mem_cons_of_mem p hq)), hadd]
    simp [Bool.and_assoc, add_assoc]

theorem pressDots : Rules.PressDots := by
  intro a b h
  have hzip : ∀ p ∈ a.zip b, p.1.nan = false ∧ p.1.inf = false ∧ p.2.nan = false ∧ p.2.inf = false := by
    intro p hp
    obtain ⟨hn1, hi1⟩ := h p.1 (List.mem_append_left _ (List.of_mem_zip hp).1)
    obtain ⟨hn2, hi2⟩ := h p.2 (List.mem_append_right _ (List.of_mem_zip hp).2)
    exact ⟨hn1, hi1, hn2, hi2⟩
  rw [dot, foldl_add_finite _ hzip]
  simp

theorem pressRoundsOnce : Rules.PressRoundsOnce := by
  refine ⟨?_, ?_, fun f _ vs x i hi => drainBytes_element f vs x hi⟩
  · intro part acc p inv sc x hx hp hne
    obtain ⟨hy, hpart⟩ := pressElement_add (acc := acc) (inv := inv) (sc := sc) hx hp hne
    refine ⟨⟨_, hy, hpart⟩, ?_⟩
    intro y' hy' s v hyfin hsfin haccfin hv
    obtain rfl := roundsTo_unique (by decide) hy' hy
    exact ⟨_, pressElement_promote hx hp hne hyfin hsfin haccfin hv⟩
  · intro c t f sa sb ps hps hrows i hi j hj x scale bad e
    obtain ⟨hfirst, hsecond⟩ := accumulate_parts c t f sa sb ps
    have helement (part acc : List W32) := pressRows_getElem? (t := t) (f := f) (sa := sa) (sb := sb) (fullMatrix_length part)
      (fullMatrix_length acc) hps hrows hi hj
    refine ⟨fun hsel => ?_, fun hsel => ?_⟩
    · obtain ⟨hp, ha, hp', ha'⟩ := hfirst hsel
      refine ⟨?_, ?_, hp', ha'⟩
      · rw [hp, List.getD_eq_getElem?_getD, List.getElem?_map, helement]
        rfl
      · rw [ha, List.getD_eq_getElem?_getD, List.getElem?_map, helement]
        rfl
    · obtain ⟨hp, ha, hp', ha'⟩ := hsecond hsel
      refine ⟨?_, ?_, hp', ha'⟩
      · rw [hp, List.getD_eq_getElem?_getD, List.getElem?_map, helement]
        rfl
      · rw [ha, List.getD_eq_getElem?_getD, List.getElem?_map, helement]
        rfl

/-- Settles O28: Round is the one rounding of what the operations hand to it. -/
theorem pressSumsExactly : Obligations.PressSumsExactly := ⟨pressDots, pressRoundsOnce, roundedValues⟩

end Sys2Proof.Machine
end

section
/-! O1: every trigger of A by its row. -/

namespace Sys2Proof.Machine

/-! ### Shift counts and truth values -/

theorem sh6_eq (t : Word) : sh6 t = t.toNat % 64 := fld_low t 5

theorem sh5_eq (t : Word) : sh5 t = t.toNat % 32 := fld_low t 4

theorem sh6_lt (t : Word) : sh6 t < 64 := by
  rw [sh6_eq]
  exact Nat.mod_lt _ (by decide)

/-- A comparison's result is 1 where it holds, else 0. -/
theorem bool64_of_iff {b : Bool} {p : Prop} [Decidable p] (h : b = true ↔ p) : bool64 b = if p then 1 else 0 :=
  if_congr h rfl rfl

/-! ### The shifts of R80 -/

/-- A rotation left is the two shifts that its row names. -/
theorem rotateLeft_eq_shifts (a : Word) {k : Nat} (h : k < 64) : a.rotateLeft k = a <<< k ||| a >>> (64 - k) := by
  rw [BitVec.rotateLeft_eq_rotateLeftAux_of_lt h]
  rfl

/-- An arithmetic right shift of a low word, sign-extended, is the floor of a quotient. -/
theorem signExtend_sshiftRight_eq (a : W32) (k : Nat) :
    (a.sshiftRight k).signExtend 64 = BitVec.ofInt 64 (a.toInt / 2 ^ k) := by
  rw [BitVec.signExtend, BitVec.toInt_sshiftRight, Int.shiftRight_eq_div_pow]
  norm_cast

/-! ### The rows of A -/

theorem alu2_congr {f f' : Word → Word → Word} (h : ∀ a t, f a t = f' a t) : alu2 f = alu2 f' :=
  congrArg alu2 (funext₂ h)

/-- Each trigger of A computes what its row says of a.o and the trigger value (R80). -/
theorem trigAct_of_aluRow : ∀ r ∈ aluRows, trigAct r.1 0 = alu2 r.2 := by
  simp only [aluRows, List.forall_mem_cons, trigAct]
  refine ⟨rfl, rfl, ?addw, ?subw, rfl, rfl, rfl, rfl, ?shl, ?shr, ?sra, ?shlw, ?shrw, ?sraw, ?rotl, ?min, ?max, ?minu, ?maxu,
    rfl, ?sext, ?zext, ?clz, ?ctz, ?popc, ?ceq, ?cne, ?clt, ?cltu, ?cle, ?cleu, rfl, by simp⟩
  case addw | subw => exact alu2_congr fun _ _ => rfl
  case shl | shr => exact alu2_congr fun _ t => by rw [sh6_eq]
  case shlw | shrw => exact alu2_congr fun _ t => by rw [sh5_eq]
  case sra => exact alu2_congr fun a t => by rw [sshiftRight_eq, sh6_eq]
  case sraw => exact alu2_congr fun a t => by rw [signExtend_sshiftRight_eq, sh5_eq]
  case rotl => exact alu2_congr fun a t => by rw [rotateLeft_eq_shifts a (sh6_lt t), sh6_eq]
  case min | max => exact alu2_congr fun _ _ => if_congr BitVec.slt_iff_toInt_lt rfl rfl
  case minu | maxu => exact alu2_congr fun _ _ => if_congr BitVec.ult_iff_toNat_lt rfl rfl
  case sext => exact alu2_congr fun a t => by rw [sextFrom_eq a _ (sh6_lt t), sh6_eq]
  case zext => exact alu2_congr fun a t => by rw [zextFrom_eq a _ (sh6_lt t), sh6_eq]
  case clz => exact alu2_congr fun _ t => congrArg _ (leading_eq t 64 le_rfl)
  case ctz => exact alu2_congr fun _ t => by simp only [trailing_eq t 64 le_rfl, Nat.sub_self, Nat.zero_add]
  case popc => exact alu2_congr fun _ t => congrArg _ (popcount_eq t 64)
  case ceq => exact alu2_congr fun _ _ => bool64_of_iff beq_iff_eq
  case cne => exact alu2_congr fun _ _ => (bool64_of_iff bne_iff_ne).trans (ite_not _ _ _)
  case clt => exact alu2_congr fun _ _ => bool64_of_iff BitVec.slt_iff_toInt_lt
  case cltu => exact alu2_congr fun _ _ => bool64_of_iff BitVec.ult_iff_toNat_lt
  case cle => exact alu2_congr fun _ _ => bool64_of_iff BitVec.sle_iff_toInt_le
  case cleu => exact alu2_congr fun _ _ => bool64_of_iff BitVec.ule_iff_toNat_le

theorem aluResults : Rules.AluResults := by
  intro r hr g src s w d h
  exact exec_trigInstr_done h (congrFun₂ (trigAct_of_aluRow r hr) w s.passed)

/-! ### Bit fields (R81) -/

/-- The field that a control word of 13 bits selects: `w[5:0]` its place, `w[11:6]` its highest bit, `w[12]` its sign. -/
theorem bitField_eq (a : Word) {w : Word} (h : w.toNat < 2 ^ 13) :
    let f := a.toNat / 2 ^ (w.toNat % 64) % 2 ^ (w.toNat / 64 % 64 + 1)
    bitField a w = some (if w.getLsbD 12 then BitVec.ofInt 64 (Int.bmod f (2 ^ (w.toNat / 64 % 64 + 1)))
      else BitVec.ofNat 64 f) := by
  intro f
  have hreserved : ¬fld w 63 13 ≠ 0 := not_not.mpr ((fld_above (by decide)).mpr h)
  have htop : fld w 11 6 = w.toNat / 64 % 64 := by
    rw [fld, BitVec.extractLsb'_toNat, Nat.shiftRight_eq_div_pow]
  have hlt : w.toNat / 64 % 64 < 64 := Nat.mod_lt _ (by decide)
  have hshift : (a >>> sh6 w).toNat = a.toNat / 2 ^ (w.toNat % 64) := by
    rw [BitVec.toNat_ushiftRight, Nat.shiftRight_eq_div_pow, sh6_eq]
  have hsigned (x m : Nat) : Int.bmod x m = Int.bmod (x % m : Nat) m := by
    rw [Int.natCast_emod, Int.emod_bmod]
  have hfield : bitField a w = some (if w.getLsbD 12 then sextFrom (a >>> sh6 w) (fld w 11 6)
      else zextFrom (a >>> sh6 w) (fld w 11 6)) := if_neg hreserved
  rw [hfield, htop, sextFrom_eq _ _ hlt, zextFrom_eq _ _ hlt, hshift, hsigned]

theorem bitField_reserved (a : Word) {w : Word} (h : 2 ^ 13 ≤ w.toNat) : bitField a w = none :=
  if_pos (mt (fld_above (by decide)).mp (Nat.not_lt.mpr h))

theorem bitFieldExtract : Rules.BitFieldExtract := by
  intro g src s w d h
  have hexec : exec (.bfx g src) s = _ := trigger_fires (look := 0) (act := actBfx) h
  constructor <;> intro hw
  · rw [hexec, actBfx, bitField_eq _ hw]
    exact congrArg _ conclude_done
  · rw [hexec, actBfx, bitField_reserved _ hw]
    exact congrArg _ conclude_illegal

/-- Settles O1: the triggers with a row by what it computes, and bfx by the field of its control word. -/
theorem integerResults : Obligations.IntegerResults := ⟨aluResults, bitFieldExtract⟩

end Sys2Proof.Machine
end

section
/-! O2: every trigger of M by its row. -/

namespace Sys2Proof.Machine

/-! ### Products, quotients and remainders (R82, R83) -/

theorem mul_eq_ofNat (a t : Word) : a * t = BitVec.ofNat 64 (a.toNat * t.toNat) := by
  rw [BitVec.ofNat_mul, BitVec.ofNat_toNat, BitVec.ofNat_toNat, BitVec.setWidth_eq, BitVec.setWidth_eq]

/-- A word's product sign-extended is the signed residue of the product. -/
theorem signExtend_mul_eq (a t : W32) : (a * t).signExtend 64 = BitVec.ofInt 64 (Int.bmod (a.toNat * t.toNat) (2 ^ 32)) := by
  rw [BitVec.signExtend, BitVec.toInt_eq_toNat_bmod, BitVec.toNat_mul, Int.natCast_emod, Int.emod_bmod, Int.natCast_mul]

/-- The signed remainder is what the truncated quotient leaves. -/
theorem ofInt_tmod_eq (a t : Word) :
    BitVec.ofInt 64 (a.toInt.tmod t.toInt) = a - t * BitVec.ofInt 64 (a.toInt.tdiv t.toInt) := by
  have hsum : BitVec.ofInt 64 (a.toInt.tmod t.toInt) + t * BitVec.ofInt 64 (a.toInt.tdiv t.toInt) = a := by
    calc BitVec.ofInt 64 (a.toInt.tmod t.toInt) + t * BitVec.ofInt 64 (a.toInt.tdiv t.toInt)
        = BitVec.ofInt 64 (a.toInt.tmod t.toInt + t.toInt * a.toInt.tdiv t.toInt) := by
          rw [BitVec.ofInt_add, BitVec.ofInt_mul, BitVec.ofInt_toInt]
      _ = a := by rw [Int.tmod_add_mul_tdiv, BitVec.ofInt_toInt]
  exact eq_sub_of_add_eq hsum

/-- The unsigned remainder is what the quotient leaves. -/
theorem ofNat_mod_eq (a t : Word) : BitVec.ofNat 64 (a.toNat % t.toNat) = a - t * BitVec.ofNat 64 (a.toNat / t.toNat) := by
  have hsum : BitVec.ofNat 64 (a.toNat % t.toNat) + t * BitVec.ofNat 64 (a.toNat / t.toNat) = a := by
    calc BitVec.ofNat 64 (a.toNat % t.toNat) + t * BitVec.ofNat 64 (a.toNat / t.toNat)
        = BitVec.ofNat 64 (a.toNat % t.toNat + t.toNat * (a.toNat / t.toNat)) := by
          rw [BitVec.ofNat_add, BitVec.ofNat_mul, BitVec.ofNat_toNat, BitVec.setWidth_eq]
      _ = a := by rw [Nat.mod_add_div, BitVec.ofNat_toNat, BitVec.setWidth_eq]
  exact eq_sub_of_add_eq hsum

/-! ### The rows of M -/

/-- Each multiply delivers the half of the product that its row names (R82). -/
theorem trigAct_of_mulRow : ∀ r ∈ mulRows, trigAct r.1 0 = mulDone r.2 := by
  simp only [mulRows, List.forall_mem_cons, trigAct]
  exact ⟨congrArg mulDone (funext₂ mul_eq_ofNat), congrArg mulDone (funext₂ fun _ _ => signExtend_mul_eq _ _), rfl, rfl, by simp⟩

/-- A division's result, for a zero divisor and for another (R83). -/
def divOrZero (r : (Word → Word → Word) × (Word → Word)) (a t : Word) : Word := if t = 0 then r.2 a else r.1 a t

/-- Each division delivers what its row says (R83). -/
theorem trigAct_of_divRow (l : BitVec 4) : ∀ r ∈ divRows, trigAct r.1 l = divDone (divOrZero r.2) l := by
  have hrem : remS = divOrZero (fun a t => a - t * BitVec.ofInt 64 (a.toInt.tdiv t.toInt), fun a => a) :=
    funext₂ fun a t => congrArg (ite (t = 0) a) (ofInt_tmod_eq a t)
  have hremu : remU = divOrZero (fun a t => a - t * BitVec.ofNat 64 (a.toNat / t.toNat), fun a => a) :=
    funext₂ fun a t => congrArg (ite (t = 0) a) (ofNat_mod_eq a t)
  simp only [divRows, List.forall_mem_cons, trigAct]
  exact ⟨rfl, rfl, congrArg (divDone · l) hrem, congrArg (divDone · l) hremu, by simp⟩

/-- Settles O2: the multiplies and the divisions by their rows. -/
theorem multiplyDivideResults : Obligations.MultiplyDivideResults := by
  refine ⟨fun r hr g src s w d h => ?_, fun r hr g l src s w d h => ?_⟩
  · exact exec_trigInstr_done h (congrFun₂ (trigAct_of_mulRow r hr) w s.passed)
  · exact exec_trigInstr_done h (congrFun₂ (trigAct_of_divRow l r hr) w s.passed)

end Sys2Proof.Machine
end

section
/-! O11: vld and vst by what their access does at its place. -/

namespace Sys2Proof.Machine

/-- A vector load leaves in unit V; its result comes after those of V already on their way (R78, R99). -/
theorem launchLoad_v (s : State) (n : Nat) (sext : Bool) (l : BitVec 4) (a : Word) (loc : Loc) :
    let at1 := s.landing (leastLatency s loc)
    let done := s.th.flightDue none at1
    launchLoad s .v false n sext l (attrOf (s.th.get .lo)) a loc =
      (s.sent { s.loadOf .v n sext a loc at1 with done := done }).opened .v l
        { known := false, doneAt := done, hasRes := true, acq := fld (s.th.get .lo) 4 3 % 2 = 1 } := by
  have hacq : (if (attrOf (s.th.get .lo)).acq = true then some (attrOf (s.th.get .lo)).scope else none)
      = if fld (s.th.get .lo) 4 3 % 2 = 1 then some (fld (s.th.get .lo) 2 0) else none :=
    if_congr decide_eq_true_iff rfl rfl
  simp only [launchLoad, hacq]
  rfl

section
variable {s : State} {v : Vec} {loc : Loc} {l : BitVec 4}

/-- A vld that reaches its place leaves for 64 bytes (R99, R100). -/
theorem actVld_reaches (h : Reaches [0, 1] 64 .load 0 none (s.th.vectorAddr v) s loc) :
    let at1 := s.landing (leastLatency s loc)
    let done := s.th.flightDue none at1
    actVld l v s = .done ((s.sent { s.loadOf .v 64 false (s.th.vectorAddr v) loc at1 with done := done }).opened .v l
      { known := false, doneAt := done, hasRes := true, acq := fld (s.th.get .lo) 4 3 % 2 = 1 }) :=
  (access_reaches (admits := fun _ => true) h rfl).trans (congrArg Act.done (launchLoad_v s 64 false l _ loc))

/-- A vector trigger that fires and whose act is performed. -/
theorem vtrigger_done {t : VTrig} {look : BitVec 4} {g : Guard} {src : VSource} {act : Vec → State → Act} {u : State}
    {d : Option (BitVec 3 × Nat × Elem)} (hf : VFires (vOperandRegs t) g src s v d) (ha : act v s.vseen.advance = .done u) :
    vtrigger t look g src act s = .next (u.taken d) := by
  rw [vtrigger_fires hf, ha, conclude_done]

end

/-- Settles O11: the load by its launch, the store by the case whether it is posted. -/
theorem vectorMemory : Obligations.VectorMemory := by
  constructor
  · intro g l src s v d loc hf t a at1 done h
    exact vtrigger_done hf (actVld_reaches h)
  · intro g l src s v d loc hf t a at1 h hm hb hv
    have hact : actVst l v t = _ := storeAct_reaches (bs := vecBytes t.th.vo) (l := l) h hm hb hv
    refine ⟨fun hp => ?_, fun hp hc => ?_⟩
    · rw [hp, if_neg Bool.false_ne_true, launchStore_eq] at hact
      exact vtrigger_done hf hact
    · rw [if_pos hp, if_neg (Nat.not_le.mpr hc)] at hact
      obtain ⟨-, hmem, -, -, -, hunacked, hposted⟩ :=
        postStore_keeps t .v (attrOf (t.th.get .lo)) loc a (vecBytes t.th.vo) 1 false
      exact ⟨_, vtrigger_done hf hact, hmem, hunacked, hposted⟩

end Sys2Proof.Machine
end

section
/-! O26: the press triggers by their acts, and its refutation: a pclr behind a pclr entry of which 16-byte chunks count as
written. -/

namespace Sys2Proof.Machine

/-! ### The triggers that act at once (R112, R119 to R121) -/

section
variable {t : Word} {s : State}

/-- pscale.a reads its 64 scales where nothing holds it (R120). -/
theorem actPscaleA_reads (h16 : t.toNat % 16 = 0) (hfits : t.toNat + 256 ≤ 2 ^ 19) (hacq : s.th.acquiring s.cyc = false)
    (hbusy : s.lineBusy (scrCell s.th.key.tile t.toNat) 256 none = false)
    (hdenied : s.denied (scrCell s.th.key.tile t.toNat) 0 256 = 0) :
    actPscaleA t s = .done ((s.setMyPress { s.myPress with
      sa := (List.range 64).map (fun i =>
        BitVec.ofNat 32 (leNat (s.readAs 0 (scrCell s.th.key.tile (t.toNat + 4 * i)) 4))) }).holdFor 4) := by
  have hoff : fld t 18 0 = t.toNat := (fld_low t 18).trans (Nat.mod_eq_of_lt (by omega))
  have hlegal : ¬(fld t 63 19 ≠ 0 ∨ fld t 3 0 ≠ 0 ∨ 2 ^ 19 < t.toNat + 256) := by
    rintro (h | h | h)
    · exact h ((fld_above (by decide)).mpr (by omega))
    · exact h ((fld_low t 3).trans h16)
    · omega
  unfold actPscaleA
  rw [hoff, if_neg hlegal, if_neg (by simp [hacq, hbusy]), tileDenied, if_neg (not_not.mpr hdenied)]
  rfl

/-- The rows and row bytes of a shape that is not reserved (R121). -/
theorem pldShape_eq (h : fld t 4 3 < 3) : pldShape t = (2 ^ (6 - fld t 4 3), 2 ^ (5 + fld t 4 3)) := by
  unfold pldShape
  generalize fld t 4 3 = f at h ⊢
  match f, h with
  | 0, _ | 1, _ | 2, _ => rfl

/-- pld reads its rows where nothing queued or running reads the register and no chunk holds it (R121). -/
theorem actPld_reads (h5 : fld t 63 5 = 0) (hs : fld t 4 3 < 3) (hacq : s.th.acquiring s.cyc = false) :
    let c := s.myPress
    let w0 := s.th.get .pa0
    let w1 := s.th.get .pa1
    let rows := 2 ^ (6 - fld t 4 3)
    let rb := 2 ^ (5 + fld t 4 3)
    descOk w0 w1 = true → descFits w0 1 rows rb = true → (∀ e ∈ c.queue, readsReg s (fld t 2 0) e = false) →
      (∀ r ∈ (s.press s.th.key.tile).run, r.core = s.th.key.core → readsReg s (fld t 2 0) r.entry = false) →
      (∀ e ∈ descChunks w0 w1 0 rows rb, s.lineBusy (scrCell s.th.key.tile e) 16 none = false
        ∧ s.denied (scrCell s.th.key.tile e) 0 16 = 0) →
      let u1 : State := { s with lost := s.lost.erase (.press s.th.key.tile s.th.key.core (fld t 2 0)) }
      actPld t s = .done ((u1.setMyPress { c with regs := Vector.ofFn (fun i =>
          if i.val = fld t 2 0 then descRead s s.th.key.tile w0 w1 0 rows rb else c.regs[i]) }).holdFor 8) := by
  intro c w0 w1 rows rb hok hfits hqueue hrun hchunks u1
  have hlegal : ¬(fld t 63 5 ≠ 0 ∨ fld t 4 3 = 3 ∨ (!descOk w0 w1) = true ∨ (!descFits w0 1 rows rb) = true) := by
    simp [h5, hok, hfits, hs.ne]
  have hfree : ¬(s.th.acquiring s.cyc = true ∨ s.myPress.queue.any (readsReg s (fld t 2 0)) = true
      ∨ (s.press s.th.key.tile).run.any (fun r => r.core = s.th.key.core ∧ readsReg s (fld t 2 0) r.entry) = true
      ∨ (descChunks w0 w1 0 rows rb).any (fun e => s.lineBusy (scrCell s.th.key.tile e) 16 none) = true) := by
    simpa [hacq] using ⟨hqueue, hrun, fun e he => (hchunks e he).1⟩
  have hread : (descChunks w0 w1 0 rows rb).find? (fun e => tileDenied s s.th.key.tile e 16 ≠ 0) = none :=
    List.find?_eq_none.mpr fun e he => by simp [tileDenied, (hchunks e he).2]
  unfold actPld
  rw [pldShape_eq hs]
  dsimp only
  rw [if_neg hlegal, if_neg hfree, hread]

end

/-- The half of O26 about the triggers that act at once holds. -/
theorem pressContextTriggers : Rules.PressContextTriggers := by
  intro g src s t d u c
  have hkey : s.th.key = u.th.key := (State.seen_key s).symm
  rw [hkey]
  refine ⟨fun hfire => ?pctx, fun hfire h16 hfits hacq hbusy hdenied => ?pscaleA, fun hfire => ?pscaleB,
    fun hfire h5 hs hacq => ?pld⟩
  case pctx =>
    have hexec : exec (.pctx g src) s = _ := trigger_fires (look := 0) (act := actPctx) hfire
    refine ⟨fun hok => ?_, fun hbad => ?_⟩
    · rw [hexec, actPctx, if_pos hok, conclude_done]
    · rw [hexec, actPctx, if_neg (by rw [hbad]; decide), conclude_illegal]
  case pscaleA =>
    have hexec : exec (.pscaleA g src) s = _ := trigger_fires (look := 0) (act := actPscaleA) hfire
    rw [hexec, actPscaleA_reads h16 hfits hacq hbusy hdenied, conclude_done]
    rfl
  case pscaleB =>
    have hexec : exec (.pscaleB g src) s = _ := trigger_fires (look := 0) (act := actPscaleB) hfire
    refine ⟨fun h => ?_, fun h => ?_⟩
    · rw [hexec, actPscaleB, if_neg (not_not.mpr ((fld_above (by decide)).mpr h)), conclude_done]
    · rw [hexec, actPscaleB, if_pos (mt (fld_above (by decide)).mp (Nat.not_lt.mpr h)), conclude_illegal]
  case pld =>
    intro w0 w1 rows rb hok hfits hqueue hrun hchunks u1
    have hexec : exec (.pld g src) s = _ := trigger_fires (look := 0) (act := actPld) hfire
    rw [hexec, actPld_reads h5 hs hacq hok hfits hqueue hrun hchunks, conclude_done]
    rfl

/-! ### A format context written (R104) -/

theorem State.myPress_setMyPress {s : State} (c : PressCtx) (h : s.th.key.core < 4) : (s.setMyPress c).myPress = c := by
  change ((s.setPress _ _).press s.th.key.tile).at_ s.th.key.core = c
  rw [State.press_setPress, Press.at_put h]

/-! ### Entering the queue (R105, R132) -/

/-- The entry of an operation of the thread in focus. -/
def State.pressEntryOf (s : State) (op : PressOp) : PressEntry :=
  { op, key := s.th.key, ctx := s.th.ctx, since := s.cyc }

/-- The queue of the thread's context with an operation at the place it was withdrawn from, or at the end. -/
def State.pressQueueWith (s : State) (op : PressOp) : List PressEntry :=
  if s.myPress.queue.any (PressEntry.placeOf s.th.key) then
    s.myPress.queue.map (fun e => if e.placeOf s.th.key then s.pressEntryOf op else e)
  else s.myPress.queue ++ [s.pressEntryOf op]

/-- The state with an operation in that queue that takes its thread out of rotation. -/
def State.pressHeld (s : State) (op : PressOp) : State :=
  (s.setMyPress { s.myPress with queue := s.pressQueueWith op }).map (fun th => { th with hold := .press })

section
variable {s : State}

theorem enqueuePress_holds {op : PressOp} (hop : ∀ b, op ≠ .clr b) : enqueuePress s op true = s.pressHeld op := by
  unfold enqueuePress State.pressHeld State.pressQueueWith
  by_cases hplace : s.myPress.queue.any (PressEntry.placeOf s.th.key) = true
  · simp only [hplace, and_self, if_true]
    rfl
  · simp only [hplace, and_false, if_false, Bool.false_eq_true]
    cases op with
    | clr b => exact absurd rfl (hop b)
    | mma | drain | flags => rfl

/-- A pclr that is not behind a pclr enters at the end. -/
theorem enqueuePress_enters (a : BitVec 2) (hlast : ∀ e, s.myPress.queue.getLast? = some e → ∀ b, e.op ≠ .clr b) :
    enqueuePress s (.clr a) false =
      s.setMyPress { s.myPress with queue := s.myPress.queue ++ [s.pressEntryOf (.clr a)] } := by
  cases hq : s.myPress.queue.getLast? with
  | none =>
    simp [enqueuePress, hq, State.pressEntryOf]
  | some e =>
    obtain ⟨op, key, ctx, held, gone, since, part⟩ := e
    cases op with
    | clr b => exact absurd rfl (hlast _ hq b)
    | mma | drain | flags => simp [enqueuePress, hq, State.pressEntryOf]

/-- A pclr behind a pclr is one with it; the merged entry counts no chunk as written. -/
theorem enqueuePress_merges {e : PressEntry} {b : BitVec 2} (a : BitVec 2)
    (hlast : s.myPress.queue.getLast? = some e) (hop : e.op = .clr b) :
    enqueuePress s (.clr a) false = s.setMyPress { s.myPress with
      queue := s.myPress.queue.dropLast ++ [{ e with op := .clr (a ||| b), gone := false, part := 0 }] } := by
  obtain ⟨op, key, ctx, held, gone, since, part⟩ := e
  cases hop
  simp [enqueuePress, hlast]

end

/-! ### The queued triggers (R122 to R128) -/

/-- What a pmma or pmmas captures at its trigger (R122, R123). -/
def State.mmaOf (s : State) (sparse : Bool) (t : Word) : PressOp :=
  .mma sparse t s.myPress.fmt s.myPress.sa s.myPress.sb (s.th.get .pa0) (s.th.get .pa1) (s.th.get .pb0) (s.th.get .pb1)
    (s.th.get .pc)

theorem mmaAct_queues {sparse : Bool} {t : Word} {s : State} (hok : mmaOk sparse t s = true)
    (hacq : s.th.acquiring s.cyc = false) : mmaAct sparse t s = .done (s.pressHeld (s.mmaOf sparse t)) := by
  unfold mmaAct
  rw [if_neg (by simp [hok]), if_neg (by simp [hacq])]
  exact congrArg Act.done (enqueuePress_holds (fun _ => PressOp.noConfusion))

theorem drainDraws_eq (t : Word) : drainDraws t = if fld t 2 1 = 0 then 0 else (fld t 8 3 + 1) * 64 := by
  unfold drainDraws drainFmt
  split <;> simp_all

theorem actPclr_queues {t : Word} {s : State} (ht : t.toNat < 2) :
    actPclr t s = .done (enqueuePress s (.clr (if t = 0 then 1 else 2)) false) := by
  have hzero : fld t 0 0 = 0 ↔ t = 0 := by
    rw [fld_low, zero_add, pow_one, Nat.mod_eq_of_lt ht, ← BitVec.toNat_inj]
    rfl
  unfold actPclr
  rw [if_neg (not_not.mpr ((fld_above (k := 1) (by decide)).mpr ht)), if_congr hzero rfl rfl]

section
variable {g : Guard} {src : Src} {s : State} {t : Word} {d : Option (BitVec 3 × Nat × Elem)}

theorem exec_pmma (h : Fires .pmma g src s t d) (hok : mmaOk false t s.passed = true)
    (hacq : s.passed.th.acquiring s.passed.cyc = false) :
    exec (.pmma g src) s = .next ((s.passed.pressHeld (s.passed.mmaOf false t)).taken d) := by
  have hexec : exec (.pmma g src) s = _ := trigger_fires (look := 0) (act := actPmma) h
  rw [hexec, actPmma, mmaAct_queues hok hacq, conclude_done]

theorem exec_pmmas (h : Fires .pmmas g src s t d) (hok : mmaOk true t s.passed = true)
    (hacq : s.passed.th.acquiring s.passed.cyc = false) :
    exec (.pmmas g src) s = .next ((s.passed.pressHeld (s.passed.mmaOf true t)).taken d) := by
  have hexec : exec (.pmmas g src) s = _ := trigger_fires (look := 0) (act := actPmmas) h
  rw [hexec, actPmmas, mmaAct_queues hok hacq, conclude_done]

/-- A pdrain holds its thread, its source's dequeue still to be made (R12), with its draws taken at the trigger. -/
theorem exec_pdrain (h : Fires .pdrain g src s t d) (ht : fld t 63 10 = 0) (h0 : fld (s.passed.th.get .pa0) 3 0 = 0)
    (h1 : fld (s.passed.th.get .pa1) 63 36 = 0) (hlow : fld (s.passed.th.get .pa1) 3 0 = 0)
    (hrot : fld (s.passed.th.get .pa1) 35 32 = 0
      ∨ (8 ≤ fld (s.passed.th.get .pa1) 35 32 ∧ fld (s.passed.th.get .pa1) 35 32 ≤ 12))
    (hacq : s.passed.th.acquiring s.passed.cyc = false) :
    exec (.pdrain g src) s = .next ((s.seen.pressHeld
      (.drain t (s.passed.th.get .pa0) (s.passed.th.get .pa1) (s.passed.th.get .xrnd))).map (fun th => { th.set .xrnd
        (skipDraws (if fld t 2 1 = 0 then 0 else (fld t 8 3 + 1) * 64) (s.passed.th.get .xrnd)) with
          hold := .press, unperformed := some (d.map Prod.fst) })) := by
  have hlegal : ¬(fld t 63 10 ≠ 0 ∨ fld (s.passed.th.get .pa0) 3 0 ≠ 0 ∨ fld (s.passed.th.get .pa1) 63 36 ≠ 0
      ∨ fld (s.passed.th.get .pa1) 3 0 ≠ 0 ∨ ¬(fld (s.passed.th.get .pa1) 35 32 = 0
        ∨ (8 ≤ fld (s.passed.th.get .pa1) 35 32 ∧ fld (s.passed.th.get .pa1) 35 32 ≤ 12))) := by
    rintro (h | h | h | h | h)
    exacts [h ht, h h0, h h1, h hlow, h hrot]
  have hexec : exec (.pdrain g src) s = _ := trigger_fires (look := 0) (act := actPdrain) h
  rw [hexec, actPdrain]
  dsimp only
  rw [if_neg hlegal, if_neg (Bool.eq_false_iff.mp hacq), conclude_hold, enqueuePress_holds (fun _ => PressOp.noConfusion),
    State.map_map, drainDraws_eq]
  rfl

theorem exec_pflags (h : Fires .pflags g src s t d) :
    (t = 0 → exec (.pflags g src) s = .next ((s.passed.pressHeld .flags).taken d))
    ∧ (t ≠ 0 → exec (.pflags g src) s = .next (trapIllegal s.seen)) := by
  have hexec : exec (.pflags g src) s = _ := trigger_fires (look := 0) (act := actPflags) h
  rw [hexec, actPflags]
  refine ⟨fun hzero => ?_, fun hnonzero => ?_⟩
  · rw [if_neg (not_not.mpr hzero), enqueuePress_holds (fun _ => PressOp.noConfusion), conclude_done]
  · rw [if_pos hnonzero, conclude_illegal]

theorem exec_pclr (h : Fires .pclr g src s t d) (ht : t.toNat < 2) : exec (.pclr g src) s =
    .next ((enqueuePress s.passed (.clr (if t = 0 then 1 else 2)) false).taken d) := by
  have hexec : exec (.pclr g src) s = _ := trigger_fires (look := 0) (act := actPclr) h
  rw [hexec, actPclr_queues ht, conclude_done]

end

/-! ### A pclr behind a pclr entry of which a chunk counts as written -/

/-- A pclr entry of accumulator 0. -/
def chunkClear : PressEntry := { op := .clr 1, key := ⟨0, 0, 0⟩, ctx := 0, part := 1 }

/-- A thread of a stage core whose format context has that entry queued. -/
def chunkClearState : State :=
  { State.reset with th := { key := ⟨0, 0, 0⟩, life := .running } }.setMyPress { queue := [chunkClear] }

theorem chunkClearState_fires : Fires .pclr ⟨false, 0⟩ (.imm 0) chunkClearState 0 none := ⟨rfl, rfl, rfl, rfl, rfl⟩

theorem chunkClearState_last : chunkClearState.passed.myPress.queue.getLast? = some chunkClear := rfl

/-- Refutes O26: pclr behind the entry of `chunkClearState` leaves a merged entry of which no chunk counts as written, where
the statement keeps the entry's count. (`serveDrain` counts chunks of a pdrain alone, and the statement does not ask
that a pclr entry's count be 0; its other clauses hold, by the lemmas above.) -/
theorem not_pressTriggers : ¬ Obligations.PressTriggers := by
  intro h
  obtain ⟨-, hqueue⟩ := h
  obtain ⟨-, -, -, hclr, -⟩ := hqueue ⟨false, 0⟩ (.imm 0) chunkClearState 0 none
  obtain ⟨-, hmerge⟩ := hclr chunkClearState_fires (by decide)
  have hstated := hmerge chunkClear 1 chunkClearState_last rfl
  rw [exec_pclr chunkClearState_fires (by decide), enqueuePress_merges _ chunkClearState_last rfl] at hstated
  have hpress := congrArg State.myPress (Host.Outcome.next.inj hstated)
  rw [State.taken_none, State.taken_none, State.myPress_setMyPress _ (by decide),
    State.myPress_setMyPress _ (by decide)] at hpress
  have hparts := congrArg (fun c => c.queue.map PressEntry.part) hpress
  exact absurd hparts (by decide)

end Sys2Proof.Machine
end

section
/-! O29: the D triggers by their acts on the array of the thread's core. -/

namespace Sys2Proof.Machine

/-! ### Cells -/

theorem DArray.cell_setCell_same (a : DArray) (n : Nat) (c : DCell) : (a.setCell n c).cell n = c := by
  simp [DArray.cell, DArray.setCell, assoc]

theorem DArray.cell_setCell_other (a : DArray) {n m : Nat} (c : DCell) (h : m ≠ n) : (a.setCell n c).cell m = a.cell m := by
  have hfilter (x : Nat × DCell) : decide ((decide (x.1 ≠ n)) = true ∧ decide (x.1 = m) = true) = decide (x.1 = m) := by
    by_cases hx : x.1 = m <;> simp [hx, h]
  have hfind : (a.cells.filter (fun x => x.1 ≠ n)).find? (fun x => x.1 = m) = a.cells.find? (fun x => x.1 = m) := by
    rw [List.find?_filter, funext hfilter]
  rw [DArray.cell, DArray.setCell, assoc, List.find?_cons_of_neg (by simpa using h.symm), hfind]
  rfl

/-- A patched cell holds its entry, keeps its integrand and residue, and its latch into its own domain is empty (R150). -/
theorem DArray.cell_patchCell_same (a : DArray) (n : Nat) (d0 d1 : Word) :
    let c := (a.patchCell n d0 d1).cell n
    c.d0 = d0 ∧ c.d1 = d1 ∧ c.y = (a.cell n).y ∧ c.q = (a.cell n).q ∧ c.full.getLsbD (fld d0 12 10) = false := by
  rw [DArray.patchCell, DArray.cell_setCell_same]
  exact ⟨rfl, rfl, rfl, rfl, by simp⟩

theorem DArray.cell_patchCell_other (a : DArray) {n m : Nat} (d0 d1 : Word) (h : m ≠ n) :
    (a.patchCell n d0 d1).cell m = a.cell m :=
  DArray.cell_setCell_other a _ h

/-! ### The acts -/

theorem fld_low_eq {w : Word} {n : Nat} (h : w.toNat < 2 ^ (n + 1)) : fld w n 0 = w.toNat :=
  (fld_low w n).trans (Nat.mod_eq_of_lt h)

/-- The array of the core of the thread in focus. -/
abbrev State.myArray (s : State) : DArray := s.array s.th.key.coreKey

/-- What a valid patch at index `n` makes of an array: its sink, its source or a cell's entry (R142, R150). -/
def DArray.patched (a : DArray) (n : Nat) (d0 d1 : Word) : DArray :=
  if n = 0x100 then { a with sink := d0 } else if n = 0x101 then { a with src := d0 } else a.patchCell n d0 d1

section
variable {t : Word} {s : State} (hmay : MayUseArray s)
include hmay

theorem actDpatch_patches (hstill : s.myArray.still = true) (hn : t.toNat ≤ 0x101)
    (hok : entryOk t.toNat (s.th.get .dO) (s.th.get .dO2) = true) :
    actDpatch t s = .done (s.putArray (s.myArray.patched t.toNat (s.th.get .dO) (s.th.get .dO2))) := by
  have hix : fld t 8 0 = t.toNat := fld_low_eq (by omega)
  have hres : fld t 63 9 = 0 := (fld_above (by decide)).mpr (by omega)
  have hlegal : ¬(fld t 63 9 ≠ 0 ∨ 0x101 < t.toNat ∨ (!entryOk t.toNat (s.th.get .dO) (s.th.get .dO2)) = true
      ∨ (!s.myArray.still) = true) := by
    simp [hres, hok, hstill, Nat.not_lt.mpr hn]
  rw [actDpatch, dWith_may hmay]
  dsimp only
  rw [hix, if_neg hlegal, DArray.patched]
  split_ifs <;> rfl

theorem setCellAct_sets (res : Bool) (hstill : s.myArray.still = true) (hn : t.toNat < 256) :
    setCellAct res t s = .done (s.putArray (s.myArray.setCell t.toNat
      (if res then { s.myArray.cell t.toNat with q := (s.th.get .dO).setWidth 32 }
      else { s.myArray.cell t.toNat with y := (s.th.get .dO).setWidth 32 }))) := by
  have hres : fld t 63 8 = 0 := (fld_above (by decide)).mpr hn
  rw [setCellAct, dWith_may hmay]
  exact if_neg (by simp [hres, hstill])

theorem getCellAct_reads (res : Bool) (l : BitVec 4) (hn : t.toNat < 256) (hlost : s.arrayLost = false) :
    getCellAct res l t s = .done ((s.putArray s.myArray).opened .d l
      { doneAt := s.cyc + 4, hasRes := true
        r := (if res then (s.myArray.cell t.toNat).q else (s.myArray.cell t.toNat).y).signExtend 64 }) := by
  have hres : fld t 63 8 = 0 := (fld_above (by decide)).mpr hn
  rw [getCellAct, dWith_may hmay]
  dsimp only
  rw [if_neg (not_not.mpr hres), if_neg (Bool.eq_false_iff.mp hlost)]
  rfl

theorem actDclk_sets (hres : fld t 63 19 = 0) (hperiod : fld t 15 0 ≠ 0) (hrun : (s.myArray.dom (fld t 18 16)).run = false) :
    actDclk t s = .done (s.putArray (s.myArray.mapDoms (fun i x =>
      if i = fld t 18 16 then { x with period := fld t 15 0, next := 0 } else x))) := by
  rw [actDclk, dWith_may hmay]
  exact if_neg (by simp [hres, hperiod, hrun])

theorem actDrun_starts (hn : t.toNat < 256) (hstatus : fld s.myArray.status 3 0 = 0) (hload : loadOk s.myArray t.toNat = true)
    (hlost : s.arrayLost = false) (hbridge : bridgeUnbound s s.myArray = none)
    (hsource : ∀ p ∈ s.myArray.cells, p.2.en = true → 0x100 ∈ p.2.codes → p.2.dom = fld s.myArray.src 2 0) :
    actDrun t s = .done (s.putArray (s.myArray.mapDoms (fun i x => if t.toNat.testBit i = true ∧ x.run = false then
      { x with run := true, tick := s.cyc + (if x.next = 0 then x.period else x.next) } else x))) := by
  have hres : fld t 63 8 = 0 := (fld_above (by decide)).mpr hn
  have hreaders : ¬s.myArray.cells.any
      (fun p => p.2.en && p.2.codes.contains 0x100 && p.2.dom != fld s.myArray.src 2 0) = true := by
    simpa using fun n c hp hen hcode => hsource (n, c) hp hen hcode
  rw [actDrun, dWith_may hmay]
  rw [if_neg (by simp [hres, hstatus, hload]), if_neg (Bool.eq_false_iff.mp hlost), hbridge]
  dsimp only
  rw [if_neg hreaders]
  simp only [Bool.not_eq_true']

theorem actDhalt_halts (hn : t.toNat < 256) : actDhalt t s = .done (s.putArray (haltDomains s.myArray t.toNat s.cyc)) := by
  have hres : fld t 63 8 = 0 := (fld_above (by decide)).mpr hn
  rw [actDhalt, dWith_may hmay]
  exact if_neg (not_not.mpr hres)

/-- A selector of dstat (R159): a domain's word, the status, or the status cleared as it is read. -/
theorem actDstat_reads (hres : fld t 63 5 = 0) (hsel : fld t 3 0 ≤ 8) (hclear : t.getLsbD 4 = true → fld t 3 0 = 8) :
    actDstat t s = .done ((s.putArray (if t.getLsbD 4 then { s.myArray with status := 0 } else s.myArray)).pending (some .dr) 2
      (if fld t 3 0 = 8 then s.myArray.status else (s.myArray.dom (fld t 3 0)).word s.cyc) 0 0) := by
  have hlegal : ¬(fld t 63 5 ≠ 0 ∨ 8 < fld t 3 0 ∨ (t.getLsbD 4 = true ∧ fld t 3 0 ≠ 8)) := by
    rintro (h | h | ⟨h, h8⟩)
    · exact h hres
    · omega
    · exact h8 (hclear h)
  rw [actDstat, dWith_may hmay]
  exact if_neg hlegal

end

/-- Settles O29: each trigger by its act, on the state that the transport has passed. -/
theorem integratorTriggers : Obligations.IntegratorTriggers := by
  intro g l src s t d hmay u a own n
  have hkey : s.th.key = u.th.key := (State.passed_key s).symm
  have hmine : a = u.myArray := congrArg (fun k : SlotKey => u.array k.coreKey) hkey
  have hown (b : DArray) : own b = u.putArray b :=
    congrArg (fun k : SlotKey => u.setArray k.coreKey { b with owner := some k }) hkey
  simp only [hown, hmine]
  refine ⟨?dpatch, ?dset, ?dget, ?dclk, ?drun, ?dhalt, ?domain, ?status, ?clear⟩
  case dpatch =>
    intro hfire hstill hn hok
    have hexec := exec_trigInstr_done (l := 0) hfire (actDpatch_patches hmay hstill hn hok)
    refine ⟨fun h => ?_, fun h => ?_, fun h => ?_⟩
    · rwa [DArray.patched, if_pos h] at hexec
    · rwa [DArray.patched, if_neg (by omega), if_pos h] at hexec
    · rw [DArray.patched, if_neg (by omega), if_neg (by omega)] at hexec
      obtain ⟨hd0, hd1, hy, hq, hfull⟩ := DArray.cell_patchCell_same u.myArray n (u.th.get .dO) (u.th.get .dO2)
      exact ⟨_, hexec, hd0, hd1, hy, hq, hfull, fun m hm => DArray.cell_patchCell_other _ _ _ hm⟩
  case dset =>
    exact fun hn hstill => ⟨fun hfire => exec_trigInstr_done (l := 0) hfire (setCellAct_sets hmay false hstill hn),
      fun hfire => exec_trigInstr_done (l := 0) hfire (setCellAct_sets hmay true hstill hn)⟩
  case dget =>
    exact fun hn hlost => ⟨fun hfire => exec_trigInstr_done hfire (getCellAct_reads hmay false l hn hlost),
      fun hfire => exec_trigInstr_done hfire (getCellAct_reads hmay true l hn hlost)⟩
  case dclk =>
    exact fun hfire hres hperiod hrun => exec_trigInstr_done (l := 0) hfire (actDclk_sets hmay hres hperiod hrun)
  case drun =>
    exact fun hfire hn hstatus hload hlost hbridge hsource =>
      exec_trigInstr_done (l := 0) hfire (actDrun_starts hmay hn hstatus hload hlost hbridge hsource)
  case dhalt =>
    exact fun hfire hn => exec_trigInstr_done (l := 0) hfire (actDhalt_halts hmay hn)
  case domain =>
    intro hfire hn
    have hsel : fld t 3 0 = n := fld_low_eq (show n < 2 ^ (3 + 1) by omega)
    have hclear : t.getLsbD 4 = false := Nat.testBit_lt_two_pow (show n < 2 ^ 4 by omega)
    have hres : fld t 63 5 = 0 := (fld_above (by decide)).mpr (show n < 2 ^ 5 by omega)
    have hact := actDstat_reads hmay hres (by omega) (fun h => absurd h (Bool.eq_false_iff.mp hclear))
    rw [hclear, if_neg Bool.false_ne_true, hsel, if_neg (by omega)] at hact
    exact exec_trigInstr_done (l := 0) hfire hact
  case status =>
    intro hfire hn
    obtain rfl : t = 8 := BitVec.eq_of_toNat_eq hn
    exact exec_trigInstr_done (l := 0) hfire (actDstat_reads hmay (by decide) (by decide) (by decide))
  case clear =>
    intro hfire hn
    obtain rfl : t = 24 := BitVec.eq_of_toNat_eq hn
    exact exec_trigInstr_done (l := 0) hfire (actDstat_reads hmay (by decide) (by decide) (by decide))

end Sys2Proof.Machine
end

section
/-! O30, first part: the images of the array, and the threads that may not use it. -/

namespace Sys2Proof.Machine

section
variable {t : Word} {s : State} {ls : List (Loc × Nat)}

/-- The checks that dsave and drest share pass (R157, R158). -/
theorem imageAct_passes {need : Need} {f : DArray → List (Loc × Nat) → Act} (hmay : MayUseArray s)
    (hstill : s.myArray.still = true) (h64 : t.toNat % 64 = 0) (hacq : s.th.acquiring s.cyc = false)
    (hspan : spanLocs s need 131 t 0x2080 = .ok ls) (hbusy : spanBusy s ls = false) : imageAct need t s f = f s.myArray ls := by
  rw [imageAct, dWith_may hmay, if_neg (by simp [hstill]), if_neg (not_not.mpr h64), if_neg (Bool.eq_false_iff.mp hacq), hspan]
  exact if_neg (Bool.eq_false_iff.mp hbusy)

/-- A thread that may not use the array does nothing with it (R148, R149). -/
theorem dWith_refused {f : DArray → Act} (h : ¬MayUseArray s) : dWith s f = .illegal := if_neg h

/-- Every D trigger asks first whether its thread may use the array. -/
theorem trigAct_refused {op : Trig} (hop : op ∈ [Trig.dpatch, .dsety, .dsetr, .dgety, .dgetr, .dclk, .drun, .dhalt, .dsave,
    .drest, .dstat]) (l : BitVec 4) (h : ¬MayUseArray s) : trigAct op l t s = .illegal := by
  simp only [List.mem_cons, List.not_mem_nil, or_false] at hop
  rcases hop with rfl | rfl | rfl | rfl | rfl | rfl | rfl | rfl | rfl | rfl | rfl <;>
    simp only [trigAct, actDpatch, actDsety, actDsetr, setCellAct, actDgety, actDgetr, getCellAct, actDclk, actDrun, actDhalt,
      actDsave, actDrest, imageAct, actDstat, dWith_refused h]

/-- dsave leaves the image over its span once nothing holds its stores (R156, R157; log entry 6). -/
theorem actDsave_saves (hmay : MayUseArray s) (hstill : s.myArray.still = true) (h64 : t.toNat % 64 = 0)
    (hacq : s.th.acquiring s.cyc = false) (hspan : spanLocs s .store 131 t 0x2080 = .ok ls) (hbusy : spanBusy s ls = false)
    (hlost : s.arrayLost = false) (hheld : storesHeld s ls = false) :
    actDsave t s = .done ((storeLocs .d (s.landing 1) t ls (arrayImage s.myArray s.cyc) (s.drawn.putArray s.myArray)).map
      (fun th => { th with readyAt := s.landing 1 })) := by
  rw [actDsave, imageAct_passes hmay hstill h64 hacq hspan hbusy, if_neg (Bool.eq_false_iff.mp hlost),
    if_neg (Bool.eq_false_iff.mp hheld)]
  rfl

/-- drest takes an image that passes its checks, and what the array had lost is written again (R158). -/
theorem actDrest_restores (hmay : MayUseArray s) (hstill : s.myArray.still = true) (h64 : t.toNat % 64 = 0)
    (hacq : s.th.acquiring s.cyc = false) (hspan : spanLocs s .load 131 t 0x2080 = .ok ls) (hbusy : spanBusy s ls = false)
    (hok : imageOk (readLocs s ls) = true) :
    let z : State := { s.drawn with lost := s.lost.erase (.array s.th.key.coreKey) }
    actDrest t s = .done ((z.putArray (arrayOfImage s.myArray (readLocs s ls))).map
      (fun th => { th with readyAt := s.landing 1 })) := by
  rw [actDrest, imageAct_passes hmay hstill h64 hacq hspan hbusy]
  exact if_neg (by simp [hok])

end

/-- R156 to R158: dsave, drest, and every D trigger of a thread that may not use the array. -/
theorem integratorImages : Rules.IntegratorImages := by
  constructor
  case left =>
    intro g src s t d ls hmay u a hstill h64 hacq hbusy
    have hkey : s.th.key = u.th.key := (State.passed_key s).symm
    have hmine : a = u.myArray := congrArg (fun k : SlotKey => u.array k.coreKey) hkey
    rw [hmine] at hstill ⊢
    rw [hkey]
    exact ⟨fun hfire hspan hlost hheld => exec_trigInstr_done (t := .dsave) (l := 0) hfire
        (actDsave_saves hmay hstill h64 hacq hspan hbusy hlost hheld),
      fun hfire hspan hok => exec_trigInstr_done (t := .drest) (l := 0) hfire
        (actDrest_restores hmay hstill h64 hacq hspan hbusy hok)⟩
  case right =>
    intro op hop g l src s t d hfire hmay
    rw [exec_trigInstr_act, trigger_fires hfire, trigAct_refused hop l hmay, conclude_illegal]

end Sys2Proof.Machine
end

section
/-! O30, second part: a tick by what its cells step to, what its bridge takes and what its bridge gives. -/

namespace Sys2Proof.Machine

/-! ### The increment of a cell (R135) -/

/-- The carry of a sum out of a residue of 32 bits. -/
def carryOf (x : Int) : Int := if 2 ^ 31 ≤ x then 1 else if x < -(2 ^ 31) then -1 else 0

theorem carryOf_cases (x : Int) :
    (2 ^ 31 ≤ x ∧ carryOf x = 1) ∨ (x < -(2 ^ 31) ∧ carryOf x = -1)
      ∨ (-(2 ^ 31) ≤ x ∧ x < 2 ^ 31 ∧ carryOf x = 0) := by
  unfold carryOf
  split_ifs <;> omega

/-- A residue and its carry are the sum, where one carry is enough. -/
theorem residue_add_carry {x : Int} (hlow : -2 ^ 32 - 2 ^ 31 ≤ x) (hhigh : x < 2 ^ 32 + 2 ^ 31) :
    (BitVec.ofInt 32 (x - carryOf x * 2 ^ 32)).toInt + carryOf x * 2 ^ 32 = x := by
  have hfits : -(2 ^ 31) ≤ x - carryOf x * 2 ^ 32 ∧ x - carryOf x * 2 ^ 32 < 2 ^ 31 := by
    rcases carryOf_cases x with ⟨h, hc⟩ | ⟨h, hc⟩ | ⟨h, h', hc⟩ <;> rw [hc] <;> omega
  rw [BitVec.toInt_ofInt, Int.bmod_eq_of_le (by omega) (by omega)]
  omega

/-- What a cell adds to its residue (R135). -/
def DArray.sumOf (a : DArray) (inc : Int) (c : DCell) : Int :=
  c.q.toInt + negIf (c.d0.getLsbD 9) (sourceValue a c.dom inc (fld c.d0 8 0)) * c.y.toInt

theorem stepCell_carries (a : DArray) (inc : Int) (n : Nat) (c : DCell) :
    (stepCell a inc n c).z = carryOf (a.sumOf inc c)
      ∧ (stepCell a inc n c).q = BitVec.ofInt 32 (a.sumOf inc c - carryOf (a.sumOf inc c) * 2 ^ 32) := ⟨rfl, rfl⟩

/-! ### The domains and the bridge of an array -/

theorem DArray.dom_mapDoms (a : DArray) (f : Nat → DDomain → DDomain) {d : Nat} (h : d < 8) :
    (a.mapDoms f).dom d = f d (a.dom d) := by
  simp [DArray.dom, DArray.mapDoms, h]

/-- Setting cells one after the other changes nothing but the cells. -/
theorem foldl_setCell_eq {α : Type} (n : α → Nat) (c : DArray → α → DCell) (l : List α) (a : DArray) :
    ∃ cells, l.foldl (fun b x => b.setCell (n x) (c b x)) a = { a with cells } := by
  induction l generalizing a with
  | nil => exact ⟨_, rfl⟩
  | cons x l ih => exact ih (a.setCell (n x) (c a x))

/-- A committed tick changes nothing but the cells. -/
theorem commitCells_eq (a : DArray) (steps : List Stepped) (ticking : Nat → Bool) :
    ∃ cells, commitCells a steps ticking = { a with cells } := by
  obtain ⟨cells, h⟩ := foldl_setCell_eq Stepped.n _ steps _
  exact ⟨cells, h⟩

/-- A field that a mask clears is what is then written there. -/
theorem fld_masked_out {w m y : Word} {hi lo : Nat} (h : m.extractLsb' lo (hi - lo + 1) = 0) :
    fld (w &&& m ||| y) hi lo = fld y hi lo := by
  simp only [fld, BitVec.extractLsb'_or, BitVec.extractLsb'_and, h]
  simp

/-- A field that a mask keeps stays where nothing is written. -/
theorem fld_masked_in {w m y : Word} {hi lo : Nat} (h : m.extractLsb' lo (hi - lo + 1) = BitVec.allOnes _)
    (hy : y.extractLsb' lo (hi - lo + 1) = 0) : fld (w &&& m ||| y) hi lo = fld w hi lo := by
  simp only [fld, BitVec.extractLsb'_or, BitVec.extractLsb'_and, h, hy]
  simp

/-- The status once a token of a level has closed the bridge's source (R144). -/
def closedStatus (w : Word) (level : Nat) : Word :=
  (w &&& ~~~0xF000000000) ||| BitVec.ofNat 64 (2 ^ 36 + level * 2 ^ 37)

theorem closedStatus_fields (w : Word) {level : Nat} (h : level < 8) :
    fld (closedStatus w level) 36 36 = 1 ∧ fld (closedStatus w level) 39 37 = level
      ∧ fld (closedStatus w level) 35 0 = fld w 35 0 := by
  have hlt : 2 ^ 36 + level * 2 ^ 37 < 2 ^ 64 := by omega
  refine ⟨?_, ?_, fld_masked_in (by decide) (BitVec.eq_of_toNat_eq ?_)⟩
  · rw [closedStatus, fld_masked_out (by decide), fld_ofNat _ _ _ hlt]
    omega
  · rw [closedStatus, fld_masked_out (by decide), fld_ofNat _ _ _ hlt]
    omega
  · change fld (BitVec.ofNat 64 (2 ^ 36 + level * 2 ^ 37)) 35 0 = 0
    rw [fld_ofNat _ _ _ hlt]
    omega

/-! ### A state whose array is set -/

@[simp] theorem State.array_setArray (s : State) (k : CoreKey) (a : DArray) : (s.setArray k a).array k = a := by
  simp [State.array, State.setArray]

theorem State.array_congr {s u : State} (h : u.arrays = s.arrays) (k : CoreKey) : u.array k = s.array k := by
  rw [State.array, State.array, h]

@[simp] theorem State.chanTouched_arrays (s : State) (c : Chan) (w : Option Nat) : (s.chanTouched c w).arrays = s.arrays := by
  unfold State.chanTouched
  split <;> rfl

/-- An enqueue changes its channel and leaves thread, memory and arrays alone. -/
theorem State.enqueueAt_keeps (s : State) (id : Nat) (w : Word) (tag sync : Bool) :
    (s.enqueueAt id w tag sync).th = s.th ∧ (s.enqueueAt id w tag sync).mem = s.mem
      ∧ (s.enqueueAt id w tag sync).arrays = s.arrays := by
  cases h : s.chan? id with
  | none => simp [State.enqueueAt, h]
  | some c =>
    rw [State.enqueueAt_eq w tag sync h]
    exact ⟨State.chanTouched_th .., State.chanTouched_mem .., State.chanTouched_arrays ..⟩

/-- R248, R249: the element stands behind the others of its channel. -/
theorem State.chan?_enqueueAt {s : State} {id : Nat} {c : Chan} (w : Word) (tag sync : Bool) (h : s.chan? id = some c) :
    ∃ c' e, (s.enqueueAt id w tag sync).chan? id = some c' ∧ c'.elems = c.elems ++ [e] ∧ e.word = w ∧ e.tag = tag := by
  have hsame : (s.drawn.chanTouched c (some c.wr)).chan? id = some c :=
    (State.chan?_congr (State.chanTouched_chans ..) id).trans h
  rw [State.enqueueAt_eq w tag sync h]
  refine ⟨_, _, (State.chan?_mapChan _ _ ?id).trans ((congrArg _ hsame).trans rfl), rfl, rfl, rfl⟩
  case id => exact fun _ => rfl

/-! ### The parts of a tick (R140, R143, R144) -/

/-- A domain of an array ticks in cycle `now`. -/
def DArray.ticks (a : DArray) (now d : Nat) : Bool := (a.dom d).run && decide ((a.dom d).tick ≤ now)

/-- What the cells of the domains that tick step to, from the values before the tick. -/
def DArray.stepped (a : DArray) (now : Nat) (inc : Int) : List Stepped :=
  (a.cells.filter (fun p => p.2.en && a.ticks now p.2.dom)).map (fun p => stepCell a inc p.1 p.2)

/-- The element that the bridge's source takes at a tick, with its port and channel. -/
def State.tickHead (s : State) (a : DArray) : Option (Port × Chan × Elem) :=
  if bridgeOn a.src && a.ticks s.cyc (fld a.src 2 0) then sourceHead s a else none

def headIncrement : Option (Port × Chan × Elem) → Int
  | some (_, _, e) => elemIncrement e
  | none => 0

/-- The cell whose increment the bridge's sink gives. -/
def DArray.sinkStep (a : DArray) (steps : List Stepped) : Option Stepped :=
  if bridgeOn a.sink then steps.find? (fun x => x.n = fld a.sink 7 0 ∧ x.z ≠ 0) else none

/-- The array with its cells stepped and its domains moved on. -/
def DArray.ticked (a : DArray) (now : Nat) (inc : Int) : DArray :=
  (commitCells a (a.stepped now inc) (a.ticks now)).mapDoms (fun d x => if a.ticks now d then
    { x with steps := x.steps + 1, tick := x.tick + x.period } else x)

/-- The state and the array once the source's element is taken: a token closes the source. -/
def bridgeTake (s : State) (b : DArray) : Option (Port × Chan × Elem) → State × DArray
  | some (p, c, e) => (s.dequeueAt p c.id,
      if e.tag then { b with src := b.src &&& ~~~0x800, status := closedStatus b.status (fld e.word 2 0) } else b)
  | none => (s, b)

/-- The state with array `b` in place of `a`, and what its sink gives enqueued. -/
def bridgeGive (s : State) (k : CoreKey) (a b : DArray) : Option Stepped → State
  | none => s.setArray k b
  | some x =>
    match ownerChan s a (bridgeQ a.sink) true with
    | some (_, c) => (s.setArray k { b with sunk := some s.cyc }).enqueueAt c.id (BitVec.ofInt 64 x.z) false false
    | none => s.setArray k b

/-- The state after a tick that commits. -/
def State.committed (s : State) (k : CoreKey) (inc : Int) : State :=
  let a := s.array k
  let taken := bridgeTake s (a.ticked s.cyc inc) (s.tickHead a)
  bridgeGive taken.1 k a taken.2 (a.sinkStep (a.stepped s.cyc inc))

/-- The state after a tick with a fault, or without one. -/
def State.tickedBy (s : State) (k : CoreKey) (inc : Int) : Option (Nat × Nat × Nat) → State
  | some f => s.setArray k (freeze (s.array k) s.cyc ((s.array k).ticks s.cyc) f)
  | none => s.committed k inc

/-- A tick by the fault of its steps. -/
theorem tickArray_eq (s : State) (k : CoreKey) {inc : Int} (hinc : inc = headIncrement (s.tickHead (s.array k))) :
    tickArray s k =
      s.tickedBy k inc (tickFault s (s.array k) ((s.array k).stepped s.cyc inc) ((s.array k).ticks s.cyc)) := by
  subst hinc
  rfl

section
variable {s : State} {inc : Int} (hdue : tickDue s (s.array s.ev.key.coreKey) = true)
  (hinc : inc = headIncrement (s.tickHead (s.array s.ev.key.coreKey)))
include hdue hinc

theorem exec_domainTick :
    let a := s.array s.ev.key.coreKey
    exec .domainTick s =
      .next (s.tickedBy s.ev.key.coreKey inc (tickFault s a (a.stepped s.cyc inc) (a.ticks s.cyc))) :=
  (if_pos hdue).trans (congrArg Host.Outcome.next (tickArray_eq s _ hinc))

/-- A tick that would break a rule freezes the array and commits nothing (R145, R146). -/
theorem exec_domainTick_faults {f : Nat × Nat × Nat} :
    let a := s.array s.ev.key.coreKey
    tickFault s a (a.stepped s.cyc inc) (a.ticks s.cyc) = some f →
      exec .domainTick s = .next (s.setArray s.ev.key.coreKey (freeze a s.cyc (a.ticks s.cyc) f)) := by
  intro a hf
  rw [exec_domainTick hdue hinc, hf]
  rfl

theorem exec_domainTick_commits :
    let a := s.array s.ev.key.coreKey
    tickFault s a (a.stepped s.cyc inc) (a.ticks s.cyc) = none →
      exec .domainTick s = .next (s.committed s.ev.key.coreKey inc) := by
  intro a hf
  rw [exec_domainTick hdue hinc, hf]
  rfl

end

/-! ### What a committed tick leaves -/

theorem bridgeTake_keeps (s : State) (b : DArray) (head : Option (Port × Chan × Elem)) :
    (bridgeTake s b head).1.th = s.th ∧ (bridgeTake s b head).1.mem = s.mem
      ∧ (bridgeTake s b head).2.cells = b.cells ∧ (bridgeTake s b head).2.doms = b.doms := by
  match head with
  | none => exact ⟨rfl, rfl, rfl, rfl⟩
  | some (p, c, e) =>
    refine ⟨State.dequeueAt_th .., State.dequeueAt_mem .., ?_, ?_⟩ <;>
    · unfold bridgeTake
      dsimp only
      split <;> rfl

/-- Without a token the bridge's source stays open. -/
theorem bridgeTake_open {s : State} {b : DArray} {head : Option (Port × Chan × Elem)}
    (h : ∀ p c e, head = some (p, c, e) → e.tag = false) : (bridgeTake s b head).2 = b := by
  match head with
  | none => rfl
  | some (p, c, e) => exact if_neg (Bool.eq_false_iff.mp (h p c e rfl))

/-- A token closes it, and its level stands in the status (R144). -/
theorem bridgeTake_token {s : State} {b : DArray} {p : Port} {c : Chan} {e : Elem} (h : e.tag = true) :
    (bridgeTake s b (some (p, c, e))).2 =
      { b with src := b.src &&& ~~~0x800, status := closedStatus b.status (fld e.word 2 0) } := if_pos h

/-- The array that a tick leaves is the one it computed, but for the cycle of the sink's element. -/
theorem bridgeGive_keeps (s : State) (k : CoreKey) (a b : DArray) (out : Option Stepped) :
    (bridgeGive s k a b out).th = s.th ∧ (bridgeGive s k a b out).mem = s.mem
      ∧ ∃ sunk, (bridgeGive s k a b out).array k = { b with sunk } := by
  match out with
  | none => exact ⟨rfl, rfl, _, State.array_setArray ..⟩
  | some x =>
    unfold bridgeGive
    dsimp only
    split
    · obtain ⟨hth, hmem, harrays⟩ := State.enqueueAt_keeps (s.setArray k { b with sunk := some s.cyc }) _ _ false false
      exact ⟨hth, hmem, _, (State.array_congr harrays k).trans (State.array_setArray ..)⟩
    · exact ⟨rfl, rfl, _, State.array_setArray ..⟩

/-- A tick changes the cells of an array and its domains, and neither bridge nor status. -/
theorem DArray.ticked_keeps (a : DArray) (now : Nat) (inc : Int) :
    (a.ticked now inc).cells = (commitCells a (a.stepped now inc) (a.ticks now)).cells ∧ (a.ticked now inc).src = a.src
      ∧ (a.ticked now inc).status = a.status
      ∧ ∀ d < 8, ((a.ticked now inc).dom d).steps = (a.dom d).steps + (if a.ticks now d = true then 1 else 0) := by
  obtain ⟨cells, hcommit⟩ := commitCells_eq a (a.stepped now inc) (a.ticks now)
  refine ⟨rfl, ?_, ?_, fun d hd => ?_⟩
  · rw [ticked, hcommit]
    rfl
  · rw [ticked, hcommit]
    rfl
  · rw [ticked, DArray.dom_mapDoms _ _ hd, hcommit]
    split <;> simp [DArray.dom]

section
variable {s : State} {k : CoreKey} {inc : Int} {p : Port} {c : Chan} {e : Elem}

/-- What a committed tick leaves of the state, and of the array. -/
theorem State.committed_keeps (s : State) (k : CoreKey) (inc : Int) :
    let a := s.array k
    let b := (bridgeTake s (a.ticked s.cyc inc) (s.tickHead a)).2
    let z := s.committed k inc
    z.mem = s.mem ∧ z.th = s.th ∧ ∃ sunk, z.array k = { b with sunk } := by
  intro a b z
  obtain ⟨hth, hmem, -⟩ := bridgeTake_keeps s (a.ticked s.cyc inc) (s.tickHead a)
  obtain ⟨hth', hmem', harray⟩ := bridgeGive_keeps (bridgeTake s (a.ticked s.cyc inc) (s.tickHead a)).1 k a b
    (a.sinkStep (a.stepped s.cyc inc))
  exact ⟨hmem'.trans hmem, hth'.trans hth, harray⟩

theorem State.committed_cells (s : State) (k : CoreKey) (inc : Int) :
    let a := s.array k
    ((s.committed k inc).array k).cells = (commitCells a (a.stepped s.cyc inc) (a.ticks s.cyc)).cells := by
  obtain ⟨-, -, _, harray⟩ := State.committed_keeps s k inc
  obtain ⟨-, -, hcells, -⟩ := bridgeTake_keeps s ((s.array k).ticked s.cyc inc) (s.tickHead (s.array k))
  rw [harray]
  exact hcells

/-- The domains that tick count one step each, the others none (R138). -/
theorem State.committed_steps (s : State) (k : CoreKey) (inc : Int) {d : Nat} (hd : d < 8) :
    let a := s.array k
    (((s.committed k inc).array k).dom d).steps = (a.dom d).steps + (if a.ticks s.cyc d = true then 1 else 0) := by
  obtain ⟨-, -, _, harray⟩ := State.committed_keeps s k inc
  obtain ⟨-, -, -, hdoms⟩ := bridgeTake_keeps s ((s.array k).ticked s.cyc inc) (s.tickHead (s.array k))
  obtain ⟨-, -, -, hsteps⟩ := (s.array k).ticked_keeps s.cyc inc
  rw [harray]
  exact (congrArg (fun l : Vector DDomain 8 => (l.toList.getD d {}).steps) hdoms).trans (hsteps d hd)

theorem State.committed_open (htag : ∀ p c e, s.tickHead (s.array k) = some (p, c, e) → e.tag = false) :
    ((s.committed k inc).array k).src = (s.array k).src ∧ ((s.committed k inc).array k).status = (s.array k).status := by
  obtain ⟨-, -, _, harray⟩ := State.committed_keeps s k inc
  obtain ⟨-, hsrc, hstatus, -⟩ := (s.array k).ticked_keeps s.cyc inc
  rw [harray, bridgeTake_open htag]
  exact ⟨hsrc, hstatus⟩

theorem State.committed_token (hhead : s.tickHead (s.array k) = some (p, c, e)) (htag : e.tag = true) :
    ((s.committed k inc).array k).src = (s.array k).src &&& ~~~0x800
      ∧ ((s.committed k inc).array k).status = closedStatus (s.array k).status (fld e.word 2 0) := by
  obtain ⟨-, -, _, harray⟩ := State.committed_keeps s k inc
  obtain ⟨-, hsrc, hstatus, -⟩ := (s.array k).ticked_keeps s.cyc inc
  rw [harray, hhead, bridgeTake_token htag]
  exact ⟨congrArg (· &&& ~~~0x800) hsrc, congrArg (closedStatus · (fld e.word 2 0)) hstatus⟩

/-- Without a bridge a committed tick changes the array alone. -/
theorem State.committed_alone (hsrc : bridgeOn (s.array k).src = false) (hsink : bridgeOn (s.array k).sink = false) :
    s.committed k inc = s.setArray k ((s.array k).ticked s.cyc inc) := by
  have hhead : s.tickHead (s.array k) = none := if_neg (by simp [hsrc])
  have hout : (s.array k).sinkStep ((s.array k).stepped s.cyc inc) = none := if_neg (Bool.eq_false_iff.mp hsink)
  rw [State.committed, hhead, hout]
  rfl

/-- The element that the source takes leaves its channel for its consumer (R144). -/
theorem State.committed_source (hhead : s.tickHead (s.array k) = some (p, c, e))
    (hout : (s.array k).sinkStep ((s.array k).stepped s.cyc inc) = none) (hc : s.chan? c.id = some c)
    (hp : p ∈ c.cons.map Prod.fst) :
    ∃ c', (s.committed k inc).chan? c.id = some c' ∧ c'.head? p = c.elems[c.pos p + 1]? := by
  refine ⟨_, ?_, (Chan.head?_free (s.landing c.latency) ((Chan.mem_counted ..).mpr hp)).trans
    ((Chan.head?_counted p s.cyc hp).trans (if_pos rfl))⟩
  rw [State.committed, hhead, hout]
  exact State.chan?_dequeueAt p hc

/-- An increment that the sink gives is an element of its channel (R143). -/
theorem State.committed_sink {x : Stepped} (hhead : s.tickHead (s.array k) = none)
    (hout : (s.array k).sinkStep ((s.array k).stepped s.cyc inc) = some x)
    (howner : ownerChan s (s.array k) (bridgeQ (s.array k).sink) true = some (p, c)) (hc : s.chan? c.id = some c) :
    ∃ c' e, (s.committed k inc).chan? c.id = some c' ∧ c'.elems = c.elems ++ [e] ∧ e.word = BitVec.ofInt 64 x.z
      ∧ e.tag = false := by
  have hgive (b : DArray) : bridgeGive s k (s.array k) b (some x) =
      (s.setArray k { b with sunk := some s.cyc }).enqueueAt c.id (BitVec.ofInt 64 x.z) false false := by
    unfold bridgeGive
    dsimp only
    rw [howner]
  rw [State.committed, hhead, hout]
  change ∃ c' e, (bridgeGive s k (s.array k) _ (some x)).chan? c.id = some c' ∧ _
  rw [hgive]
  exact State.chan?_enqueueAt _ _ _ hc

end

/-! ### O30 -/

theorem headIncrement_eq {head : Option (Port × Chan × Elem)} {inc : Int} (hnone : head = none → inc = 0)
    (hsome : ∀ p c e, head = some (p, c, e) →
      inc = if e.tag then 0 else if 0 < e.word.toInt then 1 else if e.word.toInt < 0 then -1 else 0) :
    inc = headIncrement head := by
  match head with
  | none => exact hnone rfl
  | some (p, c, e) =>
    rw [hsome p c e rfl, headIncrement, elemIncrement]
    split_ifs <;> omega

/-- R135, R140, R143 to R146: a tick without and with a bridge, a cell's carry, and the owner's trap. -/
theorem arrayTicks : Rules.ArrayTicks := by
  refine ⟨?alone, ?bridged, ?cell, ?trap⟩
  case alone =>
    intro s a ticking steps hdue hsrc hsink
    have hhead : s.tickHead a = none := if_neg (by simp [hsrc])
    have hinc : 0 = headIncrement (s.tickHead a) := congrArg headIncrement hhead.symm
    exact ⟨fun f hf => exec_domainTick_faults hdue hinc hf, fun hf =>
      (exec_domainTick_commits hdue hinc hf).trans (congrArg Host.Outcome.next (State.committed_alone hsrc hsink))⟩
  case bridged =>
    intro s inc k a ticking head steps out hdue hnone hsome
    have hinc : inc = headIncrement (s.tickHead a) := headIncrement_eq hnone hsome
    refine ⟨fun f hf => exec_domainTick_faults hdue hinc hf, fun hf => ?_⟩
    obtain ⟨hmem, hth, -⟩ := State.committed_keeps s k inc
    refine ⟨s.committed k inc, exec_domainTick_commits hdue hinc hf, hmem, hth, State.committed_cells s k inc,
      fun d hd => State.committed_steps s k inc hd, fun htag => State.committed_open htag, fun p c e hhead => ?_,
      fun x p c hout hhead howner hc => State.committed_sink hhead hout howner hc⟩
    refine ⟨fun htag => ?_, fun hout hc _ hp => State.committed_source hhead hout hc hp⟩
    obtain ⟨hsrc, hstatus⟩ := State.committed_token (inc := inc) hhead htag
    rw [hstatus]
    exact ⟨hsrc, closedStatus_fields a.status (e.word.extractLsb' 0 3).isLt⟩
  case cell =>
    intro a n c x v sum
    obtain ⟨hz, hq⟩ : x.z = carryOf sum ∧ x.q = BitVec.ofInt 32 (sum - carryOf sum * 2 ^ 32) := stepCell_carries a 0 n c
    have hcases := carryOf_cases sum
    rw [hz, hq]
    exact ⟨by omega, by omega, by omega, residue_add_carry⟩
  case trap =>
    intro s t w hfocus hfault
    refine onSlot_some hfocus ?_
    rw [hfault]
    rfl

/-- Settles O30: the tick by the parts of `tickArray_eq`, the images and the refusals by the acts of their triggers. -/
theorem integratorTicks : Obligations.IntegratorTicks := ⟨arrayTicks, integratorImages⟩

end Sys2Proof.Machine
end

section
/-! O7: an atomic leaves for its home, and the home performs it once. -/

namespace Sys2Proof.Machine

section
variable {r : Trig × Nat × (Nat → Nat → Nat → Option Nat)} (hr : r ∈ amoRows)
include hr

/-- What an atomic writes is what its row says; only the floating-point sum has flags (R196 to R198). -/
theorem amoResult_of_row (m v w : Nat) : amoResult r.1 r.2.1 m v w = (r.2.2 m v w,
    if r.1 = .amoFadd then (fp32.add Rm.rne 0 (fp32.value m) (fp32.value v)).flags else 0) := by
  have hmin : min m v = if v < m then v else m := by rw [Nat.min_comm]; exact Nat.min_def.trans (by split_ifs <;> omega)
  have hmax : max m v = if m < v then v else m := by rw [Nat.max_def]; split_ifs <;> omega
  revert r
  simp only [amoRows, List.forall_mem_cons, amoResult, hmin, hmax]
  simp [signedOf]

/-- The operands that an atomic captures at its trigger (R196, R197). -/
theorem amoOperands_of_row (t : Thread) : amoOperands r.1 t =
    let low (w : Word) : BitVec 128 := BitVec.ofNat 128 (w.toNat % 2 ^ (8 * r.2.1))
    (if r.1 = .amoCasQ then t.get .lr2 ++ t.get .lr else low (t.get .lo2),
      if r.1 = .amoCasQ then t.get .lo3 ++ t.get .lo2 else low (t.get .lo3)) := by
  have hbytes := amoBytes_of_row hr
  by_cases h : r.1 = .amoCasQ
  · simp only [h, if_true, amoOperands]
  · simp only [h, if_false, ← hbytes]
    unfold amoOperands
    split
    · exact absurd ‹_› h
    · rfl

end

/-- Bit 3 of l.o orders an acquire (R185). -/
theorem attrOf_acq_iff (w : Word) : (attrOf w).acq = true ↔ fld w 4 3 % 2 = 1 := decide_eq_true_iff

/-- R173, R195, R196: the atomic's trigger by what its access leaves. -/
theorem atomicLaunch : Rules.AtomicLaunch := by
  intro r hr g l src s a d loc hf hreach hrel hbehind hadmit hsib t at1 low q
  have hreach' : Reaches ordAll (amoBytes r.1) .amo 2 none a t loc := amoBytes_of_row hr ▸ hreach
  have hsib' : loc.viewed = true → t.siblingPosts t.th.key.coreKey t.th.key loc.cell 16 = false := by
    rwa [State.passed_key]
  have hact := (congrFun₂ (trigAct_of_amo hr l) a t).trans (amoAct_reaches hreach' hadmit hrel hbehind hsib')
  rw [amoOperands_of_row hr, State.passed_at, State.passed_key] at hact
  exact exec_trigInstr_done hf hact

/-- R163, R171, R173, R195 to R198: what the home does for an atomic that it performs. -/
theorem atomicPerformed : Rules.AtomicPerformed := by
  intro r hr s a ha hop hdue hends m s1 s2 s3 s4
  have hexec : exec .atomicAtHome s = execAtomicAtHome s := rfl
  rw [hexec, execAtomicAtHome]
  simp only [ha, hdue, hends, Bool.not_true, Bool.false_eq_true, if_false, hop, amoBytes_of_row hr, amoResult_of_row hr,
    attrOf_acq_iff]
  rfl

/-- Settles O7: the launch by its access, the read-modify-write by its row. -/
theorem atomics : Obligations.Atomics := ⟨atomicLaunch, atomicPerformed⟩

end Sys2Proof.Machine
end

section
/-! O9: fences by what they wait for, and cache maintenance over the lines of one page. -/

namespace Sys2Proof.Machine

/-! ### Fences (R172, R193, R202) -/

theorem exec_fence {g : Guard} {src : Src} {s : State} {w : Word} {d : Option (BitVec 3 × Nat × Elem)}
    (h : Fires .fence g src s w d) :
    exec (.fence g src) s = .next (conclude false (Trig.num .fence) 0 s.seen d (actFence w s.passed)) :=
  trigger_fires (look := 0) h

section
variable {t : State} (hattr : attrOk (t.th.get .lo) [0, 1, 2, 3] = true) (w : Word)
include hattr

/-- A fence of the thread's own scope waits for nothing (R202). -/
theorem actFence_own (hscope : fld (t.th.get .lo) 2 0 = 0) : actFence w t = .done t := by
  have hok : attrOk (t.th.get .lo) ordAll = true := hattr
  rw [actFence, hok]
  exact if_pos hscope

variable (hmay : FenceMay t (attrOf (t.th.get .lo))) (hscope : fld (t.th.get .lo) 2 0 ≠ 0)
include hmay hscope

/-- A fence of a wider scope that waits for nothing: the reports come before its acquire (R172, R193). -/
theorem actFence_wider : actFence w t =
    if 3 ≤ fld (t.th.get .lo) 2 0 ∧ t.th.rfq ≠ 0 ∧ t.th.mode = .user then remoteStoreFault t.th
    else .done (t.acquired (t.th.get .lo)) := by
  have hok : attrOk (t.th.get .lo) ordAll = true := hattr
  have hscope' : ¬(attrOf (t.th.get .lo)).scope = 0 := hscope
  rw [actFence, hok]
  simp only [Bool.not_true, Bool.false_eq_true, if_false, if_neg hscope', fenceWait_may hmay, attrOf_acq_iff]
  rfl

end

theorem fenceCompletes : Rules.FenceCompletes := by
  intro g src s w d h t lo hattr
  refine ⟨fun hscope => ?_, fun hmay hscope hquiet => ?_⟩
  · rw [exec_fence h, actFence_own hattr w hscope, conclude_done]
  · have hnone : ¬(3 ≤ fld lo 2 0 ∧ t.th.rfq ≠ 0 ∧ t.th.mode = .user) := by
      rintro ⟨hwide, hreports, huser⟩
      rcases hquiet with hq | hq | hq
      · omega
      · exact hreports hq
      · rw [huser] at hq
        cases hq
    rw [exec_fence h, actFence_wider hattr w hmay hscope, if_neg hnone, conclude_done]

theorem fenceReportsStoreFaults : Rules.FenceReportsStoreFaults := by
  intro g src s w d h t lo hattr hmay hwide hreports huser hkind
  have haddr : remoteStoreFault.reportAddress t.th = t.th.repAddr.setWidth 64 := if_neg hkind
  rw [exec_fence h, actFence_wider hattr w hmay (show fld lo 2 0 ≠ 0 by omega), if_pos ⟨hwide, hreports, huser⟩,
    remoteStoreFault, haddr, conclude_trap, State.seen_pc]
  rfl

/-! ### Cache maintenance (R181, R203, R204) -/

/-- The maintenance of a trigger. -/
def maintOf (op : Trig) : Maint := if op = .ddisc then .disc else if op = .dclean then .clean else .inval

theorem trigAct_of_maint {op : Trig} (hop : op ∈ [Trig.ddisc, .dclean, .dinval]) (l : BitVec 4) :
    trigAct op l = maintAct (maintOf op) l := by
  simp only [List.mem_cons, List.not_mem_nil, or_false] at hop
  rcases hop with rfl | rfl | rfl <;> rfl

/-- A discarded line is left as it is, or holds again a value that it had (R181). -/
theorem discardLine_cases (s : State) (line : Nat) : discardLine s line = s.draw.2 ∨ ∃ bs, (line, bs) ∈ s.hist ∧
    discardLine s line = { s.draw.2 with
      mem := Mem.write s.mem (line * 64) bs, hist := (line, Mem.bytes s.mem (line * 64) 64) :: s.hist } := by
  unfold discardLine
  dsimp only
  split
  next bs hbs =>
    split
    · exact .inl rfl
    · obtain ⟨⟨k, v⟩, hx, rfl⟩ := List.mem_map.mp (List.mem_of_getElem? hbs)
      obtain ⟨hmem, hline⟩ := List.mem_filter.mp hx
      obtain rfl : k = line := of_decide_eq_true hline
      exact .inr ⟨v, hmem, rfl⟩
  next => exact .inl rfl

/-- Every value that a discard may bring back is a whole line. -/
def WholeLines (s : State) : Prop := ∀ h ∈ s.hist, h.2.length = 64

/-- Of memory a discard changes the line's bytes alone. -/
theorem discardLine_frame {s : State} (hs : WholeLines s) (line : Nat) : WholeLines (discardLine s line) ∧
    ∀ c, c < line * 64 ∨ line * 64 + 64 ≤ c → Mem.byte (discardLine s line).mem c = Mem.byte s.mem c := by
  rcases discardLine_cases s line with h | ⟨bs, hbs, h⟩ <;> rw [h]
  · exact ⟨hs, fun _ _ => rfl⟩
  · refine ⟨List.forall_mem_cons.mpr ⟨Mem.bytes_length _ _ _, hs⟩, fun c hc => Mem.byte_write_ne ?_⟩
    rwa [hs _ hbs]

/-- The memory types whose lines a discard may give an earlier value. -/
abbrev Discards (op : Maint) (l : Loc) : Prop := op = .disc ∧ (l.space = .hbm ∨ l.space = .hostCached)

/-- One line handled: discarded, or left as it is (R203). -/
theorem maintLines_succ (op : Maint) (l : Loc) (k c : Nat) (s : State) :
    ∃ u, maintLines op l (k + 1) c s = maintLines op l k (c + 64) u ∧ u.cyc = s.cyc ∧ u.th = s.th
      ∧ ((u.mem = s.mem ∧ u.hist = s.hist)
        ∨ (Discards op l ∧ u.mem = (discardLine s (c / 64)).mem ∧ u.hist = (discardLine s (c / 64)).hist)) := by
  have hdisc : (discardLine s (c / 64)).cyc = s.cyc ∧ (discardLine s (c / 64)).th = s.th := by
    rcases discardLine_cases s (c / 64) with h | ⟨bs, -, h⟩ <;> rw [h] <;> exact ⟨rfl, rfl⟩
  refine ⟨_, rfl, ?_⟩
  cases op
  case clean =>
    rw [if_pos rfl]
    exact ⟨rfl, rfl, .inl ⟨rfl, rfl⟩⟩
  case disc =>
    rw [if_neg Maint.noConfusion]
    cases hspace : l.space
    case hbm => exact ⟨hdisc.1, hdisc.2, .inr ⟨⟨rfl, .inl hspace⟩, rfl, rfl⟩⟩
    case hostCached => exact ⟨hdisc.1, hdisc.2, .inr ⟨⟨rfl, .inr hspace⟩, rfl, rfl⟩⟩
    all_goals exact ⟨rfl, rfl, .inl ⟨rfl, rfl⟩⟩
  case inval =>
    rw [if_neg Maint.noConfusion]
    cases l.space
    all_goals exact ⟨rfl, rfl, .inl ⟨rfl, rfl⟩⟩

/-- The lines of a page: the thread and the cycle stay, and memory where nothing is discarded. -/
theorem maintLines_keeps (op : Maint) (l : Loc) (k c : Nat) (s : State) :
    (maintLines op l k c s).cyc = s.cyc ∧ (maintLines op l k c s).th = s.th
      ∧ (¬Discards op l → (maintLines op l k c s).mem = s.mem) := by
  induction k generalizing c s with
  | zero => exact ⟨rfl, rfl, fun _ => rfl⟩
  | succ k ih =>
    obtain ⟨u, hu, hcyc, hth, hmem⟩ := maintLines_succ op l k c s
    obtain ⟨hcyc', hth', hmem'⟩ := ih (c + 64) u
    rw [hu]
    refine ⟨hcyc'.trans hcyc, hth'.trans hth, fun h => (hmem' h).trans ?_⟩
    exact hmem.elim And.left fun hd => absurd hd.1 h

/-- The lines of a page: bytes outside them stay. -/
theorem maintLines_frame (op : Maint) (l : Loc) (k : Nat) {c : Nat} {s : State} (hs : WholeLines s) (hc : c % 64 = 0)
    (x : Nat) (hx : x < c ∨ c + 64 * k ≤ x) : Mem.byte (maintLines op l k c s).mem x = Mem.byte s.mem x := by
  induction k generalizing c s with
  | zero => rfl
  | succ k ih =>
    obtain ⟨u, hu, -, -, hmem⟩ := maintLines_succ op l k c s
    have hframe : WholeLines u ∧ Mem.byte u.mem x = Mem.byte s.mem x := by
      rcases hmem with ⟨hm, hh⟩ | ⟨-, hm, hh⟩ <;> rw [WholeLines, hm, hh]
      · exact ⟨hs, rfl⟩
      · obtain ⟨hw, hb⟩ := discardLine_frame hs (c / 64)
        exact ⟨hw, hb x (by omega)⟩
    rw [hu, ih hframe.1 (by omega) (by omega), hframe.2]

section
variable {op : Maint} {a : Word} {n : Nat} {s : State} {loc : Loc} (hpos : 0 < n) (hpage : n ≤ 4096 - a.toNat % 4096)
  (hloc : translate s s.self a op.need = .ok loc)
include hpos hpage hloc

/-- A range of one page is handled in one piece. -/
theorem maintPages_page (hok : s.denied loc.cell (if op = .clean then 0 else 1) n = 0) (k : Nat) :
    maintPages op (k + 2) a n s = (maintLines op loc (n / 64) loc.cell s, none) := by
  have hlen : min n (4096 - a.toNat % 4096) = n := Nat.min_eq_left hpage
  have hfault : maintFault op s a n = .ok loc := by
    simp only [maintFault, hloc, hok]
    cases loc.space <;> rfl
  rw [maintPages, if_neg (Nat.ne_of_gt hpos)]
  simp only [hlen, hfault, Nat.sub_self]
  rw [maintPages, if_pos rfl]

theorem maintBusy_page (hfree : s.lineBusy loc.cell n none = false) (k : Nat) : maintBusy op s (k + 2) a n = false := by
  have hlen : min n (4096 - a.toNat % 4096) = n := Nat.min_eq_left hpage
  rw [maintBusy, if_neg (Nat.ne_of_gt hpos)]
  simp only [hlen, hloc, hfree, Nat.sub_self, Bool.false_or]
  rw [maintBusy, if_pos rfl]

end

/-- Cache maintenance over one page completes with its lines handled (R203). -/
theorem maintAct_page {op : Maint} {l : BitVec 4} {a : Word} {s : State} {loc : Loc}
    (hattr : attrOk (s.th.get .lo) [0, 2] = true) (hlt : (s.th.get .lo2).toNat < 2 ^ 32) (ha : a.toNat % 64 = 0)
    (hn : (s.th.get .lo2).toNat % 64 = 0) (hacq : s.th.acquiring s.cyc = false) (hrel : MayRelease s)
    (hpos : 0 < (s.th.get .lo2).toNat) (hpage : (s.th.get .lo2).toNat ≤ 4096 - a.toNat % 4096)
    (hloc : translate s s.self a op.need = .ok loc) (hfree : s.lineBusy loc.cell (s.th.get .lo2).toNat none = false)
    (hok : s.denied loc.cell (if op = .clean then 0 else 1) (s.th.get .lo2).toNat = 0) :
    let u := maintLines op loc ((s.th.get .lo2).toNat / 64) loc.cell s
    maintAct op l a s = .done (u.drawn.opened .l l { doneAt := u.landing 1 }) := by
  have hattr' : attrOk (s.th.get .lo) ordStore = true := hattr
  have hhigh : fld (s.th.get .lo2) 63 32 = 0 := (fld_above (by decide)).mpr hlt
  simp only [maintAct, hattr', hhigh, ha, hn, hacq, maintBusy_page hpos hpage hloc hfree,
    maintPages_page hpos hpage hloc hok, releaseWait_may hrel]
  rfl

theorem cacheMaintenance : Rules.CacheMaintenance := by
  intro g l src s a d loc op hop hf t n need hattr hlt ha hn hacq hrel hpos hpage hloc hfree hok
  obtain ⟨hneed, hclean, hdisc⟩ : (maintOf op).need = need ∧ (maintOf op = .clean ↔ op = .dclean)
      ∧ (maintOf op = .disc ↔ op = .ddisc) := by
    simp only [List.mem_cons, List.not_mem_nil, or_false] at hop
    rcases hop with rfl | rfl | rfl <;> decide
  have hloc' : translate t t.self a (maintOf op).need = .ok loc := hneed ▸ hloc
  have hok' : t.denied loc.cell (if maintOf op = .clean then 0 else 1) n = 0 := by rwa [if_congr hclean rfl rfl]
  have hact : trigAct op l a t = _ := (congrFun₂ (trigAct_of_maint hop l) a t).trans
    (maintAct_page hattr hlt ha hn hacq hrel hpos hpage hloc' hfree hok')
  obtain ⟨hcyc, hth, hmem⟩ := maintLines_keeps (maintOf op) loc (n / 64) loc.cell t
  refine ⟨_, _, exec_trigInstr_done hf hact, ?_, hth, fun h => hmem fun hd => ?_, fun c hc hcell hist => ?_⟩
  · rw [← hcyc]
    exact Nat.le_add_right _ _
  · obtain ⟨hop, hspace⟩ := hd
    rcases h with h | ⟨hhbm, hhost⟩
    · exact h (hdisc.mp hop)
    · exact hspace.elim hhbm hhost
  · exact maintLines_frame _ _ _ hist hcell _ (by omega)

/-- Settles O9: the fences by what they wait for, maintenance by the lines of its page. -/
theorem fencesAndMaintenance : Obligations.FencesAndMaintenance :=
  ⟨fenceCompletes, fenceReportsStoreFaults, cacheMaintenance⟩

end Sys2Proof.Machine
end

section
/-! O47: a peer's request by the checks of the entry it names, and an offer by its heap's decision. -/

namespace Sys2Proof.Machine

/-! ### The checks of an entry (R318, R320) -/

/-- A field of one bit is that bit. -/
theorem fld_bit (w : Word) (i : Nat) : fld w i i = (w.getLsbD i).toNat := by
  have hone : w.extractLsb' i 1 = BitVec.ofBool (w.getLsbD i) := by
    ext j hj
    obtain rfl : j = 0 := by omega
    simp
  rw [fld, show i - i + 1 = 1 by omega, hone, BitVec.toNat_ofBool]

theorem fld_bit_eq_one {w : Word} {i : Nat} : fld w i i = 1 ↔ w.getLsbD i = true := by
  rw [fld_bit]
  cases w.getLsbD i <;> decide

theorem fld_bit_eq_zero {w : Word} {i : Nat} : fld w i i = 0 ↔ w.getLsbD i = false := by
  rw [fld_bit]
  cases w.getLsbD i <;> decide

/-- The entry is valid, and of the request's device and cookie (R320, steps 1 to 3). -/
abbrev Names (w : Win256) (q : RemoteReq) : Prop :=
  w.d0.getLsbD 63 = true ∧ (w.d0.getLsbD 62 = true ∨ fld w.d0 55 43 = q.dev) ∧ fld w.d0 31 0 = q.cookie.toNat

/-- A load, store or atomic lies below the entry's length and has its right (R320, steps 4 and 5). -/
abbrev Grants (w : Win256) (q : RemoteReq) : Prop :=
  q.off < fld w.d2 29 0 * 4096 ∧ w.d0.getLsbD (61 - q.op) = true

/-- The place that a request names in the exporting context, with the rights it needs (R320, step 6). -/
def State.remotePlace (s : State) (q : RemoteReq) (w : Win256) : Except Nat Loc :=
  translate s ⟨fld w.d1 63 48, false, none, false⟩ (BitVec.ofNat 64 (fld w.d1 47 12 * 4096 + q.off))
    (if q.op = 0 then .load else if q.op = 1 then .store else .amo)

section
variable {s : State} {q : RemoteReq} {w : Win256}

theorem exportEntry_eq_some : exportEntry s q = some w ↔ assoc s.exports q.exp = some w ∧ Names w q := by
  rw [exportEntry]
  cases assoc s.exports q.exp with
  | none => simp
  | some x =>
    simp only [Option.bind_eq_bind, Option.bind_some, fld_bit_eq_one, Option.some.injEq]
    split_ifs with h
    · exact ⟨fun e => ⟨Option.some.inj e, Option.some.inj e ▸ h⟩, fun e => congrArg some e.1⟩
    · exact ⟨(nomatch ·), fun e => absurd (e.1 ▸ e.2) h⟩

theorem not_names_iff : ¬Names w q ↔ w.d0.getLsbD 63 = false ∨ (w.d0.getLsbD 62 = false ∧ fld w.d0 55 43 ≠ q.dev)
    ∨ fld w.d0 31 0 ≠ q.cookie.toNat := by
  simp only [Names, not_and_or, not_or, Bool.not_eq_true]

theorem not_granted_iff : ¬(Names w q ∧ Grants w q) ↔ w.d0.getLsbD 63 = false
    ∨ (w.d0.getLsbD 62 = false ∧ fld w.d0 55 43 ≠ q.dev) ∨ fld w.d0 31 0 ≠ q.cookie.toNat
    ∨ fld w.d2 29 0 * 4096 ≤ q.off ∨ w.d0.getLsbD (61 - q.op) = false := by
  rw [not_and_or, not_names_iff]
  simp only [Grants, not_and_or, Bool.not_eq_true, Nat.not_lt, or_assoc]

/-- The entry's right for a load, store or atomic is a bit of it (R318). -/
theorem remoteRight_eq {op : Nat} (hop : op < 3) : remoteRight w op = w.d0.getLsbD (61 - op) := by
  have hbit (i : Nat) : (fld w.d0 i i == 1) = w.d0.getLsbD i := by
    rw [fld_bit]
    cases w.d0.getLsbD i <;> rfl
  rw [remoteRight, hbit, hbit, hbit]
  obtain rfl | rfl | rfl : op = 0 ∨ op = 1 ∨ op = 2 := by omega
  all_goals simp

/-- The target's test of steps 4 and 5. -/
theorem passes_iff (hop : q.op < 3) :
    ¬(fld w.d2 29 0 * 4096 ≤ q.off ∨ (!remoteRight w q.op) = true) ↔ Grants w q := by
  rw [remoteRight_eq hop, not_or, Nat.not_le, Bool.not_eq_true', Bool.not_eq_false]

/-! ### The target's check (R320) -/

/-- A request that no entry names and grants is refused. -/
theorem checkRemote_ungranted (hop : q.op < 3)
    (h : ∀ w, assoc s.exports q.exp = some w → ¬(Names w q ∧ Grants w q)) : checkRemote s q = .error kPermission := by
  rw [checkRemote]
  cases he : exportEntry s q with
  | none => rfl
  | some w =>
    obtain ⟨hw, hn⟩ := exportEntry_eq_some.mp he
    exact if_pos (by_contra fun hpass => h w hw ⟨hn, (passes_iff hop).mp hpass⟩)

section
variable (hw : assoc s.exports q.exp = some w) (hn : Names w q) (hop : q.op < 3) (hg : Grants w q)
include hw hn hop hg

/-- A granted request that does not translate is refused with the kind of its translation. -/
theorem checkRemote_error {k : Nat} (hx : s.remotePlace q w = .error k) : checkRemote s q = .error k := by
  have hplace : translate s _ _ (remoteNeed q.op) = .error k := hx
  rw [checkRemote, exportEntry_eq_some.mpr ⟨hw, hn⟩]
  simp only [if_neg ((passes_iff hop).mpr hg), hplace]

/-- A granted request goes to its place in HBM; at any other it is refused. -/
theorem checkRemote_ok {l : Loc} (hx : s.remotePlace q w = .ok l) :
    checkRemote s q = if l.space = .hbm then .ok l else .error kPermission := by
  have hplace : translate s _ _ (remoteNeed q.op) = .ok l := hx
  rw [checkRemote, exportEntry_eq_some.mpr ⟨hw, hn⟩]
  simp only [if_neg ((passes_iff hop).mpr hg), hplace]
  cases l.space <;> rfl

end

/-! ### What the target does (R320) -/

section
variable {data : List Byte} {packet : Option (Nat × Nat × Nat × Nat)}

theorem serveRemote_refuses {k : Nat} (hop : q.op < 3) (h : checkRemote s q = .error k) :
    serveRemote s q data packet = (s, some ⟨k, []⟩) := by
  rw [serveRemote, if_neg (by omega), h]

variable {l : Loc} (hop : q.op < 3) (h : checkRemote s q = .ok l)
include hop h

theorem serveRemote_place : serveRemote s q data packet =
    let k := s.denied l.cell q.op (if q.op = 0 then q.bytes else if q.op = 1 then data.length else amoBytes q.amo)
    if k ≠ 0 then (s, some ⟨k, []⟩)
    else if q.op = 0 then (s, some ⟨0, s.readAs l.aes l.cell q.bytes⟩)
    else if q.op = 1 then (s.writeAs l.aes l.cell data, some ⟨0, []⟩)
    else if q.amo ≠ .amoCasQ then ((remoteAmo s q l).1, some (remoteAmo s q l).2)
    else (s, some ⟨kPermission, []⟩) := by
  rw [serveRemote, if_neg (by omega), h]
  dsimp only
  by_cases h2 : q.op = 2
  · simp only [h2, true_and]
  · obtain h0 | h1 : q.op = 0 ∨ q.op = 1 := by omega
    · simp only [h0, if_true]
    · simp only [h1, if_true]

end

/-- A peer's atomic at its home does what its row says (R173, R196). -/
theorem remoteAmo_of_row {r : Trig × Nat × (Nat → Nat → Nat → Option Nat)} (hr : r ∈ amoRows) (hq : q.amo = r.1)
    (l : Loc) :
    let m := leNat (s.readAs l.aes l.cell r.2.1)
    remoteAmo s q l = (match r.2.2 m (q.data.toNat % 2 ^ (8 * r.2.1)) (q.data2.toNat % 2 ^ (8 * r.2.1)) with
      | some x => s.writeAs l.aes l.cell (leBytes r.2.1 x)
      | none => s, ⟨0, leBytes r.2.1 m⟩) := by
  simp only [remoteAmo, hq, amoBytes_of_row hr, amoResult_of_row hr] <;> rfl

/-! ### Offers (R287) -/

/-- An offer that no entry names, or whose entry lacks the atomic right, is refused (R320). -/
theorem remoteOffer_refuses {packet : Option (Nat × Nat × Nat × Nat)}
    (h : ∀ w, assoc s.exports q.exp = some w → Names w q → w.d0.getLsbD 59 = false) :
    remoteOffer s q packet = (s, some ⟨kOffer, []⟩) := by
  rw [remoteOffer]
  cases he : exportEntry s q with
  | none => rfl
  | some w =>
    obtain ⟨hw, hn⟩ := exportEntry_eq_some.mp he
    exact if_pos (fld_bit_eq_zero.mpr (h w hw hn))

/-- An offer whose entry has the atomic right is decided at the heap; its answer waits for its record's ring (R285, R302). -/
theorem remoteOffer_decides {packet : Option (Nat × Nat × Nat × Nat)} (hw : assoc s.exports q.exp = some w)
    (hn : Names w q) (hright : w.d0.getLsbD 59 = true) :
    let x := offerAtHeap s (fld w.d1 63 48) q.off (q.data2.setWidth 16) (q.data, q.data2.getLsbD 16)
    ((∀ a c n, x.2.2 = some (a, c, n) → ringPassed x.1 a c n = true) →
      remoteOffer s q packet = (x.1, some ⟨x.2.1, []⟩))
    ∧ ∀ a c n, x.2.2 = some (a, c, n) → ringPassed x.1 a c n = false →
      remoteOffer s q packet = ({ x.1 with peerOffers := x.1.peerOffers ++ [⟨a, c, n, packet⟩] }, none) := by
  intro x
  have hbit : ¬fld w.d0 59 59 = 0 := by rw [fld_bit_eq_zero, hright]; decide
  have hoffer : remoteOffer s q packet = match x.2.2 with
      | some (aes, cell, slot) =>
        if ringPassed x.1 aes cell slot then (x.1, some { kind := x.2.1 })
        else ({ x.1 with peerOffers := x.1.peerOffers ++ [{ aes, cell, slot, packet }] }, none)
      | none => (x.1, some { kind := x.2.1 }) := by
    rw [remoteOffer, exportEntry_eq_some.mpr ⟨hw, hn⟩]
    exact if_neg hbit
  refine ⟨fun hpassed => ?_, fun a c n hring hwait => ?_⟩
  · rw [hoffer]
    cases hring : x.2.2 with
    | none => rfl
    | some y => exact if_pos (hpassed _ _ _ hring)
  · rw [hoffer, hring]
    simp only [hwait]
    rfl

end

/-! ### The event -/

/-- The answer that a request leaves (R320). -/
theorem exec_remoteRequestArrival {s z : State} {r : Option RemoteReply}
    (h : serveRemote s s.ev.remote s.ev.bytes = (z, r)) :
    exec .remoteRequestArrival s = .next { z with reply := r.orElse (fun _ => z.reply) } := by
  change execRemoteRequestArrival s = _
  rw [execRemoteRequestArrival, h]

/-- Settles O47: requests and offers by the checks of their entry, then by what is done at their place. -/
theorem peerRequests : Obligations.PeerRequests := by
  refine ⟨?performed, ?offer, ?noOffer, ?refused, ?ungranted⟩
  case performed =>
    intro s w l q need hw hv hdev hcookie hoff hop hright hx hspace hok
    have hcheck : checkRemote s q = .ok l :=
      (checkRemote_ok hw ⟨hv, hdev, hcookie⟩ hop ⟨hoff, hright⟩ hx).trans (if_pos hspace)
    have hserve := serveRemote_place (data := s.ev.bytes) (packet := none) hop hcheck
    dsimp only at hserve
    rw [if_neg (not_not.mpr hok)] at hserve
    refine ⟨fun h0 => ?_, fun h1 => ?_, fun r hr h2 hamo hq => ?_⟩
    · rw [if_pos h0] at hserve
      exact exec_remoteRequestArrival hserve
    · rw [if_neg (by omega), if_pos h1] at hserve
      exact exec_remoteRequestArrival hserve
    · rw [if_neg (by omega), if_neg (by omega), if_pos (hamo ▸ hq), remoteAmo_of_row hr hamo] at hserve
      exact exec_remoteRequestArrival hserve
  case offer =>
    intro s w q hop hw hv hdev hcookie x
    have hserve : serveRemote s q s.ev.bytes = remoteOffer s q none := if_pos hop
    refine ⟨fun hright => ?_, fun hright hpassed => ?_, fun a c n hright hring hwait => ?_⟩
    · exact exec_remoteRequestArrival (hserve.trans (remoteOffer_refuses fun v hv' _ => by
        rwa [← Option.some.inj (hw.symm.trans hv')]))
    · exact exec_remoteRequestArrival (hserve.trans ((remoteOffer_decides hw ⟨hv, hdev, hcookie⟩ hright).1 hpassed))
    · exact exec_remoteRequestArrival (hserve.trans
        ((remoteOffer_decides hw ⟨hv, hdev, hcookie⟩ hright).2 a c n hring hwait))
  case noOffer =>
    intro s q hop hnone
    have hserve : serveRemote s q s.ev.bytes = remoteOffer s q none := if_pos hop
    exact exec_remoteRequestArrival (hserve.trans
      (remoteOffer_refuses fun w hw hn => absurd hn (not_names_iff.mpr (hnone w hw))))
  case refused =>
    intro s w q need x refused hw hv hdev hcookie hoff hop hright
    refine ⟨fun k hx => ?_, fun l hx => ?_⟩
    · exact exec_remoteRequestArrival (serveRemote_refuses hop
        (checkRemote_error hw ⟨hv, hdev, hcookie⟩ hop ⟨hoff, hright⟩ hx))
    · have hcheck := checkRemote_ok hw ⟨hv, hdev, hcookie⟩ hop ⟨hoff, hright⟩ hx
      refine ⟨fun hspace => ?_, fun hspace => ?_⟩
      · exact exec_remoteRequestArrival (serveRemote_refuses hop (hcheck.trans (if_neg hspace)))
      · have hserve := serveRemote_place (data := s.ev.bytes) (packet := none) hop (hcheck.trans (if_pos hspace))
        intro k
        refine ⟨fun hk => ?_, fun hk h2 hq => ?_⟩
        · exact exec_remoteRequestArrival (hserve.trans (if_pos hk))
        · dsimp only at hserve
          rw [if_neg (not_not.mpr hk), if_neg (by omega), if_neg (by omega), if_neg (not_not.mpr hq)] at hserve
          exact exec_remoteRequestArrival hserve
  case ungranted =>
    intro s q hop hnone
    exact exec_remoteRequestArrival (serveRemote_refuses hop
      (checkRemote_ungranted hop fun w hw => not_granted_iff.mpr (hnone w hw)))

end Sys2Proof.Machine
end

section
/-! O5, first part: what a run of bytes reads and writes under its own key, and the launch of a load. -/

namespace Sys2Proof.Machine

/-! ### Bytes under their own key (R23, R253, R315) -/

theorem Mem.bytes_getD (m : List Host.Cell) (a : Nat) {i n : Nat} (h : i < n) :
    (Mem.bytes m a n).getD i 0 = Mem.byte m (a + i) := by
  induction n generalizing a i with
  | zero => omega
  | succ n ih =>
    cases i with
    | zero => rfl
    | succ i =>
      rw [Mem.bytes, List.getD_cons_succ, ih (a + 1) (by omega)]
      congr 1
      omega

section
variable {s : State} {aes cell : Nat}

/-- Apart from the channels' memory, cells show what they hold. -/
theorem State.shown_apart {bs : List Byte} (h : ∀ c ∈ s.chans, c.meets cell bs.length = false) : s.shown cell bs = bs :=
  if_neg (by simpa using h)

theorem State.writeAs_th (s : State) (aes cell : Nat) (b : List Byte) : (s.writeAs aes cell b).th = s.th := by
  unfold State.writeAs
  split <;> rfl

variable (hkey : s.lineKey (cell / 64) = aes ∨ hbmEnd ≤ cell)
include hkey

theorem State.key_matches : ¬(cell < hbmEnd ∧ s.lineKey (cell / 64) ≠ aes) :=
  fun h => hkey.elim h.2 (Nat.not_le.mpr h.1)

theorem State.readAs_own (n : Nat) : s.readAs aes cell n = s.shown cell (Mem.bytes s.mem cell n) :=
  congrArg (s.shown cell) (if_neg (State.key_matches hkey))

theorem State.writeAs_own (b : List Byte) : s.writeAs aes cell b = s.poke cell b := if_neg (State.key_matches hkey)

/-- A write under the line's own key changes exactly its bytes. -/
theorem State.writeAs_bytes (b : List Byte) :
    (∀ i < b.length, Mem.byte (s.writeAs aes cell b).mem (cell + i) = b.getD i 0)
    ∧ ∀ c, c < cell ∨ cell + b.length ≤ c → Mem.byte (s.writeAs aes cell b).mem c = Mem.byte s.mem c := by
  rw [State.writeAs_own hkey]
  refine ⟨fun i hi => ?_, fun c hc => Mem.byte_write_ne hc⟩
  rw [List.getD_eq_getElem _ _ hi]
  exact Mem.byte_write cell b i hi

end

theorem readsItsBytes : Rules.ReadsItsBytes := by
  intro s aes cell hkey
  refine ⟨fun n hapart => ?_, fun b hapart => ?_⟩
  · rw [State.readAs_own hkey, State.shown_apart (by rwa [Mem.bytes_length])]
    exact ⟨Mem.bytes_length _ _ _, fun i hi => Mem.bytes_getD _ _ hi⟩
  · have hwritten : Mem.bytes (s.poke cell b).mem cell b.length = b := by
      have := Mem.bytes_write s.mem cell 0 b.length b (by omega)
      rwa [List.drop_zero, List.take_length] at this
    have hkey' : (s.poke cell b).lineKey (cell / 64) = aes ∨ hbmEnd ≤ cell := hkey
    rw [State.writeAs_own hkey, State.readAs_own hkey', hwritten]
    exact State.shown_apart hapart

/-! ### The launch of a load (R166, R171, R194) -/

theorem loadLaunch : Rules.LoadLaunch := by
  intro r hr g l src s a d loc hf hreach t at1
  exact exec_trigInstr_done hf ((congrFun₂ (trigAct_of_load hr l) a t).trans (loadAct_reaches hreach))

end Sys2Proof.Machine
end

section
/-! O5, second part: an access on its way, performed piece by piece. -/

namespace Sys2Proof.Machine

/-! ### What a finished access leaves (R178, R180) -/

theorem State.putAccess_none (s : State) (n : Nat) :
    s.putAccess n none = s.map (fun t => { t with mem := t.mem.eraseIdx n }) := by
  simp only [State.putAccess, Option.toList_none, List.append_nil, List.eraseIdx_eq_take_drop_succ]

theorem State.putAccess_some {s : State} {n : Nat} (h : n < s.th.mem.length) (a : Access) :
    s.putAccess n (some a) = s.map (fun t => { t with mem := t.mem.set n a }) := by
  simp only [State.putAccess, State.map, Option.toList_some, List.append_assoc, List.singleton_append,
    List.set_eq_take_append_cons_drop, if_pos h]

/-- A loaded value is what its trigger makes of its bytes (R189, R194). -/
theorem Access.value_eq (a : Access) : a.value = loadedValue a.n a.sext a.bytes := by
  have hsext (n x : Nat) : (BitVec.ofNat n x).signExtend 64 = BitVec.ofInt 64 (Int.bmod x (2 ^ n)) := by
    rw [BitVec.signExtend, BitVec.toInt_ofNat']
  rw [Access.value, loadedValue]
  split_ifs
  · rfl
  · rw [sextBytes, hsext]
  · rfl

theorem Thread.le_flightDue (t : Thread) (p : Option Latch) (now : Nat) : now ≤ t.flightDue p now := by
  have hfold (l : List Flight) (n : Nat) : n ≤ l.foldl (fun n f => max n f.due) n := by
    induction l generalizing n with
    | nil => exact Nat.le_refl n
    | cons f l ih => exact (Nat.le_max_left n f.due).trans (ih _)
  exact hfold _ now

/-- Memory and the registers of the thread in focus are as before; its windows, its results on their way and its
accesses need not be. -/
structure KeepsRegs (s z : State) : Prop where
  mem : z.mem = s.mem
  g : z.th.g = s.th.g
  v : z.th.v = s.th.v
  port : z.th.port = s.th.port

theorem KeepsRegs.trans {s y z : State} (h : KeepsRegs s y) (k : KeepsRegs y z) : KeepsRegs s z :=
  ⟨k.mem.trans h.mem, k.g.trans h.g, k.v.trans h.v, k.port.trans h.port⟩

/-- A step of a sequence changes its place, and V's window at its end. -/
theorem stepSequence_keeps (s : State) (pass word next : Nat) : KeepsRegs s (stepSequence s pass word next)
    ∧ (stepSequence s pass word next).th.mem = s.th.mem ∧ (stepSequence s pass word next).th.flight = s.th.flight := by
  unfold stepSequence
  dsimp only
  split <;> exact ⟨⟨rfl, rfl, rfl, rfl⟩, rfl, rfl⟩

/-- Access `n` is no longer on its way, and has acquired where it is to. -/
def State.over (s : State) (n : Nat) (acq : Option Nat) : State :=
  match acq with
  | some scope => (s.putAccess n none).acquire scope
  | none => s.putAccess n none

theorem State.over_keeps (s : State) (n : Nat) (acq : Option Nat) : KeepsRegs s (s.over n acq)
    ∧ (s.over n acq).th.mem = s.th.mem.eraseIdx n ∧ (s.over n acq).cyc = s.cyc := by
  unfold State.over
  rw [State.putAccess_none]
  cases acq <;> exact ⟨⟨rfl, rfl, rfl, rfl⟩, rfl, rfl⟩

/-- A loaded value on its way to v.r, behind those already on their way. -/
def Access.flight (a : Access) (s : State) : Flight :=
  ⟨none, s.th.flightDue none (max a.done s.cyc), 0, BitVec.ofNat 512 (leNat a.bytes), 0⟩

/-- Access `n` is over, and a load's value is on its way to v.r. -/
def State.fed (s : State) (n : Nat) (a : Access) : State :=
  if a.load then (s.over n a.acq).map (fun t => { t with flight := t.flight ++ [a.flight (s.over n a.acq)] })
  else s.over n a.acq

theorem State.fed_keeps (s : State) (n : Nat) (a : Access) :
    KeepsRegs s (s.fed n a) ∧ (s.fed n a).th.mem = s.th.mem.eraseIdx n := by
  obtain ⟨hkeeps, hmem, -⟩ := s.over_keeps n a.acq
  unfold State.fed
  split
  · exact ⟨⟨hkeeps.mem, hkeeps.g, hkeeps.v, hkeeps.port⟩, hmem⟩
  · exact ⟨hkeeps, hmem⟩

/-- The window of a finished access: complete, with a load's value. -/
def Access.answer (a : Access) (p : Pend) (now : Nat) : Pend :=
  let p := { p with known := true, doneAt := max p.doneAt now }
  if a.load ∧ a.u = .v then { p with v := BitVec.ofNat 512 (leNat a.bytes) }
  else if a.load then { p with r := a.value.1, r2 := a.value.2 } else p

section
variable (s : State) (n : Nat) (a : Access)

/-- An access of a sequence: a load's value becomes v.r in its turn, and the sequence goes on (R101). -/
theorem finishAccess_seq (h : a.seq = true) :
    ∃ pass word next, finishAccess s n a = stepSequence (s.fed n a) pass word next :=
  ⟨_, _, _, if_pos h⟩

/-- An access of the thread's own: a load's value goes to its window, which is complete (R39, R189). -/
theorem finishAccess_own (h : a.seq = false) : finishAccess s n a =
    (s.over n a.acq).map (fun t => t.setWin a.u (a.answer (t.win a.u) (s.over n a.acq).cyc)) :=
  if_neg (by rw [h]; decide)

/-- The registers stay, and the access is no longer on its way. -/
theorem finishAccess_keeps : KeepsRegs s (finishAccess s n a) ∧ (finishAccess s n a).th.mem = s.th.mem.eraseIdx n := by
  cases hseq : a.seq with
  | true =>
    obtain ⟨hkeeps, hmem⟩ := s.fed_keeps n a
    obtain ⟨pass, word, next, hfin⟩ := finishAccess_seq s n a hseq
    obtain ⟨hstep, haccess, -⟩ := stepSequence_keeps (s.fed n a) pass word next
    rw [hfin]
    exact ⟨hkeeps.trans hstep, haccess.trans hmem⟩
  | false =>
    obtain ⟨hkeeps, hmem, -⟩ := s.over_keeps n a.acq
    rw [finishAccess_own s n a hseq]
    exact ⟨hkeeps.trans ⟨rfl, rfl, rfl, rfl⟩, hmem⟩

/-- The window of a finished access of the thread's own. -/
theorem finishAccess_win (h : a.seq = false) :
    (finishAccess s n a).th.win a.u = a.answer ((s.over n a.acq).th.win a.u) (s.over n a.acq).cyc := by
  rw [finishAccess_own s n a h]
  exact Thread.win_setWin _ _ _

/-- A sequence's loaded value takes its place among the results on their way to v.r. -/
theorem finishAccess_flight (hseq : a.seq = true) (hload : a.load = true) :
    a.flight (s.over n a.acq) ∈ (finishAccess s n a).th.flight ∧ a.done ≤ (a.flight (s.over n a.acq)).due := by
  obtain ⟨pass, word, next, hfin⟩ := finishAccess_seq s n a hseq
  obtain ⟨-, -, hflight⟩ := stepSequence_keeps (s.fed n a) pass word next
  refine ⟨?_, (Nat.le_max_left _ _).trans (Thread.le_flightDue _ _ _)⟩
  rw [hfin, hflight, State.fed, if_pos hload]
  exact List.mem_append_right _ (List.mem_singleton_self _)

theorem Access.answer_load (h : a.load = true) (p : Pend) (now : Nat) : a.answer p now =
    let p := { p with known := true, doneAt := max p.doneAt now }
    let x := loadedValue a.n a.sext a.bytes
    if a.u = .v then { p with v := BitVec.ofNat 512 (leNat a.bytes) } else { p with r := x.1, r2 := x.2 } := by
  simp only [Access.answer, h, true_and, if_true, Access.value_eq]

theorem Access.answer_known (p : Pend) (now : Nat) : (a.answer p now).known = true := by
  unfold Access.answer
  dsimp only
  split_ifs <;> rfl

end

/-! ### A piece (R180) -/

/-- How many bytes the next piece of an access has. -/
abbrev Access.piece (a : Access) : Nat := min a.grain (a.n - a.off)

/-- A load after a piece that has read `b`. -/
def Access.got (a : Access) (b : List Byte) : Access := { a with bytes := a.bytes ++ b, off := a.off + a.piece }

/-- The bytes of a store's next piece. -/
abbrev Access.stores (a : Access) : List Byte := (a.bytes.drop a.off).take a.piece

/-- A store after a piece. -/
def Access.gave (a : Access) : Access := { a with off := a.off + a.piece }

/-- Memory and the core's view once a store's piece has been performed. -/
def State.stored (s : State) (a : Access) : State :=
  let z := s.writeAs a.aes (a.cell + a.off) a.stores
  if a.viewed then z.show s.th.key.coreKey (a.cell + a.off) a.stores else z

theorem State.stored_keeps (s : State) (a : Access) :
    (s.stored a).mem = (s.writeAs a.aes (a.cell + a.off) a.stores).mem ∧ (s.stored a).th = s.th := by
  unfold State.stored
  dsimp only
  split <;> exact ⟨rfl, State.writeAs_th ..⟩

/-- The state once a piece of access `n` has been performed, which leaves the access `a`. -/
def State.pieced (s : State) (n : Nat) (a : Access) : State :=
  if a.off < a.n then s.putAccess n (some a) else finishAccess s n a

section
variable {s : State} {n : Nat} {a : Access}

/-- An access with a further piece stays on its way. -/
theorem State.pieced_goes (hn : n < s.th.mem.length) (h : a.off < a.n) :
    s.pieced n a = s.map (fun t => { t with mem := t.mem.set n a }) :=
  (if_pos h).trans (State.putAccess_some hn a)

theorem State.pieced_ends (h : a.n ≤ a.off) : s.pieced n a = finishAccess s n a := if_neg (Nat.not_lt.mpr h)

/-- What becomes of an access after its piece changes neither memory nor registers. -/
theorem State.pieced_keeps (s : State) (n : Nat) (a : Access) : KeepsRegs s (s.pieced n a) := by
  unfold State.pieced
  split
  · exact ⟨rfl, rfl, rfl, rfl⟩
  · exact (finishAccess_keeps s n a).1

variable (ha : s.th.mem[n]? = some a) (hretr : a.retr < 3)
include ha hretr

/-- A piece that memory answers (R164). -/
theorem performNow_reads (hload : a.load = true) (hview : a.viewed = false) :
    performNow s n = some (s.pieced n (a.got (s.readAs a.aes (a.cell + a.off) a.piece))) := by
  simp only [performNow, ha, hload, hview, if_neg (Nat.not_le.mpr hretr), if_true, Access.got]
  rfl

/-- A piece of peer or host memory (R164, R178). -/
theorem performNow_views (hload : a.load = true) (hview : a.viewed = true) {b : List Byte} {z : State}
    (h : s.viewBytes (a.cell + a.off) a.piece a.acq.isSome = some (b, z)) :
    performNow s n = some (z.pieced n (a.got b)) := by
  simp only [performNow, ha, hload, hview, if_neg (Nat.not_le.mpr hretr), if_true, h, Access.got]
  rfl

/-- A piece of a store. -/
theorem performNow_writes (hload : a.load = false) : performNow s n = some ((s.stored a).pieced n a.gave) := by
  simp only [performNow, ha, hload, if_neg (Nat.not_le.mpr hretr), State.writeAs_th, Access.gave]
  rfl

end

/-- What a core reads of a line on which no sibling's store is on its way: memory, or its view of the line (R164, R178). -/
theorem viewBytes_reads {s : State} {cell n : Nat} (acq : Bool)
    (h : s.siblingPosts s.th.key.coreKey s.th.key cell n = false) :
    ∃ b z, s.viewBytes cell n acq = some (b, z) ∧ z.th = s.th ∧ z.mem = s.mem
      ∧ (b = Mem.bytes s.mem cell n
        ∨ ∃ p, s.view? s.th.key.coreKey cell = some p ∧ b = (p.bytes.drop (cell % 64)).take n) := by
  simp only [State.viewBytes, h, Bool.false_eq_true, if_false]
  split
  next p hp =>
    split
    · exact ⟨_, _, rfl, rfl, rfl, .inr ⟨p, hp, rfl⟩⟩
    · exact ⟨_, _, rfl, rfl, rfl, .inl rfl⟩
  next => exact ⟨_, _, rfl, rfl, rfl, .inl rfl⟩

/-- A turn of the agenda performs its access's next piece (log entry 6). -/
theorem step_perform {s t z : State} {k : SlotKey} {n : Nat} {rest : List Turn} (hagenda : s.agenda = .perform k n :: rest)
    (hfocus : s.focus k = some t) (hz : performNow t n = some z) : step s = .next { z with agenda := rest } := by
  change nextStep s = _
  rw [nextStep, hagenda]
  dsimp only
  rw [hfocus, Option.bind_some, hz]
  rfl

theorem accessPerformed : Rules.AccessPerformed := by
  intro s t k n rest a hagenda hfocus ha hretr cell w stored
  have hn : n < t.th.mem.length := (List.getElem?_eq_some_iff.mp ha).1
  have hstep {z : State} (hz : performNow t n = some z) := step_perform hagenda hfocus hz
  refine ⟨fun hload hview hoff => ?further, fun hload hview hseq hoff => ?last, fun hload hview hpost => ?viewed,
    fun hload hview hseq hoff => ?sequence, fun hload hoff => ?store, fun hload hacq hoff => ?stored⟩
  case further =>
    exact hstep ((performNow_reads ha hretr hload hview).trans (congrArg some (State.pieced_goes hn hoff)))
  case last =>
    intro b x u u'
    have hover : t.over n a.acq = u' := by
      simp only [State.over, State.putAccess_none]
      rfl
    obtain ⟨-, -, hcyc⟩ := t.over_keeps n a.acq
    refine hstep ((performNow_reads ha hretr hload hview).trans (congrArg some ?_))
    calc t.pieced n (a.got (t.readAs a.aes cell w))
      _ = finishAccess t n (a.got (t.readAs a.aes cell w)) := State.pieced_ends hoff
      _ = (t.over n a.acq).map (fun th =>
          th.setWin a.u ((a.got (t.readAs a.aes cell w)).answer (th.win a.u) (t.over n a.acq).cyc)) :=
        finishAccess_own _ _ _ hseq
      _ = _ := by
        rw [hcyc, hover]
        simp only [(a.got _).answer_load hload]
        rfl
  case viewed =>
    obtain ⟨b, y, hb, hth, hmem, hread⟩ := viewBytes_reads a.acq.isSome hpost
    have hz := hstep (performNow_views ha hretr hload hview hb)
    have hkeeps : KeepsRegs t (y.pieced n (a.got b)) :=
      KeepsRegs.trans ⟨hmem, by rw [hth], by rw [hth], by rw [hth]⟩ (y.pieced_keeps n (a.got b))
    refine ⟨b, _, hz, hkeeps.mem, hkeeps.g, hkeeps.port, hread, fun hoff => ?_, fun hoff hseq => ?_⟩
    · rw [← hth] at hn ⊢
      exact congrArg (fun z => z.th.mem) (State.pieced_goes (a := a.got b) hn hoff)
    · rw [State.pieced_ends (a := a.got b) hoff, ← hth]
      have hwin : (finishAccess y n (a.got b)).th.win a.u = _ := finishAccess_win y n (a.got b) hseq
      refine ⟨(finishAccess_keeps y n (a.got b)).2, ?_, fun hu => ?_, fun hu => ?_⟩ <;> rw [hwin]
      · exact Access.answer_known ..
      · rw [(a.got b).answer_load hload]
        exact congrArg Pend.v (if_pos hu)
      · rw [(a.got b).answer_load hload]
        exact congrArg (fun p : Pend => (p.r, p.r2)) (if_neg hu)
  case sequence =>
    have hz := hstep ((performNow_reads ha hretr hload hview).trans (congrArg some (State.pieced_ends hoff)))
    obtain ⟨hkeeps, haccess⟩ := finishAccess_keeps t n (a.got (t.readAs a.aes cell w))
    obtain ⟨hmem, hdue⟩ := finishAccess_flight t n (a.got (t.readAs a.aes cell w)) hseq hload
    exact ⟨_, _, hz, hkeeps.mem, hkeeps.g, haccess, hmem, rfl, hdue, rfl⟩
  case store =>
    obtain ⟨-, hth⟩ := t.stored_keeps a
    exact hstep ((performNow_writes ha hretr hload).trans (congrArg some (State.pieced_goes (hth ▸ hn) hoff)))
  case stored =>
    obtain ⟨hmem, hth⟩ := t.stored_keeps a
    have hz := hstep ((performNow_writes ha hretr hload).trans (congrArg some (State.pieced_ends hoff)))
    obtain ⟨hkeeps, haccess⟩ := finishAccess_keeps (t.stored a) n a.gave
    obtain ⟨hmem', hg, hv, hport⟩ := hkeeps
    rw [hth] at haccess hg hv hport
    refine ⟨_, hz, hmem'.trans hmem, haccess, hg, hv, hport, fun hseq => ?_⟩
    exact (congrArg Pend.known (finishAccess_win _ n a.gave hseq)).trans (Access.answer_known ..)

/-- Settles O5: the launch by its access, a piece by what it reads or writes, the bytes by their own key. -/
theorem loadResults : Obligations.LoadResults := ⟨loadLaunch, accessPerformed, readsItsBytes⟩

end Sys2Proof.Machine
end

section
/-! O6: a store by its launch, a posted one by what it leaves on its way and by what its target does. -/

namespace Sys2Proof.Machine

/-! ### The counter of a thread whose results are delivered -/

theorem Thread.deliver_unacked (t : Thread) (f : Flight) : (t.deliver f).unacked = t.unacked := by
  unfold Thread.deliver
  cases f.port <;> rfl

@[simp] theorem State.passed_unacked (s : State) : s.passed.th.unacked = s.th.unacked := by
  have hall (l : List Flight) (t : Thread) : (l.foldl Thread.deliver t).unacked = t.unacked := by
    induction l generalizing t with
    | nil => rfl
    | cons f l ih => exact (ih _).trans (t.deliver_unacked f)
  exact hall _ _

/-! ### The rows of the stores (R194) -/

section
variable {r : Trig × Nat × (Word → Word → List Byte)} (hr : r ∈ storeRows)
include hr

theorem trigAct_of_store (l : BitVec 4) (a : Word) (t : State) :
    trigAct r.1 l a t = storeAct .l r.2.1 (r.2.2 (t.th.get .lo2) (t.th.get .lo3)) l a t := by
  have hrows : storeRows.map (fun r => trigAct r.1 l a t)
      = storeRows.map (fun r => storeAct .l r.2.1 (r.2.2 (t.th.get .lo2) (t.th.get .lo3)) l a t) := rfl
  exact List.map_inj_left.mp hrows r hr

theorem storeRow_length (x y : Word) : (r.2.2 x y).length = r.2.1 := by
  have hrows : storeRows.map (fun r => (r.2.2 x y).length) = storeRows.map (fun r => r.2.1) := rfl
  exact List.map_inj_left.mp hrows r hr

end

theorem storeLaunch : Rules.StoreLaunch := by
  intro r hr g l src s a d loc hf hreach hrel hbehind hsib hposted t at1
  have hact := (trigAct_of_store hr l a t).trans (storeAct_reaches (u := .l) hreach hrel hbehind hsib)
  rw [hposted, if_neg Bool.false_ne_true, launchStore_eq] at hact
  exact exec_trigInstr_done hf hact

theorem writesExactlyItsBytes : Rules.WritesExactlyItsBytes :=
  fun _ _ _ b hkey => State.writeAs_bytes (.inl hkey) b

/-! ### Posted stores leave (R167, R168) -/

/-- A store to a scratchpad is on its way at once (R167). -/
theorem postStore_scr {s : State} {u : Win} {at_ : Attr} {loc : Loc} {va : Word} {bs : List Byte} {n : Nat}
    (h : loc.space = .scr n) :
    let at1 := s.landing (leastLatency s loc)
    postStore s u at_ loc va bs 1 = s.drawn.map (fun x => { x with
      unacked := x.unacked + 1
      posted := x.posted ++ [{
        cell := loc.cell, bytes := bs, due := at1, cls := at_.cls, va := va, key := loc.aes
        refuse := s.denied loc.cell 1 bs.length, scr := true, u := u, lat := at1 - s.cyc, since := s.cyc
        grain := if bs.length = 16 then 16 else 8 }] }) := by
  simp only [postStore, isCombined, Loc.viewed, Loc.grain, h, Bool.false_eq_true, if_false, false_and]
  rfl

section
variable {r : Trig × Nat × (Word → Word → List Byte)} {g : Guard} {l : BitVec 4} {src : Src} {s : State} {a : Word}
  {d : Option (BitVec 3 × Nat × Elem)} {loc : Loc}

/-- A store that is posted leaves as one, while the counter has room. -/
theorem exec_store_posted (hr : r ∈ storeRows) (hf : Fires r.1 g src s a d)
    (hreach : Reaches [0, 2] r.2.1 .store 1 (some (.l, fld (s.passed.th.get .lo) 6 5)) a s.passed loc)
    (hrel : MayRelease s.passed) (hbehind : s.passed.storeBehind loc (fld (s.passed.th.get .lo) 6 5) = false)
    (hsib : s.passed.behindSibling s.passed.th loc.cell r.2.1 = false) (hposted : isPosted s.passed loc = true)
    (hroom : s.th.unacked < 255) :
    let t := s.passed
    exec (r.1.instr g l src) s = .next (((postStore t .l (attrOf (t.th.get .lo)) loc a
      (r.2.2 (t.th.get .lo2) (t.th.get .lo3)) 1).opened .l l { doneAt := s.cyc + 1 }).taken d) := by
  intro t
  have hact := (trigAct_of_store hr l a t).trans (storeAct_reaches (u := .l) hreach hrel hbehind hsib)
  rw [hposted, if_pos rfl, State.passed_unacked, if_neg (Nat.not_le.mpr hroom)] at hact
  exact exec_trigInstr_done hf hact

end

theorem postedStoreResults : Rules.PostedStoreResults := by
  intro r hr g l src s a d loc n hf hreach hrel hbehind hsib hspace htile hroom t at1
  have hposted : isPosted t loc = true := by
    rw [isPosted, hspace]
    exact decide_eq_true (by rwa [State.passed_key])
  have hexec : exec (r.1.instr g l src) s = _ := exec_store_posted hr hf hreach hrel hbehind hsib hposted hroom
  rw [hexec, postStore_scr hspace, storeRow_length hr]
  rfl

theorem combinedStoreResults : Rules.CombinedStoreResults := by
  intro r hr g l src s a d loc hf hreach hrel hbehind hsib hspace hroom t
  have hposted : isPosted t loc = true := by
    rw [isPosted]
    rcases hspace with h | h <;> rw [h]
  obtain ⟨-, hmem, hg, -, hport, hunacked, hon⟩ :=
    postStore_keeps t .l (attrOf (t.th.get .lo)) loc a (r.2.2 (t.th.get .lo2) (t.th.get .lo3)) 1 false
  exact ⟨_, exec_store_posted hr hf hreach hrel hbehind hsib hposted hroom, hmem,
    hunacked.trans (congrArg (· + 1) s.passed_unacked), hg.trans s.seen_g, hport, hon⟩

/-! ### What the target does (R167, R180, R193) -/

/-- An acknowledgement lowers the counter of the thread in focus, and no register of it changes. -/
theorem State.acked_focus (s : State) : (s.acked s.th.key).mem = s.mem ∧ (s.acked s.th.key).th.unacked = s.th.unacked - 1
    ∧ (s.acked s.th.key).th.posted = s.th.posted
    ∧ (s.acked s.th.key).th.g = s.th.g ∧ (s.acked s.th.key).th.port = s.th.port
    ∧ (s.acked s.th.key).th.rfq = s.th.rfq ∧ (s.acked s.th.key).th.repAddr = s.th.repAddr
    ∧ (s.acked s.th.key).th.repKind = s.th.repKind := by
  refine ⟨rfl, ?_⟩
  rw [State.acked, State.mapSlot_th]
  dsimp only
  split <;> exact ⟨rfl, rfl, rfl, rfl, rfl, rfl, rfl⟩

theorem setNth_eq_set {α : Type} {l : List α} {n : Nat} (h : n < l.length) (x : α) : setNth l n x = l.set n x := by
  rw [setNth, List.set_eq_take_append_cons_drop, if_pos h]

section
variable {s t : State} {p : Posted} (hf : s.focus s.ev.key = some t) (hp : t.th.posted[s.ev.n]? = some p)
  (hdue : postedDue t t.th s.ev.n = true) (hok : p.refuse = 0)
include hf hp hdue hok

/-- A due posted store's last piece is written, and the store acknowledged (R167, R180). -/
theorem exec_postedStoreAcknowledgement_last (h : p.bytes.length ≤ p.grain) : exec .postedStoreAcknowledgement s =
    .next (((t.writeAs p.key p.cell (p.bytes.take p.grain)).map
      (fun x => { x with posted := x.posted.eraseIdx s.ev.n })).acked t.th.key) := by
  have hempty : (p.bytes.drop p.grain).isEmpty = true := List.isEmpty_iff.mpr (List.drop_eq_nil_iff.mpr h)
  refine onSlot_some hf ?_
  simp only [State.focus_ev hf, hp, hdue, hok, hempty, and_self, if_true]

/-- Another piece is written, and the rest of the store stays on its way (R180). -/
theorem exec_postedStoreAcknowledgement_piece (h : p.grain < p.bytes.length) : exec .postedStoreAcknowledgement s =
    .next ((t.writeAs p.key p.cell (p.bytes.take p.grain)).map (fun x => { x with
      posted := x.posted.set s.ev.n { p with cell := p.cell + p.grain, bytes := p.bytes.drop p.grain } })) := by
  have hn : s.ev.n < t.th.posted.length := (List.getElem?_eq_some_iff.mp hp).1
  have hrest : ¬(p.bytes.drop p.grain).isEmpty = true := by
    rw [List.isEmpty_iff, List.drop_eq_nil_iff]
    exact Nat.not_le.mpr h
  refine onSlot_some hf ?_
  simp only [State.focus_ev hf, hp, hdue, hok, and_self, if_true, if_neg hrest, State.map, State.writeAs_th, setNth_eq_set hn]

end

/-- A report lowers the counter and raises rfq, and the first one's address and kind are kept (R193). -/
theorem State.reported_focus (s : State) (addr : BitVec 48) (kind : Nat) :
    let z := s.reported s.th.key addr kind
    z.mem = s.mem ∧ z.th.posted = s.th.posted ∧ z.th.unacked = s.th.unacked - 1
      ∧ z.th.rfq = (if s.th.rfq = 65535 then 65535 else s.th.rfq + 1)
      ∧ z.th.repAddr = (if s.th.rfq = 0 then addr else s.th.repAddr)
      ∧ z.th.repKind = (if s.th.rfq = 0 then BitVec.ofNat 8 kind else s.th.repKind) := by
  have hraised := State.mapSlot_th s (fun t => { t with
    rfq := if t.rfq = 65535 then t.rfq else t.rfq + 1, repAddr := if t.rfq = 0 then addr else t.repAddr
    repKind := if t.rfq = 0 then BitVec.ofNat 8 kind else t.repKind })
  obtain ⟨hmem, hunacked, hposted, -, -, hrfq, haddr, hkind⟩ := State.acked_focus (s.mapSlot s.th.key _)
  rw [hraised] at hmem hunacked hposted hrfq haddr hkind
  refine ⟨hmem, hposted, hunacked, hrfq.trans ?_, haddr, hkind⟩
  exact ite_congr rfl id fun _ => rfl

/-- The report of a refused store, the first of its thread's list (R193). -/
theorem exec_remoteFaultReport {s : State} {p : Posted} (hkey : s.th.key = s.ev.key) (hlife : s.th.life ≠ .idle)
    (hp : s.th.posted[0]? = some p) (hdue : postedDue s s.th 0 = true) (hrefuse : p.refuse ≠ 0) (hkind : p.refuse = s.ev.n)
    (hva : p.va = s.ev.w) : exec .remoteFaultReport s =
      .next ((s.mapSlot s.th.key (fun x => { x with posted := x.posted.eraseIdx 0 })).reported s.th.key
        (s.ev.w.setWidth 48) s.ev.n) := by
  have hthread : s.thread? s.ev.key = some s.th := if_pos ⟨hkey, hlife⟩
  obtain ⟨m, hm⟩ : ∃ m, s.th.posted.length = m + 1 :=
    Nat.exists_eq_succ_of_ne_zero (Nat.ne_of_gt (List.getElem?_eq_some_iff.mp hp).1)
  change execRemoteFaultReport s = _
  rw [execRemoteFaultReport]
  simp only [hthread, Option.bind_eq_bind, Option.bind_some, hm, List.range_succ_eq_map]
  rw [List.find?_cons_of_pos (by simp [hdue, hp, hrefuse, ← hkind, hva])]
  rw [hkey]
  rfl

theorem exec_writeCombiningTimeout {s : State} {t : Thread} {p : Posted} (ht : t ∈ s.threads)
    (hcore : t.key.coreKey = s.ev.key.coreKey) (hp : p ∈ t.posted) (hwcb : p.wcb = true) (hdue : p.due ≤ s.cyc) :
    exec .writeCombiningTimeout s = .next (s.mapAll (fun t => if t.key.coreKey = s.ev.key.coreKey then
      { t with posted := t.posted.map (fun p =>
        if combineDue s p then { p with wcb := false, due := s.cyc + p.lat } else p) } else t)) := by
  refine if_pos (List.any_eq_true.mpr ⟨t, ht, decide_eq_true ⟨hcore, List.any_eq_true.mpr ⟨p, hp, ?_⟩⟩⟩)
  rw [combineDue, hwcb, decide_eq_true hdue]
  rfl

theorem postedStoreEvents : Rules.PostedStoreEvents := by
  refine ⟨?performed, ?refused, ?sent⟩
  case performed =>
    intro s t p hf hp hdue hok now
    have hth : (t.writeAs p.key p.cell now).th = t.th := State.writeAs_th ..
    have hbytes (hkey : t.lineKey (p.cell / 64) = p.key) := State.writeAs_bytes (.inl hkey) now
    rw [(State.focus_keeps hf).2] at hbytes
    rcases Nat.lt_or_ge p.grain p.bytes.length with h | h
    · refine ⟨_, exec_postedStoreAcknowledgement_piece hf hp hdue hok h, ?_, ?_, fun hl => absurd h (Nat.not_lt.mpr hl),
        fun _ => ?_, hbytes⟩
      all_goals rw [State.map_th, hth]
      exact ⟨rfl, rfl⟩
    · obtain ⟨hmem, hunacked, hposted, hg, hport, -⟩ := State.acked_focus
        ((t.writeAs p.key p.cell now).map (fun x => { x with posted := x.posted.eraseIdx s.ev.n }))
      rw [State.map_th, hth] at hmem hunacked hposted hg hport
      refine ⟨_, exec_postedStoreAcknowledgement_last hf hp hdue hok h, hg, hport, fun _ => ⟨hposted, hunacked⟩,
        fun hl => absurd hl (Nat.not_lt.mpr h), fun hkey => ?_⟩
      rw [hmem]
      exact hbytes hkey
  case refused =>
    intro s p hkey hlife hp hdue hrefuse hkind hva
    have hexec := exec_remoteFaultReport hkey hlife hp hdue hrefuse hkind hva
    have hraised := State.mapSlot_th s (fun x => { x with posted := x.posted.eraseIdx 0 })
    obtain ⟨hmem, hposted, hunacked, hrfq, haddr, hkind⟩ := State.reported_focus
      (s.mapSlot s.th.key (fun x => { x with posted := x.posted.eraseIdx 0 })) (s.ev.w.setWidth 48) s.ev.n
    rw [hraised] at hmem hposted hunacked hrfq haddr hkind
    exact ⟨_, hexec, hmem, hposted, hunacked, hrfq, fun h => ⟨haddr.trans (if_pos h), hkind.trans (if_pos h)⟩,
      fun h => ⟨haddr.trans (if_neg h), hkind.trans (if_neg h)⟩⟩
  case sent =>
    intro s t p ht hcore hp hwcb hdue
    refine ⟨_, exec_writeCombiningTimeout ht hcore hp hwcb hdue, rfl, ?_⟩
    simp only [State.mapAll, combineDue, Bool.and_eq_true, decide_eq_true_eq]
    split <;> rfl

/-- Settles O6: a store by its launch, the events of a posted one by what each does to its thread's list. -/
theorem storeResults : Obligations.StoreResults :=
  ⟨storeLaunch, writesExactlyItsBytes, postedStoreResults, combinedStoreResults, postedStoreEvents⟩

end Sys2Proof.Machine
end

section
/-! O8: a wait on a word by what its trigger reads, and its ends by what the word then holds. -/

namespace Sys2Proof.Machine

/-! ### What a transport that fires comes to -/

/-- A trigger's word that fires is concluded with the trigger's act on the state it has passed. -/
theorem exec_trigInstr_fires {t : Trig} {g : Guard} {src : Src} {s : State} {w : Word} {d : Option (BitVec 3 × Nat × Elem)}
    (l : BitVec 4) (hf : Fires t g src s w d) :
    ∃ look, exec (t.instr g l src) s = .next (conclude false t.num look s.seen d (trigAct t l w s.passed)) :=
  ⟨_, (exec_trigInstr_act t g l src s).trans (trigger_fires hf)⟩

/-- Results that arrive, and a word that is passed, leave a held transport still to be performed. -/
theorem State.passed_unperformed (s : State) : s.passed.th.unperformed = s.th.unperformed := by
  have hdeliver (t : Thread) (f : Flight) : (t.deliver f).unperformed = t.unperformed := by
    unfold Thread.deliver
    cases f.port <;> rfl
  exact List.foldlRecOn (motive := fun x : Thread => x.unperformed = s.th.unperformed) _ _ rfl
    (fun x hx f _ => (hdeliver x f).trans hx)

/-! ### The transport that held a thread is performed (R12, R39) -/

section
variable {s : State}

theorem State.performHeld_performed (h : s.th.unperformed = none) : s.performHeld = s := by
  rw [State.performHeld, h]

theorem State.performHeld_counts (h : s.th.unperformed = some none) :
    s.performHeld = (s.map (fun t => { t with unperformed := none })).advance := by
  rw [State.performHeld, h]
  rfl

theorem State.performHeld_takes {q : BitVec 3} {c : Nat} {e : Elem} (h : s.th.unperformed = some (some q))
    (hq : s.queueRead q = .head c e) :
    s.performHeld = (s.map (fun t => { t with unperformed := none })).advance.queueTake q c e := by
  have hq' : (s.map (fun t => { t with unperformed := none })).advance.queueRead q = .head c e := hq
  rw [State.performHeld, h]
  simp only [Option.map_some, hq']

/-- What a transport leaves alone as it is performed after its hold. -/
theorem State.performHeld_keeps (s : State) :
    s.performHeld.mem = s.mem ∧ s.performHeld.th.key = s.th.key ∧ s.performHeld.th.life = s.th.life := by
  have htook (t : Thread) (e : Elem) : (t.took e).key = t.key ∧ (t.took e).life = t.life := by
    unfold Thread.took
    split <;> exact ⟨Thread.setK_key .., Thread.setK_life ..⟩
  unfold State.performHeld
  split
  next => exact ⟨rfl, rfl, rfl⟩
  next =>
    dsimp only
    split
    next q c e _ =>
      obtain ⟨hth, hmem, -⟩ := State.queueTake_keeps ((s.map (fun t => { t with unperformed := none })).advance) q c e
      rw [hth, hmem]
      exact ⟨rfl, htook _ e⟩
    next => exact ⟨rfl, rfl, rfl⟩

end

/-! ### A wait returns (R199) -/

/-- A wait that returns is performed, l.r holds its value and l.r2 its status, and it acquires as its l.o says (R185). -/
theorem waitReturn_eq (s : State) (lo : Word) (x status : Nat) : waitReturn s lo x status =
    (s.performHeld.map (fun t => { (t.set .lr (BitVec.ofNat 64 x)).set .lr2 (BitVec.ofNat 64 status) with
      hold := .none, readyAt := s.cyc + 1 })).acquired lo :=
  if_congr (attrOf_acq_iff lo) rfl rfl

theorem State.acquired_keeps (s : State) (lo : Word) : (s.acquired lo).th = s.th ∧ (s.acquired lo).mem = s.mem := by
  unfold State.acquired
  split <;> exact ⟨rfl, rfl⟩

theorem waitReturn_keeps (s : State) (lo : Word) (x status : Nat) : (waitReturn s lo x status).mem = s.mem
    ∧ (waitReturn s lo x status).th.key = s.th.key ∧ (waitReturn s lo x status).th.life = s.th.life := by
  rw [waitReturn_eq, (State.acquired_keeps ..).1, (State.acquired_keeps ..).2]
  exact s.performHeld_keeps

/-- Reading a place drops at most a view of its line. -/
theorem State.dropView_keeps (s : State) (loc : Loc) :
    (s.dropView loc).th = s.th ∧ (s.dropView loc).mem = s.mem ∧ (s.dropView loc).cyc = s.cyc := by
  unfold State.dropView
  split <;> exact ⟨rfl, rfl, rfl⟩

/-- The condition of a wait: greater or equal in wrapping arithmetic, or different (R199). -/
theorem waitDone_iff (ge : Bool) (n x v : Nat) : waitDone ge n x v = true ↔
    if ge then (x + 2 ^ (8 * n) - v % 2 ^ (8 * n)) % 2 ^ (8 * n) < 2 ^ (8 * n - 1) else x ≠ v % 2 ^ (8 * n) := by
  cases ge
  · exact bne_iff_ne
  · exact decide_eq_true_iff

/-! ### The trigger (R199, R201) -/

theorem trigAct_of_wait {r : Trig × Nat × Bool}
    (hr : r ∈ [(Trig.waddrW, 4, false), (.waddrD, 8, false), (.waddrGeW, 4, true), (.waddrGeD, 8, true)]) (l : BitVec 4) :
    trigAct r.1 l = waitAct r.2.1 r.2.2 := by
  simp only [List.mem_cons, List.not_mem_nil, or_false] at hr
  rcases hr with rfl | rfl | rfl | rfl <;> rfl

/-- A wait that reaches its word reads it, and returns or holds. -/
theorem waitAct_reaches {n : Nat} {ge : Bool} {a : Word} {s : State} {loc : Loc} (h : Reaches ordLoad n .load 0 none a s loc)
    (htimeout : fld (s.th.get .lo3) 63 32 = 0)
    (hsib : loc.viewed = true → s.siblingPosts s.th.key.coreKey s.th.key loc.cell n = false) :
    let x := leNat (s.readAs loc.aes loc.cell n)
    let tmo := fld (s.th.get .lo3) 31 0
    waitAct n ge a s = if waitDone ge n x (s.th.get .lo2).toNat then
        .done ((waitReturn (s.drawn.dropView loc) (s.th.get .lo) x 0).map
          (fun t => { t with readyAt := s.landing (leastLatency s loc) }))
      else .hold (.waddr a n ge (s.th.get .lo2) (s.th.get .lo) (if tmo = 0 then none else some (s.cyc + tmo)) (s.cyc + 2800))
        (fun s => s.map (fun t => { t with retr := 0 })) := by
  have hwell : ¬(fld (s.th.get .lo3) 63 32 ≠ 0 ∧ a.toNat % n = 0) := fun hbad => hbad.1 htimeout
  have hfree : ¬(loc.viewed = true ∧ s.siblingPosts s.th.key.coreKey s.th.key loc.cell n = true) := by
    rintro ⟨hview, hpost⟩
    rw [hsib hview] at hpost
    cases hpost
  rw [waitAct, if_neg hwell, access_reaches (admits := fun _ => true) h rfl]
  dsimp only
  rw [if_neg hfree]
  rfl

theorem waitOnWord : Rules.WaitOnWord := by
  intro r hr g src s a d loc hf hreach htimeout hsib hheld t x v met tmo t1
  have hsib' : loc.viewed = true → t.siblingPosts t.th.key.coreKey t.th.key loc.cell r.2.1 = false := by
    rwa [State.passed_key]
  have hact : trigAct r.1 0 a t = _ :=
    (congrFun₂ (trigAct_of_wait hr 0) a t).trans (waitAct_reaches hreach htimeout hsib')
  have hmet : waitDone r.2.2 r.2.1 x (t.th.get .lo2).toNat = true ↔ met := waitDone_iff ..
  have hview : t.drawn.dropView loc = t1 := by
    change (if loc.viewed then t.drawn.evict t.th.key.coreKey loc.cell else t.drawn) = t1
    rw [State.passed_key]
  refine ⟨fun h => ?_, fun h => ?_⟩
  · rw [if_pos (hmet.mpr h), hview, waitReturn_eq] at hact
    obtain ⟨hth, -, hcyc⟩ := State.dropView_keeps t.drawn loc
    rw [hview] at hth hcyc
    have hperformed : t1.th.unperformed = none := by
      rw [hth]
      exact (State.passed_unperformed s).trans hheld
    rw [State.performHeld_performed hperformed, hcyc] at hact
    exact exec_trigInstr_done hf hact
  · obtain ⟨look, hexec⟩ := exec_trigInstr_fires 0 hf
    rw [if_neg (mt hmet.mp h)] at hact
    rw [hexec, hact]
    rfl

/-! ### The ends of a wait (R199, R200) -/

theorem waitRead_ok {t : State} {a : Word} {n : Nat} {loc : Loc} (hloc : translate t t.self a .load = .ok loc)
    (hok : t.denied loc.cell 0 n = 0) : waitRead t a n = .ok (loc, leNat (t.readAs loc.aes loc.cell n)) := by
  simp only [waitRead, hloc, hok]
  rfl

section
variable {s t : State} {a v lo : Word} {n x w : Nat} {ge : Bool} {dl : Option Nat} {loc : Loc}
  (hfocus : s.focus s.ev.key = some t) (hhold : t.th.hold = .waddr a n ge v lo dl w) (hread : waitRead t a n = .ok (loc, x))
include hhold hread

/-- A read of a word that is not a peer's wakes its wait as soon as the condition is met (R200). -/
theorem wakeDue_iff : wakeDue t = true ↔ loc.space ≠ .peer ∧ waitDone ge n x v.toNat = true := by
  simp only [wakeDue, hhold, hread, Bool.and_eq_true]
  refine and_congr_left fun _ => ?_
  cases loc.space <;> simp

include hfocus

theorem exec_waitWake (hspace : loc.space ≠ .peer) (hmet : waitDone ge n x v.toNat = true) :
    exec .waitWake s = .next (waitReturn (t.dropView loc) lo x 0) := by
  have hdue : wakeDue t = true := (wakeDue_iff hhold hread).mpr ⟨hspace, hmet⟩
  refine onSlot_some hfocus ?_
  simp only [hhold, hdue, hread]
  rfl

theorem exec_waitTimeout {d : Nat} (hdl : dl = some d) (hd : d ≤ s.cyc)
    (hspace : loc.space = .peer ∨ waitDone ge n x v.toNat = false) :
    exec .waitTimeout s = .next (waitReturn (t.dropView loc) lo x (if waitDone ge n x v.toNat then 0 else 1)) := by
  have hdue : ¬wakeDue t = true := by
    rw [wakeDue_iff hhold hread]
    rintro ⟨hpeer, hmet⟩
    rcases hspace with h | h
    · exact hpeer h
    · rw [h] at hmet
      cases hmet
  have hlate : ¬(t.cyc < d ∨ wakeDue t = true) := by
    rw [(State.focus_keeps hfocus).1]
    exact fun h => h.elim (Nat.not_lt.mpr hd) hdue
  refine onSlot_some hfocus ?_
  simp only [hhold, hdl, if_neg hlate, hread]

theorem exec_watchUnitRead (hspace : loc.space = .peer) (hw : w ≤ s.cyc) (hretr : t.th.retr < 3) :
    exec .watchUnitRead s = .next (waitReturn (t.dropView loc) lo x (if waitDone ge n x v.toNat then 0
      else if (dl.map (fun d => decide (d ≤ s.cyc))).getD false then 1 else 2)) := by
  have hcyc := (State.focus_keeps hfocus).1
  refine onSlot_some hfocus ?_
  simp only [hhold, hcyc, if_neg (Nat.not_lt.mpr hw), if_neg (Nat.not_le.mpr hretr), hread, hspace]

end

/-! ### The host takes a line (R200) -/

/-- An event that takes each slot in turn changes no memory where its step for a slot changes none. -/
theorem eachSlot_mem {f : State → State} (hf : ∀ s, (f s).mem = s.mem) (s : State) : (eachSlot f s).mem = s.mem := by
  refine List.foldlRecOn (motive := fun x : State => x.mem = s.mem) _ _ rfl fun x hx k _ => ?_
  dsimp only
  split
  next => exact hx
  next s1 h1 =>
    have hmem : (f s1).mem = s.mem := (hf s1).trans ((State.focus_keeps h1).2.trans hx)
    cases h2 : (f s1).focus x.th.key with
    | none => exact hmem
    | some s2 => exact (State.focus_keeps h2).2.trans hmem

/-- A thread alone in the module is the one slot taken. -/
theorem eachSlot_alone {f : State → State} {s : State} (halone : s.others = []) (hlife : s.th.life ≠ .idle)
    (hkey : (f s).th.key = s.th.key) (hlife' : (f s).th.life = s.th.life) : eachSlot f s = f s := by
  have hthreads : s.threads = [s.th] := by rw [State.threads, if_neg hlife, halone]; rfl
  have hback : (f s).focus s.th.key = some (f s) := hkey ▸ State.focus_self (hlife' ▸ hlife)
  simp only [eachSlot, hthreads, List.map_cons, List.map_nil, List.foldl_cons, List.foldl_nil, State.focus_self hlife, hback,
    Option.getD_some]

theorem snoopWait_mem (line : Nat) (s : State) : (snoopWait line s).mem = s.mem := by
  unfold snoopWait
  split
  next =>
    split
    next =>
      split
      next => exact (waitReturn_keeps ..).1.trans (State.dropView_keeps ..).2.1
      next => rfl
    next => rfl
  next => rfl

/-- A thread that waits on the line reads it once more, and returns. -/
theorem snoopWait_reads {s : State} {a v lo : Word} {n x w line : Nat} {ge : Bool} {dl : Option Nat} {loc : Loc}
    (hhold : s.th.hold = .waddr a n ge v lo dl w) (hread : waitRead s a n = .ok (loc, x))
    (hline : loc.cell / 64 = hostCell (line * 64) / 64) :
    snoopWait line s = waitReturn (s.dropView loc) lo x (if waitDone ge n x v.toNat then 0 else 2) := by
  simp only [snoopWait, hhold, hread, hline, if_true]

theorem exec_snoopOrBackInvalidate (s : State) : exec .snoopOrBackInvalidate s = .next (eachSlot (snoopWait s.ev.n)
    (if s.ev.bytes.length = 64 then s.poke (hostCell (s.ev.n * 64)) s.ev.bytes else s)) := by
  have hev : (if s.ev.bytes.length = 64 then s.poke (hostCell (s.ev.n * 64)) s.ev.bytes else s).ev = s.ev := by
    split <;> rfl
  change execSnoopOrBackInvalidate s = _
  rw [execSnoopOrBackInvalidate, hev]

/-! ### O8 -/

theorem wordWaitEnds : Rules.WordWaitEnds := by
  refine ⟨?performed, ?ends, ?host, ?alone⟩
  case performed =>
    exact fun s => ⟨State.performHeld_performed, State.performHeld_counts, fun q c e => State.performHeld_takes⟩
  case ends =>
    intro s t a n ge v lo dl w loc hfocus hhold hloc hok x m met ends
    have hread : waitRead t a n = .ok (loc, x) := waitRead_ok hloc hok
    have hmet : waitDone ge n x v.toNat = true ↔ met := waitDone_iff ..
    have hmiss (h : ¬met) : waitDone ge n x v.toNat = false := Bool.eq_false_iff.mpr (mt hmet.mp h)
    have hends (status : Nat) : waitReturn (t.dropView loc) lo x status = ends status := by
      rw [waitReturn_eq, (State.dropView_keeps t loc).2.2, (State.focus_keeps hfocus).1]
    refine ⟨fun hspace h => ?wake, fun hspace h d hdl hd => ?late, fun hspace => ⟨fun d hdl hd => ⟨fun h => ?latePeer,
      fun h => ?latePeerMiss⟩, fun hw hretr => ⟨fun h => ?watch, fun h => ?watchMiss⟩⟩⟩
    case wake => rw [exec_waitWake hfocus hhold hread hspace (hmet.mpr h), hends]
    case late => rw [exec_waitTimeout hfocus hhold hread hdl hd (.inr (hmiss h)), hends, hmiss h]; rfl
    case latePeer => rw [exec_waitTimeout hfocus hhold hread hdl hd (.inl hspace), hends, hmet.mpr h]; rfl
    case latePeerMiss => rw [exec_waitTimeout hfocus hhold hread hdl hd (.inl hspace), hends, hmiss h]; rfl
    case watch => rw [exec_watchUnitRead hfocus hhold hread hspace hw hretr, hends, hmet.mpr h]; rfl
    case watchMiss =>
      rw [exec_watchUnitRead hfocus hhold hread hspace hw hretr, hends, hmiss h]
      cases dl with
      | none => rfl
      | some d => simp
  case host =>
    intro s
    refine ⟨_, exec_snoopOrBackInvalidate s, fun h => ?_, fun h => ?_⟩
    · rw [eachSlot_mem (snoopWait_mem _), if_neg h]
    · rw [eachSlot_mem (snoopWait_mem _), if_pos h]
      refine ⟨fun i hi => ?_, fun c hc => Mem.byte_write_ne (by rwa [h])⟩
      rw [List.getD_eq_getElem _ _ (by rwa [h])]
      exact Mem.byte_write _ _ i (by rwa [h])
  case alone =>
    intro s a n ge v lo dl w loc halone hlife hlen hhold hloc hok hline x status
    have hwait := snoopWait_reads hhold (waitRead_ok hloc hok) hline
    obtain ⟨-, hkey, hlife'⟩ := waitReturn_keeps (s.dropView loc) lo x status
    rw [(State.dropView_keeps s loc).1] at hkey hlife'
    rw [exec_snoopOrBackInvalidate, if_neg hlen, eachSlot_alone halone hlife (hwait ▸ hkey) (hwait ▸ hlife'), hwait,
      waitReturn_eq, (State.dropView_keeps s loc).2.2]

/-- Settles O8: the trigger by its read, each end by the event that brings it. -/
theorem waitsOnWords : Obligations.WaitsOnWords := ⟨waitOnWord, wordWaitEnds⟩

end Sys2Proof.Machine
end

section
/-! O10: sig.add and sig.wait by what their acts come to, and the signal unit by the queue that a handle names. -/

namespace Sys2Proof.Machine

/-! ### Queues and their timelines (R205, R207) -/

theorem State.taken_pc (s : State) (d : Option (BitVec 3 × Nat × Elem)) : (s.taken d).th.pc = s.th.pc := by
  cases d with
  | none => rfl
  | some x => exact (congrArg Thread.pc (State.queueTake_keeps s x.1 x.2.1 x.2.2).1).trans (Thread.took_pc ..)

/-- A threshold is met where the timeline lies less than half the range above it (R207). -/
theorem meets_iff (t v : Word) : meets t v = true ↔ (t - v).toNat < 2 ^ 63 := by
  rw [meets, BitVec.msb_eq_decide, Bool.not_eq_true', decide_eq_false_iff_not, Nat.not_le]

theorem not_meets_iff (t v : Word) : meets t v = false ↔ 2 ^ 63 ≤ (t - v).toNat := by
  rw [← Bool.not_eq_true, meets_iff, Nat.not_lt]

section
variable {s : State} {q : SwQueue} {ctx : Nat} {w : Word}

/-- A handle names a queue that is allocated to its context and not freed (R205). -/
theorem handleQueue_eq_some_iff : handleQueue s ctx w = some q ↔ s.queue? w.toNat = some q ∧ q.ctx = ctx := by
  unfold handleQueue
  cases s.queue? w.toNat with
  | none => simp
  | some x =>
    by_cases h : x.ctx = ctx
    · simp only [h, if_true, Option.some_inj]
      exact ⟨fun hq => ⟨hq, hq ▸ h⟩, And.left⟩
    · simp only [h, if_false, Option.some_inj]
      exact ⟨nofun, fun hq => absurd (hq.1 ▸ hq.2) h⟩

theorem handleQueue_freed (h : s.queue? w.toNat = none) : handleQueue s ctx w = none := by
  rw [handleQueue, h]

theorem State.queue?_live {n : Nat} (h : s.queue? n = some q) : q.num = n ∧ q.st ≠ .freed := by
  have hfound : s.queues.find? (fun q => decide (q.num = n ∧ q.st ≠ .freed)) = some q := h
  exact of_decide_eq_true (List.find?_some hfound :)

/-- An update that keeps every queue's number and state is what a search finds updated. -/
theorem State.queue?_updated {t : State} {f : SwQueue → SwQueue} (hf : ∀ q, (f q).num = q.num ∧ (f q).st = q.st)
    (ht : t.queues = s.queues.map f) (n : Nat) : t.queue? n = (s.queue? n).map f := by
  have hsame : ((fun q : SwQueue => decide (q.num = n ∧ q.st ≠ .freed)) ∘ f)
      = fun q => decide (q.num = n ∧ q.st ≠ .freed) := by
    funext q
    simp only [Function.comp_apply, hf q]
  rw [State.queue?, ht, List.find?_map, hsame]
  rfl

/-- Queues that wake keep their timelines (R206). -/
theorem wakeParked_queue? (s : State) (m : Nat) (v : Word) (n : Nat) :
    ((wakeParked s m v).queue? n).map SwQueue.timeline = (s.queue? n).map SwQueue.timeline := by
  obtain ⟨f, hf, hqueues⟩ : ∃ f : SwQueue → SwQueue,
      (∀ q, (f q).num = q.num ∧ (f q).st = q.st ∧ (f q).timeline = q.timeline)
        ∧ (wakeParked s m v).queues = s.queues.map f := by
    refine ⟨_, fun q => ?_, rfl⟩
    split
    · split <;> exact ⟨rfl, rfl, rfl⟩
    · exact ⟨rfl, rfl, rfl⟩
  rw [State.queue?_updated (fun q => ⟨(hf q).1, (hf q).2.1⟩) hqueues, Option.map_map]
  exact congrArg (Option.map · _) (funext fun q => (hf q).2.2)

/-- An add is on the timeline of the queue that it names (R206). -/
theorem addTimeline_queue? {n : Nat} (hq : s.queue? n = some q) (u : Word) :
    ((addTimeline s n u).queue? n).map SwQueue.timeline = some (q.timeline + u) := by
  have hadded : ((s.mapQueue n (fun q => { q with timeline := q.timeline + u })).queue? n).map SwQueue.timeline
      = some (q.timeline + u) := by
    rw [State.queue?_updated (s := s) (fun q => by split <;> exact ⟨rfl, rfl⟩) rfl, hq, Option.map_some,
      if_pos (State.queue?_live hq)]
    rfl
  unfold addTimeline
  dsimp only
  split
  · rw [wakeParked_queue?, hadded]
  · exact hadded

theorem addTimeline_keeps (s : State) (n : Nat) (u : Word) :
    (addTimeline s n u).th = s.th ∧ (addTimeline s n u).mem = s.mem ∧ (addTimeline s n u).sigQ = s.sigQ := by
  unfold addTimeline
  dsimp only
  split <;> exact ⟨rfl, rfl, rfl⟩

end

/-! ### sig.add (R206) -/

theorem signalAdd : Rules.SignalAdd := by
  intro g l src s h d hf t lo u hattr hhandle hacq hrel
  have hwell : ¬((!attrOk lo ordAll) = true ∨ fld h 63 16 ≠ 0) := by
    rintro (hbad | hbad)
    · rw [show attrOk lo ordAll = true from hattr] at hbad
      cases hbad
    · exact hbad ((fld_above (by decide)).mpr hhandle)
  have hact : trigAct .sigAdd l h t = actSigAdd l h t := rfl
  refine ⟨fun hu => ?_, fun hu => ?_⟩
  · have hno : (if (attrOf lo).rel then t.releaseWait (attrOf lo).scope else none) = none := releaseWait_may hrel
    have hsent : trigAct .sigAdd l h t = .done (State.opened { t.drawn with sigQ := t.sigQ ++ [{
        key := t.th.key, ctx := t.th.ctx, handle := h, u, lo, pc := t.at_, due := t.landing 150 }] } .l l
        { known := false, doneAt := t.landing 150, hasRes := true, acq := fld lo 4 3 % 2 = 1 }) := by
      rw [hact, actSigAdd, if_neg hwell, if_neg (Nat.not_le.mpr hu), hacq, if_neg Bool.false_ne_true, hno]
      rfl
    rw [State.passed_key, State.passed_at] at hsent
    exact exec_trigInstr_done hf hsent
  · obtain ⟨look, hexec⟩ := exec_trigInstr_fires l hf
    refine hexec.trans ?_
    rw [hact, actSigAdd, if_neg hwell, if_pos hu, conclude_trap, State.seen_pc]
    rfl

/-! ### sig.wait (R205, R207) -/

section
variable {s : State} {h : Word} (hattr : attrOk (s.th.get .lo) ordLoad = true) (hhandle : h.toNat < 2 ^ 16)
  (htimeout : fld (s.th.get .lo3) 63 32 = 0) (hacq : s.th.acquiring s.cyc = false)
include hattr hhandle htimeout hacq

/-- A sig.wait whose handle names no queue. -/
theorem actSigWait_unnamed (hq : handleQueue s s.th.ctx h = none) : actSigWait h s =
    if s.th.mode = .monitor then .doneThen s (fun z => takeTrap z (timelineTrap h z.at_))
    else .done (s.drawn.map (fun th => { th with
      owed := th.owed ++ [timelineTrap h s.at_], readyAt := s.landing 150 })) := by
  have hhigh : fld h 63 16 = 0 := (fld_above (by decide)).mpr hhandle
  simp only [actSigWait, hattr, hhigh, htimeout, hacq, hq]
  rfl

/-- A sig.wait returns or holds, as its queue's timeline has met the threshold or not. -/
theorem actSigWait_named {q : SwQueue} (hq : handleQueue s s.th.ctx h = some q) : actSigWait h s =
    if meets q.timeline (s.th.get .lo2) then
      .done ((waitReturn s.drawn (s.th.get .lo) q.timeline.toNat 0).map (fun th => { th with readyAt := s.landing 150 }))
    else .done (s.map (fun th => { th with
      hold := .sigWait h.toNat (s.th.get .lo2) (s.th.get .lo) (if fld (s.th.get .lo3) 31 0 = 0 then none
        else some (s.cyc + fld (s.th.get .lo3) 31 0)) })) := by
  have hhigh : fld h 63 16 = 0 := (fld_above (by decide)).mpr hhandle
  simp only [actSigWait, hattr, hhigh, htimeout, hacq, hq]
  rfl

end

theorem signalWait : Rules.SignalWait := by
  intro g src s h d hf t lo tmo hattr hhandle htimeout hacq hheld
  have hat : t.at_ = s.th.pc := State.passed_at s
  refine ⟨fun q hq hmeets => ?met, fun q hq hmeets => ?unmet, fun hnone huser => ?error, fun hnone hmonitor => ?stop⟩
  case met =>
    have hact : trigAct .sigWait 0 h t = _ := actSigWait_named hattr hhandle htimeout hacq hq
    have hperformed : t.drawn.th.unperformed = none := (State.passed_unperformed s).trans hheld
    rw [if_pos ((meets_iff ..).mpr hmeets), waitReturn_eq, State.performHeld_performed hperformed, BitVec.ofNat_toNat,
      BitVec.setWidth_eq] at hact
    exact exec_trigInstr_done hf hact
  case unmet =>
    have hact : trigAct .sigWait 0 h t = _ := actSigWait_named hattr hhandle htimeout hacq hq
    rw [if_neg (Bool.eq_false_iff.mp ((not_meets_iff ..).mpr hmeets))] at hact
    exact exec_trigInstr_done hf hact
  case error =>
    have hact : trigAct .sigWait 0 h t = _ := actSigWait_unnamed hattr hhandle htimeout hacq hnone
    have hmode : ¬t.th.mode = .monitor := by
      rw [huser]
      exact Mode.noConfusion
    rw [if_neg hmode, hat] at hact
    exact exec_trigInstr_done hf hact
  case stop =>
    have hact : trigAct .sigWait 0 h t = _ := actSigWait_unnamed hattr hhandle htimeout hacq hnone
    obtain ⟨look, hexec⟩ := exec_trigInstr_fires 0 hf
    have hat' : (t.taken d).at_ = s.th.pc := by
      rw [State.at_, State.taken_pc]
      exact hat
    refine hexec.trans ?_
    rw [hact, if_pos hmonitor, conclude_doneThen, hat']
    rfl

/-! ### The signal unit (R206) -/

/-- The thread in focus has the answer in its L window, where that waits for it. -/
theorem State.answerL_win {s : State} (f : Pend → Pend) (hopen : (s.th.win .l).isOpen = true)
    (hknown : (s.th.win .l).known = false) : (s.answerL s.th.key f).th.win .l =
      { f (s.th.win .l) with known := true, doneAt := max (s.th.win .l).doneAt (s.cyc + 1) } := by
  have hwaits : (s.th.win .l).isOpen = true ∧ ¬(s.th.win .l).known = true := ⟨hopen, Bool.eq_false_iff.mp hknown⟩
  rw [State.answerL, State.mapSlot_th]
  dsimp only
  rw [if_pos hwaits, Thread.win_setWin]

/-- An acquire changes only what a core has seen. -/
theorem acquireWhere_keeps (c : Prop) [Decidable c] (s : State) (k : CoreKey) (scope : Nat) :
    let z := if c then s.acquireAt k scope else s
    z.th = s.th ∧ z.mem = s.mem ∧ z.sigQ = s.sigQ ∧ z.queues = s.queues := by
  dsimp only
  split <;> exact ⟨rfl, rfl, rfl, rfl⟩

/-- The reply to an add: the sum in l.r (R206). -/
def sumReply (w : Word) (p : Pend) : Pend := { p with r := w, r2 := 0 }

section
variable {s : State} {a : SigAdd} (ha : s.sigQ[s.ev.n]? = some a) (hdue : sigDue s s.ev.n = true)
include ha hdue

theorem exec_signalUnitAdd_named {q : SwQueue} (hq : handleQueue s a.ctx a.handle = some q) :
    let z := (addTimeline { s with sigQ := s.sigQ.eraseIdx s.ev.n } q.num a.u).answerL a.key (sumReply (q.timeline + a.u))
    exec .signalUnitAdd s = .next (if (attrOf a.lo).acq then z.acquireAt a.key.coreKey (attrOf a.lo).scope else z) := by
  have hq' : handleQueue { s with sigQ := s.sigQ.eraseIdx s.ev.n } a.ctx a.handle = some q := hq
  change execSignalUnitAdd s = _
  simp only [execSignalUnitAdd, ha, hdue, hq']
  rfl

theorem exec_signalUnitAdd_unnamed (hq : handleQueue s a.ctx a.handle = none) :
    exec .signalUnitAdd s = .next (State.answerL { s with sigQ := s.sigQ.eraseIdx s.ev.n } a.key
      (fun p => { p with hasRes := false, trap := some (timelineTrap a.handle a.pc) })) := by
  have hq' : handleQueue { s with sigQ := s.sigQ.eraseIdx s.ev.n } a.ctx a.handle = none := hq
  change execSignalUnitAdd s = _
  simp only [execSignalUnitAdd, ha, hdue, hq']
  rfl

end

/-! ### The ends of a sig.wait (R207) -/

section
variable {s t : State} {q d : Nat} {v lo : Word} {dl : Option Nat} (hhold : t.th.hold = .sigWait q v lo dl)
include hhold

section
variable {x : SwQueue} (hx : handleQueue t t.th.ctx (BitVec.ofNat 64 q) = some x)
include hx

theorem sigWaitReturns_met (h : meets x.timeline v = true) : sigWaitReturns t t.th = some (x.timeline, 0) := by
  simp [sigWaitReturns, hhold, hx, h]

theorem sigWaitReturns_late (h : meets x.timeline v = false) (hdl : dl = some d) (hd : d ≤ t.cyc) :
    sigWaitReturns t t.th = some (x.timeline, 1) := by
  simp [sigWaitReturns, hhold, hx, h, hdl, hd]

end

section
variable (hx : handleQueue t t.th.ctx (BitVec.ofNat 64 q) = none)
include hx

/-- Where the queue was freed, the value is the one it last held. -/
theorem sigWaitReturns_freed (h : ∀ d, dl = some d → t.cyc < d) : sigWaitReturns t t.th =
    some (((t.queues.find? (fun x => x.num = q)).map SwQueue.timeline).getD 0, 3) := by
  cases dl with
  | none => simp [sigWaitReturns, hhold, hx]
  | some d => simp [sigWaitReturns, hhold, hx, h d rfl]

theorem sigWaitReturns_freed_late (hdl : dl = some d) (hd : d ≤ t.cyc) : sigWaitReturns t t.th =
    some (((t.queues.find? (fun x => x.num = q)).map SwQueue.timeline).getD 0, 1) := by
  simp [sigWaitReturns, hhold, hx, hdl, hd]

end

variable (hfocus : s.focus s.ev.key = some t) {x : Word}
include hfocus

theorem exec_sigWaitWake {status : Nat} (h : sigWaitReturns t t.th = some (x, status)) (hs : status ≠ 1) :
    exec .sigWaitWake s = .next (waitReturn t lo x.toNat status) := by
  refine onSlot_some hfocus ?_
  simp [sigWaitEnd, h, hhold, hs, Hold.attr]

theorem exec_sigWaitTimeout (h : sigWaitReturns t t.th = some (x, 1)) :
    exec .sigWaitTimeout s = .next (waitReturn t lo x.toNat 1) := by
  refine onSlot_some hfocus ?_
  simp [sigWaitEnd, h, hhold, Hold.attr]

end

/-! ### O10 -/

theorem timelineEvents : Rules.TimelineEvents := by
  refine ⟨fun s a ha hdue => ⟨fun q hq => ?named, fun hq hkey hopen hknown => ?unnamed⟩, ?ends⟩
  case named =>
    obtain ⟨hqueue, -⟩ := handleQueue_eq_some_iff.mp hq
    have hnum := (State.queue?_live hqueue).1
    let u : State := { s with sigQ := s.sigQ.eraseIdx s.ev.n }
    obtain ⟨hth, hmem, hsigQ⟩ := addTimeline_keeps u q.num a.u
    have hadded := addTimeline_queue? (s := u) (hnum ▸ hqueue) a.u
    obtain ⟨hth', hmem', hsigQ', hqueues'⟩ := acquireWhere_keeps ((attrOf a.lo).acq = true)
      ((addTimeline u q.num a.u).answerL a.key (sumReply (q.timeline + a.u))) a.key.coreKey (attrOf a.lo).scope
    refine ⟨_, exec_signalUnitAdd_named ha hdue hq, hsigQ'.trans hsigQ, hmem'.trans hmem, fun x hx => ?_,
      fun hkey hopen hknown => ?_⟩
    · rw [State.queue?, hqueues'] at hx
      have hx' : (addTimeline u q.num a.u).queue? q.num = some x := hx
      rw [hx'] at hadded
      exact Option.some.inj hadded
    · have hkey' : a.key = (addTimeline u q.num a.u).th.key := hth ▸ hkey
      rw [hth', hkey', State.answerL_win _ (hth ▸ hopen) (hth ▸ hknown)]
      exact ⟨rfl, rfl, rfl⟩
  case unnamed =>
    refine ⟨_, exec_signalUnitAdd_unnamed ha hdue hq, rfl, rfl, ?_⟩
    rw [hkey]
    exact congrArg Pend.trap (State.answerL_win (s := { s with sigQ := s.sigQ.eraseIdx s.ev.n }) _ hopen hknown)
  case ends =>
    intro s t q v lo dl hfocus hhold hq ends last
    have hcyc := (State.focus_keeps hfocus).1
    have hname : (BitVec.ofNat 64 q).toNat = q := (BitVec.toNat_ofNat ..).trans (Nat.mod_eq_of_lt hq)
    have hends (x : Word) (status : Nat) : waitReturn t lo x.toNat status = ends x status := by
      rw [waitReturn_eq, BitVec.ofNat_toNat, BitVec.setWidth_eq, hcyc]
    refine ⟨fun x hx hctx => ?live, fun hx => ?freed⟩
    case live =>
      have hx' : handleQueue t t.th.ctx (BitVec.ofNat 64 q) = some x :=
        handleQueue_eq_some_iff.mpr ⟨hname.symm ▸ hx, hctx⟩
      refine ⟨fun h => ?_, fun h d hdl hd => ?_⟩
      · rw [exec_sigWaitWake hhold hfocus (sigWaitReturns_met hhold hx' ((meets_iff ..).mpr h)) Nat.zero_ne_one, hends]
      · rw [exec_sigWaitTimeout hhold hfocus
          (sigWaitReturns_late hhold hx' ((not_meets_iff ..).mpr h) hdl (hcyc ▸ hd)), hends]
    case freed =>
      have hx' : handleQueue t t.th.ctx (BitVec.ofNat 64 q) = none := handleQueue_freed (hname.symm ▸ hx)
      refine ⟨fun h => ?_, fun d hdl hd => ?_⟩
      · rw [exec_sigWaitWake hhold hfocus (sigWaitReturns_freed hhold hx' (hcyc ▸ h)) (by decide), hends]
      · rw [exec_sigWaitTimeout hhold hfocus (sigWaitReturns_freed_late hhold hx' hdl (hcyc ▸ hd)), hends]

/-- Settles O10: each trigger by its act, the adds by the queue they name, the ends by what the wait finds. -/
theorem timelines : Obligations.Timelines := ⟨signalAdd, signalWait, timelineEvents⟩

end Sys2Proof.Machine
end

section
/-! O36, first part: an entry put into a ring leaves the thread in focus where it stands. -/

namespace Sys2Proof.Machine

/-- The thread in focus stands at the same word, with the same g registers. -/
structure Stands (s t : State) : Prop where
  pc : t.th.pc = s.th.pc
  g : t.th.g = s.th.g

theorem Stands.of_th {s t : State} (h : t.th = s.th) : Stands s t := ⟨congrArg Thread.pc h, congrArg Thread.g h⟩

theorem Stands.with_parks {s t : State} (h : Stands s t) (p : List Park) : Stands s { t with parks := p } := ⟨h.pc, h.g⟩

theorem Stands.with_pushes {s t : State} (h : Stands s t) (p : List Push) : Stands s { t with pushes := p } :=
  ⟨h.pc, h.g⟩

theorem Stands.trans {s t u : State} (h : Stands s t) (k : Stands t u) : Stands s u := ⟨k.pc.trans h.pc, k.g.trans h.g⟩

/-! ### Writes to memory -/

theorem writeVA_th {ag : Agent} {s z : State} {va : Word} {bs : List Byte} (h : writeVA s ag va bs = .ok z) : z.th = s.th := by
  unfold writeVA at h
  split at h
  · cases h
  · split at h <;> cases h
    exact State.writeAs_th ..

theorem writeLines_th {ag : Agent} {n : Nat} {s z : State} {va : Word} {bs : List Byte}
    (h : writeLines ag n s va bs = .ok z) : z.th = s.th := by
  induction n generalizing s va bs with
  | zero => cases h; rfl
  | succ n ih =>
    unfold writeLines at h
    split at h
    · cases h; rfl
    · dsimp only at h
      split at h
      · cases h
      · exact (ih h).trans (writeVA_th ‹_›)

theorem putWords_th (aes cell off : Nat) (old new : List Byte) (s : State) : (putWords aes cell off old new s).th = s.th := by
  induction off, old, new, s using putWords.induct (aes := aes) (cell := cell) with
  | case1 off a0 a1 a2 a3 old b0 b1 b2 b3 new s ih =>
    rw [putWords, ih]
    split
    · rfl
    · exact State.writeAs_th ..
  | case2 => rw [putWords]; assumption

theorem ringPut_th (s : State) (l : Loc) (r : RingObj) : (ringPut s l r).th = s.th := putWords_th ..

theorem recPut_th (s : State) (ctx : Nat) (rec : Word) (off n v : Nat) : (recPut s ctx rec off n v).th = s.th := by
  unfold recPut
  split
  next h => exact writeVA_th h
  next => rfl

/-! ### A join that a drain ends (R229, R256) -/

theorem appendRecord_th (s : State) (die ctx : Nat) (rec : Word) (waited : Nat) :
    (appendRecord s die ctx rec waited).th = s.th := by
  have hstatus (v : Nat) : (recSetStatus s ctx rec v).th = s.th := recPut_th ..
  unfold appendRecord
  split
  · exact hstatus 1
  · dsimp only [rejectRecord, State.mapCtx, State.tell]
    exact hstatus 5

/-- The waiting threads of a record go on, each at its word and with its g registers. -/
theorem mapAll_stands (s : State) {f : Thread → Thread} (hf : ∀ t, (f t).pc = t.pc ∧ (f t).g = t.g) :
    Stands s (s.mapAll f) := ⟨(hf s.th).1, (hf s.th).2⟩

theorem acquireEdges_th (l : List Thread) (ctx : Nat) (rec : Word) (s : State) :
    (l.foldl (fun s t => (s.acquireAt t.key.coreKey 2).takeEdges t.key.coreKey ctx rec) s).th = s.th :=
  List.foldlRecOn (motive := fun x : State => x.th = s.th) _ _ rfl fun _ hx _ _ => hx

/-- A decrement that ends a join lets its thread go on. -/
theorem decrementJoin_stands (s : State) (ctx : Nat) (rec : Word) (die : Nat) : Stands s (decrementJoin s ctx rec die) := by
  have hadd : Stands s (recAddJoin s ctx rec (-1)) := .of_th (recPut_th ..)
  refine hadd.trans ?_
  unfold decrementJoin
  dsimp only
  split
  next =>
    split
    next =>
      refine ((Stands.of_th (acquireEdges_th ..)).with_parks _).trans (mapAll_stands _ fun t => ?_)
      split
      next =>
        dsimp only
        split <;> exact ⟨rfl, rfl⟩
      next => exact ⟨rfl, rfl⟩
    next =>
      split
      next => exact .of_th rfl
      next =>
        split
        · exact ((Stands.of_th rfl).with_parks _).trans (.of_th (appendRecord_th ..))
        · exact .of_th rfl
  next => split <;> exact .of_th rfl

/-! ### Rings (R254 to R256, R341) -/

theorem ringDrain_stands (s : State) (ctx : Nat) (l : Loc) : Stands s (ringDrain s ctx l) :=
  (Stands.of_th (ringPut_th ..)).trans (decrementJoin_stands ..)

/-- A ring that is written, and drained where that is due. -/
theorem ringMoved_stands (s : State) (ctx : Nat) (l : Loc) (r : RingObj) (c : Prop) [Decidable c] :
    Stands s (if c then ringDrain (ringPut s l r) ctx l else ringPut s l r) := by
  have hput : Stands s (ringPut s l r) := .of_th (ringPut_th ..)
  split
  · exact hput.trans (ringDrain_stands ..)
  · exact hput

/-- A ring that advances over its filled slots. -/
theorem ringAdvance_stands (n : Nat) (s : State) (ctx : Nat) (l : Loc) : Stands s (ringAdvance n s ctx l) := by
  induction n generalizing s with
  | zero => exact .of_th rfl
  | succ n ih =>
    have hmoved (r : RingObj) :=
      ringMoved_stands s ctx l r ((ringAt s l).wp = (ringAt s l).rp ∧ ringArmed (ringAt s l) = true)
    unfold ringAdvance
    dsimp only
    split
    next =>
      refine Stands.trans ?_ (ih _)
      split
      · split
        · split
          · exact (hmoved _).with_pushes _
          · exact hmoved _
        · exact hmoved _
      · exact hmoved _
    next => exact .of_th rfl

theorem ringClaimQ_th {s z : State} {l : Loc} {slot : W32} (h : ringClaim? s l = some (slot, z)) : z.th = s.th := by
  unfold ringClaim? at h
  dsimp only at h
  split at h <;> cases h
  exact ringPut_th ..

/-- A record put into a ring. -/
theorem ringRecord_stands {s z : State} {ag : Agent} {va : Word} {record : List Byte} {slot : W32}
    (h : ringRecord s ag va record = some (slot, z)) : Stands s z := by
  unfold ringRecord at h
  split at h
  · cases h
  · split at h
    · cases h
    · split at h
      · cases h
      next hclaim =>
        split at h <;> cases h
        next hwritten =>
          have hth := (writeLines_th hwritten).trans (ringClaimQ_th hclaim)
          exact (Stands.of_th hth).trans ((Stands.of_th (ringPut_th ..)).trans (ringAdvance_stands ..))

end Sys2Proof.Machine
end

section
/-! O36, second part: what a fault leaves of the thread that it holds, and the checks that an access fails. -/

namespace Sys2Proof.Machine

/-! ### A fault held in the latch or the ring (R339, R341, R342) -/

section
variable {s : State} {isV : Bool} {trig look k : Nat} {a : Word}

/-- What the retry latch holds of a faulting transport. -/
def State.retryOf (s : State) (trig look k : Nat) (a : Word) : Retry :=
  { trig := trig, kind := k, addr := a, lo := s.th.get .lo, lo2 := s.th.get .lo2, lo3 := s.th.get .lo3, pc := s.th.pc
    look := look }

/-- In monitor mode, and where the context has no retry ring, a fault is for the policy core. -/
theorem raiseFault_latch (h : s.th.mode = .monitor ∨ (s.ctx? s.th.ctx).bind Ctx.retryRing = none) :
    raiseFault s isV trig look k a =
      (s.map (fun t => { t with hold := .latch, latch := some { s.retryOf trig look k a with id := s.faultSeq } })).tell
        s.th.ctx s.th.key (.fault k a trig s.tid none) := by
  unfold raiseFault
  dsimp only
  split
  next => rfl
  next ho =>
    have hring : (s.ctx? s.th.ctx).bind Ctx.retryRing = none := by
      refine h.resolve_left fun hm => ?_
      rw [if_pos hm] at ho
      cases ho
    have hput (e : List Byte) : retryRingPut s s.th.ctx e = none := by rw [retryRingPut, hring]
    rw [hput]
    rfl

/-- A transport whose faults go to the ring is held with the slot that its entry takes. -/
theorem raiseFault_ring {va : Word} {o : Nat} {n : W32} {z : State} (hmode : s.th.mode = .user)
    (hring : (s.ctx? s.th.ctx).bind Ctx.retryRing = some va) (horigin : ringOrigin isV trig = some o)
    (hput : ringRecord s (devAgent s.th.ctx) va (retryEntry s.th.ctx s.tid trig o k a (s.th.get .lo) (s.th.get .lo2)
      (s.th.get .lo3) s.th.pc (faultData s.th isV trig)) = some (n, z)) :
    raiseFault s isV trig look k a = z.map (fun t => { t with
      hold := .latch, latch := some { s.retryOf trig look k a with ring := some n.toNat } }) := by
  have huser : ¬s.th.mode = .monitor := by
    rw [hmode]
    exact Mode.noConfusion
  unfold raiseFault
  simp only [if_neg huser, horigin, retryRingPut, hring, hput]
  rfl

end

/-- An entry's bytes, where its data fits its data field (R342). -/
theorem retryEntry_eq {data : List Byte} (hlen : data.length ≤ 64) (ctx : Nat) (tid : Word) (trig kind : Nat)
    (a lo lo2 lo3 pc : Word) : retryEntry ctx tid trig 0 kind a lo lo2 lo3 pc data =
      [a, BitVec.ofNat 64 (ctx % 2 ^ 16 * 2 ^ 48 + fld tid 16 0 * 2 ^ 31 + trig % 2 ^ 11 * 2 ^ 20 + kind)
        , lo, lo2, lo3, pc, 1, 0].flatMap (fun x => leBytes 8 x.toNat) ++ data ++ List.replicate (64 - data.length) 0 := by
  rw [retryEntry, List.take_append, List.take_of_length_le hlen, List.take_replicate, Nat.min_eq_left (Nat.sub_le ..),
    Nat.zero_mul, Nat.add_zero, List.append_assoc]
  rfl

/-! ### The checks of an access (R186, R191) -/

/-- An access of `n` bytes fails with fault kind `k`: it is misaligned, its address does not translate, its memory type does
not allow it, or it is refused, and it is no posted store. -/
def Faults (n : Nat) (need : Need) (op : Nat) (admits : Loc → Bool) (a : Word) (s : State) (k : Nat) : Prop :=
  (a.toNat % n ≠ 0 ∧ k = 3)
    ∨ (a.toNat % n = 0 ∧ s.th.acquiring s.cyc = false
      ∧ (translate s s.self a need = .error k
        ∨ ∃ loc, translate s s.self a need = .ok loc
          ∧ ((admits loc = false ∧ k = 2)
            ∨ (admits loc = true ∧ s.denied loc.cell op n = k ∧ k ≠ 0 ∧ (op = 1 → isPosted s loc = false)))))

section
variable {orders : List Nat} {n : Nat} {need : Need} {op : Nat} {same : Option (Win × Nat)} {a : Word} {s : State}
  {f : Attr → Loc → Act} {admits : Loc → Bool}

theorem access_reserved (h : attrOk (s.th.get .lo) orders = false) :
    access orders n need op same a s f (admits := admits) = .illegal := by
  rw [access, h]
  rfl

theorem access_faults {k : Nat} (hattr : attrOk (s.th.get .lo) orders = true) (h : Faults n need op admits a s k) :
    access orders n need op same a s f (admits := admits) = .fault k a := by
  rcases h with ⟨hmis, rfl⟩ | ⟨haligned, hacq, hplace⟩
  · simp only [access, hattr, if_pos hmis]
    rfl
  · have haligned' : ¬a.toNat % n ≠ 0 := not_not.mpr haligned
    rcases hplace with herr | ⟨loc, hloc, ⟨hadmit, rfl⟩ | ⟨hadmit, hdenied, hk, hposted⟩⟩
    · simp only [access, hattr, if_neg haligned', hacq, herr]
      rfl
    · simp only [access, hattr, if_neg haligned', hacq, hloc, hadmit]
      rfl
    · have hrefused : s.denied loc.cell op n ≠ 0 ∧ ¬(op = 1 ∧ isPosted s loc = true) :=
        ⟨hdenied ▸ hk, fun h => Bool.eq_false_iff.mp (hposted h.1) h.2⟩
      simp only [access, hattr, if_neg haligned', hacq, hloc, hadmit, if_pos hrefused]
      rw [hdenied]
      rfl

end

/-! ### Loads, stores and atomics (R194 to R198) -/

/-- The accesses of unit L: the trigger, its bytes, what its address needs, its operation and its orderings. -/
def accessRows : List (Trig × Nat × Need × Nat × List Nat) :=
  loadRows.map (fun x => (x.1, x.2.1, Need.load, 0, [0, 1])) ++ storeRows.map (fun x => (x.1, x.2.1, Need.store, 1, [0, 2]))
    ++ amoRows.map (fun x => (x.1, x.2.1, Need.amo, 2, [0, 1, 2, 3]))

/-- The faults of every trigger of unit L go to the retry ring, and only st128 has data of its own (R338, R342). -/
theorem ringOrigin_of_row : ∀ t ∈ accessRows.map Prod.fst, ringOrigin false t.num = some 0 ∧ (t.num = 0x10F ↔ t = .st128) := by
  decide

/-- What a memory type allows: every load and store, and the atomics that it admits (R191). -/
def admitsOp (t : Trig) (op : Nat) (loc : Loc) : Bool := op != 2 || amoAdmits t loc

theorem admitsOp_iff (t : Trig) (op : Nat) (loc : Loc) :
    (admitsOp t op loc = true ↔ (op = 2 → amoAdmits t loc = true))
      ∧ (admitsOp t op loc = false ↔ op = 2 ∧ amoAdmits t loc = false) := by
  by_cases h : op = 2 <;> simp [admitsOp, h]

section
variable {r : Trig × Nat × Need × Nat × List Nat} (hr : r ∈ accessRows)
include hr

/-- Each row's trigger is an access with the row's checks. -/
theorem trigAct_of_access (l : BitVec 4) (a : Word) (t : State) : ∃ same f, trigAct r.1 l a t =
    access r.2.2.2.2 r.2.1 r.2.2.1 r.2.2.2.1 same a t f (admits := admitsOp r.1 r.2.2.2.1) := by
  simp only [accessRows, List.mem_append, List.mem_map] at hr
  rcases hr with (⟨x, hx, rfl⟩ | ⟨x, hx, rfl⟩) | ⟨x, hx, rfl⟩
  · exact ⟨_, _, congrFun₂ (trigAct_of_load hx l) a t⟩
  · exact ⟨_, _, trigAct_of_store hx l a t⟩
  · have hact := congrFun₂ (trigAct_of_amo hx l) a t
    rw [amoAct, amoBytes_of_row hx] at hact
    exact ⟨_, _, hact⟩

theorem faultData_of_row (t : Thread) : faultData t false r.1.num =
    if r.1 = .st128 then leBytes 8 (t.get .lo2).toNat ++ leBytes 8 (t.get .lo3).toNat else [] := by
  obtain ⟨-, hnum⟩ := ringOrigin_of_row r.1 (List.mem_map_of_mem hr)
  have hdwords (x y : Word) : dwords [x, y] = leBytes 8 x.toNat ++ leBytes 8 y.toNat :=
    congrArg (leBytes 8 x.toNat ++ ·) (List.append_nil _)
  rw [faultData, if_neg Bool.false_ne_true, hdwords]
  exact if_congr hnum rfl rfl

variable {g : Guard} {l : BitVec 4} {src : Src} {s : State} {a : Word} {d : Option (BitVec 3 × Nat × Elem)}
  (hf : Fires r.1 g src s a d)
include hf

theorem exec_access_reserved (hattr : attrOk (s.passed.th.get .lo) r.2.2.2.2 = false) :
    exec (r.1.instr g l src) s = .next (trapIllegal s.seen) := by
  obtain ⟨same, f, hact⟩ := trigAct_of_access hr l a s.passed
  obtain ⟨look, hexec⟩ := exec_trigInstr_fires l hf
  rw [hexec, hact, access_reserved hattr, conclude_illegal]

theorem exec_access_faults {k : Nat} (hattr : attrOk (s.passed.th.get .lo) r.2.2.2.2 = true)
    (hk : Faults r.2.1 r.2.2.1 r.2.2.2.1 (admitsOp r.1 r.2.2.2.1) a s.passed k) :
    ∃ look, exec (r.1.instr g l src) s = .next (raiseFault s.seen false r.1.num look k a) := by
  obtain ⟨same, f, hact⟩ := trigAct_of_access hr l a s.passed
  obtain ⟨look, hexec⟩ := exec_trigInstr_fires l hf
  refine ⟨look, ?_⟩
  rw [hexec, hact, access_faults hattr hk]
  rfl

end

/-! ### vld and vst (R99, R100) -/

section
variable {r : VTrig × Need × Nat × List Nat} (hr : r ∈ [(VTrig.vld, Need.load, 0, [0, 1]), (.vst, .store, 1, [0, 2])])
  {g : Guard} {l : BitVec 4} {src : VSource} {s : State} {v : Vec} {d : Option (BitVec 3 × Nat × Elem)}
include hr

/-- vld and vst are accesses of 64 bytes at the address of their lanes 0. -/
theorem exec_vectorAccess : ∃ act, exec (r.1.instr g l src) s = vtrigger r.1 l g src act s ∧ ∀ t, ∃ same f, act v t =
    access r.2.2.2 64 r.2.1 r.2.2.1 same (lane t.th.vo2 0 ++ lane v 0) t f (admits := fun _ => true) := by
  simp only [List.mem_cons, List.not_mem_nil, or_false] at hr
  rcases hr with rfl | rfl
  · exact ⟨actVld l, rfl, fun t => ⟨_, _, rfl⟩⟩
  · exact ⟨fun v t => storeAct .v 64 (vecBytes t.th.vo) l (t.th.vectorAddr v) t, rfl, fun t => ⟨_, _, rfl⟩⟩

variable (hf : VFires (vOperandRegs r.1) g src s v d)
include hf

theorem exec_vectorAccess_reserved (hattr : attrOk (s.vseen.advance.th.get .lo) r.2.2.2 = false) :
    exec (r.1.instr g l src) s = .next (trapIllegal s.vseen) := by
  obtain ⟨act, hexec, hact⟩ := exec_vectorAccess hr
  obtain ⟨same, f, hact⟩ := hact s.vseen.advance
  rw [hexec, vtrigger_fires hf, hact, access_reserved hattr, conclude_illegal]

theorem exec_vectorAccess_faults {k : Nat} (hattr : attrOk (s.vseen.advance.th.get .lo) r.2.2.2 = true)
    (hk : Faults 64 r.2.1 r.2.2.1 (fun _ => true) (lane s.vseen.advance.th.vo2 0 ++ lane v 0) s.vseen.advance k) :
    exec (r.1.instr g l src) s =
      .next (raiseFault s.vseen true r.1.num l.toNat k (lane s.vseen.advance.th.vo2 0 ++ lane v 0)) := by
  obtain ⟨act, hexec, hact⟩ := exec_vectorAccess hr
  obtain ⟨same, f, hact⟩ := hact s.vseen.advance
  rw [hexec, vtrigger_fires hf, hact, access_faults hattr hk]
  rfl

end

/-! ### O36 -/

theorem State.seen_tid (s : State) : s.seen.tid = s.tid := by
  rw [State.tid, State.tid, State.myCtx, State.myCtx, State.seen_key, State.seen_ctx]
  rfl

/-- The fault is for the policy core in the state that a transport finds where it is in the state before. -/
theorem State.seen_latches {s : State} (h : s.th.mode = .monitor ∨ (s.ctx? s.th.ctx).bind Ctx.retryRing = none) :
    s.seen.th.mode = .monitor ∨ (s.seen.ctx? s.seen.th.ctx).bind Ctx.retryRing = none := by
  rw [State.seen_mode, State.seen_ctx]
  exact h

/-- Settles O36: each access by the check that it fails, the fault by where it is held. -/
theorem accessFaults : Obligations.AccessFaults := by
  refine ⟨fun r hr g l src s a d hf => ?scalar, fun r hr g l src s v d hf => ?vector⟩
  case scalar =>
    refine ⟨fun hattr => exec_access_reserved hr hf hattr, fun k hattr hk => ?_⟩
    have hk' : Faults r.2.1 r.2.2.1 r.2.2.2.1 (admitsOp r.1 r.2.2.2.1) a s.passed k := by
      simpa only [Faults, (admitsOp_iff ..).1, (admitsOp_iff ..).2, and_assoc] using hk
    obtain ⟨look, hexec⟩ := exec_access_faults (l := l) hr hf hattr hk'
    refine ⟨fun hlatch => ?latch, ?ring⟩
    case latch =>
      rw [raiseFault_latch (State.seen_latches hlatch), State.seen_key, State.seen_ctx, State.seen_tid] at hexec
      exact ⟨_, hexec, rfl, rfl, s.seen_pc, s.seen_g, rfl, ⟨_, rfl, rfl, rfl, s.seen_pc, rfl, rfl⟩, rfl⟩
    case ring =>
      intro va n z1 hmode hring p data hput
      obtain ⟨horigin, -⟩ := ringOrigin_of_row r.1 (List.mem_map_of_mem hr)
      have hdata : faultData s.seen.th false r.1.num = data := faultData_of_row hr s.seen.th
      have hlen : data.length ≤ 64 := by
        dsimp only [data]
        split
        · exact (by decide : 16 ≤ 64)
        · exact Nat.zero_le _
      have hput' : ringRecord s.seen (devAgent s.seen.th.ctx) va (retryEntry s.seen.th.ctx s.seen.tid r.1.num 0 k a (p .lo)
          (p .lo2) (p .lo3) s.seen.th.pc (faultData s.seen.th false r.1.num)) = some (n, z1) := by
        rw [hdata, retryEntry_eq hlen, State.seen_ctx, State.seen_tid, State.seen_pc]
        exact hput
      obtain ⟨hpc, hg⟩ := ringRecord_stands hput'
      have hring' : (s.seen.ctx? s.seen.th.ctx).bind Ctx.retryRing = some va := by
        rw [State.seen_ctx]
        exact hring
      rw [raiseFault_ring (s.seen_mode.trans hmode) hring' horigin hput'] at hexec
      exact ⟨_, hexec, rfl, rfl, hpc.trans s.seen_pc, hg.trans s.seen_g, rfl, _, rfl, rfl, rfl, s.seen_pc, rfl⟩
  case vector =>
    refine ⟨fun hattr => exec_vectorAccess_reserved hr hf hattr, fun k hattr hk hlatch => ?_⟩
    have hk' : Faults 64 r.2.1 r.2.2.1 (fun _ => true) (lane s.vseen.advance.th.vo2 0 ++ lane v 0) s.vseen.advance k := by
      simpa only [Faults, Bool.true_eq_false, false_and, false_or, true_and] using hk
    have hexec := exec_vectorAccess_faults (l := l) hr hf hattr hk'
    rw [raiseFault_latch (s := s.vseen) (State.seen_latches hlatch), show s.vseen.th.key = s.th.key from s.seen_key,
      show s.vseen.th.ctx = s.th.ctx from s.seen_ctx, show s.vseen.tid = s.tid from s.seen_tid] at hexec
    exact ⟨_, hexec, rfl, rfl, s.seen_pc, s.seen_g, s.seen_v, ⟨_, rfl, rfl, rfl, s.seen_pc, rfl⟩, rfl⟩

end Sys2Proof.Machine
end

section
/-! O48: a thread in focus that is not bound is in no mask of a retrain. -/

namespace Sys2Proof.Machine

/-! ### A retrain beside an idle slot in focus -/

/-- A load of a peer's word whose packet has met its three retrains, so that no further one is said to meet it. -/
def thriceMet : Access :=
  { u := .l, load := true, cell := 2 ^ 40, n := 8, grain := 8, viewed := true, due := 1, done := 1, retr := 3 }

/-- A retrain of port 2 whose mask names the first access of the slot in focus, which is not bound. -/
def idleFocusRetrain : State :=
  { State.reset with th := { mem := [thriceMet] }, ev := { n := 2, loads := 1 } }

theorem idleFocusRetrain_threads : idleFocusRetrain.threads = [] := rfl

/-- The retrain leaves the access as it stands: it is not on its way any more. -/
theorem exec_idleFocusRetrain : ∃ z, exec .linkRetrain idleFocusRetrain = .next z ∧ z.th.mem = [thriceMet] := ⟨_, rfl, rfl⟩

/-- Refutes O48: no bound thread of `idleFocusRetrain` has an access, so every premise about earlier retrains holds, and the
access of the slot in focus would have to count a fourth retrain. -/
theorem not_linkEvents : ¬ Obligations.LinkEvents := by
  intro h
  obtain ⟨-, -, hretrain, -⟩ := h
  obtain ⟨hfirst, -⟩ := hretrain idleFocusRetrain rfl rfl rfl
  have hnone {p : Thread → Prop} : ∀ t ∈ idleFocusRetrain.threads, p t := by
    rw [idleFocusRetrain_threads]
    exact fun t ht => absurd ht List.not_mem_nil
  obtain ⟨z, d, hz, -, -, -, -, -, hmem, -⟩ := hfirst rfl rfl rfl hnone (fun x hx => absurd hx List.not_mem_nil)
    (fun c hc => absurd hc List.not_mem_nil)
  obtain ⟨z', hz', hkeeps⟩ := exec_idleFocusRetrain
  have hsame : z = z' := Host.Outcome.next.inj (hz.symm.trans hz')
  have hstated := hmem 0 thriceMet rfl
  have hnamed : idleFocusRetrain.ev.loads.testBit (loadsBefore idleFocusRetrain idleFocusRetrain.th.key + 0) = true
      ∧ thriceMet.viewed = true ∧ thriceMet.off = 0 := by decide
  rw [hsame, hkeeps, if_pos hnamed] at hstated
  have hcount : 3 = 4 := congrArg Access.retr (Option.some.inj hstated)
  exact absurd hcount (by decide)

end Sys2Proof.Machine
end

section
/-! O19, O20: a record whose line is refused as a whole with kind 0, and whose counter and status refuse stores. -/

namespace Sys2Proof.Machine

/-! ### A record of which stores to some fields are refused -/

/-- A context with one table of 1 GiB pages, whose first page lies in HBM and can be read and written. -/
def refusedContext : Ctx := { num := 1, root := 2 ^ 50 }

/-- The tables of the context: the root's entry, and the leaf. -/
def refusedMemory : List Host.Cell :=
  Mem.write (Mem.write [] (binderyCell (2 ^ 50)) (leBytes 8 (2 ^ 50 + 0x1001)))
    (binderyCell (2 ^ 50 + 0x1000)) (leBytes 8 (2 ^ 32 + 0x47))

/-- Where the record at 0x200 lies. -/
def refusedLoc : Loc := { cell := 2 ^ 32 + 0x200, space := .hbm, bits := 30 }

/-- The entry that an access of the record's first byte meets first has kind 0, which is no refusal; stores to the bytes from
the join counter on meet the second alone, and are refused. -/
def refusedState : State :=
  { State.reset with
    booted := true, ctxs := [refusedContext], mem := refusedMemory
    deny := [⟨refusedLoc.cell, refusedLoc.cell + 1, 7, 0⟩, ⟨refusedLoc.cell + 0x10, refusedLoc.cell + 0x40, 2, kPermission⟩] }

theorem refusedState_load : translate refusedState (devAgent 1) 0x200 .load = .ok refusedLoc := by decide

theorem refusedState_store : translate refusedState (devAgent 1) 0x200 .store = .ok refusedLoc := by decide

theorem refusedState_recordAt : RecordAt refusedState 1 0x200 refusedLoc :=
  ⟨rfl, refusedState_load, refusedState_store, rfl, rfl, by decide, rfl, rfl, rfl⟩

/-- The status stays as it is. -/
theorem refusedState_recSetStatus : recSetStatus refusedState 1 0x200 1 = refusedState := rfl

theorem refusedState_recState : recState refusedState 1 0x200 = 0 := rfl

/-- Refutes O19: the status of the record of `refusedState` is not 1 after it is set to 1. -/
theorem not_spawnResults : ¬ Obligations.SpawnResults := by
  intro h
  obtain ⟨-, hfields⟩ := h
  obtain ⟨-, -, hstatus⟩ := hfields refusedState 1 0x200 refusedLoc refusedState_recordAt
  obtain ⟨hset, -⟩ := hstatus 1 (by decide)
  rw [refusedState_recSetStatus, refusedState_recState] at hset
  exact absurd hset (by decide)

/-! ### A join counter that stays at 0 -/

/-- The decrement of the counter is refused, and nothing else changes. -/
theorem refusedState_decrementJoin : recJoin (decrementJoin refusedState 1 0x200 0) 1 0x200 = 0 := rfl

theorem refusedState_recJoin : recJoin refusedState 1 0x200 = 0 := rfl

/-- Refutes O20: the counter of the record of `refusedState` stays 0 where it is decremented. -/
theorem not_threadsLeaveSlots : ¬ Obligations.ThreadsLeaveSlots := by
  intro h
  obtain ⟨-, -, hsuccessors, -⟩ := h
  obtain ⟨hcount, -⟩ := hsuccessors refusedState 1 0x200 0 refusedLoc refusedState_recordAt
  rw [refusedState_decrementJoin, refusedState_recJoin] at hcount
  exact absurd hcount (by decide)

end Sys2Proof.Machine
end

section
/-! O21: sleep, gbar and garrive by their acts, and an arrival by whether it completes its group. -/

namespace Sys2Proof.Machine

/-! ### Sleep -/

theorem actSleep_long {t : Word} (s : State) (h : 2 ^ 32 ≤ t.toNat) : actSleep t s = .illegal :=
  if_pos (fun hzero => absurd ((fld_above (by decide)).mp hzero) (Nat.not_lt.mpr h))

theorem actSleep_zero (s : State) : actSleep 0 s = .done s := rfl

theorem actSleep_short {t : Word} (s : State) (h0 : t ≠ 0) (h : t.toNat < 2 ^ 32) :
    actSleep t s = .done (s.map (fun th => { th with hold := .sleep (s.cyc + t.toNat) })) := by
  rw [actSleep, if_neg (not_not.mpr ((fld_above (by decide)).mpr h)), if_neg h0]

theorem exec_sleep {g : Guard} {src : Src} {s : State} {t : Word} {d : Option (BitVec 3 × Nat × Elem)}
    (hf : Fires .sleep g src s t d) : exec (.sleep g src) s = .next (conclude false 0x19B 0 s.seen d (actSleep t s.passed)) :=
  trigger_fires (look := 0) (act := actSleep) hf

/-! ### Groups -/

/-- A group that passes the checks is the one that the table holds under its number. -/
theorem groupOf_groupAt {t : Word} {ge : Bool} {s : State} {x : Group} (h : groupOf t ge s = some x) :
    groupAt s s.th.ctx (fld t 7 0) = x := by
  rw [groupOf] at h
  split at h
  · cases h
  · exact Option.some.inj h

theorem groupAt_map (s : State) (f : Thread → Thread) (ctx grp : Nat) : groupAt (s.map f) ctx grp = groupAt s ctx grp := rfl

theorem assoc_setGroup (s : State) (grp : Nat) (g : Group) : assoc (setGroup s grp g).groups grp = some g := by
  simp [setGroup, assoc]

section
variable (s : State) (grp : Nat) (phase : Bool)

/-- A thread waits at the group for an end of the phase that has just come. -/
def Thread.past (t : Thread) : Bool :=
  match t.hold with
  | .gbar g p => decide (g = grp ∧ (p = 1) ≠ phase)
  | _ => false

/-- What the end of a phase makes of a thread. -/
def Thread.woken (now : Nat) (t : Thread) : Thread :=
  if t.past grp phase then { t with hold := .none, readyAt := now + 1 } else t

/-- Threads that acquire change the lines that their cores hold of other devices' memory alone. -/
theorem acquireAll_eq (l : List Thread) :
    ∃ lines, l.foldl (fun s t => s.acquireAt t.key.coreKey 2) s = { s with peerLines := lines } := by
  induction l generalizing s with
  | nil => exact ⟨_, rfl⟩
  | cons t l ih =>
    obtain ⟨lines, h⟩ := ih (s.acquireAt t.key.coreKey 2)
    exact ⟨lines, h⟩

theorem wakeGroup_mapAll : wakeGroup s grp phase =
    (let z := (s.threads.filter (Thread.past grp phase)).foldl (fun s t => s.acquireAt t.key.coreKey 2) s
     z.mapAll (Thread.woken grp phase z.cyc)) := by
  unfold wakeGroup
  rfl

/-- The end of a phase wakes the threads that wait for it, and changes nothing else but what the cores hold. -/
theorem wakeGroup_eq : ∃ lines, wakeGroup s grp phase = { s with
    peerLines := lines, th := s.th.woken grp phase s.cyc, others := s.others.map (Thread.woken grp phase s.cyc) } := by
  obtain ⟨lines, h⟩ := acquireAll_eq s (s.threads.filter (Thread.past grp phase))
  refine ⟨lines, ?_⟩
  rw [wakeGroup_mapAll, h]
  rfl

end

/-- An arrival that makes a group's arrivals equal its members turns its phase. -/
theorem checkGroup_full {s : State} {grp : Nat} {x : Group} (h : x.arrivals + 1 = x.members) :
    checkGroup s grp { x with arrivals := x.arrivals + 1 } =
      wakeGroup (setGroup s grp { x with arrivals := 0, phase := !x.phase }) grp (!x.phase) :=
  if_pos ⟨fun h0 => absurd (h.trans h0) (Nat.succ_ne_zero _), h⟩

/-- One that does not is counted. -/
theorem checkGroup_partial {s : State} {grp : Nat} {x : Group} (h : x.arrivals + 1 ≠ x.members) :
    checkGroup s grp { x with arrivals := x.arrivals + 1 } = setGroup s grp { x with arrivals := x.arrivals + 1 } :=
  if_neg (fun hfull => h hfull.2)

/-- A thread that waits for the phase to turn is woken as it turns. -/
theorem Thread.woken_waiting {t : Thread} {grp : Nat} {phase : Bool} (now : Nat)
    (h : t.hold = .gbar grp (bit01 phase)) : t.woken grp (!phase) now = { t with hold := .none, readyAt := now + 1 } := by
  have hpast : t.past grp (!phase) = true := by
    rw [Thread.past, h]
    cases phase <;> simp [bit01]
  rw [Thread.woken, if_pos hpast]

/-! ### gbar -/

theorem exec_gbar {g : Guard} {src : Src} {s : State} {t : Word} {d : Option (BitVec 3 × Nat × Elem)}
    (hf : Fires .gbar g src s t d) : exec (.gbar g src) s = .next (conclude false 0x198 0 s.seen d (actGbar t s.passed)) :=
  trigger_fires (look := 0) (act := actGbar) hf

section
variable {t : Word} {u : State} {x : Group} (hx : groupOf t true u = some x)
include hx

theorem actGbar_over (hwait : fld t 8 8 = 1) (hphase : bit01 x.phase ≠ fld t 9 9) : actGbar t u = .done (u.acquire 2) := by
  simp only [actGbar, hx, if_pos hwait, if_pos hphase]

theorem actGbar_waits (hwait : fld t 8 8 = 1) (hphase : bit01 x.phase = fld t 9 9) :
    actGbar t u = .done (u.map (fun th => { th with hold := .gbar (fld t 7 0) (fld t 9 9) })) := by
  simp only [actGbar, hx, if_pos hwait, if_neg (not_not.mpr hphase)]

theorem actGbar_arrives (hwait : fld t 8 8 = 0) (hr : Released u 2) : actGbar t u =
    .done (checkGroup (u.map (fun th => { th with hold := .gbar (fld t 7 0) (bit01 x.phase) })) (fld t 7 0)
      { x with arrivals := x.arrivals + 1 }) := by
  have hat : groupAt (u.map (fun th => { th with hold := .gbar (fld t 7 0) (bit01 x.phase) })) u.th.ctx (fld t 7 0) = x :=
    (groupAt_map u _ _ _).trans (groupOf_groupAt hx)
  have hnot : ¬ fld t 8 8 = 1 := by rw [hwait]; exact Nat.zero_ne_one
  simp only [actGbar, hx, if_neg hnot, releaseWait_released hr, arrive, hat]

end

/-! ### garrive -/

theorem exec_garrive {g : Guard} {src : Src} {s : State} {t : Word} {d : Option (BitVec 3 × Nat × Elem)}
    (hf : Fires .garrive g src s t d) :
    exec (.garrive g src) s = .next (conclude false 0x199 0 s.seen d (actGarrive t s.passed)) :=
  trigger_fires (look := 0) (act := actGarrive) hf

theorem actGarrive_releases {t : Word} {u : State} {x : Group} (hx : groupOf t false u = some x)
    (hp : u.th.awaitsPhase = false) : actGarrive t u = .done (u.releasing { group := some (fld t 7 0), since := u.cyc }) := by
  simp only [actGarrive, hx, hp]
  rfl

section
variable (u : State) (rs : List Release)

theorem siblingPosts_rels (k : CoreKey) (me : SlotKey) (cell len : Nat) :
    (u.map (fun t => { t with rels := rs })).siblingPosts k me cell len = u.siblingPosts k me cell len := by
  by_cases hidle : u.th.life = .idle <;> simp [State.siblingPosts, State.threads, hidle]

/-- Whether earlier accesses are over does not depend on the releases that wait for them. -/
theorem earlierDone_rels (k : SlotKey) (since scope : Nat) :
    (u.map (fun t => { t with rels := rs })).earlierDone k since scope = u.earlierDone k since scope := by
  by_cases hfocus : u.th.key = k ∧ u.th.life ≠ .idle
  · have hleft : (u.map (fun t => { t with rels := rs })).thread? k = some { u.th with rels := rs } := if_pos hfocus
    have hright : u.thread? k = some u.th := if_pos hfocus
    simp only [State.earlierDone, hleft, hright, siblingPosts_rels]
    rfl
  · have hthread : (u.map (fun t => { t with rels := rs })).thread? k = u.thread? k :=
      (if_neg hfocus).trans (if_neg hfocus).symm
    simp only [State.earlierDone, hthread, siblingPosts_rels]
    rfl

end

section
variable {s : State} {r : Release}

/-- A release behind others, or behind accesses, waits with its thread's releases. -/
theorem State.releasing_waits (h : s.flushWcb.th.rels ≠ [] ∨ s.flushWcb.earlierDone s.th.key r.since 2 = false) :
    s.releasing r = s.flushWcb.map (fun t => { t with rels := t.rels ++ [r] }) := by
  rw [State.releasing]
  split
  case isFalse => rfl
  case isTrue hone =>
    have hnil : s.flushWcb.th.rels = [] := by
      have hlen : (s.flushWcb.th.rels ++ [r]).length = 1 := hone
      rw [List.length_append, List.length_singleton] at hlen
      exact List.eq_nil_of_length_eq_zero (Nat.succ.inj hlen)
    have hbusy : s.flushWcb.earlierDone s.th.key r.since 2 = false := h.resolve_left (not_not.mpr hnil)
    have hrels : (s.flushWcb.map (fun t => { t with rels := t.rels ++ [r] })).th.rels = [r] := by
      rw [State.map_th, hnil]
      rfl
    have hdone := (earlierDone_rels s.flushWcb (s.flushWcb.th.rels ++ [r]) s.th.key r.since 2).trans hbusy
    rw [releaseNow, hrels]
    exact congrArg (fun o : Option State => o.getD _) (if_neg (Bool.eq_false_iff.mp hdone))

/-- The first one, with the earlier accesses over, is performed at once. -/
theorem State.releasing_performs (hnil : s.flushWcb.th.rels = []) (hdone : s.flushWcb.earlierDone s.th.key r.since 2 = true) :
    s.releasing r = release r (s.flushWcb.map (fun t => { t with rels := [] })) := by
  have hrels : (s.flushWcb.map (fun t => { t with rels := t.rels ++ [r] })).th.rels = [r] := by
    rw [State.map_th, hnil]
    rfl
  have hdone' := (earlierDone_rels s.flushWcb (s.flushWcb.th.rels ++ [r]) s.th.key r.since 2).trans hdone
  have hnow : releaseNow (s.flushWcb.map (fun t => { t with rels := t.rels ++ [r] })) =
      some (release r (s.flushWcb.map (fun t => { t with rels := [] }))) := by
    rw [releaseNow, hrels]
    exact if_pos hdone'
  have hone : (s.flushWcb.map (fun t => { t with rels := t.rels ++ [r] })).th.rels.length = 1 := congrArg List.length hrels
  rw [State.releasing, if_pos hone, hnow]
  rfl

end

/-- What an arrival does not change, and the group's entry after it. -/
theorem arrive_spec (s : State) (ctx grp : Nat) {x : Group} (hx : groupAt s ctx grp = x) :
    assoc (arrive s ctx grp).groups grp = some (if x.arrivals + 1 = x.members then
        { x with arrivals := 0, phase := !x.phase } else { x with arrivals := x.arrivals + 1 })
      ∧ (arrive s ctx grp).cyc = s.cyc ∧ (arrive s ctx grp).th.flight = s.th.flight ∧ (arrive s ctx grp).th.g = s.th.g
      ∧ (arrive s ctx grp).th.pc = s.th.pc := by
  rw [arrive, hx]
  by_cases hfull : x.arrivals + 1 = x.members
  · obtain ⟨lines, hwake⟩ := wakeGroup_eq (setGroup s grp { x with arrivals := 0, phase := !x.phase }) grp (!x.phase)
    rw [checkGroup_full hfull, hwake, if_pos hfull]
    refine ⟨assoc_setGroup .., rfl, ?_⟩
    dsimp only [Thread.woken, setGroup]
    split <;> exact ⟨rfl, rfl, rfl⟩
  · rw [checkGroup_partial hfull, if_neg hfull]
    exact ⟨assoc_setGroup .., rfl, rfl, rfl, rfl⟩

theorem Thread.flightDue_congr {t t' : Thread} (h : t.flight = t'.flight) (p : Option Latch) (now : Nat) :
    t.flightDue p now = t'.flightDue p now := by
  rw [Thread.flightDue, Thread.flightDue, h]

/-- The results on their way after an S operation, from those of a state with the same ones at the same cycle. -/
theorem sResult_flight {s u : State} {lat n : Nat} {w r : Word} (hf : s.th.flight = u.th.flight) (hc : s.cyc = u.cyc)
    (hl : lat = n) (hw : w = r) : (s.sResult lat w).th.flight = (u.pending (some .sr) n r 0 0).th.flight := by
  rw [hl, hw, State.sResult, State.launch, State.pending, State.map_th, State.map_th, Thread.flightDue_congr hf, hf, hc]
  rfl

theorem ofNat_bit01 (b : Bool) : BitVec.ofNat 64 (bit01 b) = if b then 1 else 0 := by cases b <;> rfl

/-- Settles O21: sleep by its count, gbar by its form and by whether its arrival is the last, garrive by what it waits for. -/
theorem sleepAndBarriers : Obligations.SleepAndBarriers := by
  refine ⟨fun g src s t d hf => ?sleep, fun g src s t d x hf => ?gbar, fun g src s t d x hf => ?garrive⟩
  case sleep =>
    rw [exec_sleep hf]
    refine ⟨fun h => ?_, fun h0 h => ?_, fun h => ?_⟩
    · rw [h, actSleep_zero, conclude_done]
    · rw [actSleep_short _ h0 h, conclude_done]
      rfl
    · rw [actSleep_long _ h, conclude_illegal]
  case gbar =>
    intro u grp hx
    rw [exec_gbar hf]
    refine ⟨fun hwait hphase => ?passes, fun hwait hphase => ?waits, fun hwait hr hcount => ?counts, fun hwait hr hcount => ?turns⟩
    case passes => rw [actGbar_over hx hwait hphase, conclude_done]
    case waits => rw [actGbar_waits hx hwait hphase, conclude_done]
    case counts =>
      rw [actGbar_arrives hx hwait hr, checkGroup_partial hcount, conclude_done]
      rfl
    case turns =>
      rw [actGbar_arrives hx hwait hr, checkGroup_full hcount, conclude_done]
      let v := u.map (fun th => { th with hold := .gbar grp (bit01 x.phase) })
      obtain ⟨lines, hwake⟩ := wakeGroup_eq (setGroup v grp { x with arrivals := 0, phase := !x.phase }) grp (!x.phase)
      rw [hwake]
      exact ⟨_, rfl, Thread.woken_waiting _ rfl, assoc_setGroup ..⟩
  case garrive =>
    intro u r hx hp
    have hcyc : s.passed.cyc = s.cyc := rfl
    have hkey : s.passed.th.key = s.th.key := State.passed_key s
    rw [exec_garrive hf, actGarrive_releases hx hp, conclude_done]
    refine ⟨fun hnil hdone => ?performs, fun h => ?waits⟩
    case performs =>
      rw [State.releasing_performs hnil (by rw [hkey]; exact hdone)]
      let v := u.map (fun t => { t with rels := [] })
      have hat : groupAt v u.th.ctx (fld t 7 0) = x := (groupAt_map u _ _ _).trans (groupOf_groupAt (s := s.passed) hx)
      obtain ⟨hgroup, hcyc', hflight, hg, hpc⟩ := arrive_spec v u.th.ctx (fld t 7 0) hat
      have hphase : BitVec.ofNat 64 (bit01 (groupAt v u.th.ctx (fld t 7 0)).phase) = if x.phase then 1 else 0 := by
        rw [hat, ofNat_bit01]
      exact ⟨_, rfl, sResult_flight hflight hcyc' (Nat.add_sub_cancel_left s.cyc 4) hphase, hg, hpc, hgroup⟩
    case waits =>
      rw [State.releasing_waits (by rw [hkey]; exact h)]
      rfl

end Sys2Proof.Machine
end

section
/-! O46: balancers and merges by the element at a head, what they leave as it is, and the channels that they reach. -/

namespace Sys2Proof.Machine

/-! ### An element sent to a channel -/

/-- A state keeps the thread in focus, memory, and the balancers and merges. -/
structure KeepsUnits (s z : State) : Prop where
  th : z.th = s.th
  mem : z.mem = s.mem
  balancers : z.balancers = s.balancers
  merges : z.merges = s.merges

theorem KeepsUnits.refl (s : State) : KeepsUnits s s := ⟨rfl, rfl, rfl, rfl⟩

theorem KeepsUnits.trans {s y z : State} (h : KeepsUnits s y) (h' : KeepsUnits y z) : KeepsUnits s z :=
  ⟨h'.th.trans h.th, h'.mem.trans h.mem, h'.balancers.trans h.balancers, h'.merges.trans h.merges⟩

/-- Channel `o` of `z` holds what it holds in `s`, and behind it the word and bits of `e`. -/
def SentTo (s z : State) (o : Nat) (e : Elem) : Prop :=
  ∀ c, s.chan? o = some c → ∃ x y, z.chan? o = some y
    ∧ y.elems = c.elems ++ [x] ∧ x.word = e.word ∧ x.tag = e.tag ∧ x.sync = e.sync

theorem SentTo.congr {s s' z z' : State} {o : Nat} {e : Elem} (h : SentTo s z o e) (hs : s.chan? o = s'.chan? o)
    (hz : z.chan? o = z'.chan? o) : SentTo s' z' o e := by
  rw [SentTo, ← hs, ← hz]
  exact h

section
variable (s : State)

theorem State.chan?_mapChan_ne {id o : Nat} {f : Chan → Chan} (hf : ∀ c, (f c).id = c.id) (h : o ≠ id) :
    (s.mapChan id f).chan? o = s.chan? o := by
  have hsame (c : Chan) : (if c.id = id then f c else c).id = c.id := by
    split
    · exact hf c
    · rfl
  have hpred : (fun c : Chan => decide (c.id = o)) ∘ (fun c => if c.id = id then f c else c) = fun c => decide (c.id = o) :=
    funext fun c => congrArg (fun n => decide (n = o)) (hsame c)
  rw [State.chan?, State.chan?, State.mapChan, List.find?_map, hpred]
  cases hfound : s.chans.find? (fun c => decide (c.id = o)) with
  | none => rfl
  | some c =>
    have hid : c.id = o := by simpa using List.find?_some hfound
    exact congrArg some (if_neg (hid ▸ h))

theorem State.chanTouched_keepsUnits (c : Chan) (w : Option Nat) : KeepsUnits s (s.chanTouched c w) := by
  unfold State.chanTouched
  split <;> exact ⟨rfl, rfl, rfl, rfl⟩

theorem State.dequeueAt_keepsUnits (p : Port) (id : Nat) : KeepsUnits s (s.dequeueAt p id) := by
  cases h : s.chan? id with
  | none =>
    rw [State.dequeueAt, h]
    exact .refl s
  | some c =>
    rw [State.dequeueAt_eq p h]
    obtain ⟨hth, hmem, hbal, hmerge⟩ := s.drawn.chanTouched_keepsUnits c none
    exact ⟨hth, hmem, hbal, hmerge⟩

theorem State.enqueueAt_keepsUnits (id : Nat) (w : Word) (tag sync : Bool) : KeepsUnits s (s.enqueueAt id w tag sync) := by
  cases h : s.chan? id with
  | none =>
    rw [State.enqueueAt, h]
    exact .refl s
  | some c =>
    rw [State.enqueueAt_eq w tag sync h]
    obtain ⟨hth, hmem, hbal, hmerge⟩ := s.drawn.chanTouched_keepsUnits c (some c.wr)
    exact ⟨hth, hmem, hbal, hmerge⟩

theorem State.chan?_dequeueAt_ne (p : Port) {id o : Nat} (h : o ≠ id) : (s.dequeueAt p id).chan? o = s.chan? o := by
  cases hc : s.chan? id with
  | none => rw [State.dequeueAt, hc]
  | some c =>
    rw [State.dequeueAt_eq p hc, State.chan?_mapChan_ne _ (f := fun x => (x.counted p s.cyc).free (s.landing c.latency))
      (fun _ => rfl) h]
    exact State.chan?_congr (State.chanTouched_chans ..) o

theorem State.chan?_enqueueAt_ne {id o : Nat} (w : Word) (tag sync : Bool) (h : o ≠ id) :
    (s.enqueueAt id w tag sync).chan? o = s.chan? o := by
  cases hc : s.chan? id with
  | none => rw [State.enqueueAt, hc]
  | some c =>
    rw [State.enqueueAt_eq w tag sync hc]
    refine (State.chan?_mapChan_ne _ ?same h).trans (State.chan?_congr (State.chanTouched_chans ..) o)
    case same => exact fun _ => rfl

/-- R249: an element enqueued stands behind the others of its channel, with its bits. -/
theorem State.enqueueAt_sentTo (id : Nat) (e : Elem) : SentTo s (s.enqueueAt id e.word e.tag e.sync) id e := by
  intro c h
  have hsame : (s.drawn.chanTouched c (some c.wr)).chan? id = some c :=
    (State.chan?_congr (State.chanTouched_chans ..) id).trans h
  rw [State.enqueueAt_eq e.word e.tag e.sync h]
  refine ⟨_, _, (State.chan?_mapChan _ _ ?same).trans ((congrArg _ hsame).trans rfl), rfl, rfl, rfl, rfl⟩
  case same => exact fun _ => rfl

/-- The head of one channel sent to another. -/
theorem State.movedTo (p : Port) {id o : Nat} (e : Elem) (h : o ≠ id) :
    SentTo s ((s.dequeueAt p id).enqueueAt o e.word e.tag e.sync) o e
      ∧ KeepsUnits s ((s.dequeueAt p id).enqueueAt o e.word e.tag e.sync) :=
  ⟨((s.dequeueAt p id).enqueueAt_sentTo o e).congr (s.chan?_dequeueAt_ne p h) rfl,
    (s.dequeueAt_keepsUnits p id).trans (State.enqueueAt_keepsUnits ..)⟩

end

section
variable (e : Elem)

/-- The element enqueued on each of several channels. -/
def State.enqueueAll (s : State) (outs : List Nat) : State := outs.foldl (fun s o => s.enqueueAt o e.word e.tag e.sync) s

theorem State.enqueueAll_keepsUnits (s : State) (outs : List Nat) : KeepsUnits s (s.enqueueAll e outs) := by
  induction outs generalizing s with
  | nil => exact .refl s
  | cons a l ih => exact (s.enqueueAt_keepsUnits a e.word e.tag e.sync).trans (ih _)

theorem State.chan?_enqueueAll_ne (s : State) {outs : List Nat} {o : Nat} (h : o ∉ outs) :
    (s.enqueueAll e outs).chan? o = s.chan? o := by
  induction outs generalizing s with
  | nil => rfl
  | cons a l ih =>
    rw [List.mem_cons, not_or] at h
    exact (ih _ h.2).trans (s.chan?_enqueueAt_ne e.word e.tag e.sync h.1)

theorem State.enqueueAll_sentTo (s : State) {outs : List Nat} (hn : outs.Nodup) {o : Nat} (h : o ∈ outs) :
    SentTo s (s.enqueueAll e outs) o e := by
  induction outs generalizing s with
  | nil => exact absurd h List.not_mem_nil
  | cons a l ih =>
    obtain ⟨ha, hl⟩ := List.nodup_cons.mp hn
    rcases List.mem_cons.mp h with rfl | hmem
    · exact (s.enqueueAt_sentTo o e).congr rfl (State.chan?_enqueueAll_ne e _ ha).symm
    · have hne : o ≠ a := fun heq => ha (heq ▸ hmem)
      exact (ih (s.enqueueAt a e.word e.tag e.sync) hl hmem).congr (s.chan?_enqueueAt_ne _ _ _ hne) rfl

end

/-- Heads dequeued from several channels. -/
def State.dequeueAll (s : State) (l : List (Nat × Port × Elem)) : State := l.foldl (fun s x => s.dequeueAt x.2.1 x.1) s

theorem State.dequeueAll_keepsUnits (s : State) (l : List (Nat × Port × Elem)) : KeepsUnits s (s.dequeueAll l) := by
  induction l generalizing s with
  | nil => exact .refl s
  | cons x l ih => exact (s.dequeueAt_keepsUnits x.2.1 x.1).trans (ih _)

theorem State.chan?_dequeueAll_ne (s : State) {l : List (Nat × Port × Elem)} {o : Nat} (h : ∀ x ∈ l, o ≠ x.1) :
    (s.dequeueAll l).chan? o = s.chan? o := by
  induction l generalizing s with
  | nil => rfl
  | cons x l ih =>
    exact (ih _ (fun y hy => h y (List.mem_cons_of_mem _ hy))).trans (s.chan?_dequeueAt_ne x.2.1 (h x List.mem_cons_self))

/-! ### The replica that holds the fewest elements (R241) -/

/-- The first place of the least value below `n`. -/
theorem foldl_range_least (h : Nat → Nat) (n : Nat) :
    let i := (List.range n).foldl (fun b i => if h i < h b then i else b) 0
    i ≤ n - 1 ∧ (∀ j < n, h i ≤ h j) ∧ ∀ j < i, h i < h j := by
  induction n with
  | zero => exact ⟨Nat.le_refl _, fun j hj => absurd hj (Nat.not_lt_zero j), fun j hj => absurd hj (Nat.not_lt_zero j)⟩
  | succ n ih =>
    simp only [List.range_succ, List.foldl_append, List.foldl_cons, List.foldl_nil]
    obtain ⟨hle, hleast, hfirst⟩ := ih
    split
    case isTrue hlt =>
      exact ⟨Nat.le_refl n, fun j hj => (Nat.lt_succ_iff_lt_or_eq.mp hj).elim
        (fun hj => (hlt.trans_le (hleast j hj)).le) (fun hj => hj ▸ Nat.le_refl _), fun j hj => hlt.trans_le (hleast j hj)⟩
    case isFalse hge =>
      refine ⟨hle.trans (Nat.sub_le n 1), fun j hj => ?_, hfirst⟩
      rcases Nat.lt_succ_iff_lt_or_eq.mp hj with hj | rfl
      · exact hleast j hj
      · exact Nat.not_lt.mp hge

theorem fewest_least (s : State) {outs : List Nat} (h : outs ≠ []) :
    fewest s outs < outs.length ∧ (∀ j < outs.length, heldIn s (outs.getD (fewest s outs) 0) ≤ heldIn s (outs.getD j 0))
      ∧ ∀ j < fewest s outs, heldIn s (outs.getD (fewest s outs) 0) < heldIn s (outs.getD j 0) := by
  obtain ⟨hle, hleast, hfirst⟩ := foldl_range_least (fun i => heldIn s (outs.getD i 0)) outs.length
  exact ⟨hle.trans_lt (Nat.sub_lt (List.length_pos_iff.mpr h) Nat.one_pos), hleast, hfirst⟩

/-! ### Balancers (R241) -/

section
variable {s : State} {b : Balancer} {p : Port} {e : Elem}

theorem putBalancer_balancers (z : State) {n : Nat} (h : n < z.balancers.length) :
    (z.putBalancer n b).balancers[n]? = some b := by
  change (setNth z.balancers n b)[n]? = some b
  rw [setNth_eq_set h, List.getElem?_set_self h]

variable (hb : s.balancers[s.ev.n]? = some b)
include hb

theorem exec_balancerDistribute : exec .balancerDistribute s = orNone (balanceNow s s.ev.n b) := by
  change orNone (s.balancers[s.ev.n]?.bind (balanceNow s s.ev.n)) = _
  rw [hb, Option.bind_some]

theorem balancer_index {z : State} (h : KeepsUnits s z) : s.ev.n < z.balancers.length := by
  rw [h.balancers]
  exact (List.getElem?_eq_some_iff.mp hb).1

variable (hhead : unitHead s b.src = some (p, e))
include hhead

theorem exec_balancerDistribute_broadcast (hbc : isBroadcast b.level e = true) (hroom : b.outs.all (roomIn s) = true) :
    exec .balancerDistribute s =
      .next ((((s.dequeueAt p b.src).enqueueAll e b.outs).putBalancer s.ev.n { b with cur := none }).distributed b none) := by
  rw [exec_balancerDistribute hb, balanceNow, hhead]
  exact congrArg orNone ((if_pos hbc).trans (if_pos hroom))

theorem exec_balancerDistribute_next {i : Nat} (hbc : isBroadcast b.level e = false) (hcur : b.cur = some i)
    (hroom : roomIn s (b.outs.getD i 0) = true) : exec .balancerDistribute s =
      .next (((s.dequeueAt p b.src).enqueueAt (b.outs.getD i 0) e.word e.tag e.sync).putBalancer s.ev.n
        { b with cur := if endsGroup b.level e then none else some i }) := by
  rw [exec_balancerDistribute hb, balanceNow, hhead, hcur]
  exact congrArg orNone ((if_neg (Bool.eq_false_iff.mp hbc)).trans (if_pos hroom))

theorem exec_balancerDistribute_opens (hbc : isBroadcast b.level e = false) (hcur : b.cur = none)
    (hfull : reorderFull s b = false) : exec .balancerDistribute s =
      .next ((s.putBalancer s.ev.n { b with cur := some (fewest s b.outs) }).distributed b (some (fewest s b.outs))) := by
  rw [exec_balancerDistribute hb, balanceNow, hhead, hcur]
  exact congrArg orNone ((if_neg (Bool.eq_false_iff.mp hbc)).trans (if_neg (Bool.eq_false_iff.mp hfull)))

end

theorem reorderFull_eq_false {s : State} {b : Balancer}
    (h : ∀ m ∈ s.merges, m.behind b = true → m.order.countP Option.isSome < 256) : reorderFull s b = false := by
  refine List.any_eq_false.mpr fun m hm => ?_
  rw [Bool.and_eq_true, decide_eq_true_eq]
  exact fun hboth => Nat.not_lt.mpr hboth.2 (h m hm hboth.1)

/-! ### The group that arrived first (R242) -/

/-- The cycle from which the group at the head of replica `i` can be taken, where one is there. -/
def groupReady (s : State) (m : Merge) (i : Nat) : Option (Nat × Nat) :=
  match unitHead s (m.ins.getD i 0) with
  | some (_, e) => if isBroadcast m.level e then none else some (i, e.ready)
  | none => none

theorem groupReady_eq_some_iff {s : State} {m : Merge} {i : Nat} {x : Nat × Nat} : groupReady s m i = some x ↔
    ∃ p e, unitHead s (m.ins.getD i 0) = some (p, e) ∧ isBroadcast m.level e = false ∧ x = (i, e.ready) := by
  rw [groupReady]
  constructor
  · intro h
    split at h
    case h_1 p e hhead =>
      split at h
      case isTrue => cases h
      case isFalse hbc => exact ⟨p, e, hhead, Bool.eq_false_iff.mpr hbc, (Option.some.inj h).symm⟩
    case h_2 => cases h
  · rintro ⟨p, e, hhead, hbc, rfl⟩
    rw [hhead]
    exact if_neg (Bool.eq_false_iff.mp hbc)

theorem firstArrived_eq (s : State) (m : Merge) : firstArrived s m =
    (let heads := (List.range m.ins.length).filterMap (groupReady s m)
     (heads.find? (fun x => heads.all (fun y => decide (x.2 ≤ y.2)))).map Prod.fst) := by
  unfold firstArrived
  rfl

/-- The numbers below `n` are those below `i`, `i` and others. -/
theorem range_split {i n : Nat} (h : i < n) : ∃ l, List.range n = List.range i ++ i :: l := by
  obtain ⟨k, rfl⟩ := Nat.exists_eq_add_of_lt h
  refine ⟨((List.range k).map Nat.succ).map (i + ·), ?_⟩
  rw [Nat.add_assoc, List.range_add, List.range_succ_eq_map, List.map_cons, Nat.add_zero]

theorem firstArrived_least {s : State} {m : Merge} {i : Nat} {p : Port} {e : Elem}
    (hhead : unitHead s (m.ins.getD i 0) = some (p, e)) (hbc : isBroadcast m.level e = false) (hi : i < m.ins.length)
    (hleast : ∀ j < m.ins.length, ∀ p' e', unitHead s (m.ins.getD j 0) = some (p', e') → isBroadcast m.level e' = false →
      e.ready < e'.ready ∨ (e.ready = e'.ready ∧ i ≤ j)) : firstArrived s m = some i := by
  have hready : groupReady s m i = some (i, e.ready) := groupReady_eq_some_iff.mpr ⟨p, e, hhead, hbc, rfl⟩
  have hmem : (i, e.ready) ∈ (List.range m.ins.length).filterMap (groupReady s m) :=
    List.mem_filterMap.mpr ⟨i, List.mem_range.mpr hi, hready⟩
  have hall : ((List.range m.ins.length).filterMap (groupReady s m)).all (fun y => decide (e.ready ≤ y.2)) = true := by
    refine List.all_eq_true.mpr fun y hy => decide_eq_true ?_
    obtain ⟨j, hj, hyj⟩ := List.mem_filterMap.mp hy
    obtain ⟨p', e', hhead', hbc', rfl⟩ := groupReady_eq_some_iff.mp hyj
    rcases hleast j (List.mem_range.mp hj) p' e' hhead' hbc' with hlt | ⟨heq, -⟩
    · exact hlt.le
    · exact heq.le
  have hbefore : ∀ x ∈ (List.range i).filterMap (groupReady s m), e.ready < x.2 := by
    intro x hx
    obtain ⟨j, hj, hxj⟩ := List.mem_filterMap.mp hx
    obtain ⟨p', e', hhead', hbc', rfl⟩ := groupReady_eq_some_iff.mp hxj
    have hji : j < i := List.mem_range.mp hj
    exact (hleast j (hji.trans hi) p' e' hhead' hbc').resolve_right (fun h => Nat.not_le.mpr hji h.2)
  obtain ⟨l, hsplit⟩ := range_split hi
  have hheads : (List.range m.ins.length).filterMap (groupReady s m) =
      (List.range i).filterMap (groupReady s m) ++ (i, e.ready) :: l.filterMap (groupReady s m) := by
    rw [hsplit, List.filterMap_append, List.filterMap_cons, hready]
  rw [firstArrived_eq]
  refine congrArg (Option.map Prod.fst) (List.find?_eq_some_iff_append.mpr ⟨hall, _, _, hheads, fun x hx => ?_⟩)
  rw [Bool.not_eq_true', List.all_eq_false]
  exact ⟨_, hmem, fun hle => Nat.not_le.mpr (hbefore x hx) (of_decide_eq_true hle)⟩

theorem firstArrived_none {s : State} {m : Merge}
    (h : ∀ i ∈ m.ins, ∃ x, unitHead s i = some x ∧ isBroadcast m.level x.2 = true) : firstArrived s m = none := by
  have hnil : (List.range m.ins.length).filterMap (groupReady s m) = [] := by
    refine List.filterMap_eq_nil_iff.mpr fun i hi => Option.eq_none_iff_forall_ne_some.mpr fun x hx => ?_
    obtain ⟨p, e, hhead, hbc, -⟩ := groupReady_eq_some_iff.mp hx
    have hin : m.ins.getD i 0 ∈ m.ins := by
      rw [List.getD_eq_getElem _ _ (List.mem_range.mp hi)]
      exact List.getElem_mem _
    obtain ⟨y, hy, hybc⟩ := h _ hin
    have hsame : y = (p, e) := Option.some.inj (hy.symm.trans hhead)
    rw [hsame, hbc] at hybc
    exact Bool.false_ne_true hybc
  rw [firstArrived_eq, hnil]
  rfl

/-! ### Merges (R242) -/

/-- Heads that are all there, read in order. -/
theorem mapM_unitHead {s : State} {level : Option Nat} {l : List Nat}
    (h : ∀ i ∈ l, ∃ x, unitHead s i = some x ∧ isBroadcast level x.2 = true) : ∃ heads, l.mapM (unitHead s) = some heads
      ∧ heads.all (fun x => isBroadcast level x.2) = true ∧ heads.head? = l.head?.bind (unitHead s) := by
  induction l with
  | nil => exact ⟨[], rfl, rfl, rfl⟩
  | cons a l ih =>
    obtain ⟨x, hx, hbc⟩ := h a List.mem_cons_self
    obtain ⟨heads, hheads, hall, -⟩ := ih (fun i hi => h i (List.mem_cons_of_mem _ hi))
    refine ⟨x :: heads, ?_, ?_, ?_⟩
    · rw [List.mapM_cons, hx, hheads]
      rfl
    · rw [List.all_cons, hbc, hall]
      rfl
    · exact hx.symm

section
variable {s : State} {m : Merge}

theorem putMerge_merges (z : State) {n : Nat} (h : n < z.merges.length) : (z.putMerge n m).merges[n]? = some m := by
  change (setNth z.merges n m)[n]? = some m
  rw [setNth_eq_set h, List.getElem?_set_self h]

variable (hm : s.merges[s.ev.n]? = some m)
include hm

theorem merge_index {z : State} (h : KeepsUnits s z) : s.ev.n < z.merges.length := by
  rw [h.merges]
  exact (List.getElem?_eq_some_iff.mp hm).1

theorem exec_mergeEmit : exec .mergeEmit s = orNone (mergeNow s s.ev.n m) := by
  change orNone (s.merges[s.ev.n]?.bind (mergeNow s s.ev.n)) = _
  rw [hm, Option.bind_some]

/-- A merge whose open group is that of replica `i`, or whose next group is, goes on with it. -/
theorem exec_mergeEmit_from {i : Nat} (h : m.cur = some i ∨ (m.cur = none ∧ m.pair = none ∧ firstArrived s m = some i)
    ∨ (m.cur = none ∧ m.pair ≠ none ∧ m.order.head? = some (some i))) :
    exec .mergeEmit s = orNone (mergeFrom s s.ev.n m i) := by
  rw [exec_mergeEmit hm, mergeNow]
  rcases h with hcur | ⟨hcur, hpair, hfirst⟩ | ⟨hcur, hpair, horder⟩
  · rw [hcur]
  · rw [hcur, hpair, hfirst]
    rfl
  · obtain ⟨rest, hrest⟩ := List.head?_eq_some_iff.mp horder
    rw [hcur, hrest]
    exact congrArg orNone (if_neg (fun hnone => hpair (Option.isNone_iff_eq_none.mp hnone)))

/-- One whose next token is a broadcast one emits it. -/
theorem exec_mergeEmit_broadcast (hcur : m.cur = none)
    (h : (m.pair = none ∧ firstArrived s m = none) ∨ (m.pair ≠ none ∧ m.order.head? = some none)) :
    exec .mergeEmit s = orNone (mergeBroadcast s s.ev.n m) := by
  rw [exec_mergeEmit hm, mergeNow, hcur]
  rcases h with ⟨hpair, hfirst⟩ | ⟨hpair, horder⟩
  · rw [hpair, hfirst]
    rfl
  · obtain ⟨rest, hrest⟩ := List.head?_eq_some_iff.mp horder
    rw [hrest]
    exact congrArg orNone (if_neg (fun hnone => hpair (Option.isNone_iff_eq_none.mp hnone)))

end

section
variable {s : State} {m : Merge} {i : Nat} {p : Port} {e : Elem} (hhead : unitHead s (m.ins.getD i 0) = some (p, e))
include hhead

theorem mergeFrom_ended (n : Nat) (hbc : isBroadcast m.level e = true) :
    mergeFrom s n m i = some (s.putMerge n { m.emitted with cur := none }) := by
  rw [mergeFrom, hhead]
  exact if_pos hbc

theorem mergeFrom_emits (n : Nat) (hbc : isBroadcast m.level e = false) (hroom : roomIn s m.out = true) :
    mergeFrom s n m i = some (((s.dequeueAt p (m.ins.getD i 0)).enqueueAt m.out e.word e.tag e.sync).putMerge n
      (if endsGroup m.level e then { m.emitted with cur := none } else { m with cur := some i })) := by
  rw [mergeFrom, hhead]
  refine (if_neg (Bool.eq_false_iff.mp hbc)).trans ((if_pos hroom).trans ?_)
  split <;> rfl

end

theorem mergeBroadcast_emits {s : State} {m : Merge} {p : Port} {e : Elem} (n : Nat) (hins : m.ins ≠ [])
    (hhead : unitHead s (m.ins.getD 0 0) = some (p, e)) (hroom : roomIn s m.out = true)
    (hall : ∀ i ∈ m.ins, ∃ x, unitHead s i = some x ∧ isBroadcast m.level x.2 = true) :
    ∃ heads, mergeBroadcast s n m =
      some (((s.dequeueAll (m.ins.zip heads)).enqueueAt m.out e.word e.tag e.sync).putMerge n m.emitted) := by
  obtain ⟨heads, hheads, hbc, hfirst⟩ := mapM_unitHead hall
  obtain ⟨a, l, hcons⟩ := List.exists_cons_of_ne_nil hins
  have hhead' : heads.head? = some (p, e) := by
    rw [hfirst, ← hhead, hcons]
    rfl
  refine ⟨heads, ?_⟩
  rw [mergeBroadcast, hheads]
  simp only [Option.bind_eq_bind, Option.bind_some, hhead']
  exact if_pos ⟨hbc, hroom⟩

/-- Settles O46: a balancer by its head, by its open group and by the least full replica, a merge by the group that goes on, a
broadcast by the heads that all hold one. -/
theorem balancersAndMerges : Obligations.BalancersAndMerges := by
  refine ⟨fun s b p e hb hhead hsrc hnodup => ⟨fun hbc hroom => ?all, fun hbc i hcur hi hroom => ?next, fun hbc hcur houts hfull =>
    ?opens⟩, fun s m i p e hm hhead hne => ⟨fun hbc hwhich hroom => ?emits, fun hbc hwhich => ?ended⟩,
    fun s m p e hm hcur hwhich hout hins hhead hroom hall => ?broadcast⟩
  case all =>
    have hkeeps := (s.dequeueAt_keepsUnits p b.src).trans (State.enqueueAll_keepsUnits e _ b.outs)
    refine ⟨_, exec_balancerDistribute_broadcast hb hhead hbc hroom, fun o ho => ?_, hkeeps.mem, hkeeps.th,
      putBalancer_balancers _ (balancer_index hb hkeeps), congrArg (List.map _) hkeeps.merges⟩
    have hoSrc : o ≠ b.src := fun heq => hsrc (heq ▸ ho)
    exact (State.enqueueAll_sentTo e _ hnodup ho).congr (s.chan?_dequeueAt_ne p hoSrc) rfl
  case next =>
    have hoSrc : b.outs.getD i 0 ≠ b.src := by
      rw [List.getD_eq_getElem _ _ hi]
      exact fun heq => hsrc (heq ▸ List.getElem_mem hi)
    obtain ⟨hsent, hkeeps⟩ := s.movedTo p e hoSrc
    exact ⟨_, exec_balancerDistribute_next hb hhead hbc hcur hroom, hsent, hkeeps.mem, hkeeps.th,
      putBalancer_balancers _ (balancer_index hb hkeeps)⟩
  case opens =>
    obtain ⟨hlt, hleast, hfirst⟩ := fewest_least s houts
    exact ⟨_, hlt, hleast, hfirst, exec_balancerDistribute_opens hb hhead hbc hcur (reorderFull_eq_false hfull)⟩
  case emits =>
    have hfrom := exec_mergeEmit_from hm (i := i) (hwhich.imp_right (Or.imp_left fun ⟨hcur, hpair, hi, hleast⟩ =>
      ⟨hcur, hpair, firstArrived_least hhead hbc hi hleast⟩))
    obtain ⟨hsent, hkeeps⟩ := s.movedTo p e hne.symm
    exact ⟨_, hfrom.trans (congrArg orNone (mergeFrom_emits hhead _ hbc hroom)), hsent, hkeeps.mem, hkeeps.th,
      putMerge_merges _ (merge_index hm hkeeps)⟩
  case ended =>
    have hfrom := exec_mergeEmit_from hm (i := i) (hwhich.imp_right Or.inr)
    exact ⟨_, hfrom.trans (congrArg orNone (mergeFrom_ended hhead _ hbc)), rfl, putMerge_merges _ (merge_index hm (.refl s))⟩
  case broadcast =>
    have hnext : (m.pair = none ∧ firstArrived s m = none) ∨ (m.pair ≠ none ∧ m.order.head? = some none) := by
      by_cases hpair : m.pair = none
      · exact Or.inl ⟨hpair, firstArrived_none hall⟩
      · exact Or.inr ⟨hpair, hwhich.resolve_left hpair⟩
    obtain ⟨heads, hemits⟩ := mergeBroadcast_emits s.ev.n hins hhead hroom hall
    have hkeeps := (s.dequeueAll_keepsUnits (m.ins.zip heads)).trans
      (State.enqueueAt_keepsUnits _ m.out e.word e.tag e.sync)
    have hothers : ∀ x ∈ m.ins.zip heads, m.out ≠ x.1 := fun x hx heq => hout (heq ▸ (List.of_mem_zip hx).1)
    exact ⟨_, (exec_mergeEmit_broadcast hm hcur hnext).trans (congrArg orNone hemits),
      (State.enqueueAt_sentTo _ m.out e).congr (s.chan?_dequeueAll_ne hothers) rfl, hkeeps.mem, hkeeps.th,
      putMerge_merges _ (merge_index hm hkeeps)⟩

end Sys2Proof.Machine
end

section
/-! O42: a packet by what its start leaves in its queue, in the queue's record and elsewhere, and by the error that ends it. -/

namespace Sys2Proof.Machine

/-! ### A queue changed (R235 to R237) -/

section
variable {s : State} {n : Nat} {f : SwQueue → SwQueue}

/-- A change that keeps a queue's number and does not free it is what a search finds changed. -/
theorem State.queue?_mapQueue (hf : ∀ q, q.num = n → q.st ≠ .freed → (f q).num = n ∧ (f q).st ≠ .freed) :
    (s.mapQueue n f).queue? n = (s.queue? n).map f := by
  have hsame : ((fun q : SwQueue => decide (q.num = n ∧ q.st ≠ .freed)) ∘ fun q => if q.num = n ∧ q.st ≠ .freed then f q else q)
      = fun q => decide (q.num = n ∧ q.st ≠ .freed) := by
    funext q
    by_cases h : q.num = n ∧ q.st ≠ .freed
    · rw [Function.comp_apply, if_pos h, decide_eq_true h, decide_eq_true (hf q h.1 h.2)]
    · rw [Function.comp_apply, if_neg h]
  rw [State.queue?, State.mapQueue, List.find?_map, hsame]
  cases hq : s.queue? n with
  | none =>
    rw [State.queue?] at hq
    rw [hq]
    rfl
  | some q =>
    have hlive := State.queue?_live hq
    rw [State.queue?] at hq
    rw [hq]
    exact congrArg some (if_pos hlive)

/-- The same for a change of the one queue that is found. -/
theorem State.queue?_mapQueue_some {q : SwQueue} (hq : s.queue? n = some q)
    (hf : ∀ q, q.num = n → q.st ≠ .freed → (f q).num = n ∧ (f q).st ≠ .freed) : (s.mapQueue n f).queue? n = some (f q) := by
  rw [State.queue?_mapQueue hf, hq]
  rfl

theorem State.mapQueue_mapQueue {g : SwQueue → SwQueue}
    (hf : ∀ q, q.num = n → q.st ≠ .freed → (f q).num = n ∧ (f q).st ≠ .freed) :
    (s.mapQueue n f).mapQueue n g = s.mapQueue n (fun q => g (f q)) := by
  have hqueues : (s.queues.map fun q => if q.num = n ∧ q.st ≠ .freed then f q else q).map
      (fun q => if q.num = n ∧ q.st ≠ .freed then g q else q)
      = s.queues.map (fun q => if q.num = n ∧ q.st ≠ .freed then g (f q) else q) := by
    rw [List.map_map]
    refine List.map_congr_left fun q _ => ?_
    by_cases h : q.num = n ∧ q.st ≠ .freed
    · simp only [Function.comp_apply, if_pos h]
      exact if_pos (hf q h.1 h.2)
    · simp only [Function.comp_apply, if_neg h]
  exact congrArg (fun l => { s with queues := l }) hqueues

end

/-! ### A timeline changed (R206, R232) -/

/-- Since when a queue waits for a slot once timeline `n` stands at `t` in cycle `now` (R237). -/
def SwQueue.wokenReady (now n : Nat) (t : Word) (q : SwQueue) : Option Nat :=
  match q.waits with
  | some (m, v) => if q.st = .parked ∧ m = n ∧ meets t v ∧ q.ready.isNone then some now else q.ready
  | none => q.ready

theorem SwQueue.wokenReady_unparked {q : SwQueue} (now n : Nat) (t : Word) (h : q.st ≠ .parked) :
    q.wokenReady now n t = q.ready := by
  unfold SwQueue.wokenReady
  split
  · exact if_neg (fun hall => h hall.1)
  · rfl

theorem wakeParked_ready (s : State) (n : Nat) (t : Word) :
    wakeParked s n t = { s with queues := s.queues.map (fun q => { q with ready := q.wokenReady s.cyc n t }) } := by
  refine congrArg (fun l => { s with queues := l }) (List.map_congr_left fun q _ => ?_)
  split
  case h_1 m v hwaits =>
    have hready : q.wokenReady s.cyc n t = if q.st = .parked ∧ m = n ∧ meets t v ∧ q.ready.isNone then some s.cyc else q.ready := by
      rw [SwQueue.wokenReady, hwaits]
    rw [hready]
    split <;> rfl
  case h_2 hwaits =>
    have hready : q.wokenReady s.cyc n t = q.ready := by rw [SwQueue.wokenReady, hwaits]
    rw [hready]

/-- A queue's timeline once `u` is added to timeline `n`. -/
def SwQueue.addedTo (n : Nat) (u : Word) (q : SwQueue) : Word := if q.num = n ∧ q.st ≠ .freed then q.timeline + u else q.timeline

/-- An add changes one timeline, and since when the queues wait whose WAIT it meets: those are parked. -/
theorem addTimeline_counts (s : State) (n : Nat) (u : Word) : ∃ ready : SwQueue → Option Nat,
    (∀ q, q.st ≠ .parked → ready q = q.ready)
      ∧ addTimeline s n u = { s with queues := s.queues.map (fun q => { q with timeline := q.addedTo n u, ready := ready q }) } := by
  have hadded (q : SwQueue) : (if q.num = n ∧ q.st ≠ .freed then { q with timeline := q.timeline + u } else q)
      = { q with timeline := q.addedTo n u } := by
    unfold SwQueue.addedTo
    split <;> rfl
  have hqueues : s.mapQueue n (fun q => { q with timeline := q.timeline + u })
      = { s with queues := s.queues.map (fun q => { q with timeline := q.addedTo n u }) } :=
    congrArg (fun l => { s with queues := l }) (List.map_congr_left fun q _ => hadded q)
  unfold addTimeline
  rw [hqueues]
  dsimp only
  split
  case h_2 => exact ⟨SwQueue.ready, fun _ _ => rfl, rfl⟩
  case h_1 t _ =>
    refine ⟨fun q => q.wokenReady s.cyc n t.timeline, fun q h => q.wokenReady_unparked _ _ _ h, ?_⟩
    rw [wakeParked_ready, List.map_map]
    rfl

/-- What a completion changes (R232): its queue's timeline counts one where its cinc says so. -/
theorem completePacket_counts (s : State) (n : Nat) (cinc : Bool) : ∃ ready : SwQueue → Option Nat,
    (∀ q, q.st ≠ .parked → ready q = q.ready) ∧ completePacket s n cinc = { s with queues := s.queues.map (fun q =>
      { q with timeline := q.addedTo n (if cinc then 1 else 0), ready := ready q }) } := by
  cases cinc with
  | true => exact addTimeline_counts s n 1
  | false =>
    refine ⟨SwQueue.ready, fun _ _ => rfl, ?_⟩
    have hsame : s.queues.map (fun q => { q with timeline := q.addedTo n 0, ready := q.ready }) = s.queues := by
      refine List.map_id'' (fun q => ?_) _
      unfold SwQueue.addedTo
      split
      · exact congrArg (fun w => { q with timeline := w }) (BitVec.add_zero q.timeline)
      · rfl
    exact (congrArg (fun l => { s with queues := l }) hsame).symm

/-- A queue that is not parked, once one of its packets has completed. -/
theorem completePacket_queue? {s : State} {n : Nat} {q : SwQueue} (cinc : Bool) (hq : s.queue? n = some q) (hst : q.st ≠ .parked) :
    (completePacket s n cinc).queue? n = some { q with timeline := q.timeline + (if cinc then 1 else 0) } := by
  obtain ⟨ready, hready, heq⟩ := completePacket_counts s n cinc
  rw [State.queue?_updated (f := fun q => { q with timeline := q.addedTo n (if cinc then 1 else 0), ready := ready q })
    (fun _ => ⟨rfl, rfl⟩) (congrArg State.queues heq), hq, Option.map_some, SwQueue.addedTo, if_pos (State.queue?_live hq),
    hready q hst]

theorem completePacket_stands (s : State) (n : Nat) (cinc : Bool) : (completePacket s n cinc).mem = s.mem
    ∧ (completePacket s n cinc).th = s.th ∧ (completePacket s n cinc).copies = s.copies
    ∧ (completePacket s n cinc).chans = s.chans := by
  obtain ⟨ready, -, heq⟩ := completePacket_counts s n cinc
  rw [heq]
  exact ⟨rfl, rfl, rfl, rfl⟩

/-! ### A packet that starts (R231, R237) -/

theorem Mem.num_write (m : List Host.Cell) (a n v : Nat) : Mem.num (Mem.write m a (leBytes n v)) a n = v % 256 ^ n := by
  have hbytes := Mem.bytes_write m a 0 n (leBytes n v) (by rw [leBytes_length, Nat.zero_add])
  rw [Nat.add_zero, List.drop_zero, List.take_of_length_le (leBytes_length n v).le] at hbytes
  rw [Mem.num, hbytes, leNat_leBytes]

theorem Mem.num_write_ne (m : List Host.Cell) {a b n : Nat} {bs : List Byte} (h : b + n ≤ a ∨ a + bs.length ≤ b) :
    Mem.num (Mem.write m a bs) b n = Mem.num m b n := by
  rw [Mem.num, Mem.num, Mem.bytes_write_ne m a b n bs h]

/-- The start of a queue's next packet: the queue's read index has advanced in a queue that stands at the same one. -/
theorem startPacket_queue? {s : State} {q y : SwQueue} (hy : s.queue? q.num = some y) (hrd : y.rd = q.rd) :
    (startPacket s q).queue? q.num = some y.startedOne := by
  have hstarted : y.startedOne = { y with
      rd := (q.rd + 1) % 2 ^ 32, slot := if y.wr = (q.rd + 1) % 2 ^ 32 then none else y.slot } := by
    rw [SwQueue.startedOne, hrd]
  rw [hstarted]
  exact State.queue?_mapQueue_some (s := s.putRecord q 0x10 _) hy (fun _ hnum hst => ⟨hnum, hst⟩)

theorem hostCell_add (a n : Nat) : hostCell (a + n) = hostCell a + n := (Nat.add_assoc _ _ _).symm

/-- `z` is `x` with a packet of queue `q` started and completed: the read index has advanced, in the queue and in its record,
and the timeline counts the packet's cinc. -/
def StartedOnce (q : SwQueue) (cinc : Bool) (x z : State) : Prop :=
  z.queue? q.num = (x.queue? q.num).map (fun y => { y.startedOne with timeline := y.timeline + (if cinc then 1 else 0) })
    ∧ Mem.num z.mem (hostCell (q.recAddr + 0x10)) 4 = (q.rd + 1) % 2 ^ 32
    ∧ (∀ a, a < hostCell (q.recAddr + 0x10) ∨ hostCell (q.recAddr + 0x14) ≤ a → Mem.byte z.mem a = Mem.byte x.mem a)
    ∧ z.th = x.th ∧ z.copies = x.copies

theorem oncePacket_startedOnce {s : State} {q y : SwQueue} (b : List Byte) (hy : s.queue? q.num = some y) (hrd : y.rd = q.rd)
    (hst : y.st = .running) : StartedOnce q (packetCinc b) s (oncePacket s q b) := by
  have hstarted := startPacket_queue? hy hrd
  have hunparked : y.startedOne.st ≠ .parked := by
    rw [show y.startedOne.st = .running from hst]
    exact QState.noConfusion
  obtain ⟨hmem, hth, hcopies, -⟩ := completePacket_stands (startPacket s q) q.num (packetCinc b)
  have hwritten : (startPacket s q).mem = Mem.write s.mem (hostCell (q.recAddr + 0x10)) (leBytes 4 ((q.rd + 1) % 2 ^ 32)) := rfl
  refine ⟨?_, ?_, fun a ha => ?_, hth, hcopies⟩
  · rw [hy]
    exact completePacket_queue? _ hstarted hunparked
  · rw [oncePacket, hmem, hwritten, Mem.num_write]
    exact Nat.mod_mod _ _
  · rw [oncePacket, hmem, hwritten, Mem.byte_write_ne (ha.imp_right fun h => ?_)]
    rwa [leBytes_length, ← hostCell_add, Nat.add_assoc]

/-! ### A packet that its event finds (R232, R236) -/

section
variable {op : Nat} {s : State} {q : SwQueue} {b : List Byte}

theorem headOf_eq_some (h : headOf s op = some (q, b)) :
    s.queue? q.num = some q ∧ q.st = .running ∧ packetOp b = op := by
  rw [headOf] at h
  obtain ⟨x, hx, hif⟩ := Option.bind_eq_some_iff.mp h
  dsimp only at hif
  split at hif
  case isFalse => cases hif
  case isTrue hcond =>
    obtain ⟨rfl, rfl⟩ := Prod.mk.inj (Option.some.inj hif)
    obtain ⟨hmay, hop, -⟩ := hcond
    refine ⟨(State.queue?_live hx).1.symm ▸ hx, ?_, hop⟩
    simp only [mayStart, Bool.and_eq_true, beq_iff_eq] at hmay
    obtain ⟨⟨⟨⟨hst, -⟩, -⟩, -⟩, -⟩ := hmay
    exact hst

theorem starts_running {fmt : Bool} (h : Starts op s q b fmt) : q.st = .running := by
  obtain ⟨hhead, -⟩ := h
  obtain ⟨-, hst, -⟩ := headOf_eq_some hhead
  exact hst

theorem starts_op {fmt : Bool} (h : Starts op s q b fmt) : packetOp b = op := by
  obtain ⟨hhead, -⟩ := h
  obtain ⟨-, -, hop⟩ := headOf_eq_some hhead
  exact hop

/-- A packet whose header or body has a reserved bit set is a queue error (R232, R235). -/
theorem packet_malformed {fmt : List Byte → Bool} {act : SwQueue → List Byte → State → Option State}
    (h : headOf s op = some (q, b)) (hbad : headerOk b = false ∨ fmt b = false) :
    packet op fmt act s = .next (failQueue s q q.rd (packetTag b) 1) := by
  have hcond : (!headerOk b) = true ∨ (!fmt b) = true := by
    simpa only [Bool.not_eq_true'] using hbad
  rw [packet, h]
  exact congrArg orNone (if_pos hcond)

end

/-! ### SIGNAL (R206, R236) -/

/-- An add to a timeline leaves what a packet's start reads of another queue, or of the same one. -/
theorem addTimeline_running {s : State} {q : SwQueue} {m : Nat} (hq : s.queue? m = some q) (n : Nat) (u : Word) :
    ∃ y, (addTimeline s n u).queue? m = some y ∧ y.rd = q.rd ∧ y.st = q.st := by
  obtain ⟨ready, -, heq⟩ := addTimeline_counts s n u
  refine ⟨_, (State.queue?_updated (f := fun q => { q with timeline := q.addedTo n u, ready := ready q })
    (fun _ => ⟨rfl, rfl⟩) (congrArg State.queues heq) m).trans (congrArg _ hq), rfl, rfl⟩

/-! ### COPY (R234) -/

theorem launchPacket_queue? {s : State} {q y : SwQueue} (b : List Byte) (f : Started → Started) (hy : s.queue? q.num = some y)
    (hrd : y.rd = q.rd) : (launchPacket s q b f).queue? q.num = some { y.startedOne with
      started := y.started ++ [f { idx := q.rd, op := packetOp b, tag := packetTag b, cinc := packetCinc b }] } :=
  State.queue?_mapQueue_some (startPacket_queue? hy hrd) (fun _ hnum hst => ⟨hnum, hst⟩)

section
variable {s : State} {q : SwQueue} {b : List Byte} (h : Starts 5 s q b (zeros b 40 24 && copyCtlOk (dwordAt b 32)))
include h

/-- A COPY of mode 0, and one of mode 1 on whole words, puts a copy in a command slot and starts. -/
theorem exec_copy_starts {key : SlotKey} (hslot : freeCommandSlot s = some key)
    (hmode : fld (dwordAt b 32) 1 0 = 0 ∨ (fld (dwordAt b 32) 1 0 = 1 ∧ numAt b 24 8 % 4 = 0 ∧ fld (dwordAt b 8) 1 0 = 0
      ∧ fld (dwordAt b 16) 1 0 = 0)) : exec .copy s = .next (launchPacket { s.drawn with copies := s.copies ++ [
        { key, ctx := q.ctx, pc := 0, trig := 0, kind := fld (dwordAt b 32) 1 0, src := dwordAt b 8, dst := dwordAt b 16
          shape := 0, pitch := 0, ctl := 0, due := s.landing 1, cmd := some (q.num, q.rd), len := numAt b 24 8 }] } q b id) := by
  have hsum : ¬ fld (dwordAt b 32) 1 0 = 2 := by omega
  have hlen : ¬ (fld (dwordAt b 32) 1 0 = 1 ∧ numAt b 24 8 % 4 ≠ 0) := by omega
  have hplace : ¬ (fld (dwordAt b 32) 1 0 = 1 ∧ (fld (dwordAt b 8) 1 0 ≠ 0 ∨ fld (dwordAt b 16) 1 0 ≠ 0)) := by omega
  change execCopy s = _
  rw [execCopy, packet_starts (fmt := fun b => zeros b 40 24 && copyCtlOk (dwordAt b 32)) h]
  dsimp only
  rw [if_neg hsum, if_neg hlen, if_neg hplace, hslot]
  rfl

/-- One of mode 2 takes the next number of its set's sums (log entry 3). -/
theorem exec_copy_sum {key : SlotKey} {x : CollSet} (hslot : freeCommandSlot s = some key) (hmode : fld (dwordAt b 32) 1 0 = 2)
    (hset : s.sets.find? (fun x => x.ctx = q.ctx ∧ x.num = fld (dwordAt b 32) 31 16) = some x)
    (hlen : numAt b 24 8 % sumSize (fld (dwordAt b 32) 5 4) = 0) : exec .copy s = .next (launchPacket
      { s with sets := s.sets.map (fun y => if y = x then { y with sums := y.sums + 1 } else y) } q b
      (fun p => { p with sum := some ⟨key, fld (dwordAt b 32) 31 16, fld (dwordAt b 32) 9 8, fld (dwordAt b 32) 5 4, dwordAt b 8,
        dwordAt b 16, numAt b 24 8, x.sums⟩ })) := by
  change execCopy s = _
  rw [execCopy, packet_starts (fmt := fun b => zeros b 40 24 && copyCtlOk (dwordAt b 32)) h]
  dsimp only
  rw [if_pos hmode, hset]
  dsimp only
  rw [if_neg (not_not.mpr hlen), hslot]
  rfl

theorem exec_copy_noSet (hmode : fld (dwordAt b 32) 1 0 = 2)
    (hset : ∀ x ∈ s.sets, ¬(x.ctx = q.ctx ∧ x.num = fld (dwordAt b 32) 31 16)) :
    exec .copy s = .next (failQueue s q q.rd (packetTag b) 1) := by
  have hnone : s.sets.find? (fun x => x.ctx = q.ctx ∧ x.num = fld (dwordAt b 32) 31 16) = none :=
    List.find?_eq_none.mpr fun x hx htrue => hset x hx (of_decide_eq_true htrue)
  change execCopy s = _
  rw [execCopy, packet_starts (fmt := fun b => zeros b 40 24 && copyCtlOk (dwordAt b 32)) h]
  dsimp only
  rw [if_pos hmode, hnone]
  rfl

theorem exec_copy_length (hmode : fld (dwordAt b 32) 1 0 = 1) (hlen : numAt b 24 8 % 4 ≠ 0) :
    exec .copy s = .next (failQueue s q q.rd (packetTag b) 7) := by
  change execCopy s = _
  rw [execCopy, packet_starts (fmt := fun b => zeros b 40 24 && copyCtlOk (dwordAt b 32)) h]
  dsimp only
  rw [if_neg (by omega), if_pos ⟨hmode, hlen⟩]
  rfl

theorem exec_copy_misaligned (hmode : fld (dwordAt b 32) 1 0 = 1) (hlen : numAt b 24 8 % 4 = 0)
    (hplace : fld (dwordAt b 8) 1 0 ≠ 0 ∨ fld (dwordAt b 16) 1 0 ≠ 0) :
    exec .copy s = .next (failQueue s q q.rd (packetTag b) 6) := by
  change execCopy s = _
  rw [execCopy, packet_starts (fmt := fun b => zeros b 40 24 && copyCtlOk (dwordAt b 32)) h]
  dsimp only
  rw [if_neg (by omega), if_neg (by omega), if_pos ⟨hmode, hplace⟩]
  rfl

end

/-! ### WAIT and SIGNAL (R206, R236, R237) -/

section
variable {s : State} {q : SwQueue} {b : List Byte}

theorem exec_wait {t : SwQueue} (h : Starts 3 s q b (zeros b 24 40 && zeros b 10 6))
    (ht : handleQueue s q.ctx (BitVec.ofNat 64 (numAt b 8 8)) = some t) : exec .wait s =
      .next (if meets t.timeline (BitVec.ofNat 64 (numAt b 16 8)) then oncePacket s q b
        else s.mapQueue q.num (fun q =>
          { q with st := .parked, slot := none, waits := some (t.num, BitVec.ofNat 64 (numAt b 16 8)) })) := by
  change execWait s = _
  rw [execWait, packet_starts (fmt := fun b => zeros b 24 40 && zeros b 10 6) h]
  dsimp only
  rw [ht]
  dsimp only
  split <;> rfl

theorem exec_wait_unnamed (h : Starts 3 s q b (zeros b 24 40 && zeros b 10 6))
    (ht : handleQueue s q.ctx (BitVec.ofNat 64 (numAt b 8 8)) = none) :
    exec .wait s = .next (failQueue s q q.rd (packetTag b) 2) := by
  change execWait s = _
  rw [execWait, packet_starts (fmt := fun b => zeros b 24 40 && zeros b 10 6) h]
  dsimp only
  rw [ht]
  rfl

variable (h : Starts 4 s q b (zeros b 24 40 && zeros b 10 6)) (hempty : q.started = [])
include h hempty

theorem exec_signal {t : SwQueue} (ht : handleQueue s q.ctx (BitVec.ofNat 64 (numAt b 8 8)) = some t) : exec .signal s =
    .next (if 2 ^ 63 ≤ (BitVec.ofNat 64 (numAt b 16 8)).toNat then failQueue s q q.rd (packetTag b) 2
      else oncePacket (addTimeline s t.num (BitVec.ofNat 64 (numAt b 16 8))) q b) := by
  change execSignal s = _
  rw [execSignal, packet_starts (fmt := fun b => zeros b 24 40 && zeros b 10 6) h]
  dsimp only
  rw [if_neg (by rw [hempty]; exact Bool.false_ne_true), ht]
  dsimp only
  split <;> rfl

theorem exec_signal_unnamed (ht : handleQueue s q.ctx (BitVec.ofNat 64 (numAt b 8 8)) = none) :
    exec .signal s = .next (failQueue s q q.rd (packetTag b) 2) := by
  change execSignal s = _
  rw [execSignal, packet_starts (fmt := fun b => zeros b 24 40 && zeros b 10 6) h]
  dsimp only
  rw [hempty, ht]
  rfl

end

theorem plainPackets : Rules.PlainPackets := by
  intro s q b h v once hq
  refine ⟨fun hs => ?nop, fun hs hempty => ?barrier, fun hs hempty t ht hv => ?signal, fun hs t ht => ?wait,
    fun hs key hslot hmode => ?copy, fun hs key hslot => ?sum⟩
  case nop =>
    have hexec : exec .nopCommand s = orNone (some (oncePacket s q b)) :=
      packet_starts (fmt := fun b => zeros b 8 56) (act := fun q b s => some (oncePacket s q b)) hs
    exact ⟨_, hexec, oncePacket_startedOnce b hq rfl (starts_running hs)⟩
  case barrier =>
    have hexec : exec .barrier s = orNone (if q.started.isEmpty then some (oncePacket s q b) else none) :=
      packet_starts (fmt := fun b => zeros b 8 56)
        (act := fun q b s => if q.started.isEmpty then some (oncePacket s q b) else none) hs
    refine ⟨_, hexec.trans (congrArg orNone (if_pos ?_)), oncePacket_startedOnce b hq rfl (starts_running hs)⟩
    rw [hempty]
    rfl
  case signal =>
    obtain ⟨htq, -⟩ := handleQueue_eq_some_iff.mp ht
    obtain ⟨y, hy, hrd, hst⟩ := addTimeline_running hq t.num v
    refine ⟨_, (exec_signal hs hempty ht).trans (congrArg _ (if_neg (Nat.not_le.mpr hv))),
      oncePacket_startedOnce b hy hrd (hst.trans (starts_running hs)), addTimeline_queue? ?_ v⟩
    exact (State.queue?_live htq).1.symm ▸ htq
  case wait =>
    rw [exec_wait hs ht]
    refine ⟨fun hmet => ?_, fun hunmet => ?_⟩
    · exact ⟨_, congrArg _ (if_pos hmet), oncePacket_startedOnce b hq rfl (starts_running hs)⟩
    · exact congrArg _ (if_neg (Bool.eq_false_iff.mp hunmet))
  case copy =>
    refine ⟨_, _, exec_copy_starts hs hslot hmode, rfl, rfl, rfl, rfl, rfl, rfl, rfl, rfl, rfl, rfl, ?_⟩
    refine (launchPacket_queue? (y := q) b id hq rfl).trans ?_
    rw [starts_op hs]
    rfl
  case sum =>
    intro ctl x hmode hset hlen
    exact exec_copy_sum hs hslot hmode hset hlen

/-! ### Packets that end their queue in error (R235) -/

/-- A number of `n` bytes. -/
theorem leNat_lt (bs : List Byte) : leNat bs < 256 ^ bs.length := by
  induction bs with
  | nil => exact Nat.one_pos
  | cons x bs ih =>
    have hx := x.isLt
    rw [leNat, List.length_cons, Nat.pow_succ]
    omega

theorem numAt_lt (b : List Byte) (off n : Nat) : numAt b off n < 256 ^ n :=
  (leNat_lt _).trans_le (Nat.pow_le_pow_right (by decide) (List.length_take_le ..))

/-- Every packet is performed by an act of its own, once its header and its body are valid. -/
theorem packetRows_act : ∀ r ∈ packetRows, ∃ act, ∀ s, exec r.1 s = packet r.2.1 r.2.2 act s := by
  simp only [packetRows, List.forall_mem_cons]
  exact ⟨⟨_, execNopCommand.eq_1⟩, ⟨_, execLaunchPipeline.eq_1⟩, ⟨_, execLaunchTask.eq_1⟩, ⟨_, execWait.eq_1⟩,
    ⟨_, execSignal.eq_1⟩, ⟨_, execCopy.eq_1⟩, ⟨_, execBarrier.eq_1⟩, ⟨_, execCheckpoint.eq_1⟩,
    fun r hr => absurd hr List.not_mem_nil⟩

/-- A record that no die takes, that lies elsewhere than in HBM, that has a join, or that fails a check, goes to no die
(R220, R233). -/
theorem taskDie_eq_none {s : State} {c : Ctx} {rec_ : Word}
    (h : (∀ d < 8, dieAllowed (recDies s c.num rec_) d = false ∨ c.onDie d = false)
      ∨ (∀ l, translate s ⟨c.num, false, none, false⟩ rec_ .load = .ok l → l.space ≠ .hbm) ∨ recJoin s c.num rec_ ≠ 0
      ∨ fld (recControl s c.num rec_) 63 48 ≠ c.num ∨ ∀ d, recordOk s c.num rec_ d = false) : taskDie s c rec_ = none := by
  refine Option.bind_eq_none_iff.mpr fun die hdie => if_neg ?_
  rintro ⟨hhbm, hjoin, hctx, hok⟩
  rcases h with hdies | hspace | hjoin' | hctx' | hok'
  case inl =>
    have hallowed := List.find?_some hdie
    rw [Bool.and_eq_true] at hallowed
    rcases hdies die (List.mem_range.mp (List.mem_of_find?_eq_some hdie)) with hno | hno
    · exact Bool.false_ne_true (hno.symm.trans hallowed.1)
    · exact Bool.false_ne_true (hno.symm.trans hallowed.2)
  case inr.inl =>
    cases htr : translate s ⟨c.num, false, none, false⟩ rec_ .load with
    | error k =>
      rw [htr] at hhbm
      exact Bool.false_ne_true hhbm
    | ok l =>
      rw [htr] at hhbm
      have hplace : l.space = .hbm := by
        dsimp only at hhbm
        split at hhbm
        · assumption
        · cases hhbm
      exact hspace l htr hplace
  case inr.inr.inl => exact hjoin' hjoin
  case inr.inr.inr.inl => exact hctx' hctx
  case inr.inr.inr.inr => exact Bool.false_ne_true ((hok' die).symm.trans hok)

section
variable {s : State} {q : SwQueue} {b : List Byte} {c : Ctx}

theorem exec_launchTask_rejected (h : Starts 2 s q b (zeros b 16 48 && numAt b 8 8 % 64 == 0)) (hc : s.ctx? q.ctx = some c)
    (hused : c.hostUsed.length < c.hostMax) (hdie : taskDie s c (BitVec.ofNat 64 (numAt b 8 8)) = none) :
    exec .launchTask s =
      .next (failQueue (recSetStatus s c.num (BitVec.ofNat 64 (numAt b 8 8)) 5) q q.rd (packetTag b) 4) := by
  change execLaunchTask s = _
  rw [execLaunchTask, packet_starts (fmt := fun b => zeros b 16 48 && numAt b 8 8 % 64 == 0) h, hc]
  simp only [Option.bind_eq_bind, Option.bind_some]
  rw [if_neg (Nat.not_le.mpr hused), hdie]
  rfl

theorem exec_launchPipeline_rejected (h : Starts 1 s q b (zeros b 32 32)) (hc : s.ctx? q.ctx = some c)
    (hbad : loadImage s c.num (dwordAt b 8) = none
      ∨ ∃ i, loadImage s c.num (dwordAt b 8) = some i ∧ imageAllowed s c i = false) :
    exec .launchPipeline s = .next (failQueue s q q.rd (packetTag b) 3) := by
  change execLaunchPipeline s = _
  rw [execLaunchPipeline, packet_starts (fmt := fun b => zeros b 32 32) h, hc]
  simp only [Option.bind_eq_bind, Option.bind_some]
  rcases hbad with hnone | ⟨i, hi, hbad⟩
  · rw [hnone]
    rfl
  · rw [hi]
    dsimp only
    rw [hbad]
    rfl

theorem exec_checkpoint_unmarked (h : Starts 7 s q b (zeros b 24 40)) (hunmarked : q.ckpt = false) :
    exec .checkpoint s = .next (failQueue s q q.rd (packetTag b) 1) := by
  change execCheckpoint s = _
  rw [execCheckpoint, packet_starts (fmt := fun b => zeros b 24 40) h]
  dsimp only
  rw [hunmarked]
  rfl

theorem exec_reservedOpPacket (hq : s.queue? s.ev.n = some q) (hmay : mayStart s q = true) (hop : 8 ≤ packetOp (headPacket s q))
    (hckpt : ckptStops s = false) :
    exec .reservedOpPacket s = .next (failQueue s q q.rd (packetTag (headPacket s q)) 1) := by
  change orNone ((s.queue? s.ev.n).bind _) = _
  rw [hq, Option.bind_some]
  exact congrArg orNone (if_pos ⟨hmay, hop, Bool.eq_false_iff.mp hckpt⟩)

end

/-- What the error state is for a queue. -/
def SwQueue.failed (idx : Nat) (q : SwQueue) : SwQueue :=
  { q with st := if q.st = .draining then .draining else .error, rd := idx, slot := none, ready := none, waits := none }

theorem SwQueue.failed_live (idx : Nat) (q : SwQueue) : (q.failed idx).st ≠ .freed := by
  unfold SwQueue.failed
  dsimp only
  split <;> exact QState.noConfusion

section
variable (s : State) (q : SwQueue) (idx : Nat) (tag : W32) (cause : Nat)

theorem failQueue_queue? {y : SwQueue} (hy : s.queue? q.num = some y) :
    (failQueue s q idx tag cause).queue? q.num = some (y.failed idx) :=
  State.queue?_mapQueue_some (s := (s.putRecord q 0x18 _).putRecord q 0x10 _) hy
    (fun x hnum _ => ⟨hnum, x.failed_live idx⟩)

theorem failQueue_mem : (failQueue s q idx tag cause).mem = Mem.write (Mem.write s.mem (hostCell (q.recAddr + 0x18))
    (leBytes 8 (tag.toNat * 2 ^ 32 + cause))) (hostCell (q.recAddr + 0x10)) (leBytes 4 idx) := rfl

/-- R235: the record of a queue in error holds the read index and the error word, and no byte outside them changes. -/
theorem failQueue_record (hidx : idx < 2 ^ 32) (hcause : cause < 2 ^ 32) :
    let z := failQueue s q idx tag cause
    Mem.num z.mem (hostCell (q.recAddr + 0x10)) 4 = idx
      ∧ Mem.num z.mem (hostCell (q.recAddr + 0x18)) 8 = tag.toNat * 2 ^ 32 + cause
      ∧ ∀ a, a < hostCell (q.recAddr + 0x10) ∨ hostCell (q.recAddr + 0x20) ≤ a → Mem.byte z.mem a = Mem.byte s.mem a := by
  simp only [failQueue_mem, hostCell_add]
  refine ⟨?_, ?_, fun a ha => ?_⟩
  · rw [Mem.num_write]
    exact Nat.mod_eq_of_lt hidx
  · have htag := tag.isLt
    rw [Mem.num_write_ne _ (Or.inr (by rw [leBytes_length]; omega)), Mem.num_write]
    exact Nat.mod_eq_of_lt (by omega)
  · rw [Mem.byte_write_ne (by rw [leBytes_length]; omega), Mem.byte_write_ne (by rw [leBytes_length]; omega)]

end

theorem packetErrors : Rules.PacketErrors := by
  refine ⟨fun r hr s q b h hbad => ?malformed, fun s q b => ⟨exec_wait_unnamed, fun h hempty hbad => ?signal,
    fun h c hc hused => exec_launchTask_rejected h hc hused ∘ taskDie_eq_none, fun h => ?copy,
    fun h c hc hbad => exec_launchPipeline_rejected h hc hbad, exec_checkpoint_unmarked⟩,
    fun s q hq hmay hop hckpt => exec_reservedOpPacket hq hmay hop hckpt, fun s q idx tag cause hq hidx hcause => ?failed⟩
  case malformed =>
    obtain ⟨act, hact⟩ := packetRows_act r hr
    exact (hact s).trans (packet_malformed h hbad)
  case signal =>
    cases ht : handleQueue s q.ctx (BitVec.ofNat 64 (numAt b 8 8)) with
    | none => exact exec_signal_unnamed h hempty ht
    | some t =>
      have hbig : 2 ^ 63 ≤ numAt b 16 8 := hbad.resolve_left (fun hnone => absurd (ht.symm.trans hnone) (Option.some_ne_none t))
      have hword : (BitVec.ofNat 64 (numAt b 16 8)).toNat = numAt b 16 8 := Nat.mod_eq_of_lt (numAt_lt b 16 8)
      rw [exec_signal h hempty ht, hword, if_pos hbig]
  case copy =>
    intro ctl
    exact ⟨fun hmode hset => exec_copy_noSet h hmode hset, fun hmode hlen => exec_copy_length h hmode hlen,
      fun hmode hlen hplace => exec_copy_misaligned h hmode hlen hplace⟩
  case failed =>
    obtain ⟨hrd, hword, hbytes⟩ := failQueue_record s q idx tag cause hidx hcause
    exact ⟨failQueue_queue? s q idx tag cause hq, hrd, hword, hbytes, rfl⟩

/-- Settles O42: packets that start by their op, and queue errors by what breaks a rule. -/
theorem packetsStart : Obligations.PacketsStart := ⟨plainPackets, packetErrors⟩

end Sys2Proof.Machine
end

section
/-! O44: a queue's doorbell, slot, completion and end by what each leaves in the queue. -/

namespace Sys2Proof.Machine

/-! ### Doorbells (R326) -/

section
variable {s : State} {q : SwQueue}

theorem exec_doorbell_ignored (h : s.ev.n ≠ 8 ∨ fld s.ev.w 31 16 ≠ 0 ∨ s.queue? (fld s.ev.w 15 0) = none) :
    exec .doorbell s = .next s := by
  change execDoorbell s = _
  rw [execDoorbell]
  dsimp only
  by_cases hform : s.ev.n ≠ 8 ∨ fld s.ev.w 31 16 ≠ 0
  · rw [if_pos hform]
  · have hnone : s.queue? (fld s.ev.w 15 0) = none := (or_assoc.mpr h).resolve_left hform
    rw [if_neg hform, hnone]

/-- The write index that a doorbell of the right form gives a queue decides what it does. -/
theorem exec_doorbell (hn : s.ev.n = 8) (hzero : fld s.ev.w 31 16 = 0) (hq : s.queue? (fld s.ev.w 15 0) = some q)
    (hst : q.st ≠ .draining) : exec .doorbell s = .next (
      if fld s.ev.w 63 32 = q.rd then s.mapQueue q.num (fun q => { q with wr := fld s.ev.w 63 32 }.outOfPackets)
      else if (fld s.ev.w 63 32 + 2 ^ 32 - q.rd) % 2 ^ 32 ≤ 2 ^ q.log2 then
        s.mapQueue q.num (fun q => { q with wr := fld s.ev.w 63 32 }.ask s.cyc)
      else if q.st = .error then s else failQueue s q q.rd 0 1) := by
  change execDoorbell s = _
  rw [execDoorbell]
  dsimp only
  rw [if_neg (by simp [hn, hzero]), hq]
  exact congrArg _ (if_neg hst)

/-- A queue that asks for a slot keeps all but the time since when it waits. -/
theorem SwQueue.ask_eq (q : SwQueue) (now : Nat) : ∃ ready, q.ask now = { q with ready }
    ∧ (q.st = .running → q.wr ≠ q.rd → q.slot = none → ready ≠ none) := by
  unfold SwQueue.ask
  split
  case isTrue => exact ⟨_, rfl, fun _ _ _ => Option.some_ne_none now⟩
  case isFalse hnot =>
    refine ⟨q.ready, rfl, fun hst hne hslot hready => hnot ⟨hst, bne_iff_ne.mpr hne, ?_, ?_⟩⟩
    · rw [hslot]
      rfl
    · rw [hready]
      rfl

/-! ### Slots (R237) -/

theorem exec_queueMap (hnext : nextMapped s = some q) (hn : q.num = s.ev.n) (hslots : slotsUsed s < 64) :
    exec .queueMap s = .next (
      let s1 := s.mapQueue q.num (fun q => { q with ready := none, slot := some s.cyc })
      if q.st = .parked then completePacket (startPacket (s1.mapQueue q.num (fun q => { q with st := .running, waits := none })) q)
        q.num (decide (Mem.byte s.mem (hostCell (q.base + 64 * (q.rd % 2 ^ q.log2) + 1)) &&& 1 = 1))
      else s1) := by
  change execQueueMap s = _
  rw [execQueueMap, hnext]
  simp only [Option.bind_eq_bind, Option.bind_some]
  rw [if_neg (by omega)]
  split <;> rfl

/-- The cinc bit of a packet is bit 0 of its byte 1 (R232). -/
theorem headPacket_cinc (s : State) (q : SwQueue) :
    decide (Mem.byte s.mem (hostCell (q.base + 64 * (q.rd % 2 ^ q.log2) + 1)) &&& 1 = 1)
      = ((headPacket s q).getD 1 0).getLsbD 0 := by
  have hbyte : (headPacket s q).getD 1 0 = Mem.byte s.mem (hostCell (q.base + 64 * (q.rd % 2 ^ q.log2)) + 1) :=
    Mem.bytes_getD _ _ (by decide)
  rw [hbyte, hostCell_add]
  generalize Mem.byte s.mem (hostCell (q.base + 64 * (q.rd % 2 ^ q.log2)) + 1) = x
  revert x
  decide

end

/-! ### Packets that are over (R232, R235, R236) -/

theorem completePacket_live {s : State} {n : Nat} {q : SwQueue} (cinc : Bool) (hq : s.queue? n = some q) :
    ∃ y, (completePacket s n cinc).queue? n = some y ∧ y.started = q.started
      ∧ y.timeline = q.timeline + (if cinc then 1 else 0) := by
  obtain ⟨ready, -, heq⟩ := completePacket_counts s n cinc
  refine ⟨_, (State.queue?_updated (f := fun q => { q with timeline := q.addedTo n (if cinc then 1 else 0), ready := ready q })
    (fun _ => ⟨rfl, rfl⟩) (congrArg State.queues heq) n).trans (congrArg _ hq), rfl, ?_⟩
  exact if_pos (State.queue?_live hq)

/-- Channels that lie in no memory leave memory as it is when they go. -/
theorem leaveHomes_none {l : List Chan} (h : ∀ c ∈ l, c.home = none) (s : State) : l.foldl State.leaveHome s = s := by
  induction l generalizing s with
  | nil => rfl
  | cons c l ih =>
    have hleave : s.leaveHome c = s := by rw [State.leaveHome, h c List.mem_cons_self]
    rw [List.foldl_cons, hleave]
    exact ih (fun x hx => h x (List.mem_cons_of_mem _ hx)) s

theorem State.dropChans_none {s : State} {p : Chan → Bool} (h : ∀ c ∈ s.chans, p c = true → c.home = none) :
    (s.dropChans p).mem = s.mem ∧ (s.dropChans p).th = s.th ∧ (s.dropChans p).queues = s.queues
      ∧ ∀ c ∈ (s.dropChans p).chans, p c = false := by
  have hleave : (s.chans.filter p).foldl State.leaveHome s = s :=
    leaveHomes_none (fun c hc => h c (List.mem_filter.mp hc).1 (List.mem_filter.mp hc).2) s
  refine ⟨(congrArg State.mem hleave :), (congrArg State.th hleave :), (congrArg State.queues hleave :), fun c hc => ?_⟩
  exact Bool.not_eq_true' _ ▸ (List.mem_filter.mp hc).2

/-- The queue without a packet that is over. -/
def SwQueue.without (idx : Nat) (q : SwQueue) : SwQueue := { q with started := q.started.filter (fun y => y.idx ≠ idx) }

section
variable {s : State} {q : SwQueue} {p : Started} (hq : s.queue? s.ev.n = some q)
  (hp : q.started.find? (fun p => p.idx = s.ev.m) = some p) (hop : p.op ≠ 7)
include hq hp hop

theorem exec_packetComplete_finished (hsum : p.sum = none) (hfail : p.fail = none) (hfin : p.finished = true) :
    exec .packetComplete s = .next ((completePacket (if p.op = 1 then s.dropChans (fun c => c.pipe == (q.num, p.idx)) else s)
      q.num p.cinc).mapQueue q.num (SwQueue.without p.idx)) := by
  rw [exec_packetComplete hq hp, if_neg hop, finishPacket, hsum, hfail]
  dsimp only
  rw [if_neg (by rw [hfin]; exact Bool.false_ne_true)]
  rfl

theorem exec_packetComplete_failed {c : Nat} (hfail : p.fail = some c) :
    exec .packetComplete s = .next ((failQueue s q p.idx p.tag c).mapQueue q.num (SwQueue.without p.idx)) := by
  rw [exec_packetComplete hq hp, if_neg hop, finishPacket, hfail]
  rfl

end

/-! ### A freed queue (R238) -/

/-- No queue of number `n` is left that is not freed. -/
def State.queueGone (s : State) (n : Nat) : Prop := ∀ x ∈ s.queues, x.num = n → x.st = .freed

theorem State.queueGone_queue? {s : State} {n : Nat} (h : s.queueGone n) : s.queue? n = none :=
  List.find?_eq_none.mpr fun x hx htrue => (of_decide_eq_true htrue).2 (h x hx (of_decide_eq_true htrue).1)

theorem State.queueGone_freed (s : State) (n : Nat) {f : SwQueue → SwQueue} (hf : ∀ q, (f q).st = .freed) :
    (s.mapQueue n f).queueGone n := by
  intro x hx hnum
  obtain ⟨y, -, rfl⟩ := List.mem_map.mp hx
  split at hnum
  case isTrue hlive =>
    rw [if_pos hlive]
    exact hf y
  case isFalse hnot =>
    rw [if_neg hnot]
    by_contra hst
    exact hnot ⟨hnum, hst⟩

theorem State.queueGone_mapQueue {s : State} {n m : Nat} {f : SwQueue → SwQueue} (hf : ∀ q, (f q).num = q.num)
    (h : s.queueGone n) : (s.mapQueue m f).queueGone n := by
  intro x hx hnum
  obtain ⟨y, hy, rfl⟩ := List.mem_map.mp hx
  split at hnum
  case isTrue hlive => exact absurd (h y hy ((hf y).symm.trans hnum)) hlive.2
  case isFalse hnot =>
    rw [if_neg hnot]
    exact h y hy hnum

/-- Queues that end in error leave the thread in focus, the mailbox and the events, and bring no queue back. -/
theorem failQueues_keep (l : List SwQueue) (idx : State → SwQueue → Nat) (tag : State → SwQueue → W32) (cause : Nat) (s : State)
    {n : Nat} (h : s.queueGone n) :
    let z := l.foldl (fun s x => failQueue s x (idx s x) (tag s x) cause) s
    z.queueGone n ∧ z.th = s.th ∧ z.mail = s.mail ∧ z.events = s.events := by
  induction l generalizing s with
  | nil => exact ⟨h, rfl, rfl, rfl⟩
  | cons x l ih =>
    obtain ⟨hgone, hth, hmail, hevents⟩ := ih (failQueue s x (idx s x) (tag s x) cause)
      (State.queueGone_mapQueue (s := (s.putRecord x 0x18 _).putRecord x 0x10 _) (fun _ => rfl) h)
    exact ⟨hgone, hth, hmail, hevents⟩

/-- A state that brings no queue back, and has the same events. -/
structure FewerQueues (s z : State) : Prop where
  queues : z.queues ⊆ s.queues
  events : z.events = s.events

theorem FewerQueues.refl (s : State) : FewerQueues s s := ⟨fun _ hx => hx, rfl⟩

theorem FewerQueues.trans {s y z : State} (h : FewerQueues s y) (h' : FewerQueues y z) : FewerQueues s z :=
  ⟨fun _ hx => h.queues (h'.queues hx), h'.events.trans h.events⟩

theorem leaveHomes_fewerQueues (l : List Chan) (s : State) : FewerQueues s (l.foldl State.leaveHome s) := by
  induction l generalizing s with
  | nil => exact .refl s
  | cons c l ih =>
    refine FewerQueues.trans ?_ (ih _)
    unfold State.leaveHome
    split <;> exact ⟨fun _ hx => hx, rfl⟩

theorem dropChans_fewerQueues (s : State) (p : Chan → Bool) : FewerQueues s (s.dropChans p) := by
  obtain ⟨hqueues, hevents⟩ := leaveHomes_fewerQueues (s.chans.filter p) s
  exact ⟨hqueues, hevents⟩

theorem zeroTiles_fewerQueues (l : List Nat) (s : State) : FewerQueues s (l.foldl zeroTile s) := by
  induction l generalizing s with
  | nil => exact .refl s
  | cons t l ih =>
    refine FewerQueues.trans ?_ (ih _)
    obtain ⟨hqueues, hevents⟩ := dropChans_fewerQueues s (fun c => c.onTile t)
    exact ⟨hqueues, hevents⟩

theorem freeCtx_fewerQueues (s : State) (n : Nat) : FewerQueues s (freeCtx s n) := by
  obtain ⟨hqueues, hevents⟩ := dropChans_fewerQueues s (fun c => c.ctx == n)
  exact ⟨fun _ hx => hqueues (List.mem_of_mem_filter hx), hevents⟩

theorem respond_fewerQueues (s : State) (status : Nat) (ws : List Word) : FewerQueues s (respond s status ws) :=
  ⟨fun _ hx => hx, rfl⟩

/-- A request that completes brings no queue back, and leaves the events. -/
theorem completeRequest_fewerQueues (s : State) : FewerQueues s (completeRequest s) := by
  unfold completeRequest
  split
  case isTrue => exact .refl s
  case isFalse =>
    split
    case h_1 => exact .refl s
    case h_2 ctx tiles gone _ =>
      split
      case isTrue =>
        refine (zeroTiles_fewerQueues tiles s).trans ?_
        cases gone with
        | true => exact (freeCtx_fewerQueues _ ctx).trans (respond_fewerQueues ..)
        | false => exact respond_fewerQueues ..
      case isFalse => exact .refl s
    case h_3 =>
      split
      · exact .refl s
      · exact respond_fewerQueues ..
    case h_4 =>
      split
      · split
        · exact respond_fewerQueues ..
        · exact .refl s
      · exact .refl s

/-- An event reported to a host without a ring is held, and nothing else changes (R333). -/
theorem report_stands (s : State) (e : HostEvent) : (report s e).queues = s.queues ∧ (report s e).th = s.th
    ∧ (report s e).mail = s.mail
    ∧ (s.events.held = [] → s.events.ring = none → (report s e).events.held = [e]) := by
  have hroom (h : s.events.ring = none) : s.events.room = false := by rw [EventRing.room, h]
  unfold report
  split
  case isTrue hcond =>
    refine ⟨?_, ?_, ?_, fun _ hring => absurd hcond.2 (Bool.eq_false_iff.mp (hroom hring))⟩ <;> unfold writeEvent <;> split <;> rfl
  case isFalse =>
    split
    case isTrue => exact ⟨rfl, rfl, rfl, fun hheld _ => congrArg (· ++ [e]) hheld⟩
    case isFalse hlt => exact ⟨rfl, rfl, rfl, fun hheld _ => absurd (by rw [hheld]; decide) hlt⟩

/-- Queue `q` freed, and the queues that are parked on its timeline for good in error (R238). -/
def State.withoutQueue (s : State) (q : SwQueue) : State :=
  let s := s.mapQueue q.num (fun q => { q with st := .freed, slot := none, ready := none })
  let stuck := s.queues.filter (fun x => x.st = .parked ∧ x.ready.isNone ∧ (x.waits.map Prod.fst) = some q.num)
  stuck.foldl (fun s x => failQueue s x x.rd (packetTag (headPacket s x)) 5) s

theorem exec_queueFreed {s : State} {q : SwQueue} (hq : s.queue? s.ev.n = some q) (hst : q.st = .draining)
    (hempty : q.started = []) : exec .queueFreed s =
      .next (completeRequest (report (s.withoutQueue q) { ctx := q.ctx, kind := 8, d1 := BitVec.ofNat 64 q.num })) := by
  change execQueueFreed s = _
  rw [execQueueFreed, hq]
  simp only [Option.bind_eq_bind, Option.bind_some]
  rw [if_neg (by simp [hst, hempty])]
  rfl

theorem State.withoutQueue_keeps (s : State) (q : SwQueue) : (s.withoutQueue q).queueGone q.num ∧ (s.withoutQueue q).th = s.th
    ∧ (s.withoutQueue q).mail = s.mail ∧ (s.withoutQueue q).events = s.events :=
  failQueues_keep _ (fun _ x => x.rd) (fun s x => packetTag (headPacket s x)) 5 _ (State.queueGone_freed s q.num (fun _ => rfl))

/-- Settles O44: a doorbell by its write index, a slot by its turn, a packet by how it ended, a freed queue by what is left of
it. -/
theorem queueEvents : Obligations.QueueEvents := by
  refine ⟨fun s q => ?doorbell, fun s q hnext hn hslots hst => ?maps, fun s q hnext hn hslots hst hq => ?resumes,
    fun s q hq hover => ?quantum, fun s q p hq hp hsum hop => ?completes, fun s q hq hst hempty => ?frees⟩
  case doorbell =>
    intro w
    refine ⟨exec_doorbell_ignored, fun hn hzero hq hst => ?_⟩
    intro wr
    have hnum : q.num = fld w 15 0 := (State.queue?_live hq).1
    have hq' : s.queue? q.num = some q := hnum ▸ hq
    rw [exec_doorbell hn hzero hq hst]
    refine ⟨fun heq => ?empties, fun hne hle => ?asks, fun hne hgt herr => ?fails⟩
    case empties =>
      rw [if_pos heq]
      rfl
    case asks =>
      rw [if_neg hne, if_pos hle]
      obtain ⟨ready, hask, hready⟩ := SwQueue.ask_eq { q with wr := wr } s.cyc
      refine ⟨_, rfl, rfl, _, State.queue?_mapQueue_some hq' fun x hx hlive => ?_, ?_⟩
      · obtain ⟨r, hr, -⟩ := SwQueue.ask_eq { x with wr := wr } s.cyc
        rw [hr]
        exact ⟨hx, hlive⟩
      · rw [hask]
        exact ⟨rfl, rfl, rfl, fun hrun hslot => hready hrun hne hslot⟩
    case fails => rw [if_neg hne, if_neg (Nat.not_le.mpr hgt), if_neg herr]
  case maps =>
    rw [exec_queueMap hnext hn hslots, if_neg (by rw [hst]; exact QState.noConfusion)]
  case resumes =>
    intro y b
    have hmapped : ((s.mapQueue q.num (fun q => { q with ready := none, slot := some s.cyc })).mapQueue q.num
        (fun q => { q with st := .running, waits := none })).queue? q.num = some y := by
      refine State.queue?_mapQueue_some (State.queue?_mapQueue_some hq ?waits) ?runs
      case waits => exact fun _ hnum hlive => ⟨hnum, hlive⟩
      case runs => exact fun _ hnum _ => ⟨hnum, nofun⟩
    refine ⟨_, exec_queueMap hnext hn hslots, ?_⟩
    rw [if_pos hst, headPacket_cinc]
    exact completePacket_queue? _ (startPacket_queue? hmapped rfl) nofun
  case quantum =>
    change orNone ((s.queue? s.ev.n).bind _) = _
    rw [hq, Option.bind_some]
    exact congrArg orNone (if_pos hover)
  case completes =>
    have hq' : s.queue? q.num = some q := (State.queue?_live hq).1.symm ▸ hq
    refine ⟨fun hfail hfin hhomes => ?finished, fun c hfail => ?failed⟩
    case finished =>
      let u := if p.op = 1 then s.dropChans (fun c => c.pipe == (q.num, p.idx)) else s
      have hu : u.mem = s.mem ∧ u.th = s.th ∧ u.queues = s.queues
          ∧ (p.op = 1 → ∀ c ∈ u.chans, c.pipe ≠ (q.num, p.idx)) := by
        dsimp only [u]
        split
        case isTrue hone =>
          obtain ⟨hmem, hth, hqueues, hchans⟩ := State.dropChans_none (s := s) (p := fun c => c.pipe == (q.num, p.idx))
            (fun c hc hpipe => hhomes hone c hc (beq_iff_eq.mp hpipe))
          exact ⟨hmem, hth, hqueues, fun _ c hc => beq_eq_false_iff_ne.mp (hchans c hc)⟩
        case isFalse hnot => exact ⟨rfl, rfl, rfl, fun hone => absurd hone hnot⟩
      obtain ⟨humem, huth, huqueues, huchans⟩ := hu
      have huq : u.queue? q.num = some q := by rw [State.queue?, huqueues]; exact hq'
      obtain ⟨y, hy, hstarted, htimeline⟩ := completePacket_live p.cinc huq
      obtain ⟨hmem, hth, -, hchans⟩ := completePacket_stands u q.num p.cinc
      refine ⟨_, exec_packetComplete_finished hq hp hop hsum hfail hfin, hmem.trans humem, hth.trans huth, fun hone c hc => ?_, _,
        State.queue?_mapQueue_some hy (fun _ hnum hlive => ⟨hnum, hlive⟩), ?_, htimeline⟩
      · exact huchans hone c (hchans ▸ hc)
      · exact congrArg (List.filter _) hstarted
    case failed =>
      refine ⟨_, exec_packetComplete_failed hq hp hop hfail, rfl, _,
        State.queue?_mapQueue_some (failQueue_queue? s q p.idx p.tag c hq') (fun _ hnum hlive => ⟨hnum, hlive⟩), rfl, rfl⟩
  case frees =>
    obtain ⟨hgone, hth, hmail, hevents⟩ := s.withoutQueue_keeps q
    let e : HostEvent := { ctx := q.ctx, kind := 8, d1 := BitVec.ofNat 64 q.num }
    obtain ⟨hqueues, hth', hmail', hheld⟩ := report_stands (s.withoutQueue q) e
    obtain ⟨hfewer, hsame⟩ := completeRequest_fewerQueues (report (s.withoutQueue q) e)
    refine ⟨_, exec_queueFreed hq hst hempty, State.queueGone_queue? fun x hx => hgone x (hqueues ▸ hfewer hx), fun hbusy => ?_, fun hnone hring => ?_⟩
    · rw [completeRequest_idle (by rw [hmail', hmail]; exact hbusy), hth', hth]
    · rw [hsame]
      exact hheld (by rw [hevents]; exact hnone) (by rw [hevents]; exact hring)

end Sys2Proof.Machine
end

section
/-! O43: a signed image whose stage's record cannot be read back. -/

namespace Sys2Proof.Machine

/-! ### An image of one stage (R322, R391) -/

/-- Three times the generator of the curve: the key of the context, whose private key is 3. -/
def oneStageKey : List Byte := beBytes 97 0x047b63205bf00ddae73b17452b6a27ebf53df581348c6949f83ee1b6fcc7463bbe3c11ef6596a3b8897d7cc85b3035f11f761d3a4a5f8093775521a326bc02baaf7b2eb481ead16a5c7b2bd39462363e0373c0edaea3b8f59381d7129d48772eb3

/-- The image's stage: its code at 0x10800 and its frame at 0x20000, on core 1 of tile 0. -/
def oneStageEntry : List Byte :=
  leBytes 8 0x10800 ++ leBytes 8 0x20000 ++ leBytes 2 0 ++ [1, 0, 0, 3] ++ List.replicate 10 0

/-- The image's header, its entry, and the signature of both under the private key 3. -/
def oneStageImage : List Byte :=
  leBytes 4 0x3949434B ++ leBytes 2 1 ++ leBytes 2 0 ++ leBytes 8 256 ++ beBytes 8 0xa4a9704fadb90eee
    ++ leBytes 4 1 ++ leBytes 20 0 ++ leBytes 4 0x80 ++ leBytes 4 32 ++ leBytes 40 0 ++ List.replicate 32 0 ++ oneStageEntry
    ++ beBytes 96 0x2282bc382a2f4dfcb95c3495d7b4fd590ad520b3eb6be4d6ec2f80c4e0f70df87c4ba74a09b553ebb427b58df9d59fca109b38dc2ec05b73dc2e3d1d0adaeddd654d92d97ac03ce569daf694925b224210fc1a908919c23dacbfbd5ecc388044

/-! ### A state that launches it -/

/-- A LAUNCH_PIPELINE packet for the image at 0x10000. -/
def oneStagePacket : List Byte := leBytes 8 1 ++ leBytes 8 0x10000 ++ leBytes 48 0

/-- The queue that starts the packet. -/
def oneStageQueue : SwQueue := { num := 7, ctx := 1, recAddr := 0x8000, base := 0x9000, wr := 1, slot := some 0 }

/-- The context of the image, with a page of code, one for frames, and tile 0. -/
def oneStageCtx : Ctx := { hostedCtx 1 with imageKey := oneStageKey }

/-- The image in its page, the packet in the ring, and a lost dword (R370) of which the second half is the first word of the
context's first stage record: no write of the record covers it. -/
def unreadRecord : State :=
  let m := Mem.write (hostedTables 1 []) (2 ^ 32 + 2 ^ 16) oneStageImage
  { State.reset with
    booted := true, ctxs := [oneStageCtx], queues := [oneStageQueue], mem := Mem.write m (hostCell 0x9000) oneStagePacket
    ev := { n := 7 }, lost := [.cell (binderyCell (2 ^ 60 + 2 ^ 39) - 4)] }

theorem unreadRecord_head : headOf unreadRecord 1 = some (oneStageQueue, oneStagePacket) := by decide +kernel

theorem unreadRecord_image : loadImage unreadRecord 1 (dwordAt oneStagePacket 8) = some oneStageImage := by decide +kernel

theorem oneStageImage_signed : signedBy oneStageKey oneStageImage = true := by decide +kernel

theorem unreadRecord_allows : imageAllowed unreadRecord oneStageCtx oneStageImage = true := by decide +kernel

theorem oneStageImage_chans : (imageOf oneStageImage).chans = [] := by decide +kernel

/-- The image's stage as the loader reads it. -/
def oneStage : StageEnt := stageOf oneStageEntry

theorem oneStageImage_stages : (imageOf oneStageImage).stages = [oneStage] := by decide +kernel

theorem placeChans_none {s : State} {c : Ctx} {im : Image} (pipe : Nat × Nat) (h : im.chans = []) :
    placeChans s c im pipe = some s := by
  rw [placeChans, placedOf, h]
  rfl

/-- The threads of the slots that are not in focus, after an operation. -/
def Out.otherThreads : Out → List Thread
  | .next z => z.others
  | _ => []

/-- The one thread that the launch binds starts at 0, and not at its stage's code. -/
theorem unreadRecord_launches : (Out.otherThreads (exec .launchPipeline unreadRecord)).all (fun t => t.pc != oneStage.code) = true := by
  decide +kernel

/-- Refutes O43: the image of `unreadRecord` passes every check and its signature verifies; its stage's record is written and
then cannot be read, so that its thread does not start at the code. -/
theorem not_launchesStart : ¬ Obligations.LaunchesStart := by
  intro h
  obtain ⟨hpipeline, -⟩ := h
  obtain ⟨-, hbound, -⟩ := hpipeline unreadRecord oneStageQueue oneStagePacket oneStageImage oneStageCtx
    ⟨unreadRecord_head, by decide, by decide⟩ rfl unreadRecord_image (fun _ => unreadRecord_allows) rfl
    (by rw [oneStageImage_stages]; decide)
  obtain ⟨z, hz, -, hstages⟩ := hbound oneStageImage_signed unreadRecord (placeChans_none _ oneStageImage_chans)
  have hmem : oneStage ∈ (imageOf oneStageImage).stages := by
    rw [oneStageImage_stages]
    exact List.mem_singleton_self _
  have hkey : oneStage.key? oneStageCtx = some ⟨0, 1, 0⟩ := by decide +kernel
  obtain ⟨t, ht, -, -, -, -, hpc, -⟩ := hstages oneStage hmem _ hkey
  have hnone := unreadRecord_launches
  rw [hz] at hnone
  exact bne_iff_ne.mp (List.all_eq_true.mp hnone t ht) hpc

end Sys2Proof.Machine
end

section
/-! O22: a pop that resumes a task whose replayed load faults again, into a retry ring that drains. -/

namespace Sys2Proof.Machine

/-! ### A suspended task with a load held in its retry latch -/

/-- A context with one table of 1 GiB pages, whose first page lies in HBM, tile 0, and a retry ring at 0x400. -/
def drainingContext : Ctx := { num := 1, root := 2 ^ 50, tiles := [(0, 0)], retryRing := some 0x400 }

/-- The table's root entry and leaf; the task's record at 0x200, with its frame at 0x1000, where the latch holds a load at 2^48
(R351); the ring, armed, with one slot of 128 bytes (R254); and the record at 0x600 that it drains, with a join of 1. -/
def drainingMemory : List Host.Cell :=
  let put (m : List Host.Cell) (va : Nat) (ws : List Word) : List Host.Cell := Mem.write m (2 ^ 32 + va) (dwords ws)
  let tables := Mem.write (Mem.write [] (binderyCell (2 ^ 50)) (leBytes 8 (2 ^ 50 + 0x1001)))
    (binderyCell (2 ^ 50 + 0x1000)) (leBytes 8 (2 ^ 32 + 0x47))
  let task := put tables 0x200 [0, 0x1000, BitVec.ofNat 64 (2 ^ 48), 0, 0, 0, 0, 3]
  let latch := put task 0x1900 [BitVec.ofNat 64 (2 ^ 63 + 0x103 * 2 ^ 32), BitVec.ofNat 64 (2 ^ 48), 0, 0, 0, 4]
  let ring := put latch 0x400 [0x800, BitVec.ofNat 64 (128 + 2 ^ 32), 0, BitVec.ofNat 64 (2 ^ 62), 0, 0x600]
  put ring 0x600 [0, 0, BitVec.ofNat 64 (2 ^ 48 + 1)]

/-- The task in the run queue of die 0. -/
def drainingTask : Queued := { die := 0, prio := 0, ctx := 1, record := 0x200, since := 0, waited := 0 }

/-- The pop of the task by slot 0 of core 0 of tile 0. -/
def drainingPop : State :=
  { State.reset with
    booted := true, ctxs := [drainingContext], mem := drainingMemory, suspended := [(1, 0x200)], runq := [drainingTask]
    ev := { key := ⟨0, 0, 0⟩, n := 0 } }

theorem drainingPop_head : headFor drainingPop drainingContext 0 = some drainingTask := by decide +kernel

/-- The run queues after an operation. -/
def Out.runQueues : Out → List Queued
  | .next z => z.runq
  | _ => []

/-- The load faults again on its replay; its entry fills the ring, which drains: the record's join is over, and it is queued. -/
theorem drainingPop_queues : Out.runQueues (exec .runQueuePop drainingPop) =
    [{ die := 0, prio := 0, ctx := 1, record := 0x600, since := 0, waited := 0 }] := by decide +kernel

/-- Refutes O22: the pop of `drainingPop` takes its record, and puts that of the retry ring's drain in the run queue. -/
theorem not_dispatchEvents : ¬ Obligations.DispatchEvents := by
  intro h
  obtain ⟨hpop, -⟩ := h
  obtain ⟨⟨z, hz, hrunq⟩, -⟩ := hpop drainingPop drainingContext drainingTask rfl rfl (by decide) (by decide) rfl rfl drainingPop_head
  have hqueues := drainingPop_queues
  rw [hz] at hqueues
  have hempty : z.runq = [] := hrunq
  exact List.cons_ne_nil _ _ (hqueues.symm.trans hempty)

end Sys2Proof.Machine
end

section
/-! O23, O24: what a write of bytes leaves of the thread in focus, of its copies and of the rings' bindings. -/

namespace Sys2Proof.Machine

/-- The thread in focus, the cycle and the free values, the copies, and the rings' bindings are as before. -/
structure KeepsEngines (s z : State) : Prop where
  th : z.th = s.th
  cyc : z.cyc = s.cyc
  draws : z.draws = s.draws
  copies : z.copies = s.copies
  pushBinds : z.pushBinds = s.pushBinds

theorem KeepsEngines.refl (s : State) : KeepsEngines s s := ⟨rfl, rfl, rfl, rfl, rfl⟩

theorem KeepsEngines.trans {s y z : State} (h : KeepsEngines s y) (h' : KeepsEngines y z) : KeepsEngines s z :=
  ⟨h'.th.trans h.th, h'.cyc.trans h.cyc, h'.draws.trans h.draws, h'.copies.trans h.copies, h'.pushBinds.trans h.pushBinds⟩

theorem State.writeAs_keepsEngines (s : State) (aes cell : Nat) (b : List Byte) : KeepsEngines s (s.writeAs aes cell b) := by
  unfold State.writeAs
  split <;> exact ⟨rfl, rfl, rfl, rfl, rfl⟩

theorem putWords_keepsEngines (aes cell off : Nat) (old new : List Byte) (s : State) :
    KeepsEngines s (putWords aes cell off old new s) := by
  induction off, old, new, s using putWords.induct (aes := aes) (cell := cell) with
  | case1 off a0 a1 a2 a3 old b0 b1 b2 b3 new s ih =>
    rw [putWords]
    refine KeepsEngines.trans ?_ ih
    split
    · exact .refl s
    · exact s.writeAs_keepsEngines ..
  | case2 =>
    rw [putWords]
    · exact .refl _
    · assumption

theorem ringPut_keepsEngines (s : State) (l : Loc) (r : RingObj) : KeepsEngines s (ringPut s l r) := putWords_keepsEngines ..

theorem writeRun_keepsEngines (aes k cell : Nat) (s : State) (bs : List Byte) : KeepsEngines s (writeRun s aes k cell bs) := by
  induction k generalizing s cell bs with
  | zero => exact .refl s
  | succ k ih =>
    unfold writeRun
    split
    · exact .refl s
    · exact (s.writeAs_keepsEngines ..).trans (ih ..)

theorem addRun_keepsEngines (aes cell : Nat) (s : State) (bs : List Byte) (f : Flags) :
    KeepsEngines s (addRun s aes cell bs f).1 := by
  induction s, cell, bs, f using addRun.induct (aes := aes) with
  | case1 s cell b0 b1 b2 b3 bs f m r ih =>
    rw [addRun]
    exact (s.writeAs_keepsEngines ..).trans ih
  | case2 =>
    rw [addRun]
    · exact .refl _
    · assumption

end Sys2Proof.Machine
end

section
/-! O23, first part: the copies at their trigger. -/

namespace Sys2Proof.Machine

variable {t : State} {l : BitVec 4}

/-- A copy whose operands pass their checks, and whose ring can be reached, starts (R269, R270). -/
theorem startCopy_starts {k : Nat} {a : CopyArgs} (trig : Nat) (hok : copyOk k a = true)
    (halign : k = 1 → a.src.toNat % 4 = 0 ∧ a.dst.toNat % 4 = 0) (hfits : RingFits t a) :
    startCopy trig k l a t = .done ((t.ringRead a).copyStarted trig k a l) := by
  have hsrc : ¬(k = 1 ∧ fld a.src 1 0 ≠ 0) := fun h => h.2 ((fld_low a.src 1).trans (halign h.1).1)
  have hdst : ¬(k = 1 ∧ fld a.dst 1 0 ≠ 0) := fun h => h.2 ((fld_low a.dst 1).trans (halign h.1).2)
  unfold startCopy
  dsimp only
  rw [if_neg (by simp [hok]), if_neg hsrc, if_neg hdst, State.ringRead]
  obtain ⟨hnone, hacq⟩ | ⟨hsome, loc, hring, hrows⟩ := hfits
  · rw [if_pos hnone, if_pos hnone, if_neg (by simp [hacq])]
    rfl
  · have hfit : ¬(0 < fld a.shape 47 32 ∧ (ringAt t loc).ssize <
        fld a.dst 31 0 + (fld a.shape 47 32 - 1) * fld a.pitch 63 32 + fld a.shape 31 0) := by omega
    rw [if_neg hsome, if_neg hsome, withRing_at hring, if_neg hfit]
    rfl

/-- The copies whose operands are in the ports (R270, R272, R273). -/
def portCopies : List (Trig × Nat × Nat) := [(.ycopy, 0x1C4, 0), (.ycopyAdd, 0x1C5, 1), (.ymcast, 0x1C6, 2)]

theorem trigAct_of_portCopy {r : Trig × Nat × Nat} (hr : r ∈ portCopies) (l : BitVec 4) :
    trigAct r.1 l = fun w s => startCopy r.2.1 r.2.2 l (portArgs s w) s := by
  have hrows : portCopies.map (fun r => trigAct r.1 l)
      = portCopies.map (fun r => fun w s => startCopy r.2.1 r.2.2 l (portArgs s w) s) := rfl
  exact List.map_inj_left.mp hrows r hr

/-- ydesc reads its block once, and starts the copy that it describes (R274). -/
theorem actYdesc_starts {w : Word} {loc : Loc} (halign : w.toNat % 64 = 0) (hacq : t.th.acquiring t.cyc = false)
    (hloc : translate t t.self w .load = .ok loc) (hspace : loc.space = .hbm ∨ ∃ n, loc.space = .scr n)
    (hdenied : t.denied loc.cell 0 64 = 0) (hbusy : t.lineBusy loc.cell 64 none = false) :
    let b := t.readAs loc.aes loc.cell 64
    let k := (dwordAt b 0).toNat
    k ≤ 2 → dwordAt b 48 = 0 → dwordAt b 56 = 0 → (k = 2 → t.th.key.core = 6) →
      actYdesc l w t = startCopy 0x1CB k l ⟨dwordAt b 8, dwordAt b 16, dwordAt b 24, dwordAt b 32, dwordAt b 40⟩ (t.acquire 2) := by
  intro b k hk h48 h56 hcore
  have hline : ¬fld w 5 0 ≠ 0 := not_not.mpr ((fld_low w 5).trans halign)
  have hspan : actYdesc.spanLocs t w = .ok loc := by
    unfold actYdesc.spanLocs
    rw [hloc]
    dsimp only
    obtain h | ⟨n, h⟩ := hspace <;> rw [h] <;> exact if_neg (not_not.mpr hdenied)
  have hlegal : ¬(2 < k ∨ dwordAt b 0x30 ≠ 0 ∨ dwordAt b 0x38 ≠ 0 ∨ (k = 2 ∧ t.th.key.core ≠ 6)) := by
    rintro (h | h | h | ⟨h, h'⟩)
    · omega
    · exact h h48
    · exact h h56
    · exact h' (hcore h)
  unfold actYdesc
  rw [if_neg hline, if_neg (by simp [hacq]), hspan]
  dsimp only
  rw [if_neg (by simp [hbusy]), if_neg hlegal]

theorem copiesStart : Rules.CopiesStart := by
  refine ⟨?ports, ?block⟩
  case ports =>
    intro r hr g l src s w d hfire t a hok halign hfits
    exact exec_trigInstr_done hfire ((congrFun₂ (trigAct_of_portCopy hr l) w t).trans (startCopy_starts r.2.1 hok halign hfits))
  case block =>
    intro g l src s w d loc hfire haligned t hacq hloc hspace hdenied hbusy b k a hk h48 h56 hcore hok halign hfits
    have hcore' : k = 2 → t.th.key.core = 6 := by rwa [State.passed_key]
    exact exec_trigInstr_done (t := .ydesc) hfire
      ((actYdesc_starts haligned hacq hloc hspace hdenied hbusy hk h48 h56 hcore').trans (startCopy_starts 0x1CB hok halign hfits))

end Sys2Proof.Machine
end

section
/-! O23, second part: what a piece reads and writes, line by line. -/

namespace Sys2Proof.Machine

/-! ### Runs of bytes (R270) -/

theorem State.shown_length (s : State) (cell : Nat) (bs : List Byte) : (s.shown cell bs).length = bs.length := by
  unfold State.shown
  split
  · rw [List.length_map, List.length_zipIdx]
  · rfl

theorem State.readAs_length_le (s : State) (aes cell n : Nat) : (s.readAs aes cell n).length ≤ n := by
  rw [State.readAs, State.shown_length]
  split
  · exact List.length_take_le ..
  · exact (Mem.bytes_length ..).le

theorem readRun_length_le (s : State) (aes k cell n : Nat) : (readRun s aes k cell n).length ≤ n := by
  induction k generalizing cell n with
  | zero => exact Nat.zero_le n
  | succ k ih =>
    unfold readRun
    dsimp only
    split
    · exact Nat.zero_le n
    · have hline := s.readAs_length_le aes cell (min n (64 - cell % 64))
      have hrest := ih (cell + min n (64 - cell % 64)) (n - min n (64 - cell % 64))
      rw [List.length_append]
      omega

/-- A run of bytes written under its lines' own key changes exactly its bytes. -/
theorem writeRun_bytes {aes k cell : Nat} {s : State} {bs : List Byte} (hfuel : cell % 64 + bs.length ≤ 64 * k)
    (hkey : ∀ i < bs.length, s.lineKey ((cell + i) / 64) = aes ∨ hbmEnd ≤ cell) :
    (∀ i < bs.length, Mem.byte (writeRun s aes k cell bs).mem (cell + i) = bs.getD i 0)
    ∧ ∀ a, a < cell ∨ cell + bs.length ≤ a → Mem.byte (writeRun s aes k cell bs).mem a = Mem.byte s.mem a := by
  induction k generalizing s cell bs with
  | zero => exact ⟨fun i hi => by omega, fun _ _ => rfl⟩
  | succ k ih =>
    cases hbs : bs with
    | nil => exact ⟨fun i hi => absurd hi (Nat.not_lt_zero i), fun _ _ => rfl⟩
    | cons b rest =>
      rw [← hbs]
      have hpos : 0 < bs.length := by rw [hbs]; exact Nat.succ_pos _
      let n := 64 - cell % 64
      let w := s.writeAs aes cell (bs.take n)
      have hrun : writeRun s aes (k + 1) cell bs = writeRun w aes k (cell + n) (bs.drop n) := by
        rw [writeRun, if_neg (by simp [hbs])]
      have hfirst : s.lineKey (cell / 64) = aes ∨ hbmEnd ≤ cell := hkey 0 hpos
      have hkeys (line : Nat) : w.lineKey line = s.lineKey line := congrFun (congrArg State.lineKey (State.writeAs_own hfirst _)) line
      obtain ⟨hline, hlineFrame⟩ := State.writeAs_bytes hfirst (bs.take n)
      have htake : (bs.take n).length = min n bs.length := List.length_take
      have hdrop : (bs.drop n).length = bs.length - n := List.length_drop
      obtain ⟨hrest, hrestFrame⟩ := ih (s := w) (cell := cell + n) (bs := bs.drop n) (by omega) (fun i hi => by
        rw [hkeys, Nat.add_assoc]
        exact (hkey (n + i) (by omega)).imp_right (by omega))
      rw [hrun]
      refine ⟨fun i hi => ?_, fun a ha => ?_⟩
      · by_cases hin : i < n
        · rw [hrestFrame _ (.inl (by omega)), hline i (by omega), List.getD_eq_getElem?_getD, List.getD_eq_getElem?_getD,
            List.getElem?_take_of_lt hin]
        · have h := hrest (i - n) (by omega)
          rw [show cell + n + (i - n) = cell + i by omega] at h
          rw [h, List.getD_eq_getElem?_getD, List.getD_eq_getElem?_getD, List.getElem?_drop, show n + (i - n) = i by omega]
      · rw [hrestFrame a (by omega), hlineFrame a (by omega)]

/-! ### The copy of a slot -/

theorem State.copy?_key {s : State} {k : SlotKey} {c : Copy} (h : s.copy? k = some c) : c.key = k := by
  simpa using List.find?_some h

/-- A copy put in the place of the one with its key. -/
theorem State.copy?_putCopy {s : State} {k : SlotKey} {c c' : Copy} (hc : s.copy? k = some c) (hkey : c'.key = k) :
    (s.putCopy k (some c')).copy? k = some c' := by
  have hsame (x : Copy) : (if x.key = k then some c' else some x).any (fun y => decide (y.key = k)) = decide (x.key = k) := by
    split
    next h => simp [h, hkey]
    next => rfl
  have hfound : s.copies.find? (fun x => decide (x.key = k)) = some c := hc
  rw [State.copy?, State.putCopy, List.find?_filterMap, funext hsame, hfound]
  exact if_pos (State.copy?_key hc)

theorem State.copy?_putCopy_none (s : State) (k : SlotKey) : (s.putCopy k none).copy? k = none := by
  refine List.find?_eq_none.mpr fun x hx => ?_
  obtain ⟨y, -, hy⟩ := List.mem_filterMap.mp hx
  split at hy
  · cases hy
  next hne =>
    cases hy
    simpa using hne

end Sys2Proof.Machine
end

section
/-! O23, third part: the ring that a copy fills, and the copy unit's events. -/

namespace Sys2Proof.Machine

/-! ### The slot in focus stays while a ring advances (R256) -/

theorem mapAll_key (s : State) {f : Thread → Thread} (hf : ∀ t, (f t).key = t.key) : (s.mapAll f).th.key = s.th.key := hf s.th

theorem decrementJoin_key (s : State) (ctx : Nat) (rec : Word) (die : Nat) : (decrementJoin s ctx rec die).th.key = s.th.key := by
  have hadd : (recAddJoin s ctx rec (-1)).th.key = s.th.key := congrArg Thread.key (recPut_th ..)
  refine Eq.trans ?_ hadd
  unfold decrementJoin
  dsimp only
  split
  next =>
    split
    next =>
      refine (mapAll_key _ fun t => ?_).trans ?edges
      case edges =>
        dsimp only
        rw [acquireEdges_th]
      split
      next =>
        dsimp only
        split <;> rfl
      next => rfl
    next =>
      split
      next => rfl
      next =>
        split
        · exact congrArg Thread.key (appendRecord_th ..)
        · rfl
  next => split <;> rfl

theorem ringPut_key (s : State) (l : Loc) (r : RingObj) : (ringPut s l r).th.key = s.th.key := congrArg Thread.key (ringPut_th ..)

theorem ringDrain_key (s : State) (ctx : Nat) (l : Loc) : (ringDrain s ctx l).th.key = s.th.key :=
  (decrementJoin_key ..).trans (ringPut_key ..)

theorem ringAdvance_key (n : Nat) (s : State) (ctx : Nat) (l : Loc) : (ringAdvance n s ctx l).th.key = s.th.key := by
  induction n generalizing s with
  | zero => rfl
  | succ n ih =>
    unfold ringAdvance
    dsimp only
    split
    next =>
      refine (ih _).trans ?_
      have hmoved (r : RingObj) (p : Prop) [Decidable p] :
          (if p then ringDrain (ringPut s l r) ctx l else ringPut s l r).th.key = s.th.key := by
        split
        · exact (ringDrain_key ..).trans (ringPut_key ..)
        · exact ringPut_key ..
      split
      · split
        · split <;> exact hmoved _ _
        · exact hmoved _ _
      · exact hmoved _ _
    next => rfl

theorem ringFill_key (s : State) (ctx : Nat) (l : Loc) (slot : W32) : (ringFill s ctx l slot).th.key = s.th.key :=
  (ringAdvance_key ..).trans (ringPut_key ..)

/-! ### Claim, piece and completion -/

section
variable {s : State} {c : Copy} (hc : s.copy? s.ev.key = some c)
include hc

/-- A claim that the ring can grant takes slot cp (R256). -/
theorem exec_ringClaim {loc : Loc} (hclaims : c.claims s.cyc = true) (hloc : translate s c.agent c.ring .amo = .ok loc)
    (hroom : ((ringAt s loc).cp - (ringAt s loc).rp).toNat < (ringAt s loc).count)
    (hwindow : ((ringAt s loc).cp - (ringAt s loc).wp).toNat < 64) :
    exec .ringClaim s = .next ((ringPut s loc { ringAt s loc with cp := (ringAt s loc).cp + 1 }).putCopy c.key
      (some { c with slot := some ((ringAt s loc).cp, ringHandle (ringAt s loc) (ringAt s loc).cp) })) := by
  have hgrant : ringCanClaim (ringAt s loc) = true :=
    Bool.and_eq_true_iff.mpr ⟨decide_eq_true hroom, decide_eq_true hwindow⟩
  have hexec : exec .ringClaim s = execRingClaim s := rfl
  simp [hexec, execRingClaim, hc, claimNow, hclaims, hloc, ringClaim?, hgrant, orNone]

/-- The copy's core no longer holds its views of the piece's lines, and the piece's cycle is drawn. -/
def State.pieceFrom (s : State) (c : Copy) (ls ld : Loc) (n : Nat) : State :=
  ((s.evictRun c.key.coreKey ls.cell n).evictRun c.key.coreKey ld.cell n).drawn

/-- A piece that has passed its checks reads its source, and adds to its destination or writes it (R270, R272); its copy goes
on behind it. -/
theorem exec_copyPiece {ls ld : Loc} {n : Nat} (hmoves : c.moves s.cyc = true) (hretr : c.retr < 3) (hcut : c.cut ≤ c.off)
    (hcheck : checkPiece s c (c.piece s c.off).1 (c.piece s c.off).2.1 (c.piece s c.off).2.2 = .ok (ls, ld))
    (hpart : (if c.kind = 1 ∧ s.ev.n ≠ 0 then min (c.piece s c.off).2.2 (8 * s.ev.n)
      else ld.part s.ev.n (c.piece s c.off).2.2) = n)
    (hsrc : pieceBusy s c ls.cell n = false) (hdst : pieceBusy s c ld.cell n = false) :
    ∃ (x : State) (c' : Copy), exec .copyPiece s = .next (x.putCopy c.key (some c')) ∧ x.th = s.th ∧ x.copies = s.copies
      ∧ c'.key = c.key ∧ c'.off = c.off + n ∧ s.cyc + 1 ≤ c'.due
      ∧ (c.kind ≠ 1 → x = writeRun (s.pieceFrom c ls ld n) ld.aes (n / 64 + 2) ld.cell
          (readRun s ls.aes (n / 64 + 2) ls.cell n)) := by
  have hexec : exec .copyPiece s = orNone (pieceNow s c s.ev.n) := by
    have : exec .copyPiece s = execCopyPiece s := rfl
    rw [this, execCopyPiece, hc]
    rfl
  have hlocs : (if 3 ≤ c.retr then (.error kLink : Except Nat (Loc × Loc))
      else pieceLocs s c (c.piece s c.off).1 (c.piece s c.off).2.1 (c.piece s c.off).2.2) = .ok (ls, ld) := by
    rw [if_neg (Nat.not_le.mpr hretr), pieceLocs, if_neg (Nat.not_lt.mpr hcut), hcheck]
  rw [hexec, pieceNow, if_neg (by simp [hmoves])]
  dsimp only
  rw [hlocs]
  dsimp only
  rw [hpart, if_neg (by simp [hsrc, hdst])]
  have hdue : s.cyc + 1 ≤ s.landing 1 := Nat.le_add_right ..
  let u := s.pieceFrom c ls ld n
  let bs := readRun s ls.aes (n / 64 + 2) ls.cell n
  by_cases hadd : c.kind = 1
  · have hkeeps : KeepsEngines u (addRun u ld.aes ld.cell bs c.flags).1 := addRun_keepsEngines ..
    rw [if_pos hadd]
    exact ⟨_, _, rfl, hkeeps.th, hkeeps.copies, rfl, rfl, hdue, absurd hadd⟩
  · have hkeeps : KeepsEngines u (writeRun u ld.aes (n / 64 + 2) ld.cell bs) := writeRun_keepsEngines ..
    rw [if_neg hadd]
    exact ⟨_, _, rfl, hkeeps.th, hkeeps.copies, rfl, rfl, hdue, fun _ => rfl⟩

end

/-- A copy of the slot in focus that is answered: it is gone, and its window's operation has completed (R270). -/
structure CopyAnswered (c : Copy) (z : State) : Prop where
  gone : z.copy? c.key = none
  known : (z.th.win .y).known = true
  hasRes : (z.th.win .y).hasRes = true
  r : (z.th.win .y).r = BitVec.ofNat 64 c.total
  flags : (z.th.win .y).flags = c.flags
  trap : (z.th.win .y).trap = none

theorem answerCopy_answered {s : State} {c : Copy} (hkey : s.th.key = c.key) :
    CopyAnswered c (answerCopy s c (BitVec.ofNat 64 c.total) none) := by
  have hth : (answerCopy s c (BitVec.ofNat 64 c.total) none).th = s.th.setWin .y { s.th.win .y with
      known := true, doneAt := max (s.th.win .y).doneAt (s.cyc + 1), hasRes := true, r := BitVec.ofNat 64 c.total
      flags := c.flags, trap := none } := if_pos hkey
  constructor
  · exact State.copy?_putCopy_none _ _
  all_goals rw [hth, Thread.win_setWin]

section
variable {s : State} {c : Copy} (hc : s.copy? s.ev.key = some c) (hends : c.ends s.cyc = true) (hcmd : c.cmd = none)
include hc hends hcmd

theorem exec_copyComplete_plain (hslot : c.slot = none) :
    exec .copyComplete s = .next (answerCopy s c (BitVec.ofNat 64 c.total) none) := by
  have hexec : exec .copyComplete s = execCopyComplete s := rfl
  simp [hexec, execCopyComplete, hc, hends, hcmd, hslot, orNone]

/-- A copy into a ring fills its slot once its thread's earlier accesses are over at the scope of the advance (R256). -/
theorem exec_copyComplete_ring {n : W32} {h : Word} {loc : Loc} (hslot : c.slot = some (n, h))
    (hloc : translate s c.agent c.ring .amo = .ok loc)
    (hdone : s.earlierDone c.key c.since (advanceScope c (ringAt s loc)) = true) :
    exec .copyComplete s = .next (answerCopy (ringFill s c.ctx loc n) c (BitVec.ofNat 64 c.total) none) := by
  have hexec : exec .copyComplete s = execCopyComplete s := rfl
  have hfill : mayFill s c = true := by rw [mayFill, hloc]; exact hdone
  simp [hexec, execCopyComplete, hc, hends, hcmd, hslot, hfill, hloc, orNone]

end

theorem State.chanTouched_pushes (s : State) (c : Chan) (w : Option Nat) : (s.chanTouched c w).pushes = s.pushes := by
  unfold State.chanTouched
  split <;> rfl

/-- The push of a handle enqueues it, synced (R277). -/
theorem exec_ringPush {s : State} {p : Push} (hp : s.pushes[s.ev.n]? = some p) (hready : pushReady s s.ev.n = true) :
    exec .ringPush s = .next ({ s with pushes := s.pushes.eraseIdx s.ev.n }.enqueueAt p.chan p.handle false true) := by
  have hexec : exec .ringPush s = execRingPush s := rfl
  simp [hexec, execRingPush, hready, hp, orNone]

theorem copyEvents : Rules.CopyEvents := by
  refine ⟨?claim, ?piece, ?ends, ?push⟩
  case claim =>
    intro s c loc hc hclaims hloc r hroom hwindow
    exact exec_ringClaim hc hclaims hloc hroom hwindow
  case piece =>
    intro s c ls ld n hc hmoves hretr hcut whole hcheck hn hsrc hdst
    have hpart : (if c.kind = 1 ∧ s.ev.n ≠ 0 then min whole (8 * s.ev.n) else ld.part s.ev.n whole) = n := by
      obtain ⟨hzero, rfl⟩ | ⟨hpos, hkind, ⟨tile, hscr⟩, rfl⟩ := hn
      · rw [if_neg (fun h => h.2 hzero), Loc.part, hzero]
        split <;> rfl
      · rw [if_neg (fun h => hkind h.1), Loc.part, hscr]
        exact if_neg hpos
    obtain ⟨x, c', hexec, hth, hcopies, hkey', hoff, hdue, hwritten⟩ := exec_copyPiece hc hmoves hretr hcut hcheck hpart hsrc hdst
    have hkey := State.copy?_key hc
    have hcx : x.copy? s.ev.key = some c := by rwa [State.copy?, hcopies]
    rw [hkey] at hexec
    refine ⟨_, c', hexec, State.copy?_putCopy hcx (hkey'.trans hkey), hoff, hdue, hth, fun hkind hown => ?_⟩
    have hlen := readRun_length_le s ls.aes (n / 64 + 2) ls.cell n
    rw [hwritten hkind]
    exact writeRun_bytes (s := s.pieceFrom c ls ld n) (by omega) hown
  case ends =>
    intro s c hc hends hcmd hkey done
    have hanswered {z : State} (hz : z.th.key = s.th.key) : done (answerCopy z c (BitVec.ofNat 64 c.total) none) := by
      obtain ⟨hgone, hknown, hres, hr, hflags, htrap⟩ := answerCopy_answered (hz.trans hkey.symm)
      exact ⟨State.copy?_key hc ▸ hgone, hknown, hres, hr, hflags, htrap⟩
    constructor
    · intro hslot
      exact ⟨_, exec_copyComplete_plain hc hends hcmd hslot, rfl, hanswered rfl⟩
    · intro n h loc hslot hloc r hdone
      exact ⟨_, exec_copyComplete_ring hc hends hcmd hslot hloc hdone, rfl, hanswered (ringFill_key ..)⟩
  case push =>
    intro s p ch hp hready hchan
    let u : State := { s with pushes := s.pushes.eraseIdx s.ev.n }
    have hchan' : u.chan? p.chan = some ch := hchan
    have hsame : (u.drawn.chanTouched ch (some ch.wr)).chan? p.chan = some ch :=
      (State.chan?_congr (State.chanTouched_chans ..) _).trans hchan'
    have hexec := exec_ringPush hp hready
    rw [State.enqueueAt_eq _ _ _ hchan'] at hexec
    refine ⟨_, hexec, State.chanTouched_pushes .., State.chanTouched_th .., _, _,
      (State.chan?_mapChan _ _ ?same).trans ((congrArg _ hsame).trans rfl), rfl, rfl, rfl, rfl, rfl⟩
    case same => exact fun _ => rfl

/-- Settles O23: the copies by their trigger, the copy unit by its events. -/
theorem copies : Obligations.Copies := ⟨copiesStart, copyEvents⟩

end Sys2Proof.Machine
end

section
/-! O24, first part: a ring operation of a thread, sent to its ring's home and performed there. -/

namespace Sys2Proof.Machine

/-! ### An operation sent (R275, R277) -/

section
variable (u : State) (l : BitVec 4) (loc : Loc) (init : Option (List Byte))

/-- A ring operation is sent, and performed in the same cycle where nothing holds it up. -/
theorem startRingOp_eq : startRingOp u l loc init =
    if ringOpReady (u.ringOpSent l loc init) (u.ringOpOf loc init) then
      ringOpNow (u.ringOpSent l loc init) (u.ringOpOf loc init)
    else u.ringOpSent l loc init := rfl

theorem siblingPosts_ringOpSent (k : CoreKey) (me : SlotKey) (cell len : Nat) :
    (u.ringOpSent l loc init).siblingPosts k me cell len = u.siblingPosts k me cell len := by
  have hlife : (u.ringOpSent l loc init).th.life = u.th.life := rfl
  by_cases hidle : u.th.life = .idle
  · simp only [State.siblingPosts, State.threads, hlife, if_pos hidle]
    rfl
  · simp only [State.siblingPosts, State.threads, hlife, if_neg hidle]
    rfl

/-- Whether earlier accesses are over does not depend on an operation sent to a ring. -/
theorem earlierDone_ringOpSent (k : SlotKey) (since scope : Nat) :
    (u.ringOpSent l loc init).earlierDone k since scope = u.earlierDone k since scope := by
  by_cases hfocus : u.th.key = k ∧ u.th.life ≠ .idle
  · have hsent : (u.ringOpSent l loc init).thread? k = some (u.ringOpSent l loc init).th := if_pos hfocus
    have hbefore : u.thread? k = some u.th := if_pos hfocus
    simp only [State.earlierDone, hsent, hbefore, siblingPosts_ringOpSent]
    rfl
  · have hthread : (u.ringOpSent l loc init).thread? k = u.thread? k := (if_neg hfocus).trans (if_neg hfocus).symm
    simp only [State.earlierDone, hthread, siblingPosts_ringOpSent]
    rfl

/-- A mode 0 waits for the ring's copies and for its thread's earlier accesses (R275). -/
theorem ringOpReady_init (b : List Byte) : ringOpReady (u.ringOpSent l loc (some b)) (u.ringOpOf loc (some b)) =
    (((ringAt u loc).cp == (ringAt u loc).wp || ringErr (ringAt u loc)) && u.earlierDone u.th.key u.cyc 2) := by
  have hring : ringOfBytes ((u.ringOpSent l loc (some b)).readAs loc.aes loc.cell 64) = ringAt u loc := rfl
  have hready : ringOpReady (u.ringOpSent l loc (some b)) (u.ringOpOf loc (some b)) =
      (let r := ringOfBytes ((u.ringOpSent l loc (some b)).readAs loc.aes loc.cell 64)
       (r.cp == r.wp || ringErr r) && (u.ringOpSent l loc (some b)).earlierDone u.th.key u.cyc 2) := rfl
  rw [hready, hring, earlierDone_ringOpSent]

/-- An unbinding waits for the ring's pushes (R277). -/
theorem ringOpReady_unbind : ringOpReady (u.ringOpSent l loc none) (u.ringOpOf loc none) =
    !u.pushes.any (fun p => p.ring == loc.cell) := rfl

/-- A write reads and leaves the same bytes whether or not the operation has been sent. -/
theorem ringOpSent_writeAs_mem (aes cell : Nat) (b : List Byte) :
    ((u.ringOpSent l loc init).writeAs aes cell b).mem = (u.writeAs aes cell b).mem := by
  by_cases h : cell < hbmEnd ∧ u.lineKey (cell / 64) ≠ aes
  · have hsent : cell < hbmEnd ∧ (u.ringOpSent l loc init).lineKey (cell / 64) ≠ aes := h
    rw [State.writeAs, State.writeAs, if_pos h, if_pos hsent]
    rfl
  · have hsent : ¬(cell < hbmEnd ∧ (u.ringOpSent l loc init).lineKey (cell / 64) ≠ aes) := h
    rw [State.writeAs, State.writeAs, if_neg h, if_neg hsent]
    rfl

end

/-! ### An operation performed -/

/-- A ring operation that has made its write ends the ring's binding and completes its window. -/
def State.ringOpClosed (s : State) (o : RingOp) : State :=
  { s with pushBinds := s.pushBinds.filter (fun b => b.cell ≠ o.cell), ringOps := s.ringOps.erase o }.mapSlot o.key
    fun t => t.setWin .y { t.win .y with known := true, doneAt := max (t.win .y).doneAt (s.cyc + 1) }

theorem ringOpNow_init {s : State} {o : RingOp} {b : List Byte} (h : o.init = some b) :
    ringOpNow s o = (s.writeAs o.aes o.cell b).ringOpClosed o := by
  rw [ringOpNow, h]
  rfl

theorem ringOpNow_unbind {s : State} {o : RingOp} (h : o.init = none) :
    ringOpNow s o = (s.writeAs o.aes (o.cell + 48) (leBytes 8 0)).ringOpClosed o := by
  rw [ringOpNow, h]
  rfl

/-- The thread in focus keeps its registers, and its Y window's operation has completed: what a ring operation leaves of a
thread whose window it opened with `l` transports. -/
structure RingOpDone (u z : State) (l : BitVec 4) : Prop where
  g : z.th.g = u.th.g
  port : z.th.port = u.th.port
  isOpen : (z.th.win .y).isOpen = true
  known : (z.th.win .y).known = true
  left : (z.th.win .y).left = l.toNat
  doneAt : u.landing 6 ≤ (z.th.win .y).doneAt

/-- An operation performed in the cycle in which it was sent. -/
theorem ringOpClosed_done (u : State) (l : BitVec 4) (loc : Loc) (init : Option (List Byte)) (aes cell : Nat) (b : List Byte) :
    let z := ((u.ringOpSent l loc init).writeAs aes cell b).ringOpClosed (u.ringOpOf loc init)
    RingOpDone u z l ∧ z.mem = (u.writeAs aes cell b).mem
      ∧ z.pushBinds = u.pushBinds.filter (fun x => x.cell ≠ loc.cell) := by
  intro z
  let v := u.ringOpSent l loc init
  have hwin : v.th.win .y = { isOpen := true, left := l.toNat, known := false, doneAt := max (u.landing 6) (u.cyc + 1) } :=
    Thread.win_setWin ..
  have hkey : (v.writeAs aes cell b).th.key = v.th.key := congrArg Thread.key (v.writeAs_th aes cell b)
  have hth : z.th = v.th.setWin .y { v.th.win .y with known := true, doneAt := max (v.th.win .y).doneAt (u.cyc + 1) } := by
    refine (if_pos hkey).trans ?_
    rw [(v.writeAs_keepsEngines aes cell b).th, (v.writeAs_keepsEngines aes cell b).cyc]
    rfl
  have hy : z.th.win .y = { v.th.win .y with known := true, doneAt := max (v.th.win .y).doneAt (u.cyc + 1) } := by
    rw [hth, Thread.win_setWin]
  rw [hwin] at hy
  refine ⟨⟨?_, ?_, ?_, ?_, ?_, ?_⟩, ringOpSent_writeAs_mem u l loc init aes cell b, ?_⟩
  · rw [hth]; rfl
  · rw [hth]; rfl
  · rw [hy]
  · rw [hy]
  · rw [hy]
  · rw [hy]
    exact (Nat.le_max_left ..).trans (Nat.le_max_left ..)
  · exact congrArg (List.filter (fun x => decide (x.cell ≠ loc.cell))) (v.writeAs_keepsEngines aes cell b).pushBinds

/-- Mode 0 at a quiet ring, with the thread's earlier accesses over, is performed at once (R275). -/
theorem startRingOp_inits {t : State} {l : BitVec 4} {loc : Loc} {b : List Byte}
    (hquiet : (ringAt t loc).cp = (ringAt t loc).wp ∨ ringErr (ringAt t loc) = true)
    (hearlier : t.flushWcb.earlierDone t.th.key t.cyc 2 = true) :
    let z := startRingOp t.flushWcb l loc (some b)
    RingOpDone t z l ∧ z.mem = (t.flushWcb.writeAs loc.aes loc.cell b).mem
      ∧ z.pushBinds = t.pushBinds.filter (fun x => x.cell ≠ loc.cell) := by
  have hring : ringAt t.flushWcb loc = ringAt t loc := rfl
  have hearlier' : t.flushWcb.earlierDone t.flushWcb.th.key t.flushWcb.cyc 2 = true := hearlier
  have hready : ringOpReady (t.flushWcb.ringOpSent l loc (some b)) (t.flushWcb.ringOpOf loc (some b)) = true := by
    rw [ringOpReady_init, hring, hearlier', Bool.and_true, Bool.or_eq_true, beq_iff_eq]
    exact hquiet
  rw [startRingOp_eq, if_pos hready, ringOpNow_init rfl]
  obtain ⟨⟨hg, hport, hopen, hknown, hleft, hdone⟩, hmem, hbinds⟩ :=
    ringOpClosed_done t.flushWcb l loc (some b) loc.aes loc.cell b
  exact ⟨⟨hg, hport, hopen, hknown, hleft, hdone⟩, hmem, hbinds⟩

end Sys2Proof.Machine
end

section
/-! O24, second part: the acts of the ring triggers at a ring that they reach. -/

namespace Sys2Proof.Machine

variable {w : Word} {t : State} {loc : Loc} {l : BitVec 4}

/-! ### yring (R275) -/

/-- The control word that mode 0 writes: the scope, and armed where bit 3 says so. -/
theorem ringInit_ctl (w : Word) : ((w.extractLsb' 0 3).setWidth 32).or (if w.getLsbD 3 then 0x40000000 else 0) =
    BitVec.ofNat 32 (fld w 2 0 + (if w.getLsbD 3 then 2 ^ 30 else 0)) := by
  have hctl : ∀ (x : BitVec 3) (armed : Bool), (x.setWidth 32).or (if armed then 0x40000000 else 0) =
      BitVec.ofNat 32 (x.toNat + (if armed then 2 ^ 30 else 0)) := by decide
  exact hctl _ _

theorem actYring_inits (h63 : fld w 63 48 = 0) (h5 : fld w 5 2 = 0) (hmode : fld w 1 0 = 0) (hok : ringInitOk t.th = true)
    (hring : RingAt t (w &&& 0xFFFFFFFFFFC0) loc) :
    actYring l w t = .done (startRingOp t.flushWcb l loc (some (ringBytes t.ringInit))) := by
  have hlegal : ¬(fld w 63 48 ≠ 0 ∨ fld w 5 2 ≠ 0 ∨ 1 < fld w 1 0 ∨ (fld w 1 0 = 0 ∧ (!ringInitOk t.th) = true)) := by
    simp [h63, h5, hmode, hok]
  have hzero : ¬fld w 1 0 = 1 := by omega
  unfold actYring
  dsimp only
  rw [if_neg hlegal, withRing_at hring, if_neg hzero, ringInit_ctl]
  rfl

theorem actYring_arms (h63 : fld w 63 48 = 0) (h5 : fld w 5 2 = 0) (hmode : fld w 1 0 = 1)
    (hdrain : (ringAt t loc).drain ≠ 0) (hring : RingAt t (w &&& 0xFFFFFFFFFFC0) loc) :
    let r := ringAt t loc
    let z := ringPut t loc { r with ctl := r.ctl ||| 0x40000000 }
    let z := if r.wp = r.rp then z else ringDrain z t.th.ctx loc
    actYring l w t = .done (z.drawn.opened .y l { doneAt := z.landing 6 }) := by
  intro r z z'
  have hlegal : ¬(fld w 63 48 ≠ 0 ∨ fld w 5 2 ≠ 0 ∨ 1 < fld w 1 0 ∨ (fld w 1 0 = 0 ∧ (!ringInitOk t.th) = true)) := by
    simp [h63, h5, hmode]
  have hctx : z.th.ctx = t.th.ctx := congrArg Thread.ctx (ringPut_th ..)
  have hmoved : (if r.wp ≠ r.rp then ringDrain z z.th.ctx loc else z) = z' := by rw [hctx, ite_not]
  unfold actYring
  dsimp only
  rw [if_neg hlegal, withRing_at hring, if_pos hmode, if_neg hdrain]
  exact congrArg (fun x : State => Act.done (x.drawn.opened .y l { doneAt := x.landing 6 })) hmoved

/-! ### yawait and yrel (R276) -/

theorem ringNamed_of (h5 : fld w 5 0 = 0) (h63 : fld w 63 48 = 0) : ¬(!ringNamed w) = true := by simp [ringNamed, h5, h63]

section
variable (h5 : fld w 5 0 = 0) (h63 : fld w 63 48 = 0) (hring : RingAt t w loc)
include h5 h63 hring

theorem actYawait_at : actYawait w t =
    if (ringAt t loc).wp ≠ (ringAt t loc).rp then
      .done ((t.map (fun th => th.set .yr (ringHandle (ringAt t loc) (ringAt t loc).rp))).acquire (ringScope (ringAt t loc)))
    else if ringErr (ringAt t loc) then .queueError 8
    else .stall (.yawait w) := by
  rw [actYawait, if_neg (ringNamed_of h5 h63), withRing_at hring]

theorem actYrel_at (hrel : Released t (ringScope (ringAt t loc))) : actYrel l w t =
    if (ringAt t loc).rp = (ringAt t loc).wp then
      .done (t.drawn.opened .y l { doneAt := t.landing (leastLatency t loc)
                                   trap := some { cause := 9, detail := 8, mtpc := t.at_ } })
    else
      .done ((ringPut t.drawn loc { ringAt t loc with rp := (ringAt t loc).rp + 1 }).opened .y l
        { doneAt := t.landing (leastLatency t loc), hasRes := true, r := ((ringAt t loc).rp + 1).setWidth 64 }) := by
  rw [actYrel, if_neg (ringNamed_of h5 h63), withRing_at hring, releaseWait_released hrel]
  rfl

end

/-! ### ypush (R255, R277) -/

/-- The state in which the port that y.o names has been bound to the ring at a place. -/
def State.ringBound (t : State) (va : Word) (loc : Loc) : State :=
  let q : BitVec 3 := (t.th.get .yo).setWidth 3
  let r := ringAt t loc
  let z := (ringPut t loc { r with push := pushWord t q.toNat }).mapChan (t.th.bind[q.toFin]).chan
    (fun c => { c with scope := max c.scope (ringScope r) })
  { z.drawn with
    pushBinds := ⟨t.th.ctx, va, loc.cell, ⟨t.th.key, q.toNat⟩⟩ :: t.pushBinds.filter (fun b => b.cell ≠ loc.cell) }

/-- A ypush at a ring that is not bound, or bound by its own thread, binds it or leaves to end its binding. -/
theorem actYpush_at (h63 : fld w 63 48 = 0) (h5 : fld w 5 1 = 0) (ho : fld (t.th.get .yo) 63 3 = 0)
    (hq : t.queueWrite ((t.th.get .yo).setWidth 3) ≠ .error) (hring : RingAt t (w &&& 0xFFFFFFFFFFC0) loc)
    (hmine : (ringAt t loc).push.getLsbD 63 = false
      ∨ (pushPort t t.th.ctx (ringAt t loc).push).map Port.key = some t.th.key) :
    actYpush l w t =
      if w.getLsbD 0 = true then
        .done ((t.ringBound (w &&& 0xFFFFFFFFFFC0) loc).opened .y l { doneAt := t.landing 6 })
      else .done (startRingOp t l loc none) := by
  have hlegal : ¬(fld w 63 48 ≠ 0 ∨ fld w 5 1 ≠ 0 ∨ fld (t.th.get .yo) 63 3 ≠ 0) := by simp [h63, h5, ho]
  have hbound : ¬((ringAt t loc).push.getLsbD 63
      && (pushPort t t.th.ctx (ringAt t loc).push).map Port.key != some t.th.key) = true := by
    rw [Bool.and_eq_true]
    rintro ⟨hbit, hother⟩
    obtain h | h := hmine
    · exact absurd (h.symm.trans hbit) Bool.false_ne_true
    · exact bne_iff_ne.mp hother h
  unfold actYpush
  dsimp only
  rw [if_neg hlegal, if_neg hq, withRing_at hring, if_neg hbound]
  split
  case isTrue =>
    let z := ringPut t loc { ringAt t loc with push := pushWord t (BitVec.setWidth 3 (t.th.get .yo)).toNat }
    obtain ⟨hth, hcyc, hdraws, -, hbinds⟩ : KeepsEngines t z := ringPut_keepsEngines ..
    have hland : z.landing 6 = t.landing 6 := by rw [State.landing, hcyc, hdraws, State.landing]
    have hctx : z.th.ctx = t.th.ctx := congrArg Thread.ctx hth
    have hkey : z.th.key = t.th.key := congrArg Thread.key hth
    rw [State.ringBound, ← hland, ← hctx, ← hkey, ← hbinds]
    rfl
  case isFalse => rfl

/-! ### O24 -/

/-- Settles O24: each ring trigger by its act at the ring that it reaches. -/
theorem ringTriggers : Obligations.RingTriggers := by
  refine ⟨?yring, ?yawait, ?yrel, ?ypush⟩
  case yring =>
    intro g l src s w d loc hfire h63 h5 t u r b hring
    refine ⟨fun hmode hok => ?_, fun hmode hdrain => ?_⟩
    · have hexec : exec (.yring g l src) s = .next ((startRingOp u l loc (some b)).taken d) :=
        exec_trigInstr_done (t := .yring) hfire (actYring_inits h63 h5 hmode hok hring)
      refine ⟨fun hquiet hearlier => ?_, fun hwaits => ?_⟩
      · have hearlier' : u.earlierDone t.th.key t.cyc 2 = true := by rwa [State.passed_key, State.passed_cyc]
        obtain ⟨⟨hg, hport, hopen, hknown, hleft, hdone⟩, hmem, hbinds⟩ :=
          startRingOp_inits (l := l) (b := b) hquiet hearlier'
        exact ⟨_, hexec, hmem, hbinds, hg, hport, hopen, hknown, hleft, hdone⟩
      · rwa [startRingOp_eq, if_neg (Bool.eq_false_iff.mp hwaits)] at hexec
    · exact exec_trigInstr_done (t := .yring) hfire (actYring_arms h63 h5 hmode hdrain hring)
  case yawait =>
    intro g src s w d loc hfire h5 h63 t r hring
    have hexec : exec (.yawait g src) s = _ := trigger_fires (look := 0) (act := actYawait) hfire
    rw [actYawait_at h5 h63 hring] at hexec
    refine ⟨fun hne => ?_, fun heq herr => ?_, fun heq herr => ?_⟩
    · rw [hexec, if_pos hne, conclude_done]
      rfl
    · rw [hexec, if_neg (not_not.mpr heq), if_pos herr, conclude_queueError, State.seen_pc]
    · rw [hexec, if_neg (not_not.mpr heq), if_neg (Bool.eq_false_iff.mp herr)]
      rfl
  case yrel =>
    intro g l src s w d loc hfire h5 h63 t r hring hrel
    have hact := actYrel_at (l := l) h5 h63 hring hrel
    refine ⟨fun hne => ?_, fun heq => ?_⟩
    · rw [if_neg hne] at hact
      exact exec_trigInstr_done (t := .yrel) hfire hact
    · rw [if_pos heq, State.passed_at] at hact
      exact exec_trigInstr_done (t := .yrel) hfire hact
  case ypush =>
    intro g l src s w d loc hfire h63 h5 ho t q va r hq hring hmine
    have hact := actYpush_at (l := l) h63 h5 ho hq hring (by rwa [State.passed_key])
    refine ⟨fun hbit => ?binds, fun hbit hpush => ?waits, fun hbit hpush => ?unbinds⟩
    case binds =>
      rw [if_pos hbit] at hact
      rw [← State.passed_key s]
      exact exec_trigInstr_done (t := .ypush) hfire hact
    all_goals
      rw [if_neg (Bool.eq_false_iff.mp hbit), startRingOp_eq, ringOpReady_unbind] at hact
    case waits =>
      have hany : (!t.pushes.any (fun p => p.ring == loc.cell)) ≠ true := by simpa using hpush
      rw [if_neg hany] at hact
      exact exec_trigInstr_done (t := .ypush) hfire hact
    case unbinds =>
      have hnone : (!t.pushes.any (fun p => p.ring == loc.cell)) = true := by simpa using hpush
      rw [if_pos hnone, ringOpNow_unbind rfl] at hact
      obtain ⟨hdone, hmem, hbinds⟩ := ringOpClosed_done t l loc none loc.aes (loc.cell + 48) (leBytes 8 0)
      exact ⟨_, exec_trigInstr_done (t := .ypush) hfire hact, hmem, hbinds, hdone.isOpen, hdone.known⟩

end Sys2Proof.Machine
end

section
/-! O25, first part: the triggers that start and end streams. -/

namespace Sys2Proof.Machine

/-! ### The running stream of a core -/

section
variable {s : State} {c : CoreKey} {n : Nat}

theorem State.mapStream_id : s.mapStream c n (fun y => y) = s := by
  rw [State.mapStream]
  simp only [ite_self, List.map_id']

/-- An update that leaves a stream where it runs is what a search for it finds. -/
theorem State.stream?_mapStream {f : Stream → Stream}
    (hf : ∀ y, (f y).core = y.core ∧ (f y).strm = y.strm ∧ (f y).running = y.running) :
    (s.mapStream c n f).stream? c n = (s.stream? c n).map f := by
  have hsame : (fun y : Stream => decide (y.core = c ∧ y.strm = n ∧ y.running = true))
      ∘ (fun y => if y.core = c ∧ y.strm = n ∧ y.running = true then f y else y)
      = fun y => decide (y.core = c ∧ y.strm = n ∧ y.running = true) := by
    funext y
    obtain ⟨hcore, hstrm, hrunning⟩ := hf y
    rw [Function.comp_apply]
    split
    · rw [hcore, hstrm, hrunning]
    · rfl
  rw [State.stream?, State.stream?, State.mapStream, List.find?_map, hsame]
  cases hfound : s.streams.find? (fun y => decide (y.core = c ∧ y.strm = n ∧ y.running = true)) with
  | none => rfl
  | some y => exact congrArg some (if_pos (of_decide_eq_true (List.find?_some hfound :)))

/-- A stream with a fetch on its way does not end yet (R266). -/
theorem endStream_waits {y : Stream} (h : s.stream? c n = some y) (hfetches : y.fetches ≠ []) : endStream s c n = s := by
  rw [endStream, h]
  exact if_pos (.inr (by simpa using hfetches))

end

/-! ### xstop and xwait (R266) -/

theorem trigAct_of_end {op : Trig} (hop : op ∈ [Trig.xstop, .xwait]) (l : BitVec 4) :
    trigAct op l = endAct (decide (op = .xstop)) l := by
  have hrows : [Trig.xstop, .xwait].map (fun op => trigAct op l)
      = [Trig.xstop, .xwait].map (fun op => endAct (decide (op = .xstop)) l) := rfl
  exact List.map_inj_left.mp hrows op hop

/-- The state in which the thread in focus awaits the stream of a number, its X window open. -/
def State.streamAwaited (u : State) (l : BitVec 4) (w : Word) : State :=
  State.opened { u with xwaits := u.xwaits ++ [(u.th.key, w.toNat)] } .x l { known := false, doneAt := u.cyc + 4, hasRes := true }

theorem State.streamAwaited_stream? (u : State) (l : BitVec 4) (w : Word) (c : CoreKey) (n : Nat) :
    (u.streamAwaited l w).stream? c n = u.stream? c n := rfl

section
variable {w : Word} {u : State} {l : BitVec 4} (hw : w.toNat < 4)
include hw

theorem endAct_none (stop : Bool) (h : u.stream? u.th.key.coreKey w.toNat = none) :
    endAct stop l w u = .done (u.opened .x l { doneAt := u.cyc + 4, hasRes := true }) := by
  rw [endAct, if_neg (not_not.mpr ((fld_above (by decide)).mpr hw)), h]
  rfl

/-- The thread waits for its core's stream; a stop ends the stream once its fetches are enqueued. -/
theorem endAct_some {x : Stream} (stop : Bool) (h : u.stream? u.th.key.coreKey w.toNat = some x) :
    let v := (u.streamAwaited l w).mapStream u.th.key.coreKey w.toNat
      (fun y => if stop then { y with ending := true } else y)
    endAct stop l w u = .done (if stop ∧ x.fetches = [] then endStream v u.th.key.coreKey w.toNat else v) := by
  intro v
  have hact : endAct stop l w u = .done (if stop then endStream v u.th.key.coreKey w.toNat else v) := by
    rw [endAct, if_neg (not_not.mpr ((fld_above (by decide)).mpr hw)), h]
    cases stop
    · exact congrArg Act.done State.mapStream_id.symm
    · rfl
  rw [hact]
  cases stop with
  | false => rfl
  | true =>
    by_cases hfetches : x.fetches = []
    · rw [if_pos rfl, if_pos ⟨rfl, hfetches⟩]
    · have hv : v.stream? u.th.key.coreKey w.toNat = some { x with ending := true } :=
        (State.stream?_mapStream (s := u.streamAwaited l w) (f := fun y => { y with ending := true })
          (fun _ => ⟨rfl, rfl, rfl⟩)).trans (by rw [State.streamAwaited_stream?, h]; rfl)
      rw [if_pos rfl, if_neg (fun h => hfetches h.2), endStream_waits hv hfetches]

end

/-- The half of O25 about the triggers holds. -/
theorem streamTriggers : Rules.StreamTriggers := by
  refine ⟨?xgo, ?ends⟩
  case xgo =>
    intro g l src s t d hfire u h63 h19 h14 h7 hports hin hout hacq busy x
    have hkey : s.th.key = u.th.key := (State.passed_key s).symm
    have hlegal : ¬(fld t 63 24 ≠ 0 ∨ t.getLsbD 19 = true ∨ fld t 14 13 ≠ 0 ∨ fld t 7 4 ≠ 0) := by
      rw [h63, h19, h14, h7]
      decide
    have hact : actXgo l t u = .done (State.opened { u with streams := u.streams ++ [x] } .x l
        { known := !busy, doneAt := u.cyc + 4 }) := by
      unfold actXgo
      dsimp only
      rw [if_neg hlegal, if_neg (by simp [hin, hports]), if_neg (by simp [hout]), if_neg (by simp [hacq])]
      simp only [x, busy, hkey]
      rfl
    exact exec_trigInstr_done (t := .xgo) hfire hact
  case ends =>
    intro op hop g l src s t d hfire ht u
    have hkey : s.th.key = u.th.key := (State.passed_key s).symm
    rw [hkey]
    have hrow := congrFun₂ (trigAct_of_end hop l) t u
    refine ⟨fun hnone => exec_trigInstr_done hfire (hrow.trans (endAct_none ht _ hnone)), ?_⟩
    intro x hx v
    have hact := hrow.trans (endAct_some (l := l) ht _ hx)
    simp only [decide_eq_true_eq] at hact
    refine ⟨fun hgoes => ?_, fun hstop hfetches => ?_⟩
    · have hnot : ¬(op = .xstop ∧ x.fetches = []) := by
        rintro ⟨rfl, hnil⟩
        exact hgoes.elim (by decide) (· hnil)
      rw [if_neg hnot] at hact
      exact exec_trigInstr_done hfire hact
    · rw [if_pos ⟨hstop, hfetches⟩] at hact
      exact exec_trigInstr_done hfire hact

end Sys2Proof.Machine
end

section
/-! O25, second part: a stream of a freed slot whose producer port belongs to the second of two channels with one number. -/

namespace Sys2Proof.Machine

/-! ### A fetch enqueued at the other channel of its number -/

/-- A stream of slot 0 of tile 0, whose thread has been saved: a demand fetch from the tile's scratchpad heads it, a fetch on
its way is behind. -/
def twinStream : Stream :=
  { core := ⟨0, 0⟩, strm := 0, owner := ⟨0, 0, 0⟩, ctx := 1, cfg := BitVec.ofNat 64 (2 * 2 ^ 16 + 3 * 2 ^ 20), base := 0, limit := 0
    fetches := [{ va := some 0x7F4000000000, demand := true }, {}] }

/-- The channel that the stream's producer port names in its slot's absence (R361). -/
def twinChannel : Chan := { id := 5, allowance := 4, prod := some ⟨⟨0, 0, 0⟩, 3⟩ }

/-- No thread is bound; the first channel of number 5 holds an element, the second is the stream's. -/
def twinChannels : State :=
  { State.reset with
    booted := true, ctxs := [{ num := 1, root := 2 ^ 50 }], streams := [twinStream], ev := { key := ⟨0, 0, 0⟩, n := 0 }
    chans := [{ id := 5, allowance := 4, elems := [{ word := 7 }] }, twinChannel] }

theorem twinChannels_portChan : portChan twinChannels twinStream.qout true = some twinChannel := by decide

theorem twinChannels_fetchBytes :
    fetchBytes twinChannels twinStream 0x7F4000000000 = .ok [0, 0, 0, 0] := by decide

/-- How many elements channel `id` holds after an operation. -/
def Out.channelLength (id : Nat) : Out → Option Nat
  | .next z => (z.chan? id).map (fun c => c.elems.length)
  | _ => none

theorem twinChannels_length : Out.channelLength 5 (exec .referenceDemandFetch twinChannels) = some 2 := by decide

/-- Refutes O25: the value of `twinStream` is enqueued at its channel, but the channel of that number found first holds another
element too. -/
theorem not_streams : ¬ Obligations.Streams := by
  intro h
  obtain ⟨-, -, -, hdemand⟩ := h
  obtain ⟨-, hvalue⟩ := hdemand twinChannels twinStream _ [{}] 0x7F4000000000 rfl rfl rfl rfl rfl (by decide) rfl (by decide)
  obtain ⟨z, y, c, hz, -, -, hchan, helems⟩ :=
    hvalue _ {} [] twinChannel twinChannels_fetchBytes rfl rfl twinChannels_portChan
  have hlength := twinChannels_length
  rw [hz] at hlength
  have htwo : (z.chan? twinChannel.id).map (fun c => c.elems.length) = some 2 := hlength
  rw [hchan] at htwo
  have hone : c.elems.length = 1 := by
    have h := congrArg List.length helems
    rwa [List.length_map] at h
  exact absurd (hone.symm.trans (Option.some.inj htwo)) (by decide)

end Sys2Proof.Machine
end
